-- ==== Sys2Proof/Word.lean ====
section
/-! DEFINITION. The word types and the sparse map every memory, register file and table of the model is held in. -/
namespace Sys2Proof

/-- A byte of memory. -/
abbrev Byte := BitVec 8

/-- A 64-bit register value. -/
abbrev Word := BitVec 64

/-- A sparse map from natural numbers: strictly rising keys, and no entry equal to the default value, which is what
an unlisted key reads as. Equal maps are equal data. -/
abbrev Map (α : Type) := List (Nat × α)

/-- The value at key `k`; `d` where none is listed. -/
def Map.get {α : Type} (d : α) : Map α → Nat → α
  | [], _ => d
  | (j, v) :: m, k => if k = j then v else Map.get d m k

/-- The map with nothing listed at `k`. -/
def Map.erase {α : Type} : Map α → Nat → Map α
  | [], _ => []
  | (j, v) :: m, k => if k = j then Map.erase m k else (j, v) :: Map.erase m k

/-- The map with `v` listed at `k`. -/
def Map.insert {α : Type} : Map α → Nat → α → Map α
  | [], k, v => [(k, v)]
  | (j, u) :: m, k, v =>
    if k = j then (k, v) :: m else if k < j then (k, v) :: (j, u) :: m else (j, u) :: Map.insert m k v

/-- The map that reads `v` at `k` and as before everywhere else, in canonical form. -/
def Map.set {α : Type} [DecidableEq α] (d : α) (m : Map α) (k : Nat) (v : α) : Map α :=
  if v = d then Map.erase m k else Map.insert m k v

/-- Every key of the map is above `lo`, and the keys rise strictly. -/
def Map.risesFrom {α : Type} : Nat → Map α → Bool
  | _, [] => true
  | lo, (j, _) :: m => decide (lo ≤ j) && Map.risesFrom (j + 1) m

/-- The canonical form: keys strictly rising, no entry equal to the default. -/
def Map.wf {α : Type} [DecidableEq α] (d : α) (m : Map α) : Bool :=
  Map.risesFrom 0 m && m.all (fun e => decide (e.2 ≠ d))

end Sys2Proof
end

