-- ==== Sys2Proof/Syntax.lean ====
section
/-! DEFINITION. The commands of the block: one constructor for each row of the opcode table.
A tile instruction carries the logical tile that issues it and bits [51:0] of its word (R84): PNEG, PRED and the
format fields of R86; CLASS and OP are the constructor's. An event carries what its happening brings from outside
(a packet, a measured value, the number of the unit it happens to). A host command carries the ring and the 64-byte
descriptor (R399) it is started from. -/
namespace Sys2Proof

/-- One command of the block (spec/opcode_table.json, one row each). -/
inductive Instr where
  /-- ADD (R89): Writes RA plus RB modulo 2^64 into RD. -/
  | add (t : Nat) (w : BitVec 52)
  /-- SUB (R89): Writes RA minus RB modulo 2^64 into RD. -/
  | sub (t : Nat) (w : BitVec 52)
  /-- MUL (R89): Writes the low 64 bits of the signed product of RA and RB into RD. -/
  | mul (t : Nat) (w : BitVec 52)
  /-- MULH (R89): Writes the high 64 bits of the signed product of RA and RB into RD. -/
  | mulh (t : Nat) (w : BitVec 52)
  /-- AND (R89): Writes the bitwise AND of RA and RB into RD. -/
  | and (t : Nat) (w : BitVec 52)
  /-- OR (R89): Writes the bitwise OR of RA and RB into RD. -/
  | or (t : Nat) (w : BitVec 52)
  /-- XOR (R89): Writes the bitwise XOR of RA and RB into RD. -/
  | xor (t : Nat) (w : BitVec 52)
  /-- SHL (R89): Shifts RA left by RB[5:0] and writes the result into RD. -/
  | shl (t : Nat) (w : BitVec 52)
  /-- SHR (R89): Shifts RA right logically by RB[5:0] and writes the result into RD. -/
  | shr (t : Nat) (w : BitVec 52)
  /-- SRA (R89): Shifts RA right arithmetically by RB[5:0] and writes the result into RD. -/
  | sra (t : Nat) (w : BitVec 52)
  /-- CMP (R89): Sets every bit of a predicate register to the comparison that IMM12 selects on RA and RB. -/
  | cmp (t : Nat) (w : BitVec 52)
  /-- ADDI (R89): Writes RA plus the sign-extended IMM32 into RD. -/
  | addi (t : Nat) (w : BitVec 52)
  /-- MOVI (R89): Writes the sign-extended IMM32 into RD. -/
  | movi (t : Nat) (w : BitVec 52)
  /-- MOVHI (R89): Writes IMM32 shifted left by 32, combined with the low half of RA, into RD. -/
  | movhi (t : Nat) (w : BitVec 52)
  /-- BR (R89): Moves the PC by eight times DISP. -/
  | br (t : Nat) (w : BitVec 52)
  /-- BRI (R89): Sets the PC to RA plus eight times DISP. -/
  | bri (t : Nat) (w : BitVec 52)
  /-- CALL (R89): Saves the return address in s31 and moves the PC by eight times DISP. -/
  | call (t : Nat) (w : BitVec 52)
  /-- RET (R89): Sets the PC from s31. -/
  | ret (t : Nat) (w : BitVec 52)
  /-- LD (R91): Makes a scalar plain load of 1 to 8 bytes from a device address, zero-extended. -/
  | ld (t : Nat) (w : BitVec 52)
  /-- ST (R92): Makes a scalar plain store into the tile's own scratchpad or its own control block. -/
  | st (t : Nat) (w : BitVec 52)
  /-- VLD (R91): Makes a vector load of plain, consuming or peeking kind into a vector register. -/
  | vld (t : Nat) (w : BitVec 52)
  /-- VST (R91): Makes a vector plain or tagged store into the tile's own scratchpad. -/
  | vst (t : Nat) (w : BitVec 52)
  /-- DMAST (R98): Copies a DMA descriptor into a DMA queue, either for an immediate start or for a scheduled start. -/
  | dmast (t : Nat) (w : BitVec 52)
  /-- DMAWT (R100): Stops issue until a DMA queue is empty, then reports the first non-success status of that queue. -/
  | dmawt (t : Nat) (w : BitVec 52)
  /-- DMACAN (R100): Removes the operations of a DMA queue that have not yet started. -/
  | dmacan (t : Nat) (w : BitVec 52)
  /-- XSTART (R213): Ends the compute phase and accepts or refuses the compiled exchange program at a start count. -/
  | xstart (t : Nat) (w : BitVec 52)
  /-- XWAIT (R216): Stops issue until the exchange phase ends, then writes the phase status. -/
  | xwait (t : Nat) (w : BitVec 52)
  /-- XSEND (R231): Sends a dynamic message, or a dynamic multicast, into queue windows under credit. -/
  | xsend (t : Nat) (w : BitVec 52)
  /-- WOPEN (R57): Opens a window in addressed mode or queue mode and returns its generation. -/
  | wopen (t : Nat) (w : BitVec 52)
  /-- WCLOSE (R69): Advances a window's generation and sets the window to closing. -/
  | wclose (t : Nat) (w : BitVec 52)
  /-- WGRANT (R65): Grants queue-window credit to a sender and sends a grant message. -/
  | wgrant (t : Nat) (w : BitVec 52)
  /-- SIG (R93): Signals a semaphore with a count, after the named DMA queues where AFTER is set. -/
  | sig (t : Nat) (w : BitVec 52)
  /-- SWAIT (R93): Takes one from a semaphore count, or queues at the semaphore's home as a waiter. -/
  | swait (t : Nat) (w : BitVec 52)
  /-- SDEC (R93): Decrements a semaphore count without waiting. -/
  | sdec (t : Nat) (w : BitVec 52)
  /-- FLARE (R93): Releases every waiter queued on a semaphore. -/
  | flare (t : Nat) (w : BitVec 52)
  /-- SREAD (R89): Reads a semaphore's count and its number of waiters. -/
  | sread (t : Nat) (w : BitVec 52)
  /-- FENCE (R96): Stops issue until the named engine groups have drained, or until earlier signals have been applied. -/
  | fence (t : Nat) (w : BitVec 52)
  /-- TXOPEN (R97): Opens a free tile-scope transaction handle. -/
  | txopen (t : Nat) (w : BitVec 52)
  /-- TXREL (R97): Asks for the release of a tile-scope transaction once all of its copies have been acknowledged. -/
  | txrel (t : Nat) (w : BitVec 52)
  /-- TXCAN (R548): Cancels a tile-scope transaction and drops its dark copies. -/
  | txcan (t : Nat) (w : BitVec 52)
  /-- VETO (R97): Asks Lighthouse to cast an abort vote for the current step, with a reason code. -/
  | veto (t : Nat) (w : BitVec 52)
  /-- GENRD (R97): Reads the lit generation, the shadow generation or the layout epoch from Lighthouse. -/
  | genrd (t : Nat) (w : BitVec 52)
  /-- NOP (R89): Tile instruction that has no effect. -/
  | nop (t : Nat) (w : BitVec 52)
  /-- WAIT (R106): Stops issue at the wait level until an enabled event is pending. -/
  | wait (t : Nat) (w : BitVec 52)
  /-- BCNRD (R89): Reads the 64-bit Beacon count into RD. -/
  | bcnrd (t : Nat) (w : BitVec 52)
  /-- HALT (R104): Stops issue of the tile's instruction stream. -/
  | halt (t : Nat) (w : BitVec 52)
  /-- ILLEGAL_OP (R88): An instruction word whose class or operation is not listed stops the stream. -/
  | illegalOp (t : Nat) (word : BitVec 64)
  /-- INSTRUCTION_FETCH (R78): The scalar core fetches a 128-byte instruction line on port 3 once its buffer has room for 16 instructions. -/
  | instructionFetch (t : Nat)
  /-- WAIT_WAKE (R107): An enabled event ends a WAIT after the wake latency and reports the pending bits. -/
  | waitWake (t : Nat)
  /-- HALT_REPORT (R104): Once every engine queue is empty after a HALT, the end of the stream is reported to Lighthouse. -/
  | haltReport (t : Nat)
  /-- FENCE_COMPLETE (R96): The drain that a FENCE waits for ends, and issue resumes. -/
  | fenceComplete (t : Nat)
  /-- MMA (R111): Multiplies two operand streams into an accumulator, with the pair mode, mask, MX and exact-sum options. -/
  | mma (t : Nat) (w : BitVec 52)
  /-- AZERO (R121): Clears an accumulator and its term count. -/
  | azero (t : Nat) (w : BitVec 52)
  /-- ALD (R122): Loads a whole accumulator from the scratchpad. -/
  | ald (t : Nat) (w : BitVec 52)
  /-- AST (R122): Stores a whole accumulator to the scratchpad, with rounding, mask and optional tag set. -/
  | ast (t : Nat) (w : BitVec 52)
  /-- MRUN (R128): Posts a work list to the matrix engine's ready queue. -/
  | mrun (t : Nat) (w : BitVec 52)
  /-- MRUN_POST (R128): A waiting MRUN posts its list once the ready queue has room. -/
  | mrunPost (t : Nat)
  /-- WORK_LIST_READY (R130): A posted list becomes ready when its ready slot's tag is seen full. -/
  | workListReady (t : Nat)
  /-- LIST_START (R131): The picker starts a ready work list under its policy and the FWD_AHEAD limit. -/
  | listStart (t : Nat)
  /-- LIST_END (R132): A work list's last item ends, and AHEAD and the MRUN's completion are updated. -/
  | listEnd (t : Nat)
  /-- LIST_TIMEOUT (R130): The tile timeout of a waiting list expires, and the list leaves the ready queue with TAG_TIMEOUT. -/
  | listTimeout (t : Nat) (i : Nat)
  /-- VADD (R174): Element-wise addition of vector registers. -/
  | vadd (t : Nat) (w : BitVec 52)
  /-- VSUB (R174): Element-wise subtraction of vector registers. -/
  | vsub (t : Nat) (w : BitVec 52)
  /-- VMUL (R174): Element-wise multiplication of vector registers. -/
  | vmul (t : Nat) (w : BitVec 52)
  /-- VFMA (R174): Element-wise fused multiply-add with one rounding. -/
  | vfma (t : Nat) (w : BitVec 52)
  /-- VLERP (R174): Element-wise linear interpolation, computed exactly and rounded once. -/
  | vlerp (t : Nat) (w : BitVec 52)
  /-- VMIN (R174): Element-wise IEEE minimum. -/
  | vmin (t : Nat) (w : BitVec 52)
  /-- VMAX (R174): Element-wise IEEE maximum. -/
  | vmax (t : Nat) (w : BitVec 52)
  /-- VABS (R174): Element-wise absolute value. -/
  | vabs (t : Nat) (w : BitVec 52)
  /-- VMOV (R174): Vector move. -/
  | vmov (t : Nat) (w : BitVec 52)
  /-- VAND (R174): Element-wise bitwise AND. -/
  | vand (t : Nat) (w : BitVec 52)
  /-- VOR (R174): Element-wise bitwise OR. -/
  | vor (t : Nat) (w : BitVec 52)
  /-- VXOR (R174): Element-wise bitwise XOR. -/
  | vxor (t : Nat) (w : BitVec 52)
  /-- VCMP (R174): Element-wise comparison into a predicate register. -/
  | vcmp (t : Nat) (w : BitVec 52)
  /-- VTRN (R174): Transposes a vector register. -/
  | vtrn (t : Nat) (w : BitVec 52)
  /-- VCVT (R178): Converts the elements of a vector register between formats, with a part number. -/
  | vcvt (t : Nat) (w : BitVec 52)
  /-- VDIV (R179): Element-wise correctly rounded division. -/
  | vdiv (t : Nat) (w : BitVec 52)
  /-- VSQRT (R179): Element-wise correctly rounded square root. -/
  | vsqrt (t : Nat) (w : BitVec 52)
  /-- VRSQRT (R179): Element-wise reciprocal square root of an exact sum. -/
  | vrsqrt (t : Nat) (w : BitVec 52)
  /-- VRCP (R179): Element-wise reciprocal. -/
  | vrcp (t : Nat) (w : BitVec 52)
  /-- VEXP (R179): Element-wise natural exponential. -/
  | vexp (t : Nat) (w : BitVec 52)
  /-- VEXP2 (R179): Element-wise power of two. -/
  | vexp2 (t : Nat) (w : BitVec 52)
  /-- VLOG (R179): Element-wise natural logarithm. -/
  | vlog (t : Nat) (w : BitVec 52)
  /-- VLOG2 (R179): Element-wise base-2 logarithm. -/
  | vlog2 (t : Nat) (w : BitVec 52)
  /-- VTANH (R179): Element-wise hyperbolic tangent. -/
  | vtanh (t : Nat) (w : BitVec 52)
  /-- VLGST (R179): Element-wise logistic function. -/
  | vlgst (t : Nat) (w : BitVec 52)
  /-- VERF (R179): Element-wise error function. -/
  | verf (t : Nat) (w : BitVec 52)
  /-- VSIN (R179): Element-wise sine with exact argument reduction. -/
  | vsin (t : Nat) (w : BitVec 52)
  /-- VCOS (R179): Element-wise cosine with exact argument reduction. -/
  | vcos (t : Nat) (w : BitVec 52)
  /-- VRED (R181): Reduces a vector register along one axis by sum, maximum, minimum or sum of squares. -/
  | vred (t : Nat) (w : BitVec 52)
  /-- VSCAN (R182): Forms running sums along one axis, with segments and carry. -/
  | vscan (t : Nat) (w : BitVec 52)
  /-- VCENS (R183): Counts the elements of a register into a census record. -/
  | vcens (t : Nat) (w : BitVec 52)
  /-- VSCALE (R184): Converts an FP32 or BF16 matrix into MX operand copies, with an optional census. -/
  | vscale (t : Nat) (w : BitVec 52)
  /-- VLADD (R187): Adds two arrays of long-format values. -/
  | vladd (t : Nat) (w : BitVec 52)
  /-- GRAW (R200): Writes raw Glint words into a vector register. -/
  | graw (t : Nat) (w : BitVec 52)
  /-- GUNI (R201): Writes uniform values in [0, 1) drawn from Glint. -/
  | guni (t : Nat) (w : BitVec 52)
  /-- GUNO (R201): Writes uniform values in (0, 1) drawn from Glint. -/
  | guno (t : Nat) (w : BitVec 52)
  /-- GNORM (R201): Writes normal values drawn from Glint. -/
  | gnorm (t : Nat) (w : BitVec 52)
  /-- GBERN (R201): Writes Bernoulli draws into a predicate register. -/
  | gbern (t : Nat) (w : BitVec 52)
  /-- GGUMB (R201): Adds Gumbel noise to scores. -/
  | ggumb (t : Nat) (w : BitVec 52)
  /-- SLOC (R204): Reduces a tile's segment of scores to a candidate frame. -/
  | sloc (t : Nat) (w : BitVec 52)
  /-- SMRG (R205): Merges candidate frames into one frame. -/
  | smrg (t : Nat) (w : BitVec 52)
  /-- SPICK (R206): Chooses a token from a merged frame and writes the result record. -/
  | spick (t : Nat) (w : BitVec 52)
  /-- TAGGED_ACCESS_RECHECK (R51): A parked tagged access is checked again after a tag of its slots changes, and is served if it passes. -/
  | taggedAccessRecheck (t : Nat) (i : Nat)
  /-- TAG_TIMEOUT (R53): The tile timeout of a parked tagged access expires, and the access leaves the wait table. -/
  | tagTimeout (t : Nat) (i : Nat)
  /-- REMOTE_WRITE_CHECK (R60): A remote write at the head of port 0 is checked against its window, then lands or is refused. -/
  | remoteWriteCheck (t : Nat)
  /-- REMOTE_READ (R43): A remote read request from another tile or module is served on port 0. -/
  | remoteRead (t : Nat)
  /-- QUEUE_TAIL_ADVANCE (R62): A queue window's tail passes an empty, not dark, landed slot and returns one credit to POOL. -/
  | queueTailAdvance (t : Nat) (win : Nat)
  /-- WCLOSE_COMPLETE (R69): A closing window becomes closed once the write that was landing in it has set its tags. -/
  | wcloseComplete (t : Nat) (win : Nat)
  /-- GRANT_MESSAGE (R66): A grant message reaches the sender and updates or fills its credit table, or is returned. -/
  | grantMessage (t : Nat)
  /-- GRANT_RETURN (R66): A returned grant reaches the receiver, which restores POOL and completes the WGRANT with CREDIT_TABLE_FULL. -/
  | grantReturn (t : Nat)
  /-- WIN_CLOSED_REFUSAL (R67): A WIN_CLOSED refusal reaches the sender, which clears its credit entry. -/
  | winClosedRefusal (t : Nat)
  /-- CREDIT_TIMEOUT (R64): The tile timeout of a send that lacks credit expires, and the send ends with CREDIT_TIMEOUT. -/
  | creditTimeout (t : Nat)
  /-- REPLY_ARRIVAL (R37): A reply reaches its issuing domain, which applies it or drops it as stale. -/
  | replyArrival (t : Nat)
  /-- SEM_OP_AT_HOME (R94): The semaphore operations that reach a home in one cycle are applied in the fixed group order. -/
  | semOpAtHome (t : Nat)
  /-- SEM_RELEASE_DELIVERY (R267): A semaphore release reaches the waiter's router, and is delivered or returned to the home. -/
  | semReleaseDelivery (t : Nat)
  /-- RETURNED_RELEASE (R267): The home applies a returned release as a SIG of count 1. -/
  | returnedRelease (t : Nat)
  /-- SEM_TIMEOUT (R93): A queued waiter's timeout expires at the home, and the waiter leaves the queue. -/
  | semTimeout (t : Nat) (entry : Nat) (i : Nat)
  /-- SIG_BUFFER_RELEASE (R95): A held SIG leaves the signal buffer once its named DMA operations have ended, or is withheld. -/
  | sigBufferRelease (t : Nat)
  /-- DMA_OP_START (R100): The DMA engine takes an operation from its queue, at or after its scheduled count. -/
  | dmaOpStart (t : Nat) (que : Nat)
  /-- DMA_OP_END (R95): A DMA operation is acknowledged at its destination or ends with a status, and sends its SYNCM signal. -/
  | dmaOpEnd (t : Nat) (que : Nat)
  /-- TXN_RELEASE_ARRIVAL (R232): A tile-scope release reaches a target, which clears the dark bits and sets the tags. -/
  | txnReleaseArrival (t : Nat)
  /-- TXN_TIMEOUT (R548): A transaction handle's multicast timeout expires and cancels the transaction. -/
  | txnTimeout (t : Nat) (h : Nat)
  /-- DARK_COPY_DROP (R233): A drop reaches a target, which clears the dark bits and frees the held queue window. -/
  | darkCopyDrop (t : Nat)
  /-- PHASE_START (R213): An accepted exchange phase starts at the Beacon edge of its start count, or late. -/
  | phaseStart (t : Nat)
  /-- SEND_RECORD_ISSUE (R221): The exchange engine reaches a send record's ISSUE, checks the record and starts reading its source. -/
  | sendRecordIssue (t : Nat)
  /-- EXCH_ACK_ARRIVAL (R225): An acknowledgement or refusal of a compiled or multicast write reaches the sender. -/
  | exchAckArrival (t : Nat)
  /-- PHASE_END (R215): An exchange phase ends once sends are answered, receives reach NRECV and no handle is open. -/
  | phaseEnd (t : Nat)
  /-- PHASE_GRACE_EXPIRY (R216): A phase still running at END plus the grace ends with EXCH_INCOMPLETE and closes its windows. -/
  | phaseGraceExpiry (t : Nat)
  /-- MCAST_BRANCH_RESUME (R231): A grant brings a stalled multicast branch enough credit, and the branch leaves. -/
  | mcastBranchResume (t : Nat) (id : Nat)
  /-- MCAST_TIMEOUT (R231): A dynamic multicast's timeout expires, and the multicast is cancelled. -/
  | mcastTimeout (t : Nat) (id : Nat)
  /-- MAP_CHANGE (R236): A row map change takes effect on every router and engine in one cycle. -/
  | mapChange
  /-- TILE_SUBSTITUTE (R235): At a superstep boundary a spare takes the place of a tile, and the tile's state moves. -/
  | tileSubstitute (row : Nat) (col : Nat)
  /-- ROUTER_FAILURE (R239): A router fails, its tile is eclipsed and its attachments go out of service. -/
  | routerFailure (row : Nat) (col : Nat)
  /-- ROUTER_BYPASS_SWITCH (R239): 64 c after a router failure its neighbours switch onto the bypass lanes. -/
  | routerBypassSwitch (row : Nat) (col : Nat)
  /-- TILE_CORE_RESET (R71): A tile core reset clears tags, empties the wait table, closes the windows and advances the core epoch. -/
  | tileCoreReset (t : Nat)
  /-- TILE_CORE_READY (R39): A tile core reports ready 512 c after its reset began, and requests are forwarded again. -/
  | tileCoreReady (t : Nat)
  /-- ROUTER_RESET (R263): A router reset clears its semaphore entries and answers the waiters with DOMAIN_RESET. -/
  | routerReset (row : Nat) (col : Nat)
  /-- ROUTER_READY (R39): A router reports ready 256 c after its reset began. -/
  | routerReady (row : Nat) (col : Nat)
  /-- BEACON_EDGE (R248): The count advances at a Beacon edge, which is delivered to every tile, gateway and port. -/
  | beaconEdge
  /-- SYNC_FRAME (R252): A sync frame carrying the full count and term is received and checked against the module's own count. -/
  | syncFrame (src : Nat) (count : BitVec 64) (term : BitVec 16) (hold : Bool)
  /-- TICK_PERIOD_CHANGE (R249): A scheduled tick period change takes effect from the edge of its count. -/
  | tickPeriodChange
  /-- HOLDOVER_ENTRY (R256): Three missed edges, or marked edges, put the module into holdover. -/
  | holdoverEntry
  /-- HOLDOVER_SOURCE_SEARCH (R256): The 2 µs search for an unmarked source ends, with a new source or with entry into electing. -/
  | holdoverSourceSearch (found : Option Nat)
  /-- ELECTION_ADVERTISEMENT (R254): An election advertisement is received, and the best key of the term is kept. -/
  | electionAdvertisement (term : BitVec 16) (prio : BitVec 8) (module : BitVec 14) (floor : BitVec 64)
  /-- ELECTION_CLOSE (R254): 2 ms after entry into electing the module adopts the best key, and the winner becomes master. -/
  | electionClose
  /-- HOLDOVER_LIMIT (R257): Holdover reaches HOLD_MS: BCN_LOST is raised and scheduled work stops. -/
  | holdoverLimit
  /-- BEACON_RELOCK (R257): A lost module locks again, and resumes or takes the source's count with BCN_DESYNC. -/
  | beaconRelock (src : Nat) (count : BitVec 64)
  /-- FABRIC_REJOIN (R258): Parts with masters of different terms meet, and the part with the worse key gives way. -/
  | fabricRejoin (src : Nat) (term : BitVec 16) (prio : BitVec 8) (master : BitVec 14) (count : BitVec 64)
  /-- TREE_REDUCTION_START (R269): Lighthouse starts a sync-tree reduction with its operation, contribution, t_c and t_r. -/
  | treeReductionStart (tree : Nat) (op : Nat) (contribution : BitVec 64) (tc : BitVec 64) (tr : BitVec 64) (level : Nat) (height : Nat) (depth : Nat)
  /-- TREE_CONTRIBUTION (R271): A child's contribution reaches a tree node, and is included or dropped. -/
  | treeContribution (tree : Nat) (port : Nat) (value : BitVec 64) (count : Nat) (absent : Option Nat)
  /-- TREE_NODE_CLOSE (R269): A tree node reaches its close tick and forwards the combination of what it holds. -/
  | treeNodeClose (tree : Nat)
  /-- TREE_RESULT (R269): The reduction result is applied at t_r, or on late arrival, and MISSING is set. -/
  | treeResult (tree : Nat) (value : BitVec 64) (count : Nat) (absent : Option Nat)
  /-- COLL_TRIGGER (R378): A SIG adds to a collective engine's trigger counter and starts the armed descriptor at TRIG_N. -/
  | collTrigger (axis : Nat) (counter : Nat) (n : Nat)
  /-- COLL_CONTRIBUTION (R377): A collective contribution packet arrives, is checked and is combined or forwarded. -/
  | collContribution (axis : Nat) (header : BitVec 384) (payload : List (BitVec 8)) (cdig : BitVec 64)
  /-- COLL_END (R378): A collective's last output is acknowledged, DONE is signalled and any chained descriptor starts. -/
  | collEnd (axis : Nat) (d : Nat)
  /-- COLL_DEADLINE (R382): A collective still running at DEADLINE stops with COLL_TIMEOUT. -/
  | collDeadline (axis : Nat) (d : Nat)
  /-- HBM_READ (R280): A read request reaches a channel queue, and is served with its Halo checks and generation resolution. -/
  | hbmRead (stack : Nat) (ch : Nat)
  /-- HBM_WRITE (R280): A write reaches a channel queue, is checked and is acknowledged 12 c later. -/
  | hbmWrite (stack : Nat) (ch : Nat)
  /-- SPARING_COPY_DONE (R281): A channel's copy to the spare ends, and the sparing map switches. -/
  | sparingCopyDone (stack : Nat)
  /-- CHANNEL_RESET (R283): An HBM channel resets, and its journalled writes are tracked. -/
  | channelReset (stack : Nat) (ch : Nat)
  /-- CHANNEL_READY (R283): A channel is ready 20 µs after its reset, and journalled writes are poisoned. -/
  | channelReady (stack : Nat) (ch : Nat)
  /-- SCRUB_READ (R286): The copier reads an addressed block in idle cycles as part of the scrub. -/
  | scrubRead (blk : Nat)
  /-- STACK_TEMP_READ (R287): A stack's temperature is read every 1 ms and its temperature level is updated. -/
  | stackTempRead (stack : Nat) (temp : BitVec 8)
  /-- STEP_OPEN (R296): At the open tick, Lighthouse opens the shadow, places pins, arms collectives and writes the step parameter block. -/
  | stepOpen
  /-- LEASE_RELEASE (R299): At the superstep boundary that every tile has passed, a trailing reader's lease pin is released. -/
  | leaseRelease (i : Nat)
  /-- VOTE_TICK (R319): At V, Lighthouse forms the module's vote word from its detectors and checks, and contributes it. -/
  | voteTick
  /-- FLIP (R331): At F, Lighthouse commits or discards the step in one cycle, releases the pins and writes the step record. -/
  | flip
  /-- STEP_RESULT_LATE (R334): A result that arrives after F is applied on arrival. -/
  | stepResultLate
  /-- MODULE_OUT_OF_STEP (R334): A module with no result at its next open opens no step and leaves the job. -/
  | moduleOutOfStep
  /-- FRAME_RECEIVE (R343): A Bafen codeword and frame are decoded and accepted in order, or answered with NAK. -/
  | frameReceive (port : Nat) (header : BitVec 256) (decodes : Bool) (fcrcOk : Bool) (corrected : Bool)
  /-- REPLAY_TIMEOUT (R343): 2 µs without ACK progress makes the sender resend from ACK + 1. -/
  | replayTimeout (port : Nat)
  /-- CREDIT_AUDIT (R347): Every 4,096 frames the credit totals are compared, and a mismatch resets the port. -/
  | creditAudit (port : Nat) (totals : List (Nat × BitVec 16))
  /-- PACKET_ARRIVAL (R350): A packet from a link reaches its edge router and is forwarded, matched to a record or dropped as an orphan. -/
  | packetArrival (port : Nat) (header : BitVec 384) (payload : List (BitVec 8))
  /-- DELAY_PROBE (R353): Every 1 ms a port sends a delay probe and updates BF_DELAY from the echoes. -/
  | delayProbe (port : Nat) (roundTrip : Nat) (turnaround : Nat)
  /-- LANE_ERROR_WINDOW (R356): A 1 ms window of lane error rates ends, and a bad lane is spared or the port narrows to half width. -/
  | laneErrorWindow (port : Nat) (bad : BitVec 12) (seq : BitVec 16)
  /-- LANE_SWAP (R356): Both ends switch lanes at the agreed SEQ. -/
  | laneSwap (port : Nat)
  /-- TRAINING_STATE_DONE (R355): A training state completes its work and the port moves to the next state. -/
  | trainingStateDone (port : Nat) (good : BitVec 12) (delay : BitVec 16)
  /-- TRAINING_STATE_TIMEOUT (R355): A training state exceeds its limit, and the port returns to DETECT. -/
  | trainingStateTimeout (port : Nat)
  /-- DETECT_RETRY (R355): Electrical detection is retried every 10 ms. -/
  | detectRetry (port : Nat) (present : BitVec 12)
  /-- IDENTITY_PACKET (R359): An identity packet is received and stored, the wiring is checked and a neighbour event is raised. -/
  | identityPacket (port : Nat) (ident : BitVec 256)
  /-- LINK_LOSS (R358): 1 µs without a good frame, or signal lost on half the lanes, loses the link and resets the port. -/
  | linkLoss (port : Nat)
  /-- PORT_RESET (R357): A port reset drops the port's packets, clears its replay buffer and starts training. -/
  | portReset (port : Nat)
  /-- PORT_READY (R357): A port domain is ready 200 µs after its reset. -/
  | portReady (port : Nat)
  /-- LEAVE_NOTICE (R363): A leave notice arrives, and NEIGHBOUR_LEFT is raised. -/
  | leaveNotice (port : Nat)
  /-- FENCE_NOTICE (R364): A fence notice arrives, and NEIGHBOUR_FENCED is raised. -/
  | fenceNotice (port : Nat)
  /-- PORT_QUIESCE (R363): Setting BF_PORT_CTL[QUIESCE] quiesces a port, or is refused with BF_BUSY. -/
  | portQuiesce (port : Nat)
  /-- QUIESCE_DRAIN_END (R363): The quiesce drain ends, or reaches its 1 ms limit, and a leave notice is sent. -/
  | quiesceDrainEnd (port : Nat)
  /-- PORT_UNQUIESCE (R363): Clearing QUIESCE starts full training. -/
  | portUnquiesce (port : Nat)
  /-- PORT_FENCE (R364): Setting BF_PORT_CTL[FENCE] fences the port. -/
  | portFence (port : Nat)
  /-- PORT_UNFENCE (R364): Clearing FENCE unfences the port, which then trains fully. -/
  | portUnfence (port : Nat)
  /-- PORT_RETRAIN (R355): Writing RETRAIN starts a fast retrain. -/
  | portRetrain (port : Nat)
  /-- PORT_ENABLE (R355): Writing ENABLE starts the port training, or idles its transmitters. -/
  | portEnable (port : Nat) (enable : Bool)
  /-- BF_SELF_WRITE (R360): A write of the module coordinate and shape is checked, and the wiring of the links is checked again. -/
  | bfSelfWrite (value : BitVec 64)
  /-- SQ_TAIL_DOORBELL (R397): A submission tail doorbell makes descriptors available for fetch. -/
  | sqTailDoorbell (ring : Nat) (value : BitVec 32)
  /-- CQ_HEAD_DOORBELL (R397): A completion head doorbell frees completion entries. -/
  | cqHeadDoorbell (ring : Nat) (value : BitVec 32)
  /-- HIF_RESET (R395): Writing HIF_CTL[HIF_RESET] resets the host interface only. -/
  | hifReset
  /-- CONVENTIONAL_RESET (R395): HIF_PERST_N resets the host interface. -/
  | conventionalReset
  /-- FUNCTION_LEVEL_RESET (R395): A Function Level Reset resets the host interface. -/
  | functionLevelReset
  /-- RING_ENABLE (R396): Writing ENABLE 1 resets a ring pair's heads, tails and phase and makes the pair active. -/
  | ringEnable (ring : Nat) (value : BitVec 64)
  /-- RING_DISABLE (R396): Writing ENABLE 0 disables a ring pair. -/
  | ringDisable (ring : Nat) (value : BitVec 64)
  /-- RELAY_TABLE_WRITE (R418): A relay entry write is checked and applied, or is refused with HIF_CFG_VALUE. -/
  | relayTableWrite (k : Nat) (value : BitVec 64)
  /-- UNMAPPED_ACCESS (R16): An access to an unoccupied offset returns 0 or has no effect, and sets UNMAPPED. -/
  | unmappedAccess (offset : Nat) (isWrite : Bool)
  /-- REGISTER_WRITE (R14): A write to a register that has no row of its own, under its access codes and value tables. -/
  | registerWrite (offset : Nat) (size : Nat) (value : BitVec 64)
  /-- FETCH_BURST (R415): Every 800 ns the fetch unit reads a burst of descriptors from the ring that arbitration chooses. -/
  | fetchBurst
  /-- DESCRIPTOR_START (R400): A fetched descriptor is checked and started, or refused with its final status. -/
  | descriptorStart (ring : Nat)
  /-- COMPLETION_WRITE (R403): A completion entry is written from the backlog once its ring has room. -/
  | completionWrite
  /-- MSIX_INTERRUPT (R404): An MSI-X vector fires after COAL_N entries or after COAL_US. -/
  | msixInterrupt (ring : Nat)
  /-- HOST_MEMORY_ERROR (R398): A host memory error on a fetch or a completion write stops the ring. -/
  | hostMemoryError (ring : Nat)
  /-- RELAY_FORWARD (R418): A relayed descriptor reaches the relayed module and is executed there. -/
  | relayForward
  /-- RELAY_PATH_LOSS (R420): The path to a relayed module is lost, and RELAY_LOST is reported. -/
  | relayPathLoss (k : Nat)
  /-- RELAY_PATH_REGAIN (R420): The path returns, and the held entries are delivered in order. -/
  | relayPathRegain (k : Nat)
  /-- NOP_CMD (R406): Host NOP command, which completes with 0x0000. -/
  | nopCmd (ring : Nat) (desc : BitVec 512)
  /-- IDENTIFY (R408): Writes the 4 KiB identity page to host memory. -/
  | identify (ring : Nat) (desc : BitVec 512)
  /-- REG_READ (R408): Reads a register of the BCN_, HBM_, BF_, PWR_, NVM_ or SEC_ block. -/
  | regRead (ring : Nat) (desc : BitVec 512)
  /-- REG_WRITE (R408): Makes a masked write to a register of those blocks. -/
  | regWrite (ring : Nat) (desc : BitVec 512)
  /-- STEP_RECORDS (R408): Copies the newest step records to the host. -/
  | stepRecords (ring : Nat) (desc : BitVec 512)
  /-- COPY_IN (R407): Copies host memory into device memory. -/
  | copyIn (ring : Nat) (desc : BitVec 512)
  /-- COPY_OUT (R407): Copies device memory to host memory. -/
  | copyOut (ring : Nat) (desc : BitVec 512)
  /-- COPY_COMPLETE (R407): A host copy ends and its final entry reports the bytes moved. -/
  | copyComplete (tag : BitVec 64)
  /-- BATCH_POST (R441): Announces an input batch for staging. -/
  | batchPost (ring : Nat) (desc : BitVec 512)
  /-- BATCH_STAGED (R441): A batch whose slot is in range is copied into its staging slot, and its BATCH_POST completes. -/
  | batchStaged (index : BitVec 64)
  /-- JOB_PLACE (R434): Submits a campaign, which is refused, queued, placed or placed by displacement. -/
  | jobPlace (ring : Nat) (desc : BitVec 512)
  /-- SUSPEND (R411): Suspends a job or a copy by its op tag. -/
  | suspend (ring : Nat) (desc : BitVec 512)
  /-- RESUME (R412): Removes the host's hold on an operation. -/
  | resume (ring : Nat) (desc : BitVec 512)
  /-- CANCEL (R413): Cancels a long operation. -/
  | cancel (ring : Nat) (desc : BitVec 512)
  /-- OP_QUERY (R414): Reports a long operation's state, last interim status and queue position. -/
  | opQuery (ring : Nat) (desc : BitVec 512)
  /-- RESHARD (R388): Stages a re-shard and marks it pending. -/
  | reshard (ring : Nat) (desc : BitVec 512)
  /-- CHECKPOINT (R442): Requests a checkpoint at the next commit. -/
  | checkpoint (ring : Nat) (desc : BitVec 512)
  /-- CTX_SAVE (R450): Stops a job and writes its context to host memory. -/
  | ctxSave (ring : Nat) (desc : BitVec 512)
  /-- PWR_REQ (R521): Requests a wake to P0 or entry into S2 or S3. -/
  | pwrReq (ring : Nat) (desc : BitVec 512)
  /-- FW_LOAD (R502): Fetches and checks a firmware image. -/
  | fwLoad (ring : Nat) (desc : BitVec 512)
  /-- FW_IMAGE_ACCEPT (R503): Once fetched and checked, an image is accepted, the floor is committed and the firmware starts. -/
  | fwImageAccept
  /-- ATTEST (R507): Writes a signed attestation report over a nonce. -/
  | attest (ring : Nat) (desc : BitVec 512)
  /-- NVM_STORE (R494): Commits the staged settings to NVM, or reverts them. -/
  | nvmStore (ring : Nat) (desc : BitVec 512)
  /-- NVM_STORE_DONE (R494): The settings copy is written and made current, and the store completes. -/
  | nvmStoreDone
  /-- AFTERGLOW_READ (R487): Copies Afterglow records or the unit table to the host. -/
  | afterglowRead (ring : Nat) (desc : BitVec 512)
  /-- JOB_DEQUEUE (R436): A box frees, and the head queued or priority-suspended job is placed or resumed. -/
  | jobDequeue
  /-- MEMBER_READY (R439): A member's ready report reaches the authority, which sets the first open once all have reported. -/
  | memberReady (module : Nat)
  /-- PLACEMENT_TIMEOUT (R439): A member not ready within 10 s is treated as lost. -/
  | placementTimeout
  /-- TILE_START_AT_HALT (R440): A tile that had not halted at an open is started at ENTRY when it halts. -/
  | tileStartAtHalt (t : Nat)
  /-- CHECKPOINT_START (R442): At the F of a due commit Lighthouse pins the lit slots and starts copying into the next buffer. -/
  | checkpointStart
  /-- CHECKPOINT_DONE (R442): Every member has written its checkpoint header, and the interim entry is posted. -/
  | checkpointDone
  /-- MEMBER_LOST (R445): A member is declared lost, and the job enters recovering. -/
  | memberLost (module : Nat)
  /-- RECOVERY_TIMEOUT (R445): REC_WAIT_MS passes without the module returning, and the job releases its box and queues. -/
  | recoveryTimeout
  /-- TILES_HELD (R447): A member reports that every tile of a suspending job is held, and the authority schedules the hold reduction. -/
  | tilesHeld (module : Nat)
  /-- LIGHTHOUSE_RESET (R425): A Lighthouse reset clears its SRAM and schedule and puts the module's job out of step. -/
  | lighthouseReset
  /-- LIGHTHOUSE_READY (R425): Lighthouse is ready 5 ms after its reset and recovers its live operation records. -/
  | lighthouseReady
  /-- GATEWAY_FAILURE (R426): A Lighthouse gateway fails, and traffic passes through the other gateway. -/
  | gatewayFailure (g : Nat)
  /-- AUTHORITY_CHANGE (R428): A new placement authority rebuilds the job table from the members' records. -/
  | authorityChange (master : Nat)
  /-- LOCKSTEP_DISAGREE (R456): The cores of a Lighthouse pair disagree, and the pair is charged and eclipsed. -/
  | lockstepDisagree (pair : Nat)
  /-- TEST_DUE (R473): A tile's test falls due by calendar time. -/
  | testDue (row : Nat) (col : Nat)
  /-- TEST_MOVE (R474): At a superstep boundary the tile moves onto a spare, or the test is deferred. -/
  | testMove (row : Nat) (col : Nat)
  /-- TILE_TEST_RESULT (R476): A tile test ends, and the tile is returned to the pool, retested, or made permanent. -/
  | tileTestResult (row : Nat) (col : Nat) (pass : Bool)
  /-- TEST_FORCED (R478): A test deferred for DEFER_D days is forced after the next checkpoint, with the job held. -/
  | testForced (row : Nat) (col : Nat)
  /-- LINK_CHANNEL_TEST (R480): With no job placed, HBM channels and Bafen ports are tested in loopback. -/
  | linkChannelTest (unit : BitVec 32) (pass : Bool)
  /-- SENTINEL_DIGEST (R463): In a sentinel step, once the tiles pass SSTEP, Lighthouse hashes the ranges and sends the digest to the leader. -/
  | sentinelDigest
  /-- DIGEST_RECEIVE (R464): The leader receives a member's digest or no-range notice. -/
  | digestReceive (member : Nat) (digest : Option (BitVec 256))
  /-- REPLICA_VERDICT (R464): At V minus LEAD_BT the leader forms the verdict and sends each member its outcome. -/
  | replicaVerdict
  /-- VERDICT_RECEIVE (R465): A member receives its replica outcome and applies it to its vote. -/
  | verdictReceive (outcome : Nat)
  /-- MIRROR_RECORD (R470): A partner's digest record arrives and the module digests are compared. -/
  | mirrorRecord (sstep : BitVec 32) (digest : BitVec 64) (tiles : List (Nat × BitVec 64))
  /-- MIRROR_REBUILD (R471): A returning Mirror module is rebuilt from its partner over the D link. -/
  | mirrorRebuild
  /-- DOMAIN_NOT_READY (R482): A domain not ready at three times its reset time is classed permanent. -/
  | domainNotReady (unit : BitVec 32)
  /-- AFTERGLOW_COMMIT (R483): Once per second Lighthouse commits Afterglow log pages to NVM. -/
  | afterglowCommit
  /-- JOURNAL_COMMIT (R496): The lifetime counters and the count floor are committed to the counter journal. -/
  | journalCommit
  /-- NVM_REL_POLICY_WRITE (R461): A policy write is staged, or refused with SEC_PRESENCE when it loosens the policy without presence. -/
  | nvmRelPolicyWrite (value : BitVec 64)
  /-- NVM_CAL_SET (R498): Sets the calendar, with presence gating for a move back of more than 300 s. -/
  | nvmCalSet (value : BitVec 64)
  /-- PRES_PRESS (R509): A press on PRES_N opens the presence window for 60 s. -/
  | presPress
  /-- PRES_WINDOW_EXPIRE (R509): The presence window closes 60 s after it opened. -/
  | presWindowExpire
  /-- PRES_CLOSE (R509): Writing PRES_CLOSE closes the presence window. -/
  | presClose
  /-- TAMPER_CLR (R511): Clears TAMPER, given presence and a closed loop. -/
  | tamperClr
  /-- SEC_FLOOR_SET (R511): Raises the anti-rollback floor. -/
  | secFloorSet (value : BitVec 32)
  /-- SEC_UNIT_RETURN (R510): Returns a permanent unit to service under presence. -/
  | secUnitReturn (value : BitVec 32)
  /-- SEAL_SAMPLE (R511): The seal loop is sampled, and an open loop sets TAMPER. -/
  | sealSample (isOpen : Bool)
  /-- BOOT_ROM (R499): The boot ROM reads the security state, trains the host port and waits for FW_LOAD. -/
  | bootRom
  /-- POWER_UP (R526): The 48 V input reaches 40 V and the module starts up from Off. -/
  | powerUp (slot : BitVec 3) (board : Bool) (vbatOk : Bool)
  /-- REF_CLK_STABLE (R543): REF_CLK becomes stable, and a held boot continues. -/
  | refClkStable
  /-- VIN_SAMPLE (R514): Every 10 µs input voltage and power are measured, and the input duty is restored when in range. -/
  | vinSample (vin : Nat) (power : Nat)
  /-- INPUT_RANGE_FAULT (R515): VIN outside 40 to 60 V for 1 ms sets the input duty to 8 and reports PWR_INPUT. -/
  | inputRangeFault (vin : Nat)
  /-- INPUT_COLLAPSE (R515): VIN below 37 V, or above 63 V, for 20 µs stops every rail but Nightlight's. -/
  | inputCollapse (vin : Nat)
  /-- BROWNOUT (R517): A load above 150 mA in low-power mode resets the Nightlight island. -/
  | brownout
  /-- CAP_CONTROL (R520): Every 1 ms the cap duty is adjusted, and an unmet cap is reported. -/
  | capControl (mean : Nat) (mean100 : Nat)
  /-- TJ_SAMPLE (R529): Every 100 µs the junction sensors are read and the thermal duty or a shutdown follows. -/
  | tjSample (tj : Nat)
  /-- HBM_LEVEL3_TIMEOUT (R529): A stack at level 3 for 10 s declares the module lost to its job. -/
  | hbmLevel3Timeout (stack : Nat)
  /-- POWER_ENTRY (R522): With NEXT set and every Lighthouse pair waiting, the module enters S2 or S3. -/
  | powerEntry
  /-- WAKE_N (R525): WAKE_N held low for 1 ms wakes the module. -/
  | wakeN
  /-- WAKE_AT_COUNT (R525): BCN_COUNT reaches PWR_WAKE_AT and wakes the module from S2. -/
  | wakeAtCount
  /-- WAKE_AT_UTC (R525): The calendar reaches PWR_WAKE_UTC and wakes the module. -/
  | wakeAtUtc
  /-- WAKE_COMPLETE (R526): A return from S2, S3 or Off completes at its fixed delay. -/
  | wakeComplete
  /-- PLL_LOCK_LOSS (R528): A PLL loses lock, and the response of its kind follows. -/
  | pllLockLoss (pll : Nat) (unit : Nat)
  /-- PWR_RST_N (R544): PWR_RST_N held low for 1 ms stops every rail but Nightlight's. -/
  | pwrRstN
  /-- PWR_RST_RELEASE (R544): The release of PWR_RST_N wakes the module into a boot. -/
  | pwrRstRelease
  /-- BCN_TOKEN_PASS (R538): The board drive token passes between modules over VC 0. -/
  | bcnTokenPass (slot : BitVec 3)
  /-- BCN_TOKEN_TAKEOVER (R538): A module that cannot reach the holder takes the token after three missed pin edges. -/
  | bcnTokenTakeover
  /-- BCN_WORD_RECEIVE (R538): A BCN bus word or sync frame is received and checked, and collisions are detected. -/
  | bcnWordReceive (word : BitVec 96) (sync : Bool)
  /-- CLEAR_FAULTS (R545): Clears STATUS_WORD. -/
  | clearFaults (pec : Option Bool)
  /-- STATUS_WORD (R545): Reads the PMBus status word. -/
  | statusWord (pec : Option Bool)
  /-- READ_VIN (R545): Reads the input voltage. -/
  | readVin (pec : Option Bool)
  /-- READ_IIN (R545): Reads the input current. -/
  | readIin (pec : Option Bool)
  /-- READ_TEMPERATURE_1 (R545): Reads TJ, or the Nightlight sensor in S3. -/
  | readTemperature1 (pec : Option Bool)
  /-- READ_PIN (R545): Reads the mean input power. -/
  | readPin (pec : Option Bool)
  /-- PMBUS_REVISION (R545): Reads the PMBus revision 0x33. -/
  | pmbusRevision (pec : Option Bool)
  /-- MFR_WAKE (R545): With data 0x57 and packet error checking, wakes the module. -/
  | mfrWake (data : BitVec 8) (pec : Option Bool)
  /-- MFR_STATE (R545): Reads the module's power state. -/
  | mfrState (pec : Option Bool)
  /-- MFR_SERIAL (R545): Reads the serial number. -/
  | mfrSerial (pec : Option Bool)
  /-- EXTEST (R546): Boundary-scan external test, while READY is 0. -/
  | extest (pins : BitVec 64)
  /-- SAMPLE_PRELOAD (R546): Boundary-scan sample and preload. -/
  | samplePreload (pins : BitVec 64)
  /-- IDCODE (R546): Reads the IDCODE 0x1076_8B47. -/
  | idcode
  /-- CLAMP (R546): Boundary-scan clamp, while READY is 0. -/
  | clamp (pins : BitVec 64)
  /-- HIGHZ (R546): Boundary-scan high impedance, while READY is 0. -/
  | highz (pins : BitVec 64)
  /-- BYPASS (R546): Boundary-scan bypass. -/
  | bypass
  /-- PLL_RELOCK (R528): A PLL that lost lock relocks within 50 µs; for the arithmetic PLL every tile core and router then resets, and for the timing PLL holdover ends. -/
  | pllRelock (pll : Nat) (unit : Nat)
  /-- JOB_SWITCH_DONE (R449): The save of a stopped job's live tile state, and any HBM spill, ends after T_switch; the job is then reported suspended and any displacing job's placement starts. -/
  | jobSwitchDone
  /-- MEMBER_RETURN (R445): A lost member returns locked and ready within REC_WAIT_MS, and every member restores the last completed checkpoint, so the job leaves recovering. -/
  | memberReturn (module : Nat)
  /-- INPUT_REMOVAL (R518): The 48 V input is removed; Nightlight loses its supply and the module enters Off, with only the calendar and seal latch running on VBAT. -/
  | inputRemoval
  /-- HIF_PERST_N_RELEASE (R543): HIF_PERST_N is released after being held low, and the host port trains within 20 ms, after which BOOT_WAIT follows. -/
  | hifPerstNRelease
  deriving DecidableEq, Repr

end Sys2Proof
end

