-- ==== Sys2Proof/Decode.lean ====
section
/-! DEFINITION. The command that a table word spells; the words of tile instructions (R84, R85, R89, R121, R174, R179, R200) and an
encoder for them. -/
namespace Sys2Proof

/-- spec/opcode_table.json gives no row any bits, so no word spells a command. -/
def decodeTableWord (_nbits _w : Nat) : Option Instr := none

/-! ### Tile instruction words -/

/-- OP of the ALU class (R89), for an instruction of tile `t` with bits [51:0] `w`. -/
def tileAlu (t : Nat) (w : BitVec 52) (op : BitVec 8) : Option Instr :=
  match op.toNat with
  | 1 => some (.add t w)
  | 2 => some (.sub t w)
  | 3 => some (.mul t w)
  | 4 => some (.mulh t w)
  | 5 => some (.and t w)
  | 6 => some (.or t w)
  | 7 => some (.xor t w)
  | 8 => some (.shl t w)
  | 9 => some (.shr t w)
  | 0xA => some (.sra t w)
  | 0xB => some (.cmp t w)
  | 0x20 => some (.addi t w)
  | 0x21 => some (.movi t w)
  | 0x22 => some (.movhi t w)
  | _ => none

/-- OP of the BR class (R89), for an instruction of tile `t` with bits [51:0] `w`. -/
def tileBr (t : Nat) (w : BitVec 52) (op : BitVec 8) : Option Instr :=
  match op.toNat with
  | 1 => some (.br t w)
  | 2 => some (.bri t w)
  | 3 => some (.call t w)
  | 4 => some (.ret t w)
  | _ => none

/-- OP of the MEM class (R89), for an instruction of tile `t` with bits [51:0] `w`. -/
def tileMem (t : Nat) (w : BitVec 52) (op : BitVec 8) : Option Instr :=
  match op.toNat with
  | 1 => some (.ld t w)
  | 2 => some (.st t w)
  | 3 => some (.vld t w)
  | 4 => some (.vst t w)
  | _ => none

/-- OP of the VEC class (R174, R179), for an instruction of tile `t` with bits [51:0] `w`. -/
def tileVec (t : Nat) (w : BitVec 52) (op : BitVec 8) : Option Instr :=
  match op.toNat with
  | 1 => some (.vadd t w)
  | 2 => some (.vsub t w)
  | 3 => some (.vmul t w)
  | 4 => some (.vfma t w)
  | 5 => some (.vlerp t w)
  | 6 => some (.vmin t w)
  | 7 => some (.vmax t w)
  | 8 => some (.vabs t w)
  | 9 => some (.vmov t w)
  | 0xA => some (.vand t w)
  | 0xB => some (.vor t w)
  | 0xC => some (.vxor t w)
  | 0xE => some (.vcmp t w)
  | 0xF => some (.vtrn t w)
  | 0x10 => some (.vcvt t w)
  | 0x18 => some (.vdiv t w)
  | 0x19 => some (.vsqrt t w)
  | 0x1A => some (.vrsqrt t w)
  | 0x1B => some (.vrcp t w)
  | 0x1C => some (.vexp t w)
  | 0x1D => some (.vexp2 t w)
  | 0x1E => some (.vlog t w)
  | 0x1F => some (.vlog2 t w)
  | 0x20 => some (.vtanh t w)
  | 0x21 => some (.vlgst t w)
  | 0x22 => some (.verf t w)
  | 0x23 => some (.vsin t w)
  | 0x24 => some (.vcos t w)
  | 0x30 => some (.vred t w)
  | 0x31 => some (.vscan t w)
  | 0x38 => some (.vcens t w)
  | 0x40 => some (.vscale t w)
  | 0x41 => some (.vladd t w)
  | _ => none

/-- OP of the MAT class (R121), for an instruction of tile `t` with bits [51:0] `w`. -/
def tileMat (t : Nat) (w : BitVec 52) (op : BitVec 8) : Option Instr :=
  match op.toNat with
  | 1 => some (.mma t w)
  | 8 => some (.azero t w)
  | 9 => some (.ald t w)
  | 0xA => some (.ast t w)
  | 0x10 => some (.mrun t w)
  | _ => none

/-- OP of the DMA class (R89), for an instruction of tile `t` with bits [51:0] `w`. -/
def tileDma (t : Nat) (w : BitVec 52) (op : BitVec 8) : Option Instr :=
  match op.toNat with
  | 1 => some (.dmast t w)
  | 2 => some (.dmawt t w)
  | 3 => some (.dmacan t w)
  | _ => none

/-- OP of the XCH class (R89), for an instruction of tile `t` with bits [51:0] `w`. -/
def tileXch (t : Nat) (w : BitVec 52) (op : BitVec 8) : Option Instr :=
  match op.toNat with
  | 1 => some (.xstart t w)
  | 2 => some (.xwait t w)
  | 3 => some (.xsend t w)
  | 0x10 => some (.wopen t w)
  | 0x11 => some (.wclose t w)
  | 0x12 => some (.wgrant t w)
  | _ => none

/-- OP of the SYNC class (R89), for an instruction of tile `t` with bits [51:0] `w`. -/
def tileSync (t : Nat) (w : BitVec 52) (op : BitVec 8) : Option Instr :=
  match op.toNat with
  | 1 => some (.sig t w)
  | 2 => some (.swait t w)
  | 3 => some (.sdec t w)
  | 4 => some (.flare t w)
  | 5 => some (.sread t w)
  | 8 => some (.fence t w)
  | _ => none

/-- OP of the TXN class (R89), for an instruction of tile `t` with bits [51:0] `w`. -/
def tileTxn (t : Nat) (w : BitVec 52) (op : BitVec 8) : Option Instr :=
  match op.toNat with
  | 1 => some (.txopen t w)
  | 2 => some (.txrel t w)
  | 3 => some (.txcan t w)
  | 8 => some (.veto t w)
  | 9 => some (.genrd t w)
  | _ => none

/-- OP of the SYS class (R89), for an instruction of tile `t` with bits [51:0] `w`. -/
def tileSys (t : Nat) (w : BitVec 52) (op : BitVec 8) : Option Instr :=
  match op.toNat with
  | 0 => some (.nop t w)
  | 1 => some (.wait t w)
  | 2 => some (.bcnrd t w)
  | 3 => some (.halt t w)
  | _ => none

/-- OP of the GLT class (R200), for an instruction of tile `t` with bits [51:0] `w`. -/
def tileGlt (t : Nat) (w : BitVec 52) (op : BitVec 8) : Option Instr :=
  match op.toNat with
  | 1 => some (.graw t w)
  | 2 => some (.guni t w)
  | 3 => some (.guno t w)
  | 4 => some (.gnorm t w)
  | 5 => some (.gbern t w)
  | 6 => some (.ggumb t w)
  | 0x10 => some (.sloc t w)
  | 0x11 => some (.smrg t w)
  | 0x12 => some (.spick t w)
  | _ => none

/-- The instruction of tile `t` that a word spells (R84, R85); none where R88 makes the word ILLEGAL_OP. -/
def tileInstr (t : Nat) (word : BitVec 64) : Option Instr :=
  let w := word.setWidth 52
  let op := word.extractLsb' 52 8
  match (word.extractLsb' 60 4).toNat with
  | 0 => tileAlu t w op
  | 1 => tileBr t w op
  | 2 => tileMem t w op
  | 3 => tileVec t w op
  | 4 => tileMat t w op
  | 5 => tileDma t w op
  | 6 => tileXch t w op
  | 7 => tileSync t w op
  | 8 => tileTxn t w op
  | 9 => tileSys t w op
  | 0xA => tileGlt t w op
  | _ => none

/-- The command that the scalar core of tile `t` meets in a word of its stream. -/
def decodeTile (t : Nat) (word : BitVec 64) : Instr := (tileInstr t word).getD (.illegalOp t word)

/-- The tile, CLASS, OP and bits [51:0] of a tile instruction. -/
def tileWordFields (c : Instr) : Option (Nat × BitVec 4 × BitVec 8 × BitVec 52) :=
  match c with
  | .add t w => some (t, 0, 1, w)
  | .sub t w => some (t, 0, 2, w)
  | .mul t w => some (t, 0, 3, w)
  | .mulh t w => some (t, 0, 4, w)
  | .and t w => some (t, 0, 5, w)
  | .or t w => some (t, 0, 6, w)
  | .xor t w => some (t, 0, 7, w)
  | .shl t w => some (t, 0, 8, w)
  | .shr t w => some (t, 0, 9, w)
  | .sra t w => some (t, 0, 0xA, w)
  | .cmp t w => some (t, 0, 0xB, w)
  | .addi t w => some (t, 0, 0x20, w)
  | .movi t w => some (t, 0, 0x21, w)
  | .movhi t w => some (t, 0, 0x22, w)
  | .br t w => some (t, 1, 1, w)
  | .bri t w => some (t, 1, 2, w)
  | .call t w => some (t, 1, 3, w)
  | .ret t w => some (t, 1, 4, w)
  | .ld t w => some (t, 2, 1, w)
  | .st t w => some (t, 2, 2, w)
  | .vld t w => some (t, 2, 3, w)
  | .vst t w => some (t, 2, 4, w)
  | .vadd t w => some (t, 3, 1, w)
  | .vsub t w => some (t, 3, 2, w)
  | .vmul t w => some (t, 3, 3, w)
  | .vfma t w => some (t, 3, 4, w)
  | .vlerp t w => some (t, 3, 5, w)
  | .vmin t w => some (t, 3, 6, w)
  | .vmax t w => some (t, 3, 7, w)
  | .vabs t w => some (t, 3, 8, w)
  | .vmov t w => some (t, 3, 9, w)
  | .vand t w => some (t, 3, 0xA, w)
  | .vor t w => some (t, 3, 0xB, w)
  | .vxor t w => some (t, 3, 0xC, w)
  | .vcmp t w => some (t, 3, 0xE, w)
  | .vtrn t w => some (t, 3, 0xF, w)
  | .vcvt t w => some (t, 3, 0x10, w)
  | .vdiv t w => some (t, 3, 0x18, w)
  | .vsqrt t w => some (t, 3, 0x19, w)
  | .vrsqrt t w => some (t, 3, 0x1A, w)
  | .vrcp t w => some (t, 3, 0x1B, w)
  | .vexp t w => some (t, 3, 0x1C, w)
  | .vexp2 t w => some (t, 3, 0x1D, w)
  | .vlog t w => some (t, 3, 0x1E, w)
  | .vlog2 t w => some (t, 3, 0x1F, w)
  | .vtanh t w => some (t, 3, 0x20, w)
  | .vlgst t w => some (t, 3, 0x21, w)
  | .verf t w => some (t, 3, 0x22, w)
  | .vsin t w => some (t, 3, 0x23, w)
  | .vcos t w => some (t, 3, 0x24, w)
  | .vred t w => some (t, 3, 0x30, w)
  | .vscan t w => some (t, 3, 0x31, w)
  | .vcens t w => some (t, 3, 0x38, w)
  | .vscale t w => some (t, 3, 0x40, w)
  | .vladd t w => some (t, 3, 0x41, w)
  | .mma t w => some (t, 4, 1, w)
  | .azero t w => some (t, 4, 8, w)
  | .ald t w => some (t, 4, 9, w)
  | .ast t w => some (t, 4, 0xA, w)
  | .mrun t w => some (t, 4, 0x10, w)
  | .dmast t w => some (t, 5, 1, w)
  | .dmawt t w => some (t, 5, 2, w)
  | .dmacan t w => some (t, 5, 3, w)
  | .xstart t w => some (t, 6, 1, w)
  | .xwait t w => some (t, 6, 2, w)
  | .xsend t w => some (t, 6, 3, w)
  | .wopen t w => some (t, 6, 0x10, w)
  | .wclose t w => some (t, 6, 0x11, w)
  | .wgrant t w => some (t, 6, 0x12, w)
  | .sig t w => some (t, 7, 1, w)
  | .swait t w => some (t, 7, 2, w)
  | .sdec t w => some (t, 7, 3, w)
  | .flare t w => some (t, 7, 4, w)
  | .sread t w => some (t, 7, 5, w)
  | .fence t w => some (t, 7, 8, w)
  | .txopen t w => some (t, 8, 1, w)
  | .txrel t w => some (t, 8, 2, w)
  | .txcan t w => some (t, 8, 3, w)
  | .veto t w => some (t, 8, 8, w)
  | .genrd t w => some (t, 8, 9, w)
  | .nop t w => some (t, 9, 0, w)
  | .wait t w => some (t, 9, 1, w)
  | .bcnrd t w => some (t, 9, 2, w)
  | .halt t w => some (t, 9, 3, w)
  | .graw t w => some (t, 0xA, 1, w)
  | .guni t w => some (t, 0xA, 2, w)
  | .guno t w => some (t, 0xA, 3, w)
  | .gnorm t w => some (t, 0xA, 4, w)
  | .gbern t w => some (t, 0xA, 5, w)
  | .ggumb t w => some (t, 0xA, 6, w)
  | .sloc t w => some (t, 0xA, 0x10, w)
  | .smrg t w => some (t, 0xA, 0x11, w)
  | .spick t w => some (t, 0xA, 0x12, w)
  | _ => none

/-- The word of a tile instruction (R84). -/
def encodeTile (c : Instr) : Option (BitVec 64) := (tileWordFields c).map (fun f => (f.2.1 ++ f.2.2.1) ++ f.2.2.2)

end Sys2Proof
end

