-- ==== Sys2Proof/Config.lean ====
section
/-! DEFINITION. What the spec leaves open: the free values. None of them has a body, so no proof can see one. -/
namespace Sys2Proof

/-- The value drawn as number `n` where the spec leaves a value open; a step that draws one advances State.free. -/
opaque Config.freeNat : Nat → Nat

/-- Which of the values within its error bound a transcendental operation (R179: code as the OP of R174) writes; for an infinite
operand of VRSQRT and VRCP, the value. -/
opaque Config.transcendental : (op fmt rnd : Nat) → (operand : BitVec 64) → BitVec 64

/-- The INT32 element that an MMA of INT8 with MX = 1 leaves where a scaled product is no integer (R115, R117): a function of the
element before and of the products in depth order, each m × 2^q as (m, q), a NaN as none. -/
opaque Config.scaledSum : (acc : Nat) → (products : List (Option (Int × Int))) → BitVec 32

/-- Falcon-1024: whether a signature over a digest verifies under a public key's digest (R502). -/
opaque Config.falconVerifies : (keyDigest digest : BitVec 512) → (signature : List Byte) → Bool

/-- Falcon-1024: the bytes of a signature (R507). -/
opaque Config.falconSign : (serial : BitVec 64) → List Byte → List Byte

/-- The module's serial number (R505). -/
opaque Config.serial : BitVec 64

/-- The root key digests of the factory record, by slot (R505). -/
opaque Config.rootDigest : Nat → BitVec 256

/-- The identity public key and the certificate signature of the factory record (R505). -/
opaque Config.identityKey : List Byte
opaque Config.certificate : List Byte

/-- The 48-bit target address of a write into a window, by module, tile, window and first slot, as the CRC of Mirror mode
takes it (R469): a window write carries none. -/
opaque Config.windowAddress : (module tile win first : Nat) → BitVec 48

/-- FP64 powers of β with an integer exponent (R313), which the spec gives no way to compute. -/
opaque Config.power64 : (base exponent : BitVec 64) → BitVec 64

/-- FP64 interpolation between learning rates `a` and `b`, `num` of `den` steps on (R432), whose rounding the spec does not
fix. -/
opaque Config.interpolate64 : (a b : BitVec 64) → (num den : Nat) → BitVec 64

/-- The LINEAR11 word by which the management bus gives a value in thousandths of its unit (R545); of the words of that
format which stand for it the spec names none. -/
opaque Config.linear11 : (milli : Nat) → BitVec 16

end Sys2Proof
end

