-- ==== Sys2Proof/Machine/Bits.lean ====
section
/-! DEFINITION. Bit fields, byte order (R9), runs of bytes in a sparse map, and serial extension of stamps (R259). -/
namespace Sys2Proof.Machine

/-- Bits [lsb + n - 1 : lsb] of a number. -/
def bits (w : Nat) (lsb n : Nat) : Nat := (w >>> lsb) % 2 ^ n

/-- Bit `i` of a number. -/
def bit (w : Nat) (i : Nat) : Bool := w.testBit i

/-- `w` with bits [lsb + n - 1 : lsb] set to `v`. -/
def putBits (w : Nat) (lsb n v : Nat) : Nat := w - bits w lsb n * 2 ^ lsb + (v % 2 ^ n) * 2 ^ lsb

/-- 1 for true. -/
def ofBool (b : Bool) : Nat := if b then 1 else 0

/-- The number of `n` bits read as a signed one. -/
def signed (n w : Nat) : Int := if 2 * (w % 2 ^ n) < 2 ^ n then (w % 2 ^ n : Nat) else (w % 2 ^ n : Nat) - (2 ^ n : Nat)

/-- `len` little-endian bytes of a number (R9). -/
def bytesOf (n : Nat) : Nat → List Byte
  | 0 => []
  | len + 1 => BitVec.ofNat 8 n :: bytesOf (n / 256) len

/-- The number that little-endian bytes spell (R9). -/
def ofBytes : List Byte → Nat
  | [] => 0
  | b :: bs => b.toNat + 256 * ofBytes bs

/-- `n` consecutive entries of a map from key `a`. -/
def readRun {α : Type} (d : α) (m : Map α) (a : Nat) : Nat → List α
  | 0 => []
  | n + 1 =>
    let m' := m.dropWhile (fun e => decide (e.1 < a))
    (match m' with
      | (j, v) :: _ => if j = a then v else d
      | [] => d) :: readRun d m' (a + 1) n

/-- The entries that a run of values written from key `a` lists. -/
def listRun {α : Type} [DecidableEq α] (d : α) : Nat → List α → Map α
  | _, [] => []
  | a, v :: vs => if v = d then listRun d (a + 1) vs else (a, v) :: listRun d (a + 1) vs

/-- The map with consecutive values written from key `a`. -/
def writeRun {α : Type} [DecidableEq α] (d : α) (m : Map α) (a : Nat) (vs : List α) : Map α :=
  m.filter (fun e => decide (e.1 < a)) ++ listRun d a vs ++ m.filter (fun e => decide (a + vs.length ≤ e.1))

/-- The map with `n` entries from key `a` set to one value. -/
def fillRun {α : Type} [DecidableEq α] (d : α) (m : Map α) (a n : Nat) (v : α) : Map α :=
  writeRun d m a (List.replicate n v)

/-- Whether all, any of the entries from `a` to `a + n - 1` are `true`. -/
def allRun (m : Map Bool) (a n : Nat) : Bool := (readRun false m a n).all id
def anyRun (m : Map Bool) (a n : Nat) : Bool := (readRun false m a n).any id

/-- t - now as a signed 64-bit difference (R100). -/
def ahead (t now : BitVec 64) : Int := (t - now).toInt

/-- The scheduled count lies more than 2^31 ahead (R100, R106, R213, R260). -/
def tooFar (t now : BitVec 64) : Bool := decide (ahead t now > 2 ^ 31)

/-- R259: the full count a 32-bit stamp names, seen from a receiver at `now`. -/
def extend (l : BitVec 32) (now : BitVec 64) : BitVec 64 :=
  let d := (l - now.setWidth 32).toNat
  if d ≤ 2 ^ 31 then now + BitVec.ofNat 64 d else now - BitVec.ofNat 64 (2 ^ 32 - d)

/-- n + 1, held at the largest `w`-bit value (a saturating counter). -/
def bump (w n : Nat) : Nat := if n + 1 < 2 ^ w then n + 1 else 2 ^ w - 1

/-- The first element that satisfies `p`, and the list without it. -/
def takeFirst {α : Type} (p : α → Bool) : List α → Option (α × List α)
  | [] => none
  | x :: xs => if p x then some (x, xs) else (takeFirst p xs).map (fun r => (r.1, x :: r.2))

/-- Element `i` replaced by `f` of it. -/
def updateAt {α : Type} (f : α → α) : List α → Nat → List α
  | [], _ => []
  | x :: xs, 0 => f x :: xs
  | x :: xs, i + 1 => x :: updateAt f xs i

end Sys2Proof.Machine
end

