-- ==== Sys2Proof/Machine/Crc.lean ====
section
/-! DEFINITION. The check codes: CRC-64/XZ of the Halo (R289), CRC-32C of packets and frames (R342, R345), the CRC-8 of
the management sideband (R545). -/
namespace Sys2Proof.Machine

/-- `f n`, with `n` evaluated first, so that the kernel carries a number along and no growing term. -/
def strictly {α : Type} (f : Nat → α) : Nat → α
  | 0 => f 0
  | n + 1 => f (n + 1)

@[simp] theorem strictly_eq {α : Type} (f : Nat → α) (n : Nat) : strictly f n = f n := by cases n <;> rfl

/-- `n` shifts of a reflected CRC register. -/
def crcShift (poly : Nat) : Nat → Nat → Nat
  | 0, r => r
  | n + 1, r => strictly (crcShift poly n) (if r % 2 = 1 then (r / 2) ^^^ poly else r / 2)

/-- A reflected CRC register run over bytes. -/
def crcRun (poly : Nat) : Nat → List Byte → Nat
  | r, [] => r
  | r, b :: bs => strictly (fun r => crcRun poly r bs) (crcShift poly 8 (r ^^^ b.toNat))

/-- CRC-64/XZ: the ECMA-182 polynomial reflected, all ones in, XOR of all ones out (R289). -/
def crc64 (bs : List Byte) : BitVec 64 :=
  BitVec.ofNat 64 (crcRun 0xC96C5795D7870F42 0xFFFFFFFFFFFFFFFF bs ^^^ 0xFFFFFFFFFFFFFFFF)

/-- CRC-32C (Castagnoli, reflected, all ones in and out). -/
def crc32c (bs : List Byte) : BitVec 32 := BitVec.ofNat 32 (crcRun 0x82F63B78 0xFFFFFFFF bs ^^^ 0xFFFFFFFF)

/-- `n` shifts of the CRC-8 register, polynomial x^8 + x^2 + x + 1. -/
def crc8Shift : Nat → Nat → Nat
  | 0, r => r
  | n + 1, r => crc8Shift n (if 128 ≤ r then ((2 * r) % 256) ^^^ 7 else 2 * r)

/-- The SMBus packet error code of bytes. -/
def crc8 : Nat → List Byte → Nat
  | r, [] => r
  | r, b :: bs => crc8 (crc8Shift 8 (r ^^^ b.toNat)) bs

end Sys2Proof.Machine
end

