-- ==== Sys2Proof/Machine/State.lean ====
section
/-! DEFINITION. The state of the module: everything the spec gives it, as plain data, and its value at reset.
A register of a numbered register block is held as its 64-bit word, listed under its offset only where it differs from
its reset value (Sys2Proof/Machine/TileRegs.lean, ModRegs.lean and ModTables.lean name every register, its fields, their access codes and resets); state
that is no register has a field of its own. -/
namespace Sys2Proof.Machine

/-! ## Tiles: scratchpad, tags, windows, credits (chapter 02) -/

/-- R56. -/
inductive WinState where
  | closed | opened | closing
  deriving DecidableEq, Repr

/-- One window of a tile (R55 to R58; TILE_WIN_DESC_LO and _HI). POOL is LEN_SLOTS - OCCUPIED - GRANTED. `held` names
the dark copy that holds a queue window (R233): opener tile and its multicast's key. -/
structure Window where
  base : Nat := 0
  len : Nat := 0
  queue : Bool := false
  st : WinState := .closed
  gen : BitVec 16 := 0
  head : Nat := 0
  tail : Nat := 0
  occupied : Nat := 0
  granted : Nat := 0
  refused : BitVec 16 := 0
  held : Option (Nat × Nat) := none
  deriving DecidableEq, Repr

/-- An entry of the credit table (R64). -/
structure Credit where
  module : BitVec 14
  tile : Nat
  win : Nat
  gen : BitVec 16
  count : Nat
  deriving DecidableEq, Repr

/-- What a request carries and its reply carries back (R37): the issuing tile, the issuing domain's epoch and the low
32 bits of the Beacon count at issue. -/
structure Stamp where
  tile : Nat
  epoch : BitVec 16
  low : BitVec 32
  deriving DecidableEq, Repr

/-- Who sent a write or a request and where its answer goes. -/
inductive Sender where
  /-- operation `id` of a DMA queue of a tile -/
  | dma (st : Stamp) (id : Nat)
  /-- send record `idx` of the exchange phase of superstep `sstep` -/
  | record (st : Stamp) (sstep : BitVec 64) (idx : Nat)
  /-- a dynamic message, by its key -/
  | message (st : Stamp) (key : Nat)
  /-- a copy of a dynamic multicast, by its key -/
  | mcast (st : Stamp) (key : Nat)
  /-- a requester in another module: the DIRS and TAG of its request, its module's coordinate, its stamp (R348, R350) -/
  | away (dirs : Nat) (coord : BitVec 24) (st : Stamp) (tag : BitVec 16)
  /-- the host copy of an op tag (R407) -/
  | host (tag : BitVec 64)
  deriving DecidableEq, Repr

/-- A remote write waiting at a tile's port 0 (R60). `first` is f for an addressed window; with `absolute` it is the
absolute slot of a DMA destination (R99). `dark` is the transaction under which the copy lands dark (R232): opener
tile and key. `sstep` is the superstep stamp of a compiled write (R223). -/
structure RemoteWrite where
  sender : Sender
  win : Nat
  gen : BitVec 16
  first : Nat
  absolute : Bool
  data : List Byte
  dark : Option (Nat × Nat) := none
  sstep : Option (BitVec 32) := none
  deriving DecidableEq, Repr

/-- What a load fills when its reply arrives. -/
inductive LoadDst where
  /-- s register `rd`, zero-extended -/
  | scalar (rd : Nat)
  /-- rows 0 to b/64 - 1 of v register `vd` (R91), for b bytes -/
  | vector (vd : Nat) (bytes : Nat)
  deriving DecidableEq, Repr

/-- A read request on its way: from a tile load (`dst`, the instruction's offset) or from another module. -/
structure ReadReq where
  sender : Sender
  addr : BitVec 48
  len : Nat
  dst : Option LoadDst
  pc : BitVec 20
  deriving DecidableEq, Repr

/-- R49. -/
inductive TagKind where
  | consume | peek | store
  deriving DecidableEq, Repr

/-- What a parked tagged access does once it is served; `ord` counts the vector instructions issued before a VLD or VST. -/
inductive ParkUser where
  | vld (vd : Nat) (pc : BitVec 20) (ord : Nat)
  | vst (data : BitVec 8192) (pc : BitVec 20) (ord : Nat)
  | dma (id : Nat)
  | ast (pc : BitVec 20)
  | xsend
  deriving DecidableEq, Repr

/-- An entry of the tile's wait table (R51). -/
structure Parked where
  port : Nat
  kind : TagKind
  slot : Nat
  slots : Nat
  user : ParkUser
  deriving DecidableEq, Repr

/-! ## Tiles: instruction stream, engines, transactions (chapter 03) -/

/-- Where a semaphore lives (R264): entry `entry` of the router of tile `home`, in module `hmod` when the home is in
another module; or tree `tree` (KIND 3). -/
inductive SemRef where
  | here (home entry : Nat)
  | there (hmod : BitVec 14) (home entry : Nat)
  | tree (m : Nat)
  deriving DecidableEq, Repr

/-- An instruction waiting in an engine queue (R80): its class and operation, bits [51:0], its offset, the values its
scalar source fields named at issue, the mask it latched (R127), how many vector and MAT instructions the tile had issued
before it, and, for an XCH instruction, what TXH and RC named at issue: handle and transaction, semaphore (R95, R548). -/
structure QInsn where
  cls : Nat
  op : Nat
  w : BitVec 52
  pc : BitVec 20
  a : Word
  b : Word
  c : Word
  rows : BitVec 48 := 0
  cols : BitVec 48 := 0
  ord : Nat × Nat := (0, 0)
  txn : Option (Nat × Nat) := none
  sem : Option SemRef := none
  deriving DecidableEq, Repr

/-- A semaphore operation at its home (R93). -/
inductive SemOp where
  | sig (n : Nat)
  | flare
  | sdec (n : Nat)
  | swait (exp : Nat)
  | sread
  deriving DecidableEq, Repr

/-- A semaphore operation on its way to its home. `away` gives the DIRS of a request from another module, its coordinate
and its TAG. `module` is the requester's, for the order of R94; `rd` is the
register its answer fills; `plain` marks the signal of a SYNCM field, a trigger or a returned release, which has no RD; `rank`
is the requester as which a returned release ranks (R267). -/
structure SemMsg where
  module : BitVec 14
  st : Stamp
  entry : Nat
  op : SemOp
  rd : Nat
  away : Option (Nat × BitVec 24 × BitVec 16) := none
  plain : Bool := false
  rank : Option (BitVec 14 × Nat) := none
  deriving DecidableEq, Repr

/-- A waiter in a semaphore's queue (R93): who waits, its RD and the timeout exponent its SWAIT carried. -/
structure Waiter where
  module : BitVec 14
  st : Stamp
  rd : Nat
  exp : Nat
  away : Option (Nat × BitVec 24 × BitVec 16) := none
  deriving DecidableEq, Repr

/-- A semaphore entry (R263). -/
structure Sem where
  count : BitVec 32 := 0
  waiters : List Waiter := []
  deriving DecidableEq, Repr

/-- A SIG in the signal buffer (R95): the named DMA operations that have not ended, and those that failed; or another
operation, which waits behind a held SIG to its home (R265). -/
structure HeldSig where
  target : SemRef
  op : SemOp
  rd : Nat
  waits : List Nat
  fails : List (Nat × BitVec 16)
  deriving DecidableEq, Repr

/-- What a unit read from its source holds (R549): bytes, the Halo of a block copied with it, the ORIGIN of poison it
carries. -/
structure UnitData where
  data : List Byte
  halo : Option (BitVec 256)
  poison : Option Nat
  deriving DecidableEq, Repr

/-- A DMA operation in its queue (R98 to R100, R549). `txn` is the handle it named and the transaction that this then was;
`moved` counts the bytes of the units that have moved; of the unit in hand `got` is what has been read and `put` how many bytes
have been written; `unacked` counts the writes sent and not answered, `status` is the first non-success status it met. -/
structure DmaOp where
  id : Nat
  que : Nat
  desc : BitVec 256
  sched : Option (BitVec 64)
  late : Bool
  syncm : Nat
  sem : Option SemRef
  txn : Option (Nat × Nat)
  started : Bool := false
  got : Option UnitData := none
  put : Nat := 0
  moved : Nat := 0
  readDone : Bool := false
  unacked : Nat := 0
  status : Option (BitVec 16) := none
  deriving DecidableEq, Repr

/-- R548. -/
inductive TxnState where
  | free | opened | releasing | cancelled
  deriving DecidableEq, Repr

/-- A tile-scope transaction handle (R97, R548): its key (the model's own number of the transaction), the targets that
acknowledged a dark copy, the targets that have not answered, the cancelling status and logical index, the RD of a
waiting TXREL and of a waiting TXCAN, whether the drops have been sent, how many have not reached their targets. -/
structure Txn where
  st : TxnState := .free
  key : Nat := 0
  acked : List Nat := []
  open_ : List Nat := []
  status : BitVec 16 := 0
  index : BitVec 12 := 0
  relRd : Option Nat := none
  canRd : Option Nat := none
  dropped : Bool := false
  drops : Nat := 0
  deriving DecidableEq, Repr

/-- What stops the scalar core's issue. -/
inductive Stall where
  | none
  /-- R106: WAIT with its RD, the enabled events, the deadline and the level taken from TILE_MODE -/
  | wait (rd : Nat) (events : BitVec 7) (deadline : Option (BitVec 64)) (level : Nat)
  | swait (rd : Nat)
  | fence (groups : BitVec 16)
  | dmawt (que rd : Nat)
  | xwait (rd : Nat)
  deriving DecidableEq, Repr

/-- What a reply that fills an s register answers: a SIG, an SWAIT, or another request. -/
inductive ReplyKind where
  | value | sig | swait
  deriving DecidableEq, Repr

/-- A message travelling to a tile: a reply, an answer to a write, a grant, a release or a drop (R223, R550). -/
inductive Msg where
  /-- an answer that fills s register `rd` -/
  | reply (st : Stamp) (rd : Nat) (value : Word) (kind : ReplyKind)
  /-- a load's status, and the data, low byte first, where the status is 0 -/
  | load (st : Stamp) (dst : LoadDst) (pc : BitVec 20) (status : BitVec 16) (data : List Byte)
  /-- an answer to a write: the sender's mark, the target that answered, its status, the transaction of a dark copy -/
  | answer (dest : Sender) (target : Nat) (status : BitVec 16) (dark : Option (Nat × Nat))
  /-- a credit grant; `away`: DIRS, coordinate and TAG of a grant from another module -/
  | grant (module : BitVec 14) (target win : Nat) (gen : BitVec 16) (count : Nat) (rd : Nat) (st : Stamp)
      (away : Option (Nat × BitVec 24 × BitVec 16))
  | grantBack (win : Nat) (gen : BitVec 16) (count rd : Nat) (st : Stamp) (status : BitVec 16)
  /-- WGRANT's grant has been placed at the sender (R90) -/
  | grantPlaced (rd : Nat) (st : Stamp)
  | winClosed (module : BitVec 14) (target win : Nat)
  /-- a release on its way from its home (`away`: the home's module) to a waiter (R267) -/
  | semRelease (away : Option (BitVec 14)) (home entry : Nat) (w : Waiter)
  /-- a release returned to this home (R267) -/
  | semReturned (entry : Nat)
  | txnRelease (opener key : Nat)
  | drop (opener key : Nat)
  deriving DecidableEq, Repr

/-! ## Tiles: matrix engine and exchange engine (chapters 04 and 08) -/

/-- A posted work list (R128). -/
structure WorkList where
  off : Nat
  count : Nat
  backward : Bool
  last : Bool
  slot : Nat
  waits : Bool
  consume : Bool
  pc : BitVec 20
  ready : Bool
  deriving DecidableEq, Repr

/-- The list that runs (R131): the list, the next item, whether all of its items have run. -/
structure RunList where
  list : WorkList
  next : Nat
  done : Bool
  deriving DecidableEq, Repr

/-- An accepted exchange phase (R213 to R217): its program, whether it has started, the model cycle of its start, the
records (by number) that have been issued and that have been answered, the first status it recorded. -/
structure Phase where
  prog : Nat
  start : BitVec 64
  late : Bool
  syncm : Nat
  sem : Option SemRef
  started : Bool := false
  startCycle : Nat := 0
  nsend : Nat := 0
  nrecv : Nat := 0
  end_ : Nat := 0
  issued : List Nat := []
  answered : List Nat := []
  /-- copies sent and not answered: record and target -/
  waiting : List (Nat × Nat) := []
  first : Option (BitVec 16) := none
  txn : Option (Nat × Nat) := none
  deriving DecidableEq, Repr

/-- A dynamic message or multicast in flight (R101, R230, R231): its key, RD, source bytes, the targets whose branch is
stalled, those sent and not answered, those that acknowledged. `txn` is the handle it joined and its transaction. -/
structure Mcast where
  key : Nat
  multi : Bool
  rd : Nat
  data : List Byte
  slots : Nat
  stalled : List (Nat × Nat)
  sent : List (Nat × Nat)
  acked : List (Nat × Nat)
  txn : Option (Nat × Nat)
  syncm : Nat
  sem : Option SemRef
  deriving DecidableEq, Repr

/-- One tile: its core domain, its engines and its router's share. -/
structure Tile where
  /-- s1 to s31, p1 to p7, v0 to v31 (R75), by number -/
  s : Map Word := []
  p : Map (BitVec 256) := []
  v : Map (BitVec 8192) := []
  /-- the 108 KiB accumulator store as 32-bit words (R76) -/
  acc : Map (BitVec 32) := []
  pc : BitVec 20 := 0
  /-- the instruction buffer (R78): offsets and words, oldest first -/
  ibuf : List (Nat × BitVec 64) := []
  stall : Stall := .none
  /-- s registers that an instruction in flight will write (R81) -/
  busy : List Nat := []
  /-- v registers that a load in flight will write, each with the number of vector instructions issued before the load -/
  vbusy : List (Nat × Nat) := []
  /-- vector and MAT instructions issued so far (the model's own count) -/
  vecs : Nat := 0
  mats : Nat := 0
  vq : List QInsn := []
  /-- stages that the chain at the head of the vector queue has run, where it waits for a later stage's start (R171) -/
  stages : Nat := 0
  mq : List QInsn := []
  xq : List QInsn := []
  dma : List DmaOp := []
  /-- R12's rotating pointer over the DMA queues (R80) -/
  dmaNext : Nat := 0
  /-- the first non-success status each DMA queue completed since its last DMAWT (R100) -/
  dmaStatus : Map (BitVec 16) := []
  /-- operations of each queue that ended with a non-success status: queue, number, status (R95) -/
  dmaFails : List (Nat × Nat × BitVec 16) := []
  sigs : List HeldSig := []
  /-- SIGs sent and not answered (FENCE bit 5) -/
  sigsOut : Nat := 0
  /-- WGRANTs whose grant has neither been placed nor returned -/
  grantsOut : Nat := 0
  txns : Map Txn := []
  /-- the scratchpad (R41), its tags (R47), dark bits with the transaction that set them (R232) -/
  spad : Map Byte := []
  tags : Map Bool := []
  dark : Map (Option (Nat × Nat)) := []
  /-- storage errors present in the cells (R46): 8-byte words with a single and with a double error, tag groups with a
  parity error -/
  eccSingle : Map Bool := []
  eccDouble : Map Bool := []
  tagParity : Map Bool := []
  parked : List Parked := []
  wins : Map Window := []
  credits : List Credit := []
  /-- remote writes at port 0, and those held for a held window (R233) -/
  writes : List RemoteWrite := []
  heldWrites : List RemoteWrite := []
  reads : List ReadReq := []
  mail : List Msg := []
  /-- the router's semaphore entries (R263) and the operations that have reached them -/
  sems : Map Sem := []
  semOps : List SemMsg := []
  /-- registers of the tile control block, by offset -/
  regs : Map Word := []
  /-- R37: the Beacon count of the core domain's last reset, of the router's -/
  resetAt : BitVec 64 := 0
  rtrResetAt : BitVec 64 := 0
  rtrReady : Bool := true
  lists : List WorkList := []
  running : Option RunList := none
  /-- an AST that waits for the tag of its DONE_SLOT (R122), and how many MAT instructions were issued before it -/
  astWait : Option (Nat × Nat) := none
  lastBackward : Bool := false
  terms : Map Nat := []
  phase : Option Phase := none
  /-- R215: the receive count of the phase that runs; the slots of each write of this superstep that came before its phase
  started, of each write of the next -/
  recv0 : Nat := 0
  early : List Nat := []
  recv1 : List Nat := []
  /-- offsets of the sampling result records written since the step opened (R443) -/
  picks : List Nat := []
  mcasts : List Mcast := []
  /-- the WCLOSE that the exchange engine is executing: its window and RD -/
  closing : Option (Nat × Nat) := none
  /-- the source bytes that an XSEND with STAG at the head of its queue has consumed, once it has its credits (R49, R101) -/
  xsend : Option (List Byte) := none
  /-- the XSEND at the head of the queue has found no credit (R64, R106) -/
  creditWait : Bool := false
  /-- Lighthouse holds the next XSTART of a moved tile until its state has been restored, at this count (R236) -/
  startHeld : Option (BitVec 64) := none
  /-- the stream is stopped (R103, R104); it was HALT that stopped it; that HALT has been reported to Lighthouse -/
  halted : Bool := false
  ended : Bool := false
  haltReported : Bool := false
  deriving DecidableEq, Repr


/-! ## Beacon, sync trees, the Lighthouse schedule (chapter 09) -/

/-- A source of edges: a Bafen port 0 to 7, or 8 for the BCN pins (BCN_STAT[SRC]); the hops from the master to it. -/
structure EdgeSource where
  port : Nat
  hops : Nat
  deriving DecidableEq, Repr

/-- An election key (R253). -/
structure ElectionKey where
  prio : BitVec 8
  module : BitVec 14
  deriving DecidableEq, Repr

/-- What a child's subtree reports to a tree node (R269, R271): the port it came by, the value, the count, the lowest absent. -/
structure Contribution where
  port : Nat
  value : BitVec 64
  count : Nat
  lowest : Option Nat
  deriving DecidableEq, Repr

/-- An open reduction at a tree node (R269): its operation (0 AND, 1 OR, 2 unsigned MAX, 3 SUM), ticks, level
allowance, height and depth, this module's contribution, those of its children (port, value, count, lowest absent), the
count of modules of the job, whether it has closed, whether it is a barrier round (R273), the result: the root's own, or the one
that waits for t_r. -/
structure TreeRun where
  op : Nat
  tc : BitVec 64
  tr : BitVec 64
  level : Nat
  height : Nat
  depth : Nat
  own : Option (BitVec 64)
  kids : List Contribution
  closed : Bool
  barrier : Bool
  sum : Option (BitVec 64 × Nat × Option Nat)
  deriving DecidableEq, Repr

/-- A pending event of the host's (R260): a started descriptor with its ring and its count. Lighthouse's own pending events
lie where they act: the tick change, the row map changes, the tree closes, the flip, the checkpoint, the power change. -/
structure SchedEvent where
  count : BitVec 64
  ring : Nat
  desc : BitVec 512
  deriving DecidableEq, Repr

/-! ## HBM (chapter 10) -/

/-- A request at a channel queue (R279): a read (`write` none) or a write. -/
structure HbmReq where
  sender : Sender
  addr : BitVec 48
  len : Nat
  write : Option (List Byte)
  halo : Bool
  gen : BitVec 24
  lepoch : BitVec 8
  dst : Option LoadDst
  pc : BitVec 20
  /-- it came by the near path; the model's cycle of its acceptance -/
  near : Bool := false
  cycle : Nat := 0
  deriving DecidableEq, Repr

/-- One HBM stack: its channel queues, R12's pointer of each, the channel that is being copied to the spare (R281), the journal of
each channel's writes answered with DOMAIN_RESET (R283), the Beacon count of each channel's last reset (R37). -/
structure Stack where
  queue : List (Nat × HbmReq) := []
  turn : Map Nat := []
  copying : Option Nat := none
  journal : List (Nat × Nat) := []
  resetAt : Map (BitVec 64) := []
  deriving DecidableEq, Repr

/-! ## The grid of tiles (chapter 08) -/

/-- A physical router (R238 to R242). -/
inductive Router where
  | up
  /-- failed, its neighbours not yet on the bypass lanes -/
  | failed
  | bypassed
  deriving DecidableEq, Repr

/-- A change of the row maps waiting for its superstep boundary (R235, R236): logical row and column, new column. -/
structure MapMove where
  row : Nat
  col : Nat
  dest : Nat
  deriving DecidableEq, Repr

/-- The core and the router of a physical tile that the map does not name (R35, R36): their epochs, whether the core is powered,
the counts of their last resets, whether the router is out of reset. -/
structure SpareUnit where
  coreEpoch : Nat := 0
  rtrEpoch : Nat := 0
  powered : Bool := true
  resetAt : BitVec 64 := 0
  rtrResetAt : BitVec 64 := 0
  rtrReady : Bool := true
  deriving DecidableEq, Repr

/-- A packet that has left the module on a Bafen port: its 48-byte header and its payload. -/
structure Packet where
  header : BitVec 384
  payload : List Byte
  deriving DecidableEq, Repr


/-- A request that an edge router forwarded out through its port and that has no answer yet (R350): SRC_COORD, SRC_TILE
and TAG, its DIRS; for a request of this module, what a success and a refusal become at the tile that sent it; the stamp that
its reply carries back (R37), the window it names. -/
structure AwayRecord where
  coord : Nat
  tile : Nat
  tag : BitVec 16
  dirs : Nat
  own : Option (Msg × Msg)
  st : Stamp
  win : Nat
  deriving DecidableEq, Repr

/-- A frame of a link (R341, R342): the idle field of its codeword, its header, its 608 bytes of the packet stream. -/
structure LinkFrame where
  idle : BitVec 20
  header : BitVec 256
  stream : List Byte
  deriving DecidableEq, Repr

/-- One Bafen port and its edge router (chapter 12). -/
structure Port where
  /-- packets waiting for credit or for transmission, oldest first -/
  tx : List Packet := []
  /-- the replay buffer: frames sent that no ACK covers, oldest first; those of them that are to be sent again; the last frame
  sent (R343) -/
  replay : List LinkFrame := []
  again : List LinkFrame := []
  sent : Option LinkFrame := none
  txSeq : BitVec 16 := 0
  acked : BitVec 16 := 0xFFFF
  rxSeq : BitVec 16 := 0
  /-- a failed frame has been answered with NAK, which is still to be sent (R343) -/
  nakSent : Bool := false
  nakDue : Bool := false
  resends : Nat := 0
  /-- by channel × 2 + subclass, in 64-byte units: credits held at the transmitter and the totals received; buffer freed here and
  not yet returned, and the totals returned (R347) -/
  credits : Map Nat := []
  totals : Map (BitVec 16) := []
  owed : Map Nat := []
  returned : Map (BitVec 16) := []
  /-- a Beacon edge to be marked in the next codeword: whether it is marked as holdover, the low bits of its count; those of the
  last edge marked (R342, R352) -/
  edge : Option (Bool × BitVec 16) := none
  low : BitVec 16 := 0
  /-- the records of R350 -/
  records : List AwayRecord := []
  /-- R361: the neighbour's identity, and whether one has been stored -/
  neighbour : BitVec 256 := 0
  known : Bool := false
  /-- the last probe round trips (R353), newest first -/
  probes : List Nat := []
  /-- lanes agreed to swap and the SEQ of the swap (R356) -/
  swap : Option (BitVec 12 × BitVec 16) := none
  nextTag : BitVec 16 := 0
  resetAt : BitVec 64 := 0
  /-- the port domain is in reset; the far end sent a leave, a fence notice; a block awaits its resend (R344) -/
  inReset : Bool := false
  left : Bool := false
  farFenced : Bool := false
  recheck : Bool := false
  /-- the loss of this link was raised already; it has been ACTIVE with a neighbour of this SERIAL and LH_EPOCH -/
  serial : BitVec 64 := 0
  lhEpoch : BitVec 16 := 0
  /-- a fast retrain runs, for half the width -/
  fast : Bool := false
  halfWidth : Bool := false
  /-- requests that wait for room in the record (R350) -/
  wait : List (AwayRecord × Packet) := []
  /-- the identity packet of the training that runs has come -/
  identOk : Bool := false
  /-- the frame of the service window (R346), whether the last frame was of VC 2, the window's frames of VCs 3 and 4 -/
  slot : Nat := 0
  lastTwo : Bool := false
  used3 : Nat := 0
  used4 : Nat := 0
  /-- R12's pointer of each channel (R346); bytes of the packet being sent that later frames carry, and its channel (R341) -/
  turn : Map Nat := []
  stream : List Byte := []
  toGoOn : Nat := 0
  deriving DecidableEq, Repr

/-- A cause that clears a bit of the module's vote word (R319, R321): the bit, its status, the tile and the reason it names; of a
compiled phase the superstep count and the record (R218). -/
structure Cause where
  bit : Nat
  status : BitVec 16
  tile : Nat := 0xFFF
  reason : BitVec 16 := 0
  sstep : Word := 0
  record : Option Nat := none
  /-- the model's cycle in which it reached Lighthouse -/
  cycle : Nat := 0
  deriving DecidableEq, Repr

/-! ## Host interface (chapter 14) -/

/-- A completion entry before it is written (R401); PHASE and SQ_HEAD are those of its writing. -/
structure Entry where
  ring : Nat
  cid : BitVec 16
  status : BitVec 16
  event : Bool := false
  interim : Bool := false
  tag : BitVec 64 := 0
  result : BitVec 64 := 0
  module : BitVec 14 := 0
  bcn : BitVec 32 := 0
  /-- it came due while its ring was disabled and waits for ring 0; it goes to ring 0 (R395) -/
  held : Bool := false
  zero : Bool := false
  deriving DecidableEq, Repr

/-- A ring pair beside its registers: the tail and the head last written, the descriptors fetched and not started, the
entries written since the last interrupt, what is left of the ring's share in the current round (R415). -/
structure Ring where
  tail : Nat := 0
  head : Nat := 0
  fetched : List (BitVec 512) := []
  coal : Nat := 0
  share : Nat := 0
  deriving DecidableEq, Repr

/-- A descriptor that has started and has no final entry (R400, R402): its ring, whether its command runs, and, for one
that waits (SUSPEND, CANCEL, CHECKPOINT, FW_LOAD, NVM_STORE), nothing more: what it waits for is held where it happens. -/
structure Started where
  ring : Nat
  desc : BitVec 512
  running : Bool
  deriving DecidableEq, Repr

/-- A live long operation (R409, R410): its state 0 to 4, its last interim status, the bytes a copy has moved. -/
structure Op where
  tag : BitVec 64
  ring : Nat
  desc : BitVec 512
  state : Nat
  last : BitVec 16 := 0
  moved : Nat := 0
  deriving DecidableEq, Repr

/-- The host interface beside the HIF_ registers. -/
structure HostIf where
  rings : Map Ring := []
  started : List Started := []
  /-- entries that wait to be written (R403), oldest first -/
  backlog : List Entry := []
  /-- the host's memory as the module reads and writes it -/
  mem : Map Byte := []
  /-- R12's rotating pointer of the latency-critical rings; the best-effort ring being visited -/
  latency : Nat := 0
  visit : Nat := 0
  ops : List Op := []
  /-- relayed descriptors not yet forwarded, and forwarded ones without a final entry: ring, descriptor -/
  relayQueue : List (Nat × BitVec 512) := []
  relayed : List (Nat × BitVec 512) := []
  /-- entries of this module's commands for another gateway, kept until it has acknowledged them (R418, R420); the port and the
  tag of the packet that carries the first of them -/
  relayKeep : List (BitVec 24 × Entry) := []
  relaySent : Option (Nat × BitVec 16) := none
  /-- descriptors relayed to this module and not yet executed: gateway, its ring, descriptor -/
  relayIn : List (BitVec 24 × Nat × BitVec 512) := []
  /-- the module that sent each command which runs here for a gateway: index of the pseudo-ring, coordinate, its ring -/
  gateways : Map (BitVec 24 × Nat) := []
  deriving DecidableEq, Repr

/-! ## The training step (chapter 11) -/

/-- The statistics of a scalar watch (R328): whether it has been used, μ and σ². -/
structure WatchStat where
  used : Bool := false
  mu : BitVec 64 := 0
  s2 : BitVec 64 := 0
  deriving DecidableEq, Repr

/-- The step state (R305). DRAW lists the eight slots. -/
structure StepState where
  step : BitVec 64 := 0
  cursor : BitVec 64 := 0
  draw : List (BitVec 32) := [0, 0, 0, 0, 0, 0, 0, 0]
  lepoch : BitVec 8 := 0
  watches : Map WatchStat := []
  commits : BitVec 64 := 0
  ls : BitVec 32 := 0
  lsRun : BitVec 16 := 0
  skipped : BitVec 64 := 0
  skipRun : BitVec 16 := 0
  deriving DecidableEq, Repr

/-- A lease pin of a trailing reader (R296, R299): its region and slot, the superstep of the last read counted from the
step's first, and each tile's superstep count at the step's open. -/
structure Lease where
  region : Nat
  slot : Nat
  last : Nat
  base : Map Word
  deriving DecidableEq, Repr

/-- The result that VOTE_TREE delivered (R270, R322). -/
structure VoteResult where
  word : BitVec 64
  missing : Nat
  absent : Nat
  deriving DecidableEq, Repr

/-- A re-shard that is pending (R388): the new layout epoch, the region images and the collective descriptors. -/
structure Reshard where
  epoch : BitVec 8
  /-- HBM_VREG entries that hold the new layout's regions -/
  regions : List Nat
  colls : List (BitVec 512)
  deriving DecidableEq, Repr

/-- The step that is open: its ticks, its kind, what its open placed, what its vote found, its result. -/
structure OpenStep where
  open_ : BitVec 64
  vote : BitVec 64
  flip : BitVec 64
  readOnly : Bool
  eval : Bool
  /-- the open found no slot or no pin (R296) -/
  noSlot : Bool
  pins : List (Nat × Nat)
  base : Map Word
  snaps : Map (List Nat)
  voted : Bool := false
  word : BitVec 64 := 0
  cause : BitVec 16 := 0
  veto : Option Cause := none
  fellBack : Bool := false
  clamped : Bool := false
  /-- the values the scalar watches took at V (R325), by watch -/
  taken : Map (Option (BitVec 32)) := []
  result : Option VoteResult := none
  /-- the re-shard that was pending at V (R330) -/
  reshard : Option Reshard := none
  /-- collectives that ended in this step (axis × 256 + descriptor) -/
  reduced : List Nat := []
  deriving DecidableEq, Repr

/-! ## Collectives (chapter 13) -/

/-- A collective that runs on an engine: its descriptor's number and words, the segments still to be handled here, how many
segments of each rank's block have landed (R378), the segments asked for again (R377), the smallest anchor met (R375). -/
structure Coll where
  d : Nat
  desc : BitVec 512
  left : Nat := 0
  landed : Map Nat := []
  resent : List (Nat × Nat) := []
  anchor : Nat := 0
  /-- its start waits for a stack at level 3 (R287) -/
  waits : Bool := false
  deriving DecidableEq, Repr

/-! ## Jobs and Lighthouse (chapter 15) -/

/-- R438: the states of a job; `placing` is a job whose members have not all reported ready. -/
inductive JobState where
  | queued | placing | running | recovering | ended
  deriving DecidableEq, Repr

/-- A job of the authority's table (R428): its identifier, op tag, the ring and CID of its JOB_PLACE, the campaign
descriptor, the context to restore, the count of its receipt, its box, the members that reported ready, those lost,
whether the host and whether priority holds it, the order of its suspension. `fresh` is false once it restores its last
checkpoint. `last` is its queue position last reported. -/
structure Job where
  id : BitVec 64
  tag : BitVec 64
  ring : Nat
  cid : BitVec 16
  camp : List Byte
  ctx : Option (BitVec 64 × Nat)
  received : BitVec 64
  state : JobState
  box : List Nat := []
  ready : List Nat := []
  lost : List Nat := []
  host : Bool := false
  priority : Option (BitVec 64) := none
  heldAt : Nat := 0
  fresh : Bool := true
  reported : Option Nat := none
  /-- its last completed checkpoint: buffer and STEP; a job that waits to run from there -/
  done : Option (Nat × BitVec 64) := none
  /-- K of the authority's policy (R463) -/
  voteK : Nat := 64
  /-- the op tag of its JOB_PLACE, on every member (`tag` is 0 on a member that is not the authority) -/
  named : BitVec 64 := 0
  /-- the collective descriptors that a re-shard put in place of the campaign's (R388) -/
  newColls : Option (List (BitVec 512)) := none
  /-- members that have written the header of the checkpoint that runs (R442) -/
  wrote : List Nat := []
  deriving DecidableEq, Repr

/-- A suspension in progress (R447): its job, the stop superstep, why (0 the host, 1 priority, 2 a context save, 3 a
forced test, 4 a cancel), whether every member is held, the hold reduction's ticks and result. -/
structure Suspension where
  job : BitVec 64
  stop : Word
  why : Nat
  ring : Nat
  cid : BitVec 16
  desc : BitVec 512 := 0
  tc : Option (BitVec 64 × BitVec 64) := none
  /-- whether the open step survives the stop, once the hold reduction has said so -/
  agreed : Option Bool := none
  /-- the count at which the job stopped with its step open (R448) -/
  stoppedAt : Option (BitVec 64) := none
  /-- members that reported every tile held; whether the save is in portable form (R450) -/
  held : List Nat := []
  portable : Bool := false
  /-- CANCELs of the job that wait for the stop: ring, descriptor -/
  cancels : List (Nat × BitVec 512) := []
  deriving DecidableEq, Repr

/-- A checkpoint that runs (R442): the buffer (0 A, 1 B), the pins it holds, the STEP it copies, the CHECKPOINT commands that
it serves, whether the campaign ends with it. -/
structure Checkpoint where
  buffer : Nat
  pins : List (Nat × Nat)
  step : BitVec 64
  gen : BitVec 24
  lepoch : BitVec 8
  asked : List (Nat × BitVec 512) := []
  last : Bool := false
  deriving DecidableEq, Repr

/-- A batch announced and not yet staged (R441). -/
structure Batch where
  ring : Nat
  desc : BitVec 512
  job : BitVec 64
  index : BitVec 64
  addr : BitVec 64
  len : Nat
  out : BitVec 64
  deriving DecidableEq, Repr

/-- A saved context of a job on this module (R447, R449, R34): its tiles, the open step that survived the stop, the count and
the superstep of the stop, its registers and HBM, its share of Lighthouse. -/
structure Context where
  job : BitVec 64
  tiles : Map Tile
  step : Option OpenStep
  stopped : BitVec 64
  stop : Word
  regs : Map Word := []
  hbm : Map Byte := []
  halo : Map (BitVec 256) := []
  copies : List StepState := []
  sel : BitVec 2 := 0
  leases : List Lease := []
  openings : Nat := 0
  sweepDue : Bool := false
  startAtHalt : List Nat := []
  reload : List Nat := []
  uses : Map Nat := []
  batches : List Batch := []
  staged : Map (Option Batch) := []
  evalDue : Bool := false
  evalAt : Nat := 0
  reshard : Option Reshard := none
  ckptDone : Option (Nat × BitVec 64) := none
  nextBuffer : Nat := 0
  noTestUntil : Nat := 0
  /-- what the open step has gathered for its vote: its causes, the replica votes and the Mirror digests -/
  causes : List Cause := []
  digests : List (Nat × Option (BitVec 256)) := []
  ownDigest : Bool := false
  verdict : Option Nat := none
  noMajority : Option (BitVec 64) := none
  mirrorCrc : Map Word := []
  mirrorDone : List (Nat × Nat × BitVec 64) := []
  mirrorOwn : Map (Option (BitVec 64 × List (Nat × BitVec 64))) := []
  mirrorPeer : Map (Option (BitVec 64 × List (Nat × BitVec 64))) := []
  /-- the collectives that run, their output buffers, the contributions that wait -/
  colls : Map (List Coll) := []
  collOut : Map (List (Nat × Packet)) := []
  collHeld : Map (List (BitVec 384 × List Byte × BitVec 64)) := []
  deriving DecidableEq, Repr

/-- Lighthouse (R423 to R454) beside its schedule. -/
structure Lighthouse where
  firmware : List Byte := []
  /-- the other bytes of its SRAM that no part of State stands for, by offset (R427) -/
  sram : Map Byte := []
  /-- the count at which its last reset began (R37) -/
  resetAt : BitVec 64 := 0
  /-- in its domain reset (R425) -/
  inReset : Bool := false
  /-- the step-state copies and the selector (R306, R307) -/
  copy0 : StepState := {}
  copy1 : StepState := {}
  copy2 : StepState := {}
  sel : BitVec 2 := 0
  step : Option OpenStep := none
  nextOpen : Option (BitVec 64) := none
  leases : List Lease := []
  /-- the step record ring (R336), oldest first -/
  records : List (BitVec 512) := []
  /-- openings made under the present SHADOW (R296) -/
  openings : Nat := 0
  sweepDue : Bool := false
  jobs : List Job := []
  lastId : BitVec 64 := 0
  /-- the job that holds this module -/
  cur : Option (BitVec 64) := none
  /-- modules known not to be healthy: lost, retired from service, eclipsed -/
  unfit : List Nat := []
  /-- tiles to start at ENTRY once they halt; tiles whose image is to be loaded once their core is ready; the USE of the image
  that each tile holds -/
  startAtHalt : List Nat := []
  reload : List Nat := []
  uses : Map Nat := []
  suspension : Option Suspension := none
  contexts : List Context := []
  /-- contexts written to host memory (R450), with the bytes that stand for them there -/
  written : List (List Byte × Context) := []
  ckpt : Option Checkpoint := none
  /-- one whose header this module has written, while other members have theirs to write (R442) -/
  ckptWait : Option Checkpoint := none
  nextBuffer : Nat := 0
  ckptAsked : List (Nat × BitVec 512) := []
  /-- a checkpoint falls due at the flip just made (R442) -/
  ckptDue : Bool := false
  /-- the last completed checkpoint of the job: buffer and STEP -/
  ckptDone : Option (Nat × BitVec 64) := none
  batches : List Batch := []
  staged : Map (Option Batch) := []
  evalDue : Bool := false
  /-- bytes appended to the evaluation ring -/
  evalAt : Nat := 0
  reshard : Option Reshard := none
  /-- when the no-test window of the job ends, by calendar -/
  noTestUntil : Nat := 0
  /-- the module that this one rebuilds, or is rebuilt from, in Mirror mode (R471) -/
  rebuild : Option Nat := none
  /-- the authority's table: members that are in S2 (R523) -/
  asleep : List Nat := []
  /-- gateways of R426 that have failed -/
  gatewaysDown : List Nat := []
  deriving DecidableEq, Repr

/-! ## Reliability (chapter 16) -/

/-- An entry of the unit table (R486): STATE 0 in service (or spare), 2 eclipsed until boot, 3 permanent; the calendar
seconds of the last three faults, latest first. -/
structure UnitEntry where
  state : Nat := 0
  faults : List Nat := []
  testDue : Nat := 0
  testLast : Nat := 0
  result : Nat := 0
  deriving DecidableEq, Repr

/-- Tests, replica votes and Mirror mode beside the unit table. -/
structure Reliability where
  units : Map UnitEntry := []
  /-- Afterglow records, oldest first: those committed to NVM and those not yet -/
  log : List (BitVec 512) := []
  fresh : List (BitVec 512) := []
  nextSeq : BitVec 64 := 0
  /-- physical tiles in test, with whether this is the retest; tests deferred, with the calendar second they fell due -/
  testing : Map (Option Bool) := []
  deferred : Map Nat := []
  /-- tests forced after the next checkpoint -/
  forced : List Nat := []
  /-- digests received by the leader: member, digest (none: a no-range notice) -/
  digests : List (Nat × Option (BitVec 256)) := []
  ownDigest : Bool := false
  /-- this module's outcome: 0 kept, 1 minority, 2 absent, 3 no majority -/
  verdict : Option Nat := none
  /-- the previous attempt of this STEP ended with no majority (R466) -/
  noMajority : Option (BitVec 64) := none
  /-- Mirror mode, by superstep: each tile's running CRC, the digests of tiles that have ended a superstep which others have not
  (superstep, tile, digest), the module digests that wait for a partner's with their tile digests, the partner's that wait,
  the physical tiles to test at the next discard -/
  mirrorCrc : Map Word := []
  mirrorDone : List (Nat × Nat × BitVec 64) := []
  mirrorOwn : Map (Option (BitVec 64 × List (Nat × BitVec 64))) := []
  mirrorPeer : Map (Option (BitVec 64 × List (Nat × BitVec 64))) := []
  mirrorTests : List Nat := []
  /-- the module is excluded from placement until the tiles listed have passed a test (R459, R467) -/
  excluded : Bool := false
  proving : List Nat := []
  /-- when each port's FEC_FAIL was last counted (R456), and how many since -/
  fecSince : Map Nat := []
  deriving DecidableEq, Repr

/-! ## Persistent state and security (chapter 17) -/

/-- One copy of the settings area: its sequence number and its words by offset. -/
structure Settings where
  seq : BitVec 32 := 0
  words : Map Word := []
  deriving DecidableEq, Repr

/-- One copy of the security state (R502). -/
structure SecState where
  seq : BitVec 32 := 0
  floor : BitVec 32 := 0
  revoked : BitVec 4 := 0
  tamper : Bool := false
  deriving DecidableEq, Repr

/-- A page of the counter journal (R496): the commit's number, the eight counters, the count floor, UTC. -/
structure JournalPage where
  number : Nat := 0
  life : List (BitVec 64) := [0, 0, 0, 0, 0, 0, 0, 0]
  floor : BitVec 64 := 0
  utc : BitVec 64 := 0
  deriving DecidableEq, Repr

/-- A firmware image that has passed R502 and waits for its acceptance (R503). -/
structure Image where
  ring : Nat
  desc : BitVec 512
  svn : BitVec 32
  minSvn : BitVec 32
  keyIdx : BitVec 2
  revoke : BitVec 4
  version : BitVec 64
  measure : BitVec 256
  body : List Byte
  /-- its acceptance waits for a running NVM_STORE, and NVM_BUSY has been posted (R512) -/
  busy : Bool := false
  deriving DecidableEq, Repr

/-- The Nightlight island: the MRAM, the calendar, presence and the seal (R490 to R513). -/
structure Nightlight where
  copyA : Settings := {}
  copyB : Settings := {}
  /-- the current settings copy: false A -/
  current : Bool := false
  /-- the settings that a running NVM_STORE writes, with its ring and descriptor; the stores that wait -/
  storing : Option (Map Word × Nat × BitVec 512) := none
  storesWait : List (Nat × BitVec 512) := []
  secA : SecState := {}
  secB : SecState := {}
  secCurrent : Bool := false
  journal : Map JournalPage := []
  journalNext : Nat := 0
  /-- physical page of each logical page that has moved, write counts, retired and free reserve pages (R490, R491) -/
  pageAt : Map (Option Nat) := []
  pageWrites : Map Nat := []
  retired : Nat := 0
  /-- uncorrectable logical pages (R492) -/
  badPages : Map Bool := []
  /-- images that wait for their acceptance, oldest first; VERSION of the running one -/
  images : List Image := []
  version : BitVec 64 := 0
  sealOpen : Bool := false
  /-- the VBAT latch has found the seal loop open while the module was unpowered (R511) -/
  latched : Bool := false
  /-- the calendar second at which the presence window closes -/
  presUntil : Option Nat := none
  deriving DecidableEq, Repr

/-! ## Power and pins (chapters 18 and 19) -/

/-- R518. -/
inductive PowerState where
  | p0 | p1 | s1 | s2 | s3 | off
  deriving DecidableEq, Repr

/-- Power beside the PWR_ registers. -/
structure Power where
  state : PowerState := .p0
  /-- the four duties of R519 -/
  cap : Nat := 16
  therm : Nat := 16
  input : Nat := 16
  memory : Nat := 16
  /-- the thermal duty has been 0 and TJ is not yet below 102 °C -/
  stopped : Bool := false
  /-- for how many ms the cap duty has been 1 (R520) -/
  oneFor : Nat := 0
  /-- the band of R529 that TJ is in: 0 below 95 °C, 1 below 98 °C, 2 from there; its samples since the duty or the band
  changed -/
  band : Nat := 0
  tempo : Nat := 0
  /-- VIN has been out of 40 to 60 V for 1 ms -/
  range : Bool := false
  /-- a state that Lighthouse is entering with its PWR_REQ, a wake event that waits or runs -/
  entering : Option (Nat × Option (Nat × BitVec 512)) := none
  wake : Bool := false
  wakeAsked : List (Nat × BitVec 512) := []
  /-- a shutdown whose island sensor has not read below 60 °C, a stop not yet followed by BOOT_WAIT -/
  shutdown : Bool := false
  faultPin : Bool := false
  islandTemp : Nat := 0
  /-- input current in mA as the monitor last measured it -/
  current : Nat := 0
  /-- PLLs that have lost lock: kind 0 arithmetic, 1 timing, 2 Lighthouse, 3 HBM PHY, 4 Bafen; unit -/
  unlocked : List (Nat × Nat) := []
  /-- events for the next boot's record: status -/
  bootEvents : List (BitVec 16) := []
  refStable : Bool := true
  /-- HIF_PERST_N and PWR_RST_N are held low -/
  perst : Bool := false
  rst : Bool := false
  vbatOk : Bool := true
  /-- the boot that follows is from Off (R524) -/
  cold : Bool := false
  /-- a stack stayed at level 3 for 10 s, and one is not yet below level 2 (R529) -/
  hot : Bool := false
  /-- BCN_STAT[STATE] and [SRC] before the timing PLL lost lock (R528) -/
  locked : Option (Nat × Nat) := none
  deriving DecidableEq, Repr

/-- Board pins, the management bus and boundary scan. -/
structure Pins where
  /-- straps at the connector: BF_SLOT and BF_BOARD_N low -/
  slot : BitVec 3 := 0
  board : Bool := false
  /-- STATUS_WORD (R545) -/
  smbStatus : BitVec 16 := 0
  /-- what the last read of the management bus returned, low byte first -/
  smbReply : List Byte := []
  /-- this module must stop driving after the edge of this count -/
  stopDriving : Option (BitVec 64) := none
  driveFrom : Option (BitVec 64) := none
  /-- boundary scan: instruction, boundary register, whether the pins follow it, what the last scan read -/
  tap : BitVec 4 := 2
  boundary : BitVec 64 := 0
  scanned : BitVec 64 := 0
  /-- what the module advertises on the BCN pins: term, key, count floor (R254) -/
  advert : Option (Nat × ElectionKey × BitVec 64) := none
  deriving DecidableEq, Repr

/-- The Beacon and its trees beside the BCN_ registers (chapter 09). -/
structure Beacon where
  /-- the source's edges are marked as holdover; other sources that delivered agreeing, unmarked sync frames -/
  marked : Bool := false
  sources : List EdgeSource := []
  /-- the module holds a count (R255, R262) -/
  holds : Bool := false
  /-- the best key of the term; the largest count floor heard -/
  best : Option ElectionKey := none
  floor : BitVec 64 := 0
  pendingTick : Option (BitVec 64 × Nat) := none
  trees : Map (Option TreeRun) := []
  /-- contributions of children that came before this node's reduction opened, by tree -/
  early : Map (List Contribution) := []
  /-- the model's cycle in which the module last locked to a source -/
  lockedAt : Option Nat := none
  schedule : List SchedEvent := []
  deriving DecidableEq, Repr

/-- The state of the module, with the host's memory and the packets that have left it. -/
structure State where
  /-- commands waiting, first in, first out -/
  pending : List Instr := []
  /-- arithmetic cycles the model has counted on an empty queue -/
  cycle : Nat := 0
  /-- how many free values the model has drawn; no rule of the spec reads it -/
  free : Nat := 0
  /-- transactions, multicasts and operations numbered so far (the model's own keys) -/
  nextKey : Nat := 0
  tiles : Map Tile := []
  /-- registers of the module register space, by offset -/
  regs : Map Word := []
  /-- HBM data bytes and the Halo of each 4 KiB block (R288) -/
  hbm : Map Byte := []
  halo : Map (BitVec 256) := []
  /-- storage errors present in HBM: 32-byte bursts that cannot be corrected, and correctable ones (R285) -/
  hbmBad : Map Bool := []
  hbmSoft : Map Bool := []
  hbmStacks : Map Stack := []
  /-- R234: physical columns of logical tiles moved off their reset column -/
  moved : Map (Option Nat) := []
  moves : List MapMove := []
  routers : Map Router := []
  retired : List Nat := []
  /-- cores and routers that the row maps do not name, by physical tile (R35, R36) -/
  spares : Map SpareUnit := []
  bcn : Beacon := {}
  ports : Map Port := []
  /-- causes that have reached Lighthouse for the vote of the current step (R321) -/
  causes : List Cause := []
  /-- the first status that ends the job (R444) -/
  jobFault : Option (BitVec 16) := none
  hif : HostIf := {}
  lh : Lighthouse := {}
  rel : Reliability := {}
  nl : Nightlight := {}
  pwr : Power := {}
  pins : Pins := {}
  colls : Map (List Coll) := []
  /-- collective engines, by axis: SIGs that have reached no trigger yet (axis, counter, count); packets in the output
  buffer, with their port; contributions that came before their descriptor's start; anchors of the outputs (R375), by
  axis × 256 + descriptor -/
  collSigs : List (Nat × Nat × Nat) := []
  collOut : Map (List (Nat × Packet)) := []
  collHeld : Map (List (BitVec 384 × List Byte × BitVec 64)) := []
  collAnchors : Map Nat := []
  deriving DecidableEq, Repr

/-- The machine right after module reset. -/
def State.reset : State := {}

/-- Why the machine stops. -/
inductive Fault where
  /-- Raised by every command that names a unit (a tile, a router, a stack, a port, a ring) by a number the module does
  not have (R2, R20): the command addresses nothing. Safe: the module has no such unit to act. -/
  | noSuchUnit
  deriving DecidableEq, Repr

/-- Why a command is refused. -/
inductive Refusal where
  /-- The command has no meaning yet (exec's arm only). Safe: the model stops. -/
  | notModelled (mnemonic : String)
  deriving DecidableEq, Repr

end Sys2Proof.Machine
end

