-- ==== Sys2Proof/Machine/Status.lean ====
section
/-! DEFINITION. The status codes (R18, R422): the class is the high byte. -/
namespace Sys2Proof.Machine.Status

def OK : BitVec 16 := 0x0000
def SCHED_LATE : BitVec 16 := 0x0001
def QUEUED : BitVec 16 := 0x0101
def SUSP_PRIORITY : BitVec 16 := 0x0102
def SUSP_HOST : BitVec 16 := 0x0103
def EXCH_LATE : BitVec 16 := 0x0104
def STEP_RESULT_LATE : BitVec 16 := 0x0105
def TEST_DEFERRED : BitVec 16 := 0x0106
def NVM_BUSY : BitVec 16 := 0x0107
def WIN_CLOSED : BitVec 16 := 0x0201
def CREDIT_TABLE_FULL : BitVec 16 := 0x0202
def TXN_LIMIT : BitVec 16 := 0x0203
def VOTE_CLOSED : BitVec 16 := 0x0204
def SCHED_RANGE : BitVec 16 := 0x0205
def SCHED_FULL : BitVec 16 := 0x0206
def BCN_BUSY : BitVec 16 := 0x0207
def GEN_PIN_LIMIT : BitVec 16 := 0x0208
def STEP_CONFIG : BitVec 16 := 0x0209
def BF_UNCONFIGURED : BitVec 16 := 0x020A
def BF_BUSY : BitVec 16 := 0x020B
def COLL_DESC : BitVec 16 := 0x020C
def REFUSED_CAPACITY : BitVec 16 := 0x020D
def CTX_LANES : BitVec 16 := 0x020E
def CTX_VERSION : BitVec 16 := 0x020F
def RING_CLASS : BitVec 16 := 0x0210
def OP_TAG_BUSY : BitVec 16 := 0x0211
def OP_TAG_UNKNOWN : BitVec 16 := 0x0212
def OP_STATE : BitVec 16 := 0x0213
def OP_FIXED : BitVec 16 := 0x0214
def RELAY_UNKNOWN : BitVec 16 := 0x0215
def ADMIN_ONLY : BitVec 16 := 0x0216
def OPS_LIMIT : BitVec 16 := 0x0217
def HOST_NOT_READY : BitVec 16 := 0x0218
def PWR_STATE : BitVec 16 := 0x0219
def SCHED_PAST : BitVec 16 := 0x021A
def ILLEGAL_OP : BitVec 16 := 0x0301
def INSN_FIELD : BitVec 16 := 0x0302
def PC_FAULT : BitVec 16 := 0x0303
def STORE_SCOPE : BitVec 16 := 0x0304
def TAG_SCOPE : BitVec 16 := 0x0305
def TAG_ALIGN : BitVec 16 := 0x0306
def TAG_TIMEOUT : BitVec 16 := 0x0307
def TILE_CFG_VALUE : BitVec 16 := 0x0308
def WIN_STATE : BitVec 16 := 0x0309
def WIN_RANGE : BitVec 16 := 0x030A
def EXCH_OVERRUN : BitVec 16 := 0x030B
def QUEUE_OVERRUN : BitVec 16 := 0x030C
def CREDIT_RANGE : BitVec 16 := 0x030D
def CREDIT_TIMEOUT : BitVec 16 := 0x030E
def SEM_OVERFLOW : BitVec 16 := 0x030F
def SEM_QFULL : BitVec 16 := 0x0310
def SEM_UNDERFLOW : BitVec 16 := 0x0311
def SEM_TIMEOUT : BitVec 16 := 0x0312
def SEM_XLAT : BitVec 16 := 0x0313
def TXN_STATE : BitVec 16 := 0x0314
def DMA_DESC : BitVec 16 := 0x0315
def MAT_OPERAND : BitVec 16 := 0x0316
def MAT_MX : BitVec 16 := 0x0317
def MAT_PAIR : BitVec 16 := 0x0318
def VEC_DESC : BitVec 16 := 0x0319
def GLT_DESC : BitVec 16 := 0x031A
def EXCH_PROGRAM : BitVec 16 := 0x031B
def MCAST_FORM : BitVec 16 := 0x031C
def BCN_CFG_VALUE : BitVec 16 := 0x031D
def HALO_ALIGN : BitVec 16 := 0x031E
def HALO_BARE : BitVec 16 := 0x031F
def GEN_ADDR : BitVec 16 := 0x0320
def GEN_WRITE : BitVec 16 := 0x0321
def GEN_RETIRED : BitVec 16 := 0x0322
def GEN_UNKNOWN : BitVec 16 := 0x0323
def GEN_UNWRITTEN : BitVec 16 := 0x0324
def HBM_CFG_VALUE : BitVec 16 := 0x0325
def BF_CFG_VALUE : BitVec 16 := 0x0326
def ADDR_UNMAPPED : BitVec 16 := 0x0327
def HIF_DESC : BitVec 16 := 0x0328
def HIF_CFG_VALUE : BitVec 16 := 0x0329
def SPAD_UE : BitVec 16 := 0x0401
def HALO_CRC : BitVec 16 := 0x0402
def POISON_CONSUMED : BitVec 16 := 0x0403
def HBM_CH_LOST : BitVec 16 := 0x0404
def COLL_DIGEST : BitVec 16 := 0x0405
def REPLICA_MINORITY : BitVec 16 := 0x0406
def HOST_DMA_ERROR : BitVec 16 := 0x0407
def NVM_UE : BitVec 16 := 0x0408
def TEST_FAILED : BitVec 16 := 0x0409
def MIRROR_MISMATCH : BitVec 16 := 0x040A
def DOMAIN_RESET : BitVec 16 := 0x0501
def EXCH_INCOMPLETE : BitVec 16 := 0x0502
def MCAST_TIMEOUT : BitVec 16 := 0x0503
def ROW_RETIRED : BitVec 16 := 0x0504
def BCN_LOST : BitVec 16 := 0x0505
def BCN_DESYNC : BitVec 16 := 0x0506
def SYNC_MISSING : BitVec 16 := 0x0507
def MODULE_ABSENT : BitVec 16 := 0x0508
def MODULE_OUT_OF_STEP : BitVec 16 := 0x0509
def LINK_DOWN : BitVec 16 := 0x050A
def PORT_FENCED : BitVec 16 := 0x050B
def BF_RANGE : BitVec 16 := 0x050C
def COLL_TIMEOUT : BitVec 16 := 0x050D
def RELAY_LOST : BitVec 16 := 0x050E
def UNIT_ECLIPSED : BitVec 16 := 0x050F
def PWR_NO_SAVE : BitVec 16 := 0x0601
def HBM_HOT : BitVec 16 := 0x0602
def HBM_OVERTEMP : BitVec 16 := 0x0603
def THERM_THROTTLE : BitVec 16 := 0x0604
def THERM_SHUTDOWN : BitVec 16 := 0x0605
def PWR_CAPPED : BitVec 16 := 0x0606
def PWR_BROWNOUT : BitVec 16 := 0x0607
def PWR_INPUT : BitVec 16 := 0x0608
def ADDR_DENIED : BitVec 16 := 0x0701
def SEC_SIGNATURE : BitVec 16 := 0x0702
def SEC_ROLLBACK : BitVec 16 := 0x0703
def SEC_PRESENCE : BitVec 16 := 0x0704
def SEC_TAMPER : BitVec 16 := 0x0705
def GEN_NO_SLOT : BitVec 16 := 0x0801
def GEN_INCOMPLETE : BitVec 16 := 0x0802
def LAYOUT_STALE : BitVec 16 := 0x0803
def STEP_NONFINITE : BitVec 16 := 0x0804
def STEP_SPIKE : BitVec 16 := 0x0805
def STEP_INCOMPLETE : BitVec 16 := 0x0806
def STEP_VETO : BitVec 16 := 0x0807
def STEP_DISCARDED : BitVec 16 := 0x0808
def STEP_ABORT_LIMIT : BitVec 16 := 0x0809
def OP_CANCELLED : BitVec 16 := 0x080A

/-- The class of a status (R18). -/
def cls (c : BitVec 16) : Nat := c.toNat / 256

/-- A status of class 0x00 is a success (R18). -/
def ok (c : BitVec 16) : Bool := decide (cls c = 0)

end Sys2Proof.Machine.Status
end

