-- ==== Sys2Proof/Machine/TileRegs.lean ====
section
/-! DEFINITION. Registers: fields, access codes and value tables (R13 to R17), and the tile control block. -/
namespace Sys2Proof.Machine

/-- A field of a register: the register's offset, the field's lowest bit, its width. -/
structure Fld where
  off : Nat
  lsb : Nat
  width : Nat

/-- The access codes of R14. A RW field lists the ranges of values it takes (R17). RSV bits stand in no field. -/
inductive Access where
  | rw (valid : List (Nat × Nat))
  | ro
  | w1c
  | w1s
  | wo

/-- A field of a register's table. -/
structure FieldSpec where
  lsb : Nat
  width : Nat
  acc : Access

/-- Any value of the field. -/
def Access.any : Access := .rw []

/-- Whether a RW field takes the value (R17). -/
def Access.takes (valid : List (Nat × Nat)) (v : Nat) : Bool :=
  valid.isEmpty || valid.any (fun r => decide (r.1 ≤ v) && decide (v ≤ r.2))

/-- One field of a write (R14, R17): `mask` marks the bits that the access carries. Answers the register and whether
the value was refused. -/
def writeField (f : FieldSpec) (old new mask : Nat) : Nat × Bool :=
  let o := bits old f.lsb f.width
  let m := bits mask f.lsb f.width
  let n := bits new f.lsb f.width
  let merged := (n &&& m) ||| (o &&& (2 ^ f.width - 1 - m))
  if m = 0 then (old, false) else
  match f.acc with
  | .rw valid => if Access.takes valid merged then (putBits old f.lsb f.width merged, false) else (old, true)
  | .ro => (old, false)
  | .w1c => (putBits old f.lsb f.width (o &&& (2 ^ f.width - 1 - (n &&& m))), false)
  | .w1s => (putBits old f.lsb f.width (o ||| (n &&& m)), false)
  | .wo => (old, false)

/-- A write of a register under its table: the new word, and whether any field refused its value. -/
def writeFields : List FieldSpec → Nat → Nat → Nat → Nat × Bool
  | [], old, _, _ => (old, false)
  | f :: fs, old, new, mask =>
    let r := writeField f old new mask
    let r' := writeFields fs r.1 new mask
    (r'.1, r.2 || r'.2)

/-! ### The tile control block -/

namespace TILE
def CORE_EPOCH : Fld := ⟨0x40, 0, 16⟩
def RTR_EPOCH : Fld := ⟨0x40, 16, 16⟩
def CORE_READY : Fld := ⟨0x40, 32, 1⟩
def CORE_PWR : Fld := ⟨0x40, 33, 1⟩
def STALE_REPLIES : Fld := ⟨0x40, 48, 16⟩
def TIMEOUT_EXP : Fld := ⟨0x80, 0, 5⟩
def TIMEOUTS : Fld := ⟨0x88, 0, 16⟩
def ECC_CORRECTED : Fld := ⟨0x88, 32, 16⟩
def ECC_UNCORRECTED : Fld := ⟨0x88, 48, 16⟩
def BANK_CONFLICTS : Fld := ⟨0x90, 0, 48⟩
def BC_OVF : Fld := ⟨0x90, 48, 1⟩
def WAITLVL : Fld := ⟨0xC0, 0, 2⟩
def FAULT_STOP : Fld := ⟨0xC0, 2, 1⟩
def RND_DEF : Fld := ⟨0xC0, 4, 3⟩
def FAULT_CODE : Fld := ⟨0xC8, 0, 16⟩
def FAULT_PC : Fld := ⟨0xC8, 16, 20⟩
def FAULT_VALID : Fld := ⟨0xC8, 37, 1⟩
def PEND : Fld := ⟨0xD0, 0, 7⟩
def MAT_POLICY : Fld := ⟨0x100, 0, 2⟩
def FWD_AHEAD : Fld := ⟨0x100, 8, 4⟩
def ERANGE : Fld := ⟨0x108, 8, 4⟩
def EXACT_RANGE : Fld := ⟨0x108, 12, 1⟩
def AHEAD : Fld := ⟨0x108, 16, 4⟩
def MAT_BUSY : Fld := ⟨0x110, 0, 48⟩
def MAT_STALLS : Fld := ⟨0x118, 0, 48⟩
def NUM_REPRO : Fld := ⟨0x140, 0, 2⟩
def SAT_NARROW : Fld := ⟨0x140, 2, 1⟩
def SCALE_RULE : Fld := ⟨0x140, 3, 1⟩
def VEC_LFALLBACK : Fld := ⟨0x150, 0, 1⟩
def VEC_CLAMP : Fld := ⟨0x150, 1, 1⟩
def GLT_KEY : Fld := ⟨0x180, 0, 64⟩
def GLT_SRC : Fld := ⟨0x1C8, 0, 64⟩
def SROFF : Fld := ⟨0x1D0, 0, 32⟩
def SRSTRIDE : Fld := ⟨0x1D0, 32, 32⟩
def MCAST_EXP : Fld := ⟨0x300, 0, 5⟩
def GRACE_EXP : Fld := ⟨0x300, 8, 5⟩
def PHASE_STATUS : Fld := ⟨0x308, 0, 16⟩
def LATE_START : Fld := ⟨0x308, 17, 1⟩
def SSTEP : Fld := ⟨0x310, 0, 64⟩
def LATE_PHASES : Fld := ⟨0x318, 0, 16⟩
def OVERRUNS : Fld := ⟨0x318, 16, 16⟩
def MC_TIMEOUTS : Fld := ⟨0x318, 32, 16⟩
def matRows (k : Nat) : Fld := ⟨0x200 + 16 * (k - 1), 0, 48⟩
def matCols (k : Nat) : Fld := ⟨0x208 + 16 * (k - 1), 0, 48⟩
def glintStream (m : Nat) : Fld := ⟨0x188 + 8 * m, 0, 32⟩
def glintBase (m : Nat) : Fld := ⟨0x188 + 8 * m, 32, 32⟩
def SENT_BLK (k : Nat) : Fld := ⟨0x400 + 8 * k, 0, 36⟩
def SENT_NBLK (k : Nat) : Fld := ⟨0x400 + 8 * k, 36, 16⟩
def SENT_VALID (k : Nat) : Fld := ⟨0x400 + 8 * k, 52, 1⟩
def SENT_SSTEP : Fld := ⟨0x420, 0, 32⟩
def semXlat (n : Nat) : Fld := ⟨0x1400 + 8 * n, 0, 64⟩
end TILE

/-- ANCH_k and SET_k of TILE_NUM_ANCH (R156). -/
def anchorFld (k : Nat) : Fld := ⟨0x148, 16 * k, 10⟩
def anchorSet (k : Nat) : Fld := ⟨0x148, 16 * k + 10, 1⟩

/-- The value after module reset of the register at an offset of the tile control block. -/
def tileReset (off : Nat) : Word :=
  if off = 0x80 then 0x18
  else if off = 0xC0 then 0x14
  else if off = 0x140 then 0x4
  else if 0x200 ≤ off ∧ off < 0x2F0 then 0xFFFF_FFFF_FFFF
  else if off = 0x300 then 0x1014
  else 0

/-- The table of the register at an offset of the tile control block; none where no register stands. -/
def tileFields (off : Nat) : Option (List FieldSpec) :=
  if off = 0x40 then some [⟨0, 16, .ro⟩, ⟨16, 16, .ro⟩, ⟨32, 1, .ro⟩, ⟨33, 1, .ro⟩, ⟨48, 16, .ro⟩]
  else if off = 0x80 then some [⟨0, 5, .rw [(10, 31)]⟩]
  else if off = 0x88 then some [⟨0, 16, .ro⟩, ⟨16, 5, .ro⟩, ⟨32, 16, .ro⟩, ⟨48, 16, .ro⟩]
  else if off = 0x90 then some [⟨0, 48, .ro⟩, ⟨48, 1, .w1c⟩]
  else if off = 0xC0 then some [⟨0, 2, .rw [(0, 2)]⟩, ⟨2, 1, .any⟩, ⟨4, 3, .rw [(1, 5)]⟩]
  else if off = 0xC8 then some [⟨0, 16, .ro⟩, ⟨16, 20, .ro⟩, ⟨36, 1, .ro⟩, ⟨37, 1, .w1c⟩]
  else if off = 0xD0 then some [⟨0, 7, .ro⟩]
  else if off = 0x100 then some [⟨0, 2, .rw [(0, 2)]⟩, ⟨8, 4, .any⟩]
  else if off = 0x108 then some [⟨0, 5, .ro⟩, ⟨5, 1, .ro⟩, ⟨6, 1, .ro⟩, ⟨7, 1, .ro⟩, ⟨8, 4, .ro⟩, ⟨12, 1, .w1c⟩, ⟨16, 4, .ro⟩]
  else if off = 0x110 ∨ off = 0x118 ∨ off = 0x158 then some [⟨0, 48, .ro⟩, ⟨48, 1, .w1c⟩]
  else if off = 0x140 then some [⟨0, 2, .ro⟩, ⟨2, 1, .any⟩, ⟨3, 1, .any⟩]
  else if off = 0x148 then some [⟨0, 10, .any⟩, ⟨10, 1, .any⟩, ⟨16, 10, .any⟩, ⟨26, 1, .any⟩, ⟨32, 10, .any⟩,
    ⟨42, 1, .any⟩, ⟨48, 10, .any⟩, ⟨58, 1, .any⟩]
  else if off = 0x150 then some [⟨0, 1, .w1c⟩, ⟨1, 1, .w1c⟩, ⟨16, 5, .ro⟩]
  else if off = 0x180 then some [⟨0, 64, .ro⟩]
  else if 0x188 ≤ off ∧ off < 0x1C8 then some [⟨0, 32, .ro⟩, ⟨32, 32, .ro⟩]
  else if off = 0x1C8 then some [⟨0, 64, .any⟩]
  else if off = 0x1D0 then some [⟨0, 32, .any⟩, ⟨32, 32, .any⟩]
  else if 0x200 ≤ off ∧ off < 0x2F0 then some [⟨0, 48, .any⟩]
  else if off = 0x300 then some [⟨0, 5, .rw [(10, 31)]⟩, ⟨8, 5, .rw [(8, 24)]⟩]
  else if off = 0x308 then some [⟨0, 16, .ro⟩, ⟨16, 1, .ro⟩, ⟨17, 1, .ro⟩, ⟨18, 4, .ro⟩, ⟨24, 12, .ro⟩, ⟨36, 12, .ro⟩]
  else if off = 0x310 then some [⟨0, 64, .ro⟩]
  else if off = 0x318 then some [⟨0, 16, .ro⟩, ⟨16, 16, .ro⟩, ⟨32, 16, .ro⟩]
  else if 0x400 ≤ off ∧ off < 0x420 then some [⟨0, 36, .any⟩, ⟨36, 16, .rw [(1, 65535)]⟩, ⟨52, 1, .any⟩]
  else if off = 0x420 then some [⟨0, 32, .any⟩]
  else if 0x1000 ≤ off ∧ off < 0x1C00 then some [⟨0, 64, .ro⟩]
  else none

/-- The word held of the register at `off`. -/
def Tile.rd (t : Tile) (off : Nat) : Word := Map.get (tileReset off) t.regs off

/-- The tile with the register at `off` holding `v`. -/
def Tile.wr (t : Tile) (off : Nat) (v : Word) : Tile := { t with regs := Map.set (tileReset off) t.regs off v }

/-- A field of the tile's registers. -/
def Tile.fld (t : Tile) (f : Fld) : Nat := bits (t.rd f.off).toNat f.lsb f.width

/-- The tile with a field set. -/
def Tile.setFld (t : Tile) (f : Fld) (v : Nat) : Tile :=
  t.wr f.off (BitVec.ofNat 64 (putBits (t.rd f.off).toNat f.lsb f.width v))

/-- A saturating counter of the tile's registers raised by 1. -/
def Tile.bumpFld (t : Tile) (f : Fld) : Tile := t.setFld f (bump f.width (t.fld f))

/-- A wrapping counter with an overflow bit above it raised by `n`. -/
def Tile.countFld (t : Tile) (f : Fld) (n : Nat) : Tile :=
  let v := t.fld f + n
  let t := t.setFld f v
  if 2 ^ f.width ≤ v then t.setFld ⟨f.off, f.lsb + f.width, 1⟩ 1 else t

def Tile.window (t : Tile) (w : Nat) : Window := Map.get {} t.wins w
def Tile.setWindow (t : Tile) (w : Nat) (d : Window) : Tile := { t with wins := Map.set {} t.wins w d }

/-- POOL (R57, R65): what a queue window has neither landed nor granted. -/
def Window.pool (d : Window) : Nat := if d.queue then d.len - d.occupied - d.granted else 0

/-- The STATE field's value (R56). -/
def WinState.code : WinState → Nat
  | .closed => 0
  | .opened => 1
  | .closing => 2

/-- TILE_WIN_DESC_LO and TILE_WIN_DESC_HI. -/
def Window.lo (d : Window) : Nat :=
  d.base + d.len * 2 ^ 12 + ofBool d.queue * 2 ^ 24 + d.st.code * 2 ^ 26 + d.gen.toNat * 2 ^ 32 + d.pool * 2 ^ 48
def Window.hi (d : Window) : Nat :=
  d.head + d.tail * 2 ^ 12 + d.occupied * 2 ^ 24 + d.granted * 2 ^ 36 + d.refused.toNat * 2 ^ 48

/-- What a read of the register at `off` (a multiple of 8) of the tile control block returns. The fields that count
other state are computed from it. -/
def Tile.readReg (t : Tile) (off : Nat) : Word :=
  let r := (t.rd off).toNat
  BitVec.ofNat 64 <|
    if off = 0x88 then putBits r 16 5 t.parked.length
    else if off = 0xC8 then putBits r 36 1 (ofBool t.halted)
    else if off = 0x108 then
      putBits (putBits (putBits r 0 5 t.lists.length) 5 1 (ofBool (t.running.isSome || t.astWait.isSome))) 6 1
        (match t.running with | some x => ofBool x.list.backward | none => 0)
    else if off = 0x150 then putBits r 16 5 t.vq.length
    else if off = 0x308 then
      let ph := t.phase.filter (·.started)
      putBits (putBits (putBits (putBits r 16 1 (ofBool ph.isSome)) 18 4 (t.mcasts.filter (·.multi)).length)
        24 12 (match ph with | some p => p.nrecv - t.recv0 | none => 0))
        36 12 (match ph with | some p => p.nsend - p.answered.length | none => 0)
    else if 0x1000 ≤ off ∧ off < 0x1400 then
      (if (off - 0x1000) % 16 = 0 then (t.window ((off - 0x1000) / 16)).lo else (t.window ((off - 0x1000) / 16)).hi)
    else if (tileFields off).isSome then r else 0

/-- A write of the bits `mask` of the register at `off` by tile code: the tile, and whether a value was refused (R17).
Clearing VALID clears CODE and PC as well (R104). -/
def Tile.writeReg (t : Tile) (off new mask : Nat) : Tile × Bool :=
  match tileFields off with
  | none => (t, false)
  | some fs =>
    let r := writeFields fs (t.rd off).toNat new mask
    let v := if off = 0xC8 ∧ bits r.1 37 1 = 0 then 0 else r.1
    (t.wr off (BitVec.ofNat 64 v), r.2)

end Sys2Proof.Machine
end

