-- ==== Sys2Proof/Machine/ModRegs.lean ====
section
/-! DEFINITION. The module register space (R25): offsets, resets, field tables of its blocks. -/
namespace Sys2Proof.Machine

/-- The bases of the blocks (R25). -/
def hbmBase (stack : Nat) : Nat := 0x0100_0000 + stack * 0x10_0000
def bfBase (port : Nat) : Nat := 0x0200_0000 + port * 0x10_0000
def bcnBase : Nat := 0x0280_0000
def pwrBase : Nat := 0x0290_0000
def nvmBase : Nat := 0x02A0_0000
def secBase : Nat := 0x02B0_0000
def sramBase : Nat := 0x0300_0000

namespace BCN
def COUNT : Fld := ⟨bcnBase + 0, 0, 64⟩
def SUBTICK : Fld := ⟨bcnBase + 8, 0, 32⟩
def TICK_NS : Fld := ⟨bcnBase + 0x10, 0, 21⟩
def CAND : Fld := ⟨bcnBase + 0x10, 21, 1⟩
def PRIO : Fld := ⟨bcnBase + 0x10, 22, 8⟩
def HOLD_MS : Fld := ⟨bcnBase + 0x10, 32, 8⟩
def STATE : Fld := ⟨bcnBase + 0x18, 0, 3⟩
def SRC : Fld := ⟨bcnBase + 0x18, 3, 4⟩
def TERM : Fld := ⟨bcnBase + 0x18, 8, 16⟩
def DEPTH : Fld := ⟨bcnBase + 0x18, 24, 8⟩
def MASTER : Fld := ⟨bcnBase + 0x18, 32, 14⟩
def MISSED_EDGES : Fld := ⟨bcnBase + 0x20, 0, 16⟩
def COUNT_ERRS : Fld := ⟨bcnBase + 0x20, 16, 16⟩
def ELECTIONS : Fld := ⟨bcnBase + 0x20, 32, 16⟩
def DESYNC : Fld := ⟨bcnBase + 0x20, 48, 1⟩
def PARENT (m : Nat) : Fld := ⟨bcnBase + 0x100 + 16 * m, 0, 4⟩
def CHILDREN (m : Nat) : Fld := ⟨bcnBase + 0x100 + 16 * m, 4, 8⟩
def VALID (m : Nat) : Fld := ⟨bcnBase + 0x100 + 16 * m, 12, 1⟩
def LOCAL_TARGET (m : Nat) : Fld := ⟨bcnBase + 0x100 + 16 * m, 16, 16⟩
def REL_ENTRY (m : Nat) : Fld := ⟨bcnBase + 0x100 + 16 * m, 32, 6⟩
def REL_HOME (m : Nat) : Fld := ⟨bcnBase + 0x100 + 16 * m, 38, 12⟩
def REL_N (m : Nat) : Fld := ⟨bcnBase + 0x100 + 16 * m, 50, 14⟩
def ARRIVED (m : Nat) : Fld := ⟨bcnBase + 0x108 + 16 * m, 0, 16⟩
def MISSING (m : Nat) : Fld := ⟨bcnBase + 0x108 + 16 * m, 16, 14⟩
def SYNC_MISSING (m : Nat) : Fld := ⟨bcnBase + 0x108 + 16 * m, 30, 1⟩
def BUSY (m : Nat) : Fld := ⟨bcnBase + 0x108 + 16 * m, 31, 1⟩
def FIRST_ABSENT (m : Nat) : Fld := ⟨bcnBase + 0x108 + 16 * m, 32, 14⟩
def DROPPED (m : Nat) : Fld := ⟨bcnBase + 0x108 + 16 * m, 46, 8⟩
def LATE (m : Nat) : Fld := ⟨bcnBase + 0x108 + 16 * m, 54, 8⟩
end BCN

namespace BCN
def FLIGHT : Fld := ⟨bcnBase + 0x28, 0, 16⟩
def SLOT : Fld := ⟨bcnBase + 0x28, 16, 3⟩
def BOARD : Fld := ⟨bcnBase + 0x28, 19, 1⟩
def DRIVING : Fld := ⟨bcnBase + 0x28, 20, 1⟩
def TOKEN : Fld := ⟨bcnBase + 0x28, 21, 1⟩
def COLLISIONS : Fld := ⟨bcnBase + 0x28, 32, 16⟩
end BCN

namespace HIF
def READY : Fld := ⟨0x10, 0, 1⟩
def BOOT_WAIT : Fld := ⟨0x10, 1, 1⟩
def LH_EPOCH : Fld := ⟨0x10, 16, 16⟩
def LINK_GEN : Fld := ⟨0x10, 32, 3⟩
def LINK_WIDTH : Fld := ⟨0x10, 35, 5⟩
def FLIT : Fld := ⟨0x10, 40, 1⟩
def RELAY_ACTIVE : Fld := ⟨0x10, 41, 1⟩
def EV_ENABLE : Fld := ⟨0x18, 0, 1⟩
def UNMAPPED : Fld := ⟨0x20, 0, 1⟩
def DOORBELL_RANGE : Fld := ⟨0x20, 1, 1⟩
def RING_STOPPED : Fld := ⟨0x20, 2, 1⟩
def HOST_DMA : Fld := ⟨0x20, 3, 1⟩
def CFG_VALUE : Fld := ⟨0x20, 4, 1⟩
def BACKLOG_FULL : Fld := ⟨0x20, 5, 1⟩
def FETCH_HELD : Fld := ⟨0x20, 6, 1⟩
def LAST_RING : Fld := ⟨0x20, 16, 6⟩
def ring (n : Nat) : Nat := 0x1000 + 64 * n
def SQ_BASE (n : Nat) : Fld := ⟨ring n, 12, 52⟩
def CQ_BASE (n : Nat) : Fld := ⟨ring n + 8, 12, 52⟩
def ENABLE (n : Nat) : Fld := ⟨ring n + 0x10, 0, 1⟩
def SQ_LOG2 (n : Nat) : Fld := ⟨ring n + 0x10, 1, 5⟩
def CQ_LOG2 (n : Nat) : Fld := ⟨ring n + 0x10, 6, 5⟩
def CLASS (n : Nat) : Fld := ⟨ring n + 0x10, 11, 1⟩
def WEIGHT (n : Nat) : Fld := ⟨ring n + 0x10, 12, 8⟩
def VECTOR (n : Nat) : Fld := ⟨ring n + 0x10, 20, 6⟩
def COAL_N (n : Nat) : Fld := ⟨ring n + 0x10, 26, 8⟩
def COAL_US (n : Nat) : Fld := ⟨ring n + 0x10, 34, 10⟩
def SQ_HEAD (n : Nat) : Fld := ⟨ring n + 0x18, 0, 16⟩
def CQ_TAIL (n : Nat) : Fld := ⟨ring n + 0x18, 16, 16⟩
def CQ_PHASE (n : Nat) : Fld := ⟨ring n + 0x18, 32, 1⟩
def RSTATE (n : Nat) : Fld := ⟨ring n + 0x18, 33, 2⟩
def WAIT_US (n : Nat) : Fld := ⟨ring n + 0x20, 0, 32⟩
def MAX_US (n : Nat) : Fld := ⟨ring n + 0x20, 32, 32⟩
def FETCHED (n : Nat) : Fld := ⟨ring n + 0x28, 0, 48⟩
def FET_OVF (n : Nat) : Fld := ⟨ring n + 0x28, 48, 1⟩
def RMODULE (k : Nat) : Fld := ⟨0x2000 + 8 * k, 0, 14⟩
def RVALID (k : Nat) : Fld := ⟨0x2000 + 8 * k, 14, 1⟩
def HOPS (k : Nat) : Fld := ⟨0x2000 + 8 * k, 16, 6⟩
def REACHABLE (k : Nat) : Fld := ⟨0x2000 + 8 * k, 22, 1⟩
/-- Entry v of the MSI-X table: message address, message data, the mask bit of its vector control. -/
def MSIX_ADDR (v : Nat) : Fld := ⟨0x3000 + 16 * v, 0, 64⟩
def MSIX_DATA (v : Nat) : Fld := ⟨0x3008 + 16 * v, 0, 32⟩
def MSIX_MASK (v : Nat) : Fld := ⟨0x3008 + 16 * v, 32, 1⟩
def PBA (v : Nat) : Fld := ⟨0x3800, v, 1⟩
end HIF

namespace PWR
def TJ : Fld := ⟨pwrBase, 12, 8⟩
def POWER_W : Fld := ⟨pwrBase, 20, 12⟩
def VIN : Fld := ⟨pwrBase, 32, 10⟩
def CAP_UNMET : Fld := ⟨pwrBase, 42, 1⟩
def CAP_W : Fld := ⟨pwrBase + 8, 0, 12⟩
def NEXT : Fld := ⟨pwrBase + 0x10, 0, 2⟩
def WAKE_EN : Fld := ⟨pwrBase + 0x10, 2, 4⟩
def WAKE_AT : Fld := ⟨pwrBase + 0x18, 0, 64⟩
def WAKE_UTC : Fld := ⟨pwrBase + 0x20, 0, 64⟩
def NL_BROWNOUT : Fld := ⟨pwrBase + 0x28, 0, 1⟩
def LOWPOWER : Fld := ⟨pwrBase + 0x28, 1, 1⟩
def THROTTLES : Fld := ⟨pwrBase + 0x30, 0, 16⟩
def STOPS : Fld := ⟨pwrBase + 0x30, 16, 16⟩
def CAP_ENTRIES : Fld := ⟨pwrBase + 0x30, 32, 16⟩
def BROWNOUTS : Fld := ⟨pwrBase + 0x30, 48, 16⟩
end PWR

namespace NVM
def LIFE (n : Nat) : Fld := ⟨nvmBase + 0x100 + 8 * n, 0, 64⟩
def FLOOR : Fld := ⟨nvmBase + 0x140, 0, 64⟩
def CAL : Fld := ⟨nvmBase + 0x200, 0, 64⟩
def CAL_VALID : Fld := ⟨nvmBase + 0x208, 0, 1⟩
def VBAT_LOW : Fld := ⟨nvmBase + 0x208, 1, 1⟩
def FAULT_N : Fld := ⟨nvmBase + 0x400, 0, 2⟩
def WINDOW_D : Fld := ⟨nvmBase + 0x400, 2, 9⟩
def DEFER_D : Fld := ⟨nvmBase + 0x400, 11, 5⟩
def TEST_D : Fld := ⟨nvmBase + 0x400, 16, 8⟩
def K : Fld := ⟨nvmBase + 0x400, 24, 13⟩
def LEAD_BT : Fld := ⟨nvmBase + 0x400, 37, 12⟩
end NVM

namespace SEC
def SVN : Fld := ⟨secBase + 8, 0, 32⟩
def FW_DIGEST (k : Nat) : Fld := ⟨secBase + 0x10 + 8 * k, 0, 64⟩
def KEY_IDX : Fld := ⟨secBase, 36, 2⟩
end SEC

namespace HBM
def TEMP (k : Nat) : Fld := ⟨hbmBase k, 0, 8⟩
def TLEVEL (k : Nat) : Fld := ⟨hbmBase k, 8, 2⟩
def SPARE_USED (k : Nat) : Fld := ⟨hbmBase k, 10, 1⟩
def SPARE_FOR (k : Nat) : Fld := ⟨hbmBase k, 11, 4⟩
def COPY_BUSY (k : Nat) : Fld := ⟨hbmBase k, 15, 1⟩
def FAILED (k : Nat) : Fld := ⟨hbmBase k, 16, 16⟩
def ENTRY_DOWN (k : Nat) : Fld := ⟨hbmBase k, 32, 1⟩
def CH_EPOCH (k ch : Nat) : Fld := ⟨hbmBase k + 0x100 + 8 * ch, 0, 16⟩
def CH_READY (k ch : Nat) : Fld := ⟨hbmBase k + 0x100 + 8 * ch, 16, 1⟩
def CORRECTED (k : Nat) : Fld := ⟨hbmBase k + 0x200, 0, 24⟩
def UNCORRECTED (k : Nat) : Fld := ⟨hbmBase k + 0x200, 24, 16⟩
def CRC_FAILS (k : Nat) : Fld := ⟨hbmBase k + 0x200, 40, 16⟩
def POISON_CLEARED (k : Nat) : Fld := ⟨hbmBase k + 0x200, 56, 8⟩
def LOCAL_UNITS : Fld := ⟨hbmBase 0 + 0x8_0000, 0, 6⟩
def SCRUB_H : Fld := ⟨hbmBase 0 + 0x8_0000, 8, 6⟩
def LIT : Fld := ⟨hbmBase 0 + 0x8_0008, 0, 24⟩
def SHADOW : Fld := ⟨hbmBase 0 + 0x8_0008, 24, 24⟩
def ATTEMPT : Fld := ⟨hbmBase 0 + 0x8_0008, 48, 8⟩
def OPEN : Fld := ⟨hbmBase 0 + 0x8_0008, 56, 1⟩
/-- The fields of HBM_VREGn, word by word. -/
def vreg (n : Nat) : Nat := hbmBase 0 + 0x9_0000 + 32 * n
def BASE_BLK (n : Nat) : Fld := ⟨vreg n, 0, 28⟩
def LEN_BLK (n : Nat) : Fld := ⟨vreg n, 32, 24⟩
def SLOTS (n : Nat) : Fld := ⟨vreg n, 56, 2⟩
def LEPOCH (n : Nat) : Fld := ⟨vreg n + 8, 24, 8⟩
def FREE (n : Nat) : Fld := ⟨vreg n + 8, 56, 3⟩
def WRITTEN (n : Nat) : Fld := ⟨vreg n + 24, 16, 24⟩
/-- GENk, PINk: the generation and the pins of slot k. -/
def GEN (n k : Nat) : Fld :=
  match k with
  | 0 => ⟨vreg n + 8, 0, 24⟩
  | 1 => ⟨vreg n + 8, 32, 24⟩
  | _ => ⟨vreg n + 16, 0, 24⟩
def PIN (n k : Nat) : Fld :=
  match k with
  | 0 => ⟨vreg n + 16, 32, 16⟩
  | 1 => ⟨vreg n + 16, 48, 16⟩
  | _ => ⟨vreg n + 24, 0, 16⟩
end HBM

/-- The offset under which a register is held: the sixteen copies of a module-wide HBM_ register
are one, the eight of BF_SELF, and the two of a collective engine's registers (the blocks of both ports of its axis). -/
def canonical (off : Nat) : Nat :=
  if 0x0100_0000 ≤ off ∧ off < 0x0200_0000 ∧ 0x8_0000 ≤ off % 0x10_0000 then 0x0100_0000 + off % 0x10_0000
  else if 0x0200_0000 ≤ off ∧ off < 0x0280_0000 ∧ 0x8_0000 ≤ off % 0x10_0000 then 0x0200_0000 + off % 0x10_0000
  else if 0x0200_0000 ≤ off ∧ off < 0x0280_0000 ∧ 0x1000 ≤ off % 0x10_0000 then off - off / 0x10_0000 % 2 * 0x10_0000
  else off

/-- HIF_RING_CFGn after reset: both rings of 16 entries, best-effort but for ring 0, weight 1, vector n, one entry an
interrupt. -/
def ringReset (n : Nat) : Word :=
  BitVec.ofNat 64 (4 * 2 + 4 * 2 ^ 6 + (if n = 0 then 0 else 2 ^ 11) + 2 ^ 12 + n * 2 ^ 20 + 2 ^ 26)

/-- The value after module reset of the register at a (canonical) offset; of a setting held in NVM, its factory value. -/
def modReset (off : Nat) : Word :=
  if off = bcnBase + 0x10 then BitVec.ofNat 64 (0x3E8 + 2 ^ 21 + 0x80 * 2 ^ 22 + 0x40 * 2 ^ 32)
  else if off = bcnBase + 0x18 then 0x78
  else if bcnBase + 0x100 ≤ off ∧ off < bcnBase + 0x200 ∧ off % 16 = 0 then 0xF
  else if off = hbmBase 0 + 0x8_0000 then 0x1800
  else if bfBase 0 ≤ off ∧ off < bfBase 8 ∧ off % 0x10_0000 = 8 then 1
  else if hbmBase 0 + 0x9_0000 ≤ off ∧ off < hbmBase 0 + 0x9_8000 ∧ off % 32 = 8 then BitVec.ofNat 64 (7 * 2 ^ 56)
  else if off = 0 then BitVec.ofNat 64 (0x768 + 2 ^ 16 + 2 ^ 24 + 0x40 * 2 ^ 32)
  else if off = 0x10 then 2
  else if 0x1000 ≤ off ∧ off < 0x2000 ∧ off % 64 = 0x10 then ringReset ((off - 0x1000) / 64)
  else if 0x1000 ≤ off ∧ off < 0x2000 ∧ off % 64 = 0x18 then BitVec.ofNat 64 (2 ^ 32)
  else if off = 0x2000 then BitVec.ofNat 64 (2 ^ 14)
  else if 0x3000 ≤ off ∧ off < 0x3400 ∧ off % 16 = 8 then BitVec.ofNat 64 (2 ^ 32)
  else if off = pwrBase + 8 then 0x960
  else if off = pwrBase + 0x10 then 0x38
  else if off = nvmBase + 0x400 then
    BitVec.ofNat 64 (3 + 0x1E * 2 ^ 2 + 0x1E * 2 ^ 11 + 7 * 2 ^ 16 + 0x40 * 2 ^ 24 + 0x40 * 2 ^ 37)
  else if off = nvmBase + 0x408 then BitVec.ofNat 64 (1 + 0x80 * 2 + 0x40 * 2 ^ 9)
  else if off = nvmBase + 0x440 then 0xE960
  else 0

/-- The word held of the module register at `off`. -/
def State.rd (s : State) (off : Nat) : Word := Map.get (modReset (canonical off)) s.regs (canonical off)

/-- The state with the module register at `off` holding `v`. -/
def State.wr (s : State) (off : Nat) (v : Word) : State :=
  { s with regs := Map.set (modReset (canonical off)) s.regs (canonical off) v }

/-- A field of the module's registers. -/
def State.fld (s : State) (f : Fld) : Nat := bits (s.rd f.off).toNat f.lsb f.width

/-- The state with a field set. -/
def State.setFld (s : State) (f : Fld) (v : Nat) : State :=
  s.wr f.off (BitVec.ofNat 64 (putBits (s.rd f.off).toNat f.lsb f.width v))

/-- A saturating counter raised by 1. -/
def State.bumpFld (s : State) (f : Fld) : State := s.setFld f (bump f.width (s.fld f))

end Sys2Proof.Machine
end

