-- ==== Sys2Proof/Machine/Packets.lean ====
section
/-! DEFINITION. Packets between modules: the header of R345, module coordinates and routes (R348), what leaves through a
port (R349, R350, R360). -/
namespace Sys2Proof.Machine

/-- The fields of a packet header (R345). -/
structure Hdr where
  type : Nat
  vc : Nat
  sub : Nat := 0
  dst : Nat
  src : Nat
  dirs : Nat := 0
  dstTile : Nat := 0
  srcTile : Nat := 0
  epoch : Nat := 0
  tag : Nat := 0
  status : Nat := 0
  addr : Nat := 0
  win : Nat := 0
  wgen : Nat := 0
  fslot : Nat := 0
  bcn : Nat := 0
  sstep : Nat := 0
  len : Nat := 0
  halo : Bool := false
  lepoch : Nat := 0
  /-- header bits [351:312] (R376) -/
  ext : Nat := 0

/-- The fields at their places, HCRC left 0. -/
def Hdr.body (h : Hdr) : Nat :=
  [(h.type, 0, 4), (h.vc, 4, 3), (h.sub, 7, 1), (h.dst, 8, 24), (h.src, 32, 24), (h.dirs, 56, 4), (h.dstTile, 64, 12),
   (h.srcTile, 76, 12), (h.epoch, 88, 16), (h.tag, 104, 16), (h.status, 120, 16), (h.addr, 136, 48), (h.win, 184, 6),
   (h.wgen, 192, 16), (h.fslot, 208, 12), (h.bcn, 224, 32), (h.sstep, 256, 32), (h.len, 288, 14),
   (ofBool h.halo, 302, 1), (h.lepoch, 304, 8), (h.ext, 312, 40)].foldl (fun w f => putBits w f.2.1 f.2.2 f.1) 0

/-- The 48-byte header, its HCRC over bytes 0 to 43. -/
def Hdr.encode (h : Hdr) : BitVec 384 :=
  BitVec.ofNat 384 (h.body + (crc32c (bytesOf h.body 44)).toNat * 2 ^ 352)

/-- The header's fields. -/
def Hdr.decode (w : BitVec 384) : Hdr :=
  let n := w.toNat
  { type := bits n 0 4, vc := bits n 4 3, sub := bits n 7 1, dst := bits n 8 24, src := bits n 32 24,
    dirs := bits n 56 4, dstTile := bits n 64 12, srcTile := bits n 76 12, epoch := bits n 88 16, tag := bits n 104 16,
    status := bits n 120 16, addr := bits n 136 48, win := bits n 184 6, wgen := bits n 192 16, fslot := bits n 208 12,
    bcn := bits n 224 32, sstep := bits n 256 32, len := bits n 288 14, halo := bit n 302, lepoch := bits n 304 8, ext := bits n 312 40 }

/-- The HCRC checks (R345). -/
def hcrcOk (w : BitVec 384) : Bool :=
  crc32c (bytesOf w.toNat 44) == BitVec.ofNat 32 (bits w.toNat 352 32)

/-! ### Coordinates and routes -/

namespace BF
def STATE (p : Nat) : Fld := ⟨bfBase p, 0, 4⟩
def WIDTH (p : Nat) : Fld := ⟨bfBase p, 4, 4⟩
def SPARES_USED (p : Nat) : Fld := ⟨bfBase p, 8, 2⟩
def FENCE_WHY (p : Nat) : Fld := ⟨bfBase p, 10, 3⟩
def EPOCH (p : Nat) : Fld := ⟨bfBase p, 16, 16⟩
def RECORDS (p : Nat) : Fld := ⟨bfBase p, 32, 12⟩
def ENABLE (p : Nat) : Fld := ⟨bfBase p + 8, 0, 1⟩
def FENCE (p : Nat) : Fld := ⟨bfBase p + 8, 1, 1⟩
def QUIESCE (p : Nat) : Fld := ⟨bfBase p + 8, 2, 1⟩
def LSTATE (p : Nat) : Fld := ⟨bfBase p + 0x10, 0, 24⟩
def DELAY (p : Nat) : Fld := ⟨bfBase p + 0x18, 0, 16⟩
def FEC_CORR (p : Nat) : Fld := ⟨bfBase p + 0x20, 0, 24⟩
def FEC_FAIL (p : Nat) : Fld := ⟨bfBase p + 0x20, 24, 12⟩
def REPLAYS (p : Nat) : Fld := ⟨bfBase p + 0x20, 36, 12⟩
def HALO_FAILS (p : Nat) : Fld := ⟨bfBase p + 0x20, 48, 8⟩
def ORPHANS (p : Nat) : Fld := ⟨bfBase p + 0x20, 56, 8⟩
def COORD : Fld := ⟨bfBase 0 + 0x8_0000, 0, 24⟩
def SHAPE : Fld := ⟨bfBase 0 + 0x8_0000, 24, 28⟩
def CFG : Fld := ⟨bfBase 0 + 0x8_0000, 52, 1⟩
end BF

/-- The size of axis `a` (0 T, 1 S, 2 L, 3 D) of a shape (R359: each 7 bits, one less than the size, T first). -/
def axisSize (shape a : Nat) : Nat := bits shape (7 * a) 7 + 1

/-- Coordinate `a` of a module coordinate (R345). -/
def coordOf (coord a : Nat) : Nat := bits coord (6 * a) 6

/-- A coordinate from its four parts. -/
def mkCoord (t s l d : Nat) : Nat := t + s * 2 ^ 6 + l * 2 ^ 12 + d * 2 ^ 18

/-- The module index of a coordinate (R348). -/
def moduleIndex (shape coord : Nat) : Nat :=
  coordOf coord 0 + axisSize shape 0 * (coordOf coord 1 + axisSize shape 1 *
    (coordOf coord 2 + axisSize shape 2 * coordOf coord 3))

/-- The coordinate of a module index. -/
def moduleCoord (shape i : Nat) : Nat :=
  let t := axisSize shape 0
  let s := axisSize shape 1
  let l := axisSize shape 2
  mkCoord (i % t) (i / t % s) (i / (t * s) % l) (i / (t * s * l))

/-- This module's coordinate, shape and index (BF_SELF). -/
def State.coord (s : State) : Nat := s.fld BF.COORD
def State.shape (s : State) : Nat := s.fld BF.SHAPE
def State.self (s : State) : BitVec 14 := BitVec.ofNat 14 (moduleIndex s.shape s.coord)

/-- Whether a move on axis `a` from `x` to `y` goes in the - direction: fewer hops, + at equal distance (R348). -/
def minusWay (size x y : Nat) : Bool := decide ((x + size - y) % size < (y + size - x) % size)

/-- The first axis of `axes` on which the two coordinates differ. -/
def firstAxis (axes : List Nat) (x y : Nat) : Option Nat := axes.find? (fun a => coordOf x a ≠ coordOf y a)

/-- The port a request from coordinate `x` to `y` leaves through, and the DIRS of its route (R348). Port 2a is the -
port of axis a and port 2a + 1 the + port. -/
def requestPort (shape x y : Nat) : Option Nat :=
  (firstAxis [0, 1, 2, 3] x y).map (fun a =>
    if minusWay (axisSize shape a) (coordOf x a) (coordOf y a) then 2 * a else 2 * a + 1)

def requestDirs (shape x y : Nat) : Nat :=
  ([0, 1, 2, 3].filter (fun a =>
    coordOf x a ≠ coordOf y a && minusWay (axisSize shape a) (coordOf x a) (coordOf y a))).foldl (fun d a => d + 2 ^ a) 0

/-- The port a reply from `x` back to `y` leaves through: the request's links in reverse (R348). -/
def replyPort (x y dirs : Nat) : Option Nat :=
  (firstAxis [3, 2, 1, 0] x y).map (fun a => if bit dirs a then 2 * a + 1 else 2 * a)

def State.port (s : State) (p : Nat) : Port := Map.get {} s.ports p
def State.setPort (s : State) (p : Nat) (q : Port) : State := { s with ports := Map.set {} s.ports p q }

/-- The status with which an edge router turns a request away from port `p` (R349, R360: either end has CFG = 0): 0 where it
takes it. -/
def State.portRefuses (s : State) (p : Nat) : BitVec 16 :=
  let st := s.fld (BF.STATE p)
  if (s.port p).inReset then Status.DOMAIN_RESET
  else if st = 9 then Status.PORT_FENCED
  else if st ≠ 8 then Status.LINK_DOWN
  else if s.fld BF.CFG = 0 ∨ bits (s.port p).neighbour.toNat 67 1 = 0 then Status.BF_UNCONFIGURED
  else 0

/-- The wrap link of an axis leaves through port `p` (R348). -/
def State.wraps (s : State) (p : Nat) : Bool :=
  let a := p / 2
  let c := coordOf s.coord a
  if p % 2 = 1 then decide (c + 1 = axisSize s.shape a) else decide (c = 0)

/-- The dateline subclass of a packet that leaves through port `p` (R346, R348); `h.sub` is its subclass on this axis so
far. -/
def State.subclass (s : State) (p : Nat) (h : Hdr) : Hdr :=
  { h with sub := if h.vc = 0 then 0 else if s.wraps p then 1 else h.sub }

/-- A packet put into a port's transmit queue. -/
def State.transmit (s : State) (p : Nat) (h : Hdr) (payload : List Byte) : State :=
  let q := s.port p
  s.setPort p { q with tx := q.tx ++ [⟨(s.subclass p h).encode, payload⟩] }

/-- A request forwarded out through port `p` with its record (R350); while the record is full it waits. -/
def State.forward (s : State) (p : Nat) (r : AwayRecord) (h : Hdr) (payload : List Byte) : State :=
  let q := s.port p
  if 4096 ≤ q.records.length then s.setPort p { q with wait := q.wait ++ [(r, ⟨(s.subclass p h).encode, payload⟩)] }
  else (s.setPort p { q with records := q.records ++ [r] }).transmit p h payload

/-- A record cleared: the first request that waited takes its place. -/
def Port.clear (q : Port) (rest : List AwayRecord) : Port :=
  match q.wait with
  | [] => { q with records := rest }
  | w :: ws => { q with records := rest ++ [w.1], wait := ws, tx := q.tx ++ [w.2] }

/-- An answer that leaves for another module; dropped where its port is down, fenced or quiescing (R349). -/
def State.sendReply (s : State) (h : Hdr) (payload : List Byte) : State :=
  match replyPort s.coord h.dst h.dirs with
  | none => s
  | some p => if s.portRefuses p = 0 then s.transmit p h payload else s

end Sys2Proof.Machine
end

