-- ==== Sys2Proof/Machine/ModTables.lean ====
section
/-! DEFINITION. The field tables of the module register space: access codes, value tables, the status each block raises
(R14 to R17), and the fields that a read computes. -/
namespace Sys2Proof.Machine

/-- The tables of the HIF_ block (R393 to R397, R418). -/
def hifFields (off : Nat) : Option (List FieldSpec) :=
  if off = 0 ∨ off = 8 then some [⟨0, 64, .ro⟩]
  else if off = 0x10 then some [⟨0, 42, .ro⟩]
  else if off = 0x18 then some [⟨0, 1, .any⟩, ⟨1, 1, .wo⟩]
  else if off = 0x20 then some [⟨0, 7, .w1c⟩, ⟨16, 6, .ro⟩]
  else if 0x1000 ≤ off ∧ off < 0x2000 then
    let r := off % 64
    if r = 0 ∨ r = 8 then some [⟨12, 52, .any⟩]
    else if r = 0x10 then some [⟨0, 1, .any⟩, ⟨1, 5, .rw [(4, 16)]⟩, ⟨6, 5, .rw [(4, 16)]⟩,
      ⟨11, 1, if off = 0x1010 then .ro else .any⟩, ⟨12, 8, .rw [(1, 255)]⟩, ⟨20, 6, .any⟩, ⟨26, 8, .any⟩, ⟨34, 10, .any⟩]
    else if r = 0x18 then some [⟨0, 35, .ro⟩]
    else if r = 0x20 then some [⟨0, 32, .ro⟩, ⟨32, 32, .w1c⟩]
    else if r = 0x28 then some [⟨0, 48, .ro⟩, ⟨48, 1, .w1c⟩]
    else none
  else if off = 0x2000 then some [⟨0, 23, .ro⟩]
  else if 0x2000 ≤ off ∧ off < 0x2200 then some [⟨0, 14, .any⟩, ⟨14, 1, .any⟩, ⟨16, 7, .ro⟩]
  else if 0x3000 ≤ off ∧ off < 0x3400 then some [⟨0, 64, .any⟩]
  else if off = 0x3800 then some [⟨0, 64, .ro⟩]
  else none

/-- HBM_ (chapter 10); `r` is the offset within one stack's 1 MiB. -/
def hbmFields (r : Nat) : Option (List FieldSpec) :=
  if r = 0 then some [⟨0, 33, .ro⟩]
  else if 0x100 ≤ r ∧ r < 0x180 then some [⟨0, 17, .ro⟩]
  else if r = 0x200 then some [⟨0, 64, .ro⟩]
  else if r = 0x8_0000 then some [⟨0, 6, .rw [(0, 48)]⟩, ⟨8, 6, .any⟩]
  else if r = 0x8_0008 then some [⟨0, 24, .any⟩, ⟨24, 24, .any⟩, ⟨48, 8, .any⟩, ⟨56, 1, .any⟩]
  else if 0x9_0000 ≤ r ∧ r < 0x9_8000 then
    if r % 32 = 0 then some [⟨0, 28, .any⟩, ⟨32, 24, .rw [(1, 0xFF_FFFF)]⟩, ⟨56, 2, .rw [(0, 0), (2, 3)]⟩]
    else if r % 32 = 8 then some [⟨0, 24, .any⟩, ⟨24, 8, .any⟩, ⟨32, 24, .any⟩, ⟨56, 3, .any⟩]
    else if r % 32 = 16 then some [⟨0, 24, .any⟩, ⟨32, 32, .ro⟩]
    else if r % 32 = 24 then some [⟨0, 40, .ro⟩]
    else none
  else none

/-- BF_ (chapters 12 and 13); `r` is the offset within one port's 1 MiB. -/
def bfFields (r : Nat) : Option (List FieldSpec) :=
  if r = 0 then some [⟨0, 44, .ro⟩]
  else if r = 8 then some [⟨0, 1, .any⟩, ⟨1, 1, .any⟩, ⟨2, 1, .any⟩, ⟨3, 1, .wo⟩]
  else if r = 0x10 ∨ r = 0x18 ∨ r = 0x20 ∨ (0x40 ≤ r ∧ r < 0x60) then some [⟨0, 64, .ro⟩]
  else if r = 0x1000 then some [⟨0, 8, .ro⟩, ⟨8, 1, .w1c⟩, ⟨16, 24, .ro⟩]
  else if r = 0x1008 ∨ (0x1100 ≤ r ∧ r < 0x1300) then some [⟨0, 64, .ro⟩]
  else if 0x2_0000 ≤ r ∧ r < 0x2_4000 then some [⟨0, 64, .any⟩]
  else if r = 0x8_0000 then some [⟨0, 24, .any⟩, ⟨24, 28, .any⟩, ⟨52, 1, .any⟩]
  else none

/-- BCN_ (chapters 09 and 19). -/
def bcnFields (r : Nat) : Option (List FieldSpec) :=
  if r = 0 ∨ r = 0x18 then some [⟨0, 64, .ro⟩]
  else if r = 8 then some [⟨0, 32, .ro⟩]
  else if r = 0x10 then some [⟨0, 21, .rw [(250, 1048576)]⟩, ⟨21, 1, .any⟩, ⟨22, 8, .any⟩, ⟨32, 8, .rw [(8, 255)]⟩]
  else if r = 0x20 then some [⟨0, 48, .ro⟩, ⟨48, 1, .w1c⟩]
  else if r = 0x28 then some [⟨0, 16, .any⟩, ⟨16, 6, .ro⟩, ⟨32, 16, .ro⟩]
  else if 0x100 ≤ r ∧ r < 0x200 then
    if r % 16 = 0 then some [⟨0, 4, .rw [(0, 7), (15, 15)]⟩, ⟨4, 8, .any⟩, ⟨12, 1, .any⟩, ⟨16, 16, .any⟩, ⟨32, 6, .any⟩,
      ⟨38, 12, .any⟩, ⟨50, 14, .any⟩]
    else if r % 16 = 8 then some [⟨0, 30, .ro⟩, ⟨30, 1, .w1c⟩, ⟨31, 31, .ro⟩]
    else none
  else none

/-- PWR_ (chapter 18). -/
def pwrFields (r : Nat) : Option (List FieldSpec) :=
  if r = 0 then some [⟨0, 42, .ro⟩, ⟨42, 1, .w1c⟩]
  else if r = 8 then some [⟨0, 12, .rw [(600, 2400)]⟩]
  else if r = 0x10 then some [⟨0, 2, .rw [(0, 0), (2, 3)]⟩, ⟨2, 4, .any⟩]
  else if r = 0x18 ∨ r = 0x20 then some [⟨0, 64, .any⟩]
  else if r = 0x28 then some [⟨0, 1, .w1c⟩, ⟨1, 1, .ro⟩]
  else if r = 0x30 then some [⟨0, 64, .ro⟩]
  else none

/-- NVM_ (chapters 16, 17 and 18). -/
def nvmFields (r : Nat) : Option (List FieldSpec) :=
  if r = 0 ∨ r = 8 ∨ (0x100 ≤ r ∧ r < 0x148) ∨ r = 0x200 ∨ r = 0x208 then some [⟨0, 64, .ro⟩]
  else if r = 0x210 then some [⟨0, 64, .wo⟩]
  else if r = 0x400 then some [⟨0, 2, .rw [(1, 3)]⟩, ⟨2, 9, .rw [(1, 365)]⟩, ⟨11, 5, .rw [(1, 30)]⟩, ⟨16, 8, .rw [(1, 255)]⟩,
    ⟨24, 13, .rw [(1, 4096)]⟩, ⟨37, 12, .rw [(16, 4095)]⟩]
  else if r = 0x408 then some [⟨0, 1, .any⟩, ⟨1, 8, .any⟩, ⟨9, 8, .rw [(8, 255)]⟩]
  else if r = 0x440 then some [⟨0, 12, .rw [(600, 2400)]⟩, ⟨12, 4, .any⟩]
  else none

/-- SEC_ (chapter 17). -/
def secFields (r : Nat) : Option (List FieldSpec) :=
  if r ≤ 0x28 then some [⟨0, 64, .ro⟩]
  else if r = 0x40 then some [⟨0, 1, .wo⟩, ⟨1, 1, .wo⟩]
  else if r = 0x48 ∨ r = 0x50 then some [⟨0, 32, .wo⟩]
  else none

/-- The table of the register at a (canonical) offset, a multiple of 8; none where no register stands. -/
def modFields (off : Nat) : Option (List FieldSpec) :=
  if off % 8 ≠ 0 then none
  else if off < 0x100_0000 then hifFields off
  else if off < 0x200_0000 then hbmFields (off % 0x10_0000)
  else if off < 0x280_0000 then bfFields (off % 0x10_0000)
  else if off < 0x290_0000 then bcnFields (off - bcnBase)
  else if off < 0x2A0_0000 then pwrFields (off - pwrBase)
  else if off < 0x2B0_0000 then nvmFields (off - nvmBase)
  else if off < 0x2C0_0000 then secFields (off - secBase)
  else none

/-- The status that a refused value raises (R17). -/
def cfgStatus (off : Nat) : BitVec 16 :=
  if off < 0x100_0000 then Status.HIF_CFG_VALUE
  else if off < 0x200_0000 then Status.HBM_CFG_VALUE
  else if off < 0x280_0000 then Status.BF_CFG_VALUE
  else if off < 0x290_0000 then Status.BCN_CFG_VALUE
  else Status.HIF_CFG_VALUE

/-! ### Computed fields -/

/-- The code of a power state in PWR_STAT[STATE] and in MFR_STATE (R545). -/
def PowerState.code : PowerState → Nat
  | .p0 => 0
  | .p1 => 1
  | .s1 => 2
  | .s2 => 3
  | .s3 => 4
  | .off => 0

/-- R519. -/
def Power.duty (p : Power) : Nat := min (min p.cap p.therm) (min p.input p.memory)

/-- The tile is at the Doze level of R107. -/
def Tile.dozing (t : Tile) : Bool := match t.stall with | .wait _ _ _ level => decide (level = 2) | _ => false

/-- The state of R518: S1 while every powered tile core dozes, else P1 while DUTY is below 16. -/
def State.powerState (s : State) : PowerState :=
  let on := s.tiles.filter (fun e => decide (e.2.fld TILE.CORE_PWR = 1))
  if s.pwr.state ≠ .p0 then s.pwr.state
  else if !on.isEmpty && on.all (fun e => e.2.dozing) then .s1
  else if s.pwr.duty < 16 then .p1 else .p0

/-- The current settings copy and the current security state. -/
def Nightlight.settings (n : Nightlight) : Settings := if n.current then n.copyB else n.copyA
def Nightlight.sec (n : Nightlight) : SecState := if n.secCurrent then n.secB else n.secA
/-- A new security state goes into the copy that is not current, which becomes current. -/
def Nightlight.setSec (n : Nightlight) (x : SecState) : Nightlight :=
  let x := { x with seq := n.sec.seq + 1 }
  if n.secCurrent then { n with secA := x, secCurrent := false } else { n with secB := x, secCurrent := true }

/-- The offsets of the settings area that hold a register (R493). -/
def settingOffsets : List Nat := [nvmBase + 0x400, nvmBase + 0x408, nvmBase + 0x440]

/-- The staged and the committed value of a setting. -/
def State.staged (s : State) (off : Nat) : Word := s.rd off
def State.committed (s : State) (off : Nat) : Word := Map.get (modReset off) s.nl.settings.words off

/-- A policy loosens another (R461): it raises FAULT_N, DEFER_D, TEST_D or K, or lowers WINDOW_D. -/
def loosens (old new : Word) : Bool :=
  let o := old.toNat
  let n := new.toNat
  decide (bits o 0 2 < bits n 0 2) || decide (bits o 11 5 < bits n 11 5) || decide (bits o 16 8 < bits n 16 8)
    || decide (bits o 24 13 < bits n 24 13) || decide (bits n 2 9 < bits o 2 9)

/-- The presence window is open (R509). -/
def State.present (s : State) : Bool := s.nl.presUntil.isSome

/-- NVM_WEAR[MAX_WRITES]: the highest count of a mapped page (R491). -/
def Nightlight.maxWrites (n : Nightlight) : Nat :=
  n.pageWrites.foldl (fun m e =>
    if e.1 < 647 && Map.get none n.pageAt e.1 = none || n.pageAt.any (fun p => decide (p.2 = some e.1)) then max m e.2 else m) 0

/-- What a read of the module register at `off` returns. -/
def State.readMod (s : State) (off : Nat) : Word :=
  let c := canonical off
  let r := (s.rd c).toNat
  if (modFields c).isNone then 0
  else BitVec.ofNat 64 <|
    if c = 8 then Config.serial.toNat
    else if c = 0x2000 then putBits r 0 14 s.self.toNat
    else if bfBase 0 ≤ c ∧ c < bfBase 8 ∧ c % 0x10_0000 = 0 then
      putBits r 32 12 (Map.get {} s.ports ((c - bfBase 0) / 0x10_0000)).records.length
    else if bfBase 0 ≤ c ∧ c < bfBase 8 ∧ 0x40 ≤ c % 0x10_0000 ∧ c % 0x10_0000 < 0x60 then
      bits (Map.get {} s.ports ((c - bfBase 0) / 0x10_0000)).neighbour.toNat (8 * (c % 0x10_0000 - 0x40)) 64
    else if bfBase 0 ≤ c ∧ c < bfBase 8 ∧ c % 0x10_0000 = 0x1000 then
      putBits r 0 8 (Map.get [] s.colls ((c - bfBase 0) / 0x20_0000)).length
    else if c = pwrBase then
      let p := s.pwr
      putBits (putBits (putBits (putBits (putBits (putBits r 0 3 s.powerState.code) 3 5 p.duty) 8 1 (ofBool (decide (p.cap < 16))))
        9 1 (ofBool (decide (p.therm < 16)))) 10 1 (ofBool (decide (p.input < 16)))) 11 1 (ofBool (decide (p.memory < 16)))
    else if c = nvmBase then
      s.nl.settings.seq.toNat + ofBool (settingOffsets.any (fun o => decide (s.staged o ≠ s.committed o))) * 2 ^ 32
        + ofBool s.nl.storing.isSome * 2 ^ 33 + ofBool s.nl.current * 2 ^ 34
        + ofBool (loosens (s.committed (nvmBase + 0x400)) (s.staged (nvmBase + 0x400))) * 2 ^ 35
    else if c = nvmBase + 8 then
      let left := 1401 - s.nl.retired
      s.nl.maxWrites % 2 ^ 24 + left * 2 ^ 24 + s.nl.retired * 2 ^ 35
        + ofBool (decide (left = 0) && decide (9500000 < s.nl.maxWrites)) * 2 ^ 46
    else if c = secBase then
      let x := s.nl.sec
      x.floor.toNat + x.revoked.toNat * 2 ^ 32 + s.fld SEC.KEY_IDX * 2 ^ 36 + ofBool x.tamper * 2 ^ 38
        + ofBool s.nl.sealOpen * 2 ^ 39 + ofBool s.present * 2 ^ 40
        + (match s.nl.presUntil with | some u => min 60 (u - s.fld NVM.CAL) | none => 0) * 2 ^ 41
    else r

/-- A masked write under the register's table (R14, R17), with no action of its own: the state, and whether a value was
refused. -/
def State.writeMod (s : State) (off new mask : Nat) : State × Bool :=
  match modFields (canonical off) with
  | none => (s, false)
  | some fs =>
    let r := writeFields fs (s.rd off).toNat new mask
    (s.wr off (BitVec.ofNat 64 r.1), r.2)

end Sys2Proof.Machine
end

