-- ==== Sys2Proof/Machine/Base.lean ====
section
/-! DEFINITION. The operations everything else is built from: tiles by number, free values, messages and answers,
completion entries (R401 to R405), Afterglow records (R483 to R485). -/
namespace Sys2Proof.Machine

/-- Lighthouse, the host port and the timing domain have power: the module is not in S3 and not Off (R33, R522). -/
def State.awake (s : State) : Bool := decide (s.pwr.state ≠ .s3) && decide (s.pwr.state ≠ .off)

/-- What every meaning answers. -/
abbrev Result := Host.Outcome State Fault Refusal

def State.tile (s : State) (t : Nat) : Tile := Map.get {} s.tiles t
def State.setTile (s : State) (t : Nat) (x : Tile) : State := { s with tiles := Map.set {} s.tiles t x }
def State.onTile (s : State) (t : Nat) (f : Tile → Tile) : State := s.setTile t (f (s.tile t))

/-- Logical tiles of the module: 2,880, or 2,820 with a retired row (R2, R242). -/
def State.tileCount (s : State) : Nat := if s.retired = [] then 2880 else 2820

/-- The Beacon count (R248). -/
def State.count (s : State) : BitVec 64 := s.rd BCN.COUNT.off

/-- A free value of `w` bits: nothing in the model says which. The counter that names it moves on. -/
def State.draw (s : State) (w : Nat) : BitVec w × State :=
  (BitVec.ofNat w (Config.freeNat s.free), { s with free := s.free + 1 })

/-- `n` free bytes. -/
def State.drawBytes (s : State) : Nat → List Byte × State
  | 0 => ([], s)
  | n + 1 =>
    let r := s.draw 8
    let rest := r.2.drawBytes n
    (r.1 :: rest.1, rest.2)

/-- A new key of the model's own; 0 is none. -/
def State.key (s : State) : Nat × State := (s.nextKey + 1, { s with nextKey := s.nextKey + 1 })

/-- Of two causes that reach Lighthouse in one cycle: the lower bit comes first, of VETOs the lower tile (R321, R337). -/
def Cause.before (a b : Cause) : Bool :=
  decide (a.cycle = b.cycle) && (decide (a.bit < b.bit) || (decide (a.bit = b.bit) && decide (a.bit = 7) && decide (a.tile < b.tile)))

/-- A cause takes its place behind those of earlier cycles. -/
def placeCause (c : Cause) : List Cause → List Cause
  | [] => [c]
  | x :: xs => if c.before x then c :: x :: xs else x :: placeCause c xs

/-- A cause for the vote reaches Lighthouse (R321). -/
def State.addCause (s : State) (c : Cause) : State := { s with causes := placeCause { c with cycle := s.cycle } s.causes }

/-- A status that ends the job (R444): the first one stays. -/
def State.endJob (s : State) (c : BitVec 16) : State :=
  { s with jobFault := match s.jobFault with | some x => some x | none => some c }

/-- A message on its way to tile `t`. -/
def State.send (s : State) (t : Nat) (m : Msg) : State := s.onTile t (fun x => { x with mail := x.mail ++ [m] })

/-- A refusal with its status. -/
def Msg.withStatus (m : Msg) (c : BitVec 16) : Msg :=
  match m with
  | .reply st rd _ kind => .reply st rd (c.setWidth 64) kind
  | .load st d pc _ _ => .load st d pc c []
  | .answer dest target _ dark => .answer dest target c dark
  | .grantBack win g k rd st _ => .grantBack win g k rd st c
  | m => m

/-- The answer of a write to whoever sent it. -/
def State.answerTo (s : State) (dest : Sender) (target : Nat) (c : BitVec 16) (dark : Option (Nat × Nat)) : State :=
  match dest with
  | .dma st _ => s.send st.tile (.answer dest target c dark)
  | .record st _ _ => s.send st.tile (.answer dest target c dark)
  | .message st _ => s.send st.tile (.answer dest target c dark)
  | .mcast st _ => s.send st.tile (.answer dest target c dark)
  | .away dirs coord st tag =>
    s.sendReply {
      type := if c = 0 then 3 else 4, vc := 1, dst := coord.toNat, src := s.coord, dirs := dirs, dstTile := st.tile
      srcTile := target, tag := tag.toNat, status := c.toNat, epoch := st.epoch.toNat, bcn := st.low.toNat } []
  | .host _ => s

/-! ### Semaphore entries and their answers -/

def State.sem (s : State) (home entry : Nat) : Sem := Map.get {} (s.tile home).sems entry
def State.setSem (s : State) (home entry : Nat) (e : Sem) : State :=
  s.onTile home (fun x => { x with sems := Map.set {} x.sems entry e })

/-- What the operation's answer completes at its sender. -/
def SemOp.kind : SemOp → ReplyKind
  | .sig _ => .sig
  | .swait _ => .swait
  | _ => .value

/-- The answer of a semaphore operation, to this module's tile or to another module's. -/
def State.semAnswer (s : State) (m : SemMsg) (v : Word) : State :=
  if m.plain then s
  else match m.away with
    | none => s.send m.st.tile (.reply m.st m.rd v m.op.kind)
    | some (dirs, coord, tag) =>
      s.sendReply {
        type := 6, vc := 1, dst := coord.toNat, src := s.coord, dirs := dirs, dstTile := m.st.tile, tag := tag.toNat
        status := v.toNat % 2 ^ 16, epoch := m.st.epoch.toNat, bcn := m.st.low.toNat } (bytesOf v.toNat 8)

/-! ### Completion entries -/

/-- The fields of a descriptor (R399). -/
def cOpc (d : BitVec 512) : Nat := bits d.toNat 0 8
def cFence (d : BitVec 512) : Bool := bit d.toNat 8
def cNocpl (d : BitVec 512) : Bool := bit d.toNat 9
def cSched (d : BitVec 512) : Bool := bit d.toNat 10
def cCid (d : BitVec 512) : BitVec 16 := BitVec.ofNat 16 (bits d.toNat 16 16)
def cModule (d : BitVec 512) : Nat := bits d.toNat 32 14
def cVia (d : BitVec 512) : Bool := bit d.toNat 46
def cTag (d : BitVec 512) : BitVec 64 := BitVec.ofNat 64 (bits d.toNat 64 64)
def cBcn (d : BitVec 512) : BitVec 64 := BitVec.ofNat 64 (bits d.toNat 128 64)
/-- Bits [lsb + n - 1 : lsb] of a descriptor. -/
def cArg (d : BitVec 512) (lsb n : Nat) : Nat := bits d.toNat lsb n

/-- An entry in the backlog (R403): of interim and event entries it holds 256, and the oldest goes. -/
def State.post (s : State) (e : Entry) : State :=
  let soft (x : Entry) : Bool := x.interim || x.event
  let e := { e with bcn := s.count.setWidth 32, held := decide (s.fld (HIF.ENABLE e.ring) = 0) }
  if soft e && decide (256 ≤ (s.hif.backlog.filter soft).length) then
    let rest := match takeFirst soft s.hif.backlog with
      | some r => r.2
      | none => s.hif.backlog
    { s.setFld HIF.BACKLOG_FULL 1 with hif := { s.hif with backlog := rest ++ [e] } }
  else { s with hif := { s.hif with backlog := s.hif.backlog ++ [e] } }

/-- The number from which pseudo-rings start: a command that runs here for another module's gateway (R418). -/
def relayRing : Nat := 64

/-- An entry for a descriptor of a ring: to the backlog, or kept for the gateway that relayed it. -/
def State.postFor (s : State) (ring : Nat) (e : Entry) : State :=
  if ring < relayRing then s.post { e with ring := ring, module := s.self }
  else
    let g := Map.get (0, 0) s.hif.gateways ring
    { s with hif := { s.hif with
        relayKeep := s.hif.relayKeep ++ [(g.1, { e with ring := g.2, module := s.self, bcn := s.count.setWidth 32 })] } }

/-- The RESULT of an entry: a value that a rule states, or a free one. -/
def State.resultOf (s : State) (r : Option (BitVec 64)) : BitVec 64 × State :=
  match r with
  | some v => (v, s)
  | none => s.draw 64

/-- The final entry of a started descriptor (R402), unless NOCPL suppresses a success (R399); its op tag retires. -/
def State.finish (s : State) (ring : Nat) (d : BitVec 512) (c : BitVec 16) (result : Option (BitVec 64)) : State :=
  match takeFirst (fun x => decide (x.ring = ring) && decide (x.desc = d)) s.hif.started with
  | none => s
  | some r =>
    let s := { s with hif := { s.hif with
      started := r.2
      ops := if cTag d = 0 then s.hif.ops else s.hif.ops.filter (fun o => decide (o.tag ≠ cTag d)) } }
    if cNocpl d && decide (c = 0) then s
    else
      let v := s.resultOf result
      v.2.postFor ring { ring := ring, cid := cCid d, status := c, tag := cTag d, result := v.1 }

/-- An interim entry of a live long operation (R402). -/
def State.interim (s : State) (tag : BitVec 64) (c : BitVec 16) (result : Option (BitVec 64)) : State :=
  match s.hif.ops.find? (fun o => o.tag = tag) with
  | none => s
  | some o =>
    let ops := s.hif.ops.map (fun (x : Op) => if x.tag = tag then { x with last := c } else x)
    let v := s.resultOf result
    { v.2 with hif := { v.2.hif with ops := ops } }.postFor o.ring
      { ring := o.ring, cid := cCid o.desc, status := c, interim := true, tag := tag, result := v.1 }

/-- An event entry (R405); with EV_ENABLE 0 it is discarded. -/
def State.event (s : State) (kind code port : Nat) (c : BitVec 16) (detail : Nat) : State :=
  if s.fld HIF.EV_ENABLE = 0 then s
  else s.post {
    ring := 0, cid := 0xFFFF, status := c, event := true, module := s.self
    result := BitVec.ofNat 64 (kind + code * 2 ^ 8 + port * 2 ^ 16 + detail % 2 ^ 32 * 2 ^ 32) }

/-- A status that Lighthouse reports to the host and to which R405 gives no KIND: an event entry of KIND 0 (DESIGN CHOICE,
log 27). -/
def State.report (s : State) (c : BitVec 16) (detail : Nat) : State := s.event 0 0 0 c detail

/-- A refused register write that no REG_WRITE carries: its status is raised (R17). -/
def raised (r : State × BitVec 16) : State := if r.2 = 0 then r.1 else r.1.report r.2 0

/-- Bytes of host memory read and written. -/
def State.hostRead (s : State) (a n : Nat) : List Byte := readRun 0 s.hif.mem a n
def State.hostWrite (s : State) (a : Nat) (bs : List Byte) : State :=
  { s with hif := { s.hif with mem := writeRun 0 s.hif.mem a bs } }

/-! ### Units and the Afterglow log -/

/-- The unit identifiers of R455. -/
def coreUnit (phys : Nat) : Nat := phys
def routerUnit (phys : Nat) : Nat := 0x1000_0000 + phys
def channelUnit (stack ch : Nat) : Nat := 0x2000_0000 + stack * 16 + ch
def portUnit (p : Nat) : Nat := 0x3000_0000 + p
def pairUnit (i : Nat) : Nat := 0x4000_0000 + i
def moduleUnit : Nat := 0x5000_0000

/-- A unit of R455. -/
def isUnit (u : Nat) : Bool :=
  decide (u < 3072) || (decide (routerUnit 0 ≤ u) && decide (u < routerUnit 3072))
    || (decide (channelUnit 0 0 ≤ u) && decide (u < channelUnit 0 256)) || (decide (portUnit 0 ≤ u) && decide (u < portUnit 8))
    || (decide (pairUnit 0 ≤ u) && decide (u < pairUnit 4)) || decide (u = moduleUnit)

/-- The calendar (R498). -/
def State.utc (s : State) : Nat := s.fld NVM.CAL

/-- The 64 bytes of a record (R484). -/
def glowBits (seq count utc unit kind status job detail : Nat) : BitVec 512 :=
  let b := [(count, 64, 64), (utc, 128, 64), (unit, 192, 32), (kind, 224, 8), (status, 232, 16), (job, 256, 64),
    (detail, 320, 64)].foldl (fun w f => putBits w f.2.1 f.2.2 f.1) (seq % 2 ^ 64)
  BitVec.ofNat 512 (b + (crc32c (bytesOf b 60)).toNat * 2 ^ 480)

/-- The physical page of a logical page. -/
def Nightlight.physPage (n : Nightlight) (l : Nat) : Nat := (Map.get none n.pageAt l).getD l

/-- A page is written: past 9,500,000 writes its logical page first moves to the lowest free page of the reserve pool, which
hands its pages out in order. A written page is readable again. -/
def Nightlight.writePage (n : Nightlight) (l : Nat) : Nightlight :=
  let p := n.physPage l
  let n := if 12 ≤ l ∧ 9500000 ≤ Map.get 0 n.pageWrites p ∧ n.retired < 1401 then
      { n with pageAt := Map.set none n.pageAt l (some (647 + n.retired)), retired := n.retired + 1 } else n
  let q := n.physPage l
  { n with pageWrites := Map.set 0 n.pageWrites q (Map.get 0 n.pageWrites q + 1), badPages := Map.set false n.badPages l false }

def State.writePages (s : State) (ls : List Nat) : State := { s with nl := ls.foldl Nightlight.writePage s.nl }
/-- The pages of a log record and of a unit's entry. -/
def recordPage (seq : Nat) : Nat := 84 + seq / 64 % 512

/-- Row of a unit in the unit table: kinds in order, then index (R486; the order is the model's, log 31). -/
def unitIndex (u : Nat) : Nat :=
  match u / 2 ^ 28 with
  | 0 => u
  | 1 => 3072 + u % 2 ^ 16
  | 2 => 6144 + u % 2 ^ 16
  | 3 => 6400 + u % 2 ^ 16
  | 4 => 6408 + u % 2 ^ 16
  | _ => 6412

def unitPage (u : Nat) : Nat := 596 + unitIndex u / 128

/-- The records not yet in NVM are written there, with the entries of the units that they name (R483). -/
def State.commitGlow (s : State) : State :=
  let pages := s.rel.fresh.flatMap (fun r => [recordPage (bits r.toNat 0 64), unitPage (bits r.toNat 192 32)])
  { s with rel := { s.rel with log := s.rel.log ++ s.rel.fresh, fresh := [] } }.writePages pages.eraseDups

/-- One Afterglow record (R484, R485) of the unit, and its event entry of KIND 6 (R405). The log holds 32,768 records;
classifications and eclipses go to NVM at once (R483). -/
def State.logGlow (s : State) (kind : Nat) (c : BitVec 16) (unit detail : Nat) : State :=
  let r := glowBits s.rel.nextSeq.toNat s.count.toNat s.utc unit kind c.toNat
    (match s.lh.cur with | some j => j.toNat | none => 0) detail
  let all := s.rel.fresh ++ [r]
  let held := s.rel.log.dropWhile (fun x => decide (bits x.toNat 0 64 + 32768 ≤ s.rel.nextSeq.toNat))
  let s' := { s with rel := { s.rel with log := held, fresh := all, nextSeq := s.rel.nextSeq + 1 } }
  (if kind = 2 ∨ kind = 3 then s'.commitGlow else s').event 6 0 0 c s.rel.nextSeq.toNat

def State.unit (s : State) (u : Nat) : UnitEntry := Map.get {} s.rel.units u
def State.setUnit (s : State) (u : Nat) (e : UnitEntry) : State := { s with rel := { s.rel with units := Map.set {} s.rel.units u e } }

/-- A field of the committed reliability policy (R461, R494). -/
def State.policy (s : State) (f : Fld) : Nat := bits (s.committed f.off).toNat f.lsb f.width

/-- Faults of the unit within WINDOW_D days (R457). -/
def State.recent (s : State) (u : Nat) : Nat :=
  ((s.unit u).faults.filter (fun f => decide (s.utc - f < s.policy NVM.WINDOW_D * 86400))).length

end Sys2Proof.Machine
end

