-- ==== Sys2Proof/Machine/Scratch.lean ====
section
/-! DEFINITION. The scratchpad of one tile: bytes with their storage code, slot tags, dark bits, the check of a remote
write (chapter 02). -/
namespace Sys2Proof.Machine

/-- The scratchpad's size in bytes (R41). -/
def spadSize : Nat := 0xA_0000

/-- How many entries of `m` from `a` to `a + n - 1` are set. -/
def countRun (m : Map Bool) (a n : Nat) : Nat := ((readRun false m a n).filter id).length

/-- The 8-byte words, and the groups of 16 slots, that `n` bytes at `off` touch: the first and how many. -/
def wordsOf (off n : Nat) : Nat × Nat := (off / 8, (off + n + 7) / 8 - off / 8)
def groupsOf (off n : Nat) : Nat × Nat := (off / 4096, (off + n + 4095) / 4096 - off / 4096)

/-- A tag group with a parity error meets the access (R46). -/
def Tile.parityBad (t : Tile) (off n : Nat) : Bool :=
  anyRun t.tagParity (groupsOf off n).1 (groupsOf off n).2

/-- The tile with ECC_CORRECTED raised by the single errors among words `a` to `a + n - 1`, which are written back. -/
def Tile.correct (t : Tile) (a n : Nat) : Tile :=
  let c := countRun t.eccSingle a n
  if c = 0 then t else
    ({ t with eccSingle := fillRun false t.eccSingle a n false }).setFld TILE.ECC_CORRECTED
      (min (t.fld TILE.ECC_CORRECTED + c) 0xFFFF)

/-- A read of `n` scratchpad bytes (R45, R46): the tile, the status, the bytes where it is 0. -/
def Tile.spadRead (t : Tile) (off n : Nat) : Tile × BitVec 16 × List Byte :=
  let w := wordsOf off n
  if t.parityBad off n then (t, Status.SPAD_UE, [])
  else if anyRun t.eccDouble w.1 w.2 then (t.bumpFld TILE.ECC_UNCORRECTED, Status.SPAD_UE, [])
  else (t.correct w.1 w.2, 0, readRun 0 t.spad off n)

/-- The words at the ends of a write that it covers only in part (R46), as a list of word numbers. -/
def partWords (off n : Nat) : List Nat :=
  (if off % 8 = 0 then [] else [off / 8]) ++ (if (off + n) % 8 = 0 then [] else [(off + n) / 8])

/-- A write of scratchpad bytes (R45, R46): the tile and the status; with SPAD_UE no byte changes. -/
def Tile.spadWrite (t : Tile) (off : Nat) (bs : List Byte) : Tile × BitVec 16 :=
  let n := bs.length
  if t.parityBad off n then (t, Status.SPAD_UE)
  else if (partWords off n).any (fun w => Map.get false t.eccDouble w) then
    (t.bumpFld TILE.ECC_UNCORRECTED, Status.SPAD_UE)
  else
    let t := (partWords off n).foldl (fun t w => t.correct w 1) t
    let w := wordsOf off n
    ({ t with
      spad := writeRun 0 t.spad off bs
      eccSingle := fillRun false t.eccSingle w.1 w.2 false
      eccDouble := fillRun false t.eccDouble w.1 w.2 false }, 0)

/-- The tag of a slot (R47): true is full. -/
def Tile.full (t : Tile) (slot : Nat) : Bool := Map.get false t.tags slot

/-- The tile with the tags of `k` slots set to `v`. -/
def Tile.setTags (t : Tile) (slot k : Nat) (v : Bool) : Tile := { t with tags := fillRun false t.tags slot k v }

/-- A dark bit (R232): who opened the transaction it belongs to. -/
def Tile.isDark (t : Tile) (slot : Nat) : Bool := (Map.get none t.dark slot).isSome

/-- Any of the slots counts as full for a check of R60: its tag is full or it is dark (R232). -/
def Tile.anyFull : Tile → Nat → Nat → Bool
  | _, _, 0 => false
  | t, slot, k + 1 => t.full slot || t.isDark slot || t.anyFull (slot + 1) k

/-- The slots of a queue window's write, from head, wrapping modulo the length: `k` of them. -/
def Window.slotsFrom (d : Window) (head k : Nat) : List Nat :=
  (List.range k).map (fun i => d.base + (head + i) % d.len)

/-- A tagged access waits no longer: it finds its slots in the state it waits for (R49; a dark slot is not empty, R232), or
a tag group of theirs has a parity error, which fails it (R46). -/
def Tile.tagReady (t : Tile) (kind : TagKind) (slot k : Nat) : Bool :=
  t.parityBad (slot * 256) (k * 256) || match kind with
    | .store => !t.anyFull slot k
    | _ => allRun t.tags slot k

/-- Any of the listed slots lies in a tag group with a parity error. -/
def Tile.slotsBad (t : Tile) (xs : List Nat) : Bool := xs.any (fun y => t.parityBad (y * 256) 256)

/-- The check of R60 on window `d` for a write of `k` slots with generation `g` and first slot `f` (none: below
BASE_SLOT, R99): 0, or the refusing status. A parity error of the tags that it reads fails it (R46). -/
def Tile.checkWrite (t : Tile) (d : Window) (g : BitVec 16) (f : Option Nat) (k : Nat) : BitVec 16 :=
  if d.st ≠ .opened ∨ g ≠ d.gen then Status.WIN_CLOSED
  else if d.queue then
    if k > d.len - d.occupied then Status.QUEUE_OVERRUN
    else if t.slotsBad (d.slotsFrom d.head k) then Status.SPAD_UE
    else if (d.slotsFrom d.head k).any (fun x => t.full x || t.isDark x) then Status.QUEUE_OVERRUN
    else 0
  else match f with
    | none => Status.WIN_RANGE
    | some f =>
      if f + k > d.len then Status.WIN_RANGE
      else if t.slotsBad ((List.range k).map (fun i => d.base + f + i)) then Status.SPAD_UE
      else if t.anyFull (d.base + f) k then Status.EXCH_OVERRUN
      else 0

/-- The slots that a write of `k` slots lands in. -/
def Window.landing (d : Window) (f : Option Nat) (k : Nat) : List Nat :=
  if d.queue then d.slotsFrom d.head k else (List.range k).map (fun i => d.base + f.getD 0 + i)

/-- A queue window after an accepted write of `k` slots (R60). -/
def Window.advance (d : Window) (k : Nat) : Window :=
  if d.queue then
    { d with head := (d.head + k) % d.len, occupied := d.occupied + k, granted := d.granted - k }
  else d

/-- `k` slots of 256 bytes written one by one, without a look at their tags. -/
def Tile.writeSlots : Tile → List Nat → List Byte → Tile
  | t, [], _ => t
  | t, x :: xs, bs =>
    Tile.writeSlots { t with
      spad := writeRun 0 t.spad (x * 256) (bs.take 256)
      eccSingle := fillRun false t.eccSingle (x * 32) 32 false
      eccDouble := fillRun false t.eccDouble (x * 32) 32 false } xs (bs.drop 256)

/-- The tags of listed slots set full. -/
def Tile.fillTags (t : Tile) (xs : List Nat) : Tile :=
  { t with tags := xs.foldl (fun m x => Map.set false m x true) t.tags }

/-- The dark bits of listed slots set to `v`. -/
def Tile.setDark (t : Tile) (xs : List Nat) (v : Option (Nat × Nat)) : Tile :=
  { t with dark := xs.foldl (fun m x => Map.set none m x v) t.dark }

/-- The slots that a transaction made dark. -/
def Tile.darkOf (t : Tile) (key : Nat × Nat) : List Nat := (t.dark.filter (fun e => e.2 = some key)).map (·.1)

end Sys2Proof.Machine
end

