-- ==== Sys2Proof/Machine/GridOps.lean ====
section
/-! DEFINITION. The grid of tiles: where a logical tile lies (R234), spares (R235), map changes, resets of cores and
routers (R36 to R39, R71 to R73, R245), bypass (R239, R240), retired rows (R242). -/
namespace Sys2Proof.Machine

/-! ### The row maps -/

/-- The physical row of a logical row: a retired row is skipped (R242). -/
def State.physRow (s : State) (r : Nat) : Nat :=
  match s.retired with
  | [] => r
  | q :: _ => if r < q then r else r + 1

/-- The physical column of logical column `c` in physical row `r`. -/
def State.physCol (s : State) (r c : Nat) : Nat := (Map.get none s.moved (r * 60 + c)).getD (c + c / 15)

/-- The physical index row × 64 + col of a logical tile. -/
def State.physOf (s : State) (t : Nat) : Nat :=
  let r := s.physRow (t / 60)
  r * 64 + s.physCol r (t % 60)

/-- The logical column that a physical one serves. -/
def State.colAt (s : State) (r p : Nat) : Option Nat := (List.range 60).find? (fun c => s.physCol r c = p)

/-- The logical tile at a physical place. -/
def State.tileAt (s : State) (r p : Nat) : Option Nat :=
  if s.retired.contains r then none
  else
    let q := match s.retired with
      | [] => r
      | x :: _ => if r < x then r else r - 1
    (s.colAt r p).map (fun c => q * 60 + c)

def State.router (s : State) (r p : Nat) : Router := Map.get .up s.routers (r * 64 + p)

/-- A spare that can take a tile: unmapped, its core in service and not in test, its router in service. -/
def State.spareFree (s : State) (r p : Nat) : Bool :=
  (s.colAt r p).isNone && decide ((s.unit (coreUnit (r * 64 + p))).state = 0) && decide (s.router r p = .up)
    && (Map.get none s.rel.testing (r * 64 + p)).isNone && !(s.moves.any (fun m => decide (m.row = r) && decide (m.dest = p)))

/-- The nearest of some columns to `p`, the lower at equal distance. -/
def nearest (p : Nat) : List Nat → Option Nat
  | [] => none
  | x :: xs =>
    match nearest p xs with
    | none => some x
    | some y =>
      let dx := if x ≤ p then p - x else x - p
      let dy := if y ≤ p then p - y else y - p
      if dx < dy ∨ (dx = dy ∧ x < y) then some x else some y

/-- The spare for physical tile (r, p): of its own group of 16 columns, else the nearest of the row (R235). -/
def State.chooseSpare (s : State) (r p : Nat) : Option Nat :=
  let free := (List.range 64).filter (fun q => s.spareFree r q)
  match nearest p (free.filter (fun q => decide (q / 16 = p / 16))) with
  | some q => some q
  | none => nearest p free

/-! ### Physical units (R36): a tile that moves leaves one core and router and takes others -/

def State.spare (s : State) (u : Nat) : SpareUnit := Map.get {} s.spares u
def State.setSpare (s : State) (u : Nat) (x : SpareUnit) : State := { s with spares := Map.set {} s.spares u x }

/-- What stays with the core and the router that a tile leaves. -/
def Tile.unit (x : Tile) : SpareUnit :=
  { coreEpoch := x.fld TILE.CORE_EPOCH, rtrEpoch := x.fld TILE.RTR_EPOCH, powered := decide (x.fld TILE.CORE_PWR = 1)
    resetAt := x.resetAt, rtrResetAt := x.rtrResetAt, rtrReady := x.rtrReady }

/-- The tile on another core and router; a core that had no power is left for one that has it. -/
def Tile.onUnit (x : Tile) (u : SpareUnit) : Tile :=
  let y := if x.fld TILE.CORE_PWR = 0 then (x.setFld TILE.CORE_PWR 1).setFld TILE.CORE_READY 1 else x
  { (y.setFld TILE.CORE_EPOCH u.coreEpoch).setFld TILE.RTR_EPOCH u.rtrEpoch with
    resetAt := u.resetAt, rtrResetAt := u.rtrResetAt, rtrReady := u.rtrReady }

/-- Ticks that the switch time formula gives for one tile, 640 KiB out and in (R449): 24,082 ns. -/
def State.switchTicks (s : State) : Nat := (24082 + s.fld BCN.TICK_NS - 1) / s.fld BCN.TICK_NS

/-- A map change (R235, R236): the logical position moves, its coordinate, index, address and state do not change. Lighthouse holds
its next XSTART until its state has been restored. -/
def State.applyMove (s : State) (m : MapMove) : State :=
  let old := s.physCol m.row m.col
  let to_ := m.row * 64 + m.dest
  let t? := s.tileAt m.row old
  let s := { s with moved := Map.set none s.moved (m.row * 60 + m.col) (if m.dest = m.col + m.col / 15 then none else some m.dest) }
  match t? with
  | none => s
  | some t =>
    let x := s.tile t
    let u := s.spare to_
    let s := (s.setSpare (m.row * 64 + old) x.unit).setSpare to_ {}
    s.setTile t { x.onUnit u with startHeld := some (s.count + BitVec.ofNat 64 s.switchTicks) }

/-- Every tile is between exchange phases (R236). -/
def State.betweenPhases (s : State) : Bool :=
  s.tiles.all (fun e => match e.2.phase with | some p => !p.started | none => true)

/-! ### Resets -/

/-- The other requests that a domain in reset answers with DOMAIN_RESET (R38): writes at port 0, reads. -/
def State.answerHeld (s : State) (t : Nat) (ws : List RemoteWrite) (rs : List ReadReq) : State :=
  let s := ws.foldl (fun s w => s.answerTo w.sender t Status.DOMAIN_RESET w.dark) s
  rs.foldl (fun s r => match r.sender, r.dst with
    | .message st _, some d => s.send st.tile (.load st d r.pc Status.DOMAIN_RESET [])
    | .away dirs coord st tag, _ =>
      s.sendReply {
        type := 4, vc := 1, dst := coord.toNat, src := s.coord, dirs := dirs, dstTile := st.tile, srcTile := t
        tag := tag.toNat, status := Status.DOMAIN_RESET.toNat, epoch := st.epoch.toNat, bcn := st.low.toNat } []
    | _, _ => s) s

/-- The transactions and multicasts of its own that a reset opener leaves behind (R245): each key, and the targets that a copy of
it went to. -/
def Tile.darkCopies (t : Tile) : List (Nat × List Nat) :=
  t.txns.flatMap (fun e => if e.2.st = .free ∨ e.2.dropped then [] else [(e.2.key, (e.2.acked ++ e.2.open_).eraseDups)])
    ++ t.mcasts.flatMap (fun m => if m.txn.isSome then [] else [(m.key, ((m.acked ++ m.sent).map (·.1)).eraseDups)])

/-- Their drops: to every target that holds a dark copy, acknowledged or not. -/
def State.dropCopies (s : State) (t : Nat) (x : Tile) : State :=
  x.darkCopies.foldl (fun s d => (d.2.filter (fun u => decide ((s.tile u).darkOf (t, d.1) ≠ []))).foldl
    (fun s u => s.send u (.drop t d.1)) s) s

/-- A message that carries a grant. -/
def Msg.isGrant : Msg → Bool
  | .grant _ _ _ _ _ _ _ _ => true
  | _ => false

/-- The answer of a grant, in this module or to another (R66, R550). -/
def State.answerGrant (s : State) (st : Stamp) (away : Option (Nat × BitVec 24 × BitVec 16)) (c : BitVec 16) (m : Msg) : State :=
  match away with
  | none => s.send st.tile m
  | some (dirs, coord, tag) =>
    s.sendReply { type := if c = 0 then 3 else 4, vc := 1, dst := coord.toNat, src := s.coord, dirs := dirs, dstTile := st.tile
                  tag := tag.toNat, status := c.toNat, epoch := st.epoch.toNat, bcn := st.low.toNat } []

/-- The grants that wait at a core which resets are answered with DOMAIN_RESET (R38). -/
def State.answerGrants (s : State) (ms : List Msg) : State :=
  ms.foldl (fun s m => match m with
    | .grant _ _ win g k rd st away => s.answerGrant st away Status.DOMAIN_RESET (.grantBack win g k rd st Status.DOMAIN_RESET)
    | _ => s) s

/-- All windows closed, their generations one on (R72). -/
def Tile.closeAll (t : Tile) : Tile :=
  { t with wins := (List.range 64).foldl (fun m w =>
      let d := Map.get {} t.wins w
      Map.set {} m w { d with st := .closed, gen := d.gen + 1, granted := 0, held := none }) t.wins }

/-- What a core reset leaves of a tile (R36, R71, R72, R151, R245): the router's share, the control block with every SET_k clear, the windows closed;
everything else as at power-on, but for the contents that are lost. -/
def Tile.afterReset (t : Tile) (now : BitVec 64) : Tile :=
  let u : Tile := {
    regs := t.regs, wins := t.closeAll.wins, credits := t.credits, mail := t.mail.filter (fun m => !m.isGrant), sems := t.sems, semOps := t.semOps
    rtrResetAt := t.rtrResetAt, rtrReady := t.rtrReady, resetAt := now
    eccSingle := t.eccSingle, eccDouble := t.eccDouble, tagParity := t.tagParity
    halted := true, ended := true, haltReported := true }
  let u := ((u.setFld TILE.CORE_EPOCH ((t.fld TILE.CORE_EPOCH + 1) % 2 ^ 16)).setFld TILE.CORE_READY 0).wr 0x308 0
  (List.range 4).foldl (fun (u : Tile) k => u.setFld (anchorSet k) 0) u

/-- Contents that nothing states after they are lost (R34, R71): every byte and register is a free value. -/
def State.loseContents (s : State) (t : Nat) : State :=
  let a := s.draw (8 * 655360)
  let b := a.2.draw (31 * 64)
  let c := b.2.draw (7 * 256)
  let d := c.2.draw (32 * 8192)
  let e := d.2.draw (27648 * 32)
  e.2.onTile t (fun x => { x with
    spad := listRun 0 0 (bytesOf a.1.toNat 655360)
    s := listRun 0 1 ((List.range 31).map (fun i => BitVec.ofNat 64 (bits b.1.toNat (64 * i) 64)))
    p := listRun 0 1 ((List.range 7).map (fun i => BitVec.ofNat 256 (bits c.1.toNat (256 * i) 256)))
    v := listRun 0 0 ((List.range 32).map (fun i => BitVec.ofNat 8192 (bits d.1.toNat (8192 * i) 8192)))
    acc := listRun 0 0 ((List.range 27648).map (fun i => BitVec.ofNat 32 (bits e.1.toNat (32 * i) 32))) })

/-- A tile core resets (R36 to R38, R71, R72, R245). -/
def State.resetCore (s : State) (t : Nat) : State :=
  let x := s.tile t
  let s := s.setTile t (x.afterReset s.count)
  let s := s.answerHeld t (x.writes ++ x.heldWrites) x.reads
  ((s.answerGrants x.mail).dropCopies t x).loseContents t

/-- The registers that a tile core reset brings back from the saved context (R53, R72, R110, R144, R156, R199, R245): the
control block's CORE word is the domain's own; the engines' counters and the phase's status are 0 (R135, R191, R245); DRAW_BASE
keeps the value of the current step (R210). -/
def Tile.savedRegs (now saved : Tile) : Tile :=
  let x := (((saved.wr 0x40 (now.rd 0x40)).wr 0x110 0).wr 0x118 0).wr 0x158 0
  (List.range 8).foldl (fun (x : Tile) m => x.setFld (TILE.glintBase m) (now.fld (TILE.glintBase m))) (x.wr 0x308 0)

/-- The tile takes a saved context back (R72, R135, R191, R245, R451): the router's share, what waits at port 0 and the
domain's own marks stay as they are; the queues, the lists and what ran are gone; a window that was open is open under its
advanced generation, any other is closed. -/
def Tile.restore (now saved : Tile) : Tile :=
  { now.savedRegs saved with
    mail := now.mail, sems := now.sems, semOps := now.semOps, writes := now.writes, reads := now.reads
    heldWrites := now.heldWrites, resetAt := now.resetAt, rtrResetAt := now.rtrResetAt, rtrReady := now.rtrReady
    credits := now.credits, phase := none, recv0 := 0, early := [], recv1 := [], mcasts := []
    vq := [], stages := 0, mq := [], lists := [], running := none, astWait := none
    wins := (List.range 64).foldl (fun m w =>
      let d := Map.get {} now.wins w
      let e := Map.get {} saved.wins w
      Map.set {} m w { e with
        gen := d.gen, refused := d.refused, granted := 0, held := none
        st := if e.st = .opened then .opened else .closed }) now.wins }

/-- The core of a spare resets, its router resets, the router is ready again (R36, R39). -/
def State.resetSpareCore (s : State) (u : Nat) : State :=
  let x := s.spare u
  s.setSpare u { x with coreEpoch := (x.coreEpoch + 1) % 2 ^ 16, resetAt := s.count }
def State.resetSpareRouter (s : State) (u : Nat) : State :=
  let x := s.spare u
  s.setSpare u { x with rtrEpoch := (x.rtrEpoch + 1) % 2 ^ 16, rtrResetAt := s.count, rtrReady := false }
def State.spareRouterReady (s : State) (u : Nat) : State := s.setSpare u { s.spare u with rtrReady := true }

/-- The physical tiles that no row map names. -/
def State.spareUnits (s : State) : List Nat := (List.range 3072).filter (fun u => (s.tileAt (u / 64) (u % 64)).isNone)

/-- A router resets (R36, R73, R263): its semaphore entries are cleared, their waiters and the operations that have
reached it answered with DOMAIN_RESET. -/
def State.resetRouter (s : State) (t : Nat) : State :=
  let x := s.tile t
  let s := s.setTile t { x.setFld TILE.RTR_EPOCH ((x.fld TILE.RTR_EPOCH + 1) % 2 ^ 16) with
    sems := [], semOps := [], rtrReady := false, rtrResetAt := s.count }
  let s := x.sems.foldl (fun s e => e.2.waiters.foldl (fun s w =>
    s.semAnswer { module := w.module, st := w.st, entry := e.1, op := .swait w.exp, rd := w.rd, away := w.away } (Status.DOMAIN_RESET.setWidth 64)) s) s
  x.semOps.foldl (fun s m => s.semAnswer m (Status.DOMAIN_RESET.setWidth 64)) s

/-- Every spare core and router resets. -/
def State.resetSpares (s : State) : State :=
  s.spareUnits.foldl (fun (s : State) u => (s.resetSpareCore u).resetSpareRouter u) s

/-! ### Attachments (R20, R240, R284) -/

/-- The physical place at which a stack, a port, a Lighthouse gateway enters the mesh. -/
def stackEntry (k : Nat) : Nat := if k < 8 then 8 * k + 4 else 47 * 64 + 8 * (k - 8) + 3
def portEdge (p : Nat) : Nat := (6 + 12 * (p / 2)) * 64 + (if p % 2 = 0 then 0 else 63)
def gatewayAt (g : Nat) : Nat := 47 * 64 + 32 * g

/-- The neighbour whose entry serves a stack with a failed entry router: the one to the east, to the west for N7 and
S7. -/
def neighbourStack (k : Nat) : Nat := if k % 8 = 7 then k - 1 else k + 1

/-- A physical tile has the near path to a stack (R228). -/
def nearStack (phys k : Nat) : Bool :=
  decide (phys % 64 / 8 = k % 8) && (if k < 8 then decide (phys / 64 < 4) else decide (44 ≤ phys / 64))

/-- A far requester reaches the stack: through its own entry router or the neighbour's (R284). -/
def State.stackReachable (s : State) (k : Nat) : Bool :=
  s.fld (HBM.ENTRY_DOWN k) = 0 || s.fld (HBM.ENTRY_DOWN (neighbourStack k)) = 0

/-- A row retires (R242): every job on the module has its step aborted, logical rows are renumbered without it. A second
one takes the module out of service. -/
def State.retireRow (s : State) (r : Nat) : State :=
  if s.retired.contains r then s
  else
    let s := (s.addCause { bit := 4, status := Status.ROW_RETIRED }).endJob Status.ROW_RETIRED
    let s := { s with moves := s.moves.filter (fun m => decide (m.row ≠ r)) }
    let s := ((List.range 64).filterMap (fun p => (s.tileAt r p).map (fun t => (r * 64 + p, t)))).foldl (fun (s : State) e =>
      s.setSpare e.1 (s.tile e.2).unit) s
    match s.retired with
    | [] =>
      { s with
        retired := [r]
        tiles := (s.tiles.filter (fun e => decide (e.1 / 60 < r))) ++
          ((s.tiles.filter (fun e => decide (r < e.1 / 60))).map (fun e => (e.1 - 60, e.2))) }
    | q =>
      { s with retired := q ++ [r], lh := { s.lh with unfit := s.self.toNat :: s.lh.unfit } }.logGlow 3 Status.ROW_RETIRED
        moduleUnit 0xFFFF

end Sys2Proof.Machine
end

