-- ==== Sys2Proof/Machine/PortOps.lean ====
section
/-! DEFINITION. Bafen ports: events, resets, fences, control packets (R349, R350, R357, R361, R363, R364). -/
namespace Sys2Proof.Machine

/-- The kinds of a control packet, in its first byte (the spec gives TYPE 10 no layout; DESIGN CHOICE, log 14). -/
inductive Control where
  | identity | sync | advert | contribution | result | laneSwap | leave | fence | audit | turnaround
  | placement | digest | verdict | mirror | held | token | resend | tick

/-- The number of a control packet's kind. -/
def Control.code : Control → Nat
  | .identity => 1
  | .sync => 2
  | .advert => 3
  | .contribution => 4
  | .result => 5
  | .laneSwap => 6
  | .leave => 7
  | .fence => 8
  | .audit => 9
  | .turnaround => 10
  | .placement => 11
  | .digest => 12
  | .verdict => 13
  | .mirror => 14
  | .held => 15
  | .token => 16
  | .resend => 17
  | .tick => 18

/-- A control packet on VC 0 of a port in service (R346, R360). -/
def State.control (s : State) (p : Nat) (k : Control) (bs : List Byte) : State :=
  if s.fld (BF.STATE p) = 8 then
    let pay := BitVec.ofNat 8 k.code :: bs
    s.transmit p { type := 10, vc := 0, dst := 0, src := s.coord, len := pay.length } pay
  else s

/-- A control packet to another module of the machine. -/
def State.controlTo (s : State) (m : Nat) (k : Control) (bs : List Byte) : State :=
  let dst := moduleCoord s.shape m
  match requestPort s.shape s.coord dst with
  | none => s
  | some p =>
    if s.fld (BF.STATE p) = 8 then
      let pay := BitVec.ofNat 8 k.code :: bs
      s.transmit p { type := 10, vc := 0, dst := dst, src := s.coord, dirs := requestDirs s.shape s.coord dst, len := pay.length } pay
    else s

/-- An event of R361: recorded in the Afterglow log and reported to the host (R405, KIND 1). -/
def State.portEvent (s : State) (p value : Nat) (c : BitVec 16) : State :=
  (s.logGlow 0x0C c (portUnit p) value).event 1 value p c 0

/-- A recorded request answered by the edge router. -/
def State.answerRecord (s : State) (c : BitVec 16) (r : AwayRecord) : State :=
  match r.own with
  | some m => s.send r.tile (m.2.withStatus c)
  | none => s.sendReply { type := 4, vc := 1, dst := r.coord, src := s.coord, dirs := r.dirs, dstTile := r.tile
                          tag := r.tag.toNat, status := c.toNat, epoch := r.st.epoch.toNat, bcn := r.st.low.toNat } []

/-- A packet of Lighthouse has been answered: the entry of a relayed command that an acknowledged one carried is kept no longer,
one that was turned away leaves again (R418, R420). -/
def State.relayAnswered (s : State) (p : Nat) (r : AwayRecord) (acked : Bool) : State :=
  if r.tile = 0xFFE ∧ r.own.isNone ∧ r.coord = s.coord ∧ s.hif.relaySent = some (p, r.tag) then
    { s with hif := { s.hif with relaySent := none, relayKeep := if acked then s.hif.relayKeep.tail else s.hif.relayKeep } }
  else s

/-- Every recorded request of a port answered. -/
def State.answerRecords (s : State) (p : Nat) (c : BitVec 16) : State :=
  let rs := (s.port p).records ++ (s.port p).wait.map (·.1)
  let s := rs.foldl (fun (s : State) r => s.relayAnswered p r false) s
  rs.foldl (fun s r => s.answerRecord c r) (s.setPort p { s.port p with records := [], wait := [] })

/-- The base of the registers of axis `a`'s collective engine. -/
def ceBase (a : Nat) : Nat := bfBase (2 * a)

namespace CE
def LFALLBACK (a : Nat) : Fld := ⟨ceBase a + 0x1000, 8, 1⟩
def LAST_DESC (a : Nat) : Fld := ⟨ceBase a + 0x1000, 16, 8⟩
def LAST_STATUS (a : Nat) : Fld := ⟨ceBase a + 0x1000, 24, 16⟩
def DIGEST_FAILS (a : Nat) : Fld := ⟨ceBase a + 0x1008, 0, 16⟩
def RESENDS (a : Nat) : Fld := ⟨ceBase a + 0x1008, 16, 16⟩
def TIMEOUTS (a : Nat) : Fld := ⟨ceBase a + 0x1008, 32, 16⟩
def STALE (a : Nat) : Fld := ⟨ceBase a + 0x1008, 48, 16⟩
def COUNT (a k : Nat) : Fld := ⟨ceBase a + 0x1100 + 8 * k, 0, 32⟩
def ARMED (a k : Nat) : Fld := ⟨ceBase a + 0x1100 + 8 * k, 32, 8⟩
def ARMED_VALID (a k : Nat) : Fld := ⟨ceBase a + 0x1100 + 8 * k, 40, 1⟩
end CE

def State.collsOf (s : State) (a : Nat) : List Coll := Map.get [] s.colls a
def State.setColls (s : State) (a : Nat) (l : List Coll) : State := { s with colls := Map.set [] s.colls a l }

/-- A collective stops with a status, no DONE signalled, and Lighthouse is told as by R218: EXCH_OK is lost (R377,
R382). -/
def State.collStop (s : State) (a d : Nat) (c : BitVec 16) : State :=
  let s := s.setColls a ((s.collsOf a).filter (fun x => decide (x.d ≠ d)))
  ((s.setFld (CE.LAST_DESC a) d).setFld (CE.LAST_STATUS a) c.toNat).addCause { bit := 4, status := c }

/-- The collectives of a port's axis end (R382). -/
def State.failColls (s : State) (p : Nat) (c : BitVec 16) : State :=
  (s.collsOf (p / 2)).foldl (fun s x => s.collStop (p / 2) x.d c) s

/-- A child's link is lost: its subtree is absent from every open reduction (R272). -/
def State.loseChild (s : State) (p : Nat) : State :=
  { s with bcn := { s.bcn with trees := s.bcn.trees.map (fun e => (e.1, e.2.map (fun r =>
      if r.closed then r else { r with kids := r.kids.filter (fun k => decide (k.port ≠ p)) }))) } }

/-- Port `p` is no source of Beacon edges. -/
def State.dropSource (s : State) (p : Nat) : State :=
  { s with bcn := { s.bcn with sources := s.bcn.sources.filter (fun e => decide (e.port ≠ p)) } }

/-- A port leaves the transmit side: its packets and replay buffer are dropped. -/
def Port.silent (q : Port) : Port :=
  { q with tx := [], replay := [], again := [], stream := [], nakDue := false, edge := none, swap := none, recheck := false }

/-- A port resets (R357): the edge router answers its records, everything held is dropped, it trains fast or, after a
loss of its link, from DETECT. One that is off, fenced or has left stays so (R363, R364). -/
def State.resetPort (s : State) (p : Nat) (full : Bool) : State :=
  let s := s.answerRecords p Status.DOMAIN_RESET
  let q := (s.port p).silent
  let s := s.setPort p { q with
    inReset := true, resetAt := s.count, fast := !full, credits := [], totals := [], owed := [], returned := [] }
  let s := s.setFld (BF.EPOCH p) ((s.fld (BF.EPOCH p) + 1) % 2 ^ 16)
  let st := s.fld (BF.STATE p)
  let s := if st = 0 ∨ st = 9 ∨ st = 11 then s else s.setFld (BF.STATE p) (if full then 1 else 3)
  (s.failColls p Status.DOMAIN_RESET).loseChild p

/-- A port is fenced (R364) for a reason of FENCE_WHY: a notice when it can, then it carries nothing and gives no edges. Requests that it
still has recorded are answered with PORT_FENCED (DEDUCED, log 26). -/
def State.fencePort (s : State) (p why : Nat) : State :=
  let s := s.control p .fence []
  let sent := (s.port p).tx.filter (fun k => decide (bits k.header.toNat 0 4 = 10) && decide (k.payload.head? = some 8))
  let s := s.answerRecords p Status.PORT_FENCED
  let s := s.setPort p { (s.port p).silent with tx := sent }
  let s := (s.setFld (BF.STATE p) 9).setFld (BF.FENCE_WHY p) why
  ((s.failColls p Status.PORT_FENCED).loseChild p).dropSource p

/-- An enabled port trains fully from DETECT, another is off (R355). -/
def State.trainPort (s : State) (p : Nat) : State :=
  let s := s.setPort p { (s.port p).silent with fast := false, halfWidth := false, credits := [], totals := [], owed := [], returned := [] }
  ((s.setFld (BF.STATE p) (if s.fld (BF.ENABLE p) = 1 then 1 else 0)).setFld (BF.WIDTH p) 0).setFld (BF.FENCE_WHY p) 0

/-! ### The transmitter (R342, R343, R346, R347) -/

/-- 64-byte units of a packet, its bytes in the packet stream. -/
def Packet.units (k : Packet) : Nat := (48 + k.payload.length + 63) / 64
def Packet.bytes (k : Packet) : Nat := 48 + k.payload.length
/-- Its channel and subclass as a credit key. -/
def Packet.key (k : Packet) : Nat := bits k.header.toNat 4 3 * 2 + bits k.header.toNat 7 1

/-- The credits a transmitter starts with (R346): the receive buffers, but VC 0's in two halves. -/
def firstCredits : Map Nat := [(0, 128), (2, 256), (3, 256), (4, 1024), (5, 1024), (6, 512), (7, 512), (8, 128), (9, 128)]

/-- The place of a packet's source in R12's order: its module index, then its logical index. -/
def Packet.source (shape : Nat) (k : Packet) : Nat :=
  moduleIndex shape (bits k.header.toNat 32 24) * 4096 + bits k.header.toNat 76 12

/-- The oldest packet of each source, channel and subclass. -/
def firstOfEach (shape : Nat) (ks : List Packet) : List Packet :=
  ks.foldl (fun hs k => if hs.any (fun h => decide (h.source shape = k.source shape) && decide (h.key = k.key)) then hs else hs ++ [k]) []

/-- The packet that channel `v` serves next (R346): of those with credit the first at or past R12's pointer; and what waits
behind it. -/
def Port.ready (q : Port) (shape v : Nat) : Option (Packet × List Packet) :=
  let ok := (firstOfEach shape (q.tx.filter (fun k => decide (k.key / 2 = v)))).filter (fun k => decide (k.units ≤ Map.get 0 q.credits k.key))
  let far (k : Packet) : Nat := (k.source shape + 2 ^ 26 - Map.get 0 q.turn v) % 2 ^ 26
  (ok.foldl (fun best k => match best with
    | none => some k
    | some b => if far k < far b then some k else best) (none : Option Packet)).map (fun k => (k, q.tx.erase k))

/-- The channel that a frame serves (R346). -/
def Port.serves (q : Port) (shape : Nat) : Option Nat :=
  let on (v : Nat) : Bool := (q.ready shape v).isSome
  if on 0 then some 0
  else if on 3 && decide (16 ≤ q.slot + 2 - min 2 q.used3) then some 3
  else if on 1 then some 1
  else if on 2 && !q.lastTwo then some 2
  else if on 3 then some 3
  else if on 2 then some 2
  else if on 4 && decide (q.used4 = 0) then some 4
  else none

/-- A packet in the packet stream (R345). -/
def Packet.wire (k : Packet) : List Byte := bytesOf k.header.toNat 48 ++ k.payload

/-- The stream of the next frame and the channels that it serves: the packet that runs on, then whatever may start, each with its
credits used, then idle bytes; what does not fit stays for the frames that follow (R341). -/
def Port.fill (shape : Nat) : Nat → List Byte → List Nat → Port → Port × List Byte × List Nat
  | 0, bs, vs, q => ({ q with stream := bs.drop 608 }, bs.take 608, vs)
  | fuel + 1, bs, vs, q =>
    let idle : Port × List Byte × List Nat := ({ q with stream := [] }, bs ++ List.replicate (608 - bs.length) 0, vs)
    if 608 ≤ bs.length then ({ q with stream := bs.drop 608 }, bs.take 608, vs)
    else match q.serves shape with
      | none => idle
      | some v =>
        match q.ready shape v with
        | none => idle
        | some (k, rest) =>
          Port.fill shape fuel (bs ++ k.wire) (v :: vs) { q with
            tx := rest, credits := Map.set 0 q.credits k.key (Map.get 0 q.credits k.key - k.units)
            turn := Map.set 0 q.turn v (k.source shape + 1), toGoOn := v }

/-- The channel and subclass whose credits the next frame returns, and how many: the first that has any (the choice is the model's,
log 50). -/
def Port.creditKey (q : Port) : Nat := ((List.range 10).find? (fun k => decide (Map.get 0 q.owed k ≠ 0))).getD 0
def Port.creditOut (q : Port) : Nat := min 4095 (Map.get 0 q.owed q.creditKey)

/-- The header of the next frame (R342). -/
def Port.frameHeader (q : Port) (stream : List Byte) : BitVec 256 :=
  let body := [(q.txSeq.toNat, 0, 16), ((q.rxSeq - 1).toNat, 16, 16), (ofBool q.nakDue, 32, 1), (q.creditKey / 2, 33, 3),
    (q.creditKey % 2, 36, 1), (q.creditOut, 37, 12), (q.low.toNat, 49, 16)].foldl (fun w f => putBits w f.2.1 f.2.2 f.1) 0
  BitVec.ofNat 256 (body + (crc32c (bytesOf body 28 ++ stream)).toNat * 2 ^ 224)

/-- The idle field of the next codeword: an edge to be marked, its offset and whether it is marked as holdover (R342, R352). -/
def Port.idleField (q : Port) (offset : BitVec 4) : BitVec 20 :=
  match q.edge with
  | some e => BitVec.ofNat 20 (1 + offset.toNat * 2 + ofBool e.1 * 2 ^ 5)
  | none => 0

/-- The edge is marked; the frames that follow carry its count. -/
def Port.marked (q : Port) : Port :=
  match q.edge with
  | some e => { q with edge := none, low := e.2 }
  | none => q

/-- The port sends a frame: one that is to be resent, else a new one, which waits in the replay buffer of 512 frames for its ACK
(R341 to R343, R346). -/
def Port.sendFrame (shape : Nat) (offset : BitVec 4) (q : Port) : Port :=
  match q.again with
  | f :: fs => { q.marked with again := fs, sent := some { f with idle := q.idleField offset } }
  | [] =>
    if 512 ≤ q.replay.length then q
    else
      let r := Port.fill shape 14 q.stream (if q.stream = [] then [] else [q.toGoOn]) q
      let n := r.1
      let vs := r.2.2
      let f : LinkFrame := ⟨q.idleField offset, q.frameHeader r.2.1, r.2.1⟩
      let last : Bool := decide (n.slot = 15)
      { n.marked with
        txSeq := n.txSeq + 1, nakDue := false, replay := n.replay ++ [f], sent := some f
        owed := Map.set 0 n.owed q.creditKey (Map.get 0 n.owed q.creditKey - q.creditOut)
        returned := Map.set 0 n.returned q.creditKey (Map.get 0 n.returned q.creditKey + BitVec.ofNat 16 q.creditOut)
        slot := if last then 0 else n.slot + 1, lastTwo := vs.contains 2
        used3 := if last then 0 else n.used3 + ofBool (vs.contains 3), used4 := if last then 0 else n.used4 + ofBool (vs.contains 4) }

/-- The running totals of the credits that the port has returned, by channel and subclass (R347). -/
def Port.auditBytes (q : Port) : List Byte := (List.range 10).flatMap (fun k => bytesOf (Map.get 0 q.returned k).toNat 2)

/-- A port in service sends its next frame; every 4,096 frames it sends its totals of credits (R347). The offset of an edge within
its codeword is a free value. -/
def State.sendFrame (s : State) (p : Nat) : State :=
  let v := if (s.port p).edge.isSome then s.draw 4 else (0, s)
  let seq := (s.port p).txSeq
  let s := v.2.setPort p ((s.port p).sendFrame s.shape v.1)
  if (s.port p).txSeq ≠ seq ∧ (s.port p).txSeq.toNat % 4096 = 0 then s.control p .audit (s.port p).auditBytes else s

/-- A port that has left or is fenced still has its notice to send, and the credits for it (R363, R364). -/
def State.lastWord (s : State) (p : Nat) : Bool :=
  decide (s.fld (BF.STATE p) = 9 ∨ s.fld (BF.STATE p) = 11) && ((s.port p).serves s.shape).isSome

/-- Every port in service sends (on an idle tick: DESIGN CHOICE, log 4). -/
def State.sendFrames (s : State) : State :=
  (List.range 8).foldl (fun (s : State) p =>
    if s.fld (BF.STATE p) = 8 ∨ s.fld (BF.STATE p) = 10 ∨ s.lastWord p = true then s.sendFrame p else s) s

/-- A frame is answered with NAK, once until the next one is accepted (R343). -/
def Port.nak (q : Port) : Port := { q with nakSent := true, nakDue := q.nakDue || !q.nakSent }

/-- The receive buffer of a packet is free again: its credits are to be returned (R347). -/
def Port.freed (q : Port) (k : Packet) : Port := { q with owed := Map.set 0 q.owed k.key (Map.get 0 q.owed k.key + k.units) }

/-- An edge of the module's timing domain is to be marked by every port that marks edges (R352). -/
def State.markEdges (s : State) : State :=
  if s.fld BCN.STATE = 0 then s
  else
    let held := decide (s.fld BCN.STATE ≠ 1) && decide (s.fld BCN.STATE ≠ 2)
    (List.range 8).foldl (fun (s : State) p =>
      if s.fld (BF.STATE p) = 8 ∧ (s.port p).farFenced = false then
        s.setPort p { s.port p with edge := some (held, s.count.setWidth 16) } else s) s

end Sys2Proof.Machine
end

