-- ==== Sys2Proof/Machine/Regions.lean ====
section
/-! DEFINITION. Where a block of HBM lies (R277 to R284) and which slot of a version region serves it (R294 to R300). -/
namespace Sys2Proof.Machine

def State.stack (s : State) (k : Nat) : Stack := Map.get {} s.hbmStacks k
def State.setStack (s : State) (k : Nat) (x : Stack) : State := { s with hbmStacks := Map.set {} s.hbmStacks k x }

/-! ### Placement (R278, R281) -/

/-- Stack, logical channel and row of block `b` with LOCAL_UNITS = `l`. -/
def placeBlock (l b : Nat) : Nat × Nat × Nat :=
  let gb := (48 - l) * 3932160
  if b < gb then (b % 240 / 15, b % 240 % 15, b / 240)
  else
    let r := b - gb
    let ps := l * 245760
    let q := r % ps
    (r / ps, q % 15, gb / 240 + q / 15)

def State.place (s : State) (blk : Nat) : Nat × Nat × Nat := placeBlock (s.fld HBM.LOCAL_UNITS) blk

/-- The physical channel that serves a logical channel of a stack: its own number, or the spare, 15, once the spare has
replaced it (R281; DEDUCED, log 12). -/
def State.physChannel (s : State) (stack lch : Nat) : Nat :=
  if s.fld (HBM.SPARE_USED stack) = 1 ∧ s.fld (HBM.SPARE_FOR stack) = lch then 15
  else lch

/-- The stack and the physical channel of a block. -/
def State.channelOf (s : State) (blk : Nat) : Nat × Nat :=
  let p := s.place blk
  (p.1, s.physChannel p.1 p.2.1)

/-- The block's channel is eclipsed with no copy (R282): it reads as poisoned. -/
def State.channelLost (s : State) (blk : Nat) : Bool :=
  let c := s.channelOf blk
  (s.fld (HBM.FAILED c.1)).testBit c.2 && decide ((s.stack c.1).copying ≠ some c.2)

/-- The block's channel is out of reset (R283). -/
def State.channelReady (s : State) (blk : Nat) : Bool :=
  let c := s.channelOf blk
  decide (s.fld (HBM.CH_READY c.1 c.2) = 1)

/-- Tile `t` reaches the block's stack: it has the near path, or an entry router serves (R228, R284). -/
def State.reaches (s : State) (t blk : Nat) : Bool :=
  let k := (s.place blk).1
  nearStack (s.physOf t) k || s.stackReachable k

/-- The 4 KiB blocks that `n` bytes at `a` touch. -/
def blocksOf (a n : Nat) : List Nat := (List.range ((a + n + 4095) / 4096 - a / 4096)).map (fun i => a / 4096 + i)

/-- The block's stack serves nothing: temperature level 3 (R287). -/
def State.stackAsleep (s : State) (blk : Nat) : Bool := decide (s.fld (HBM.TLEVEL (s.place blk).1) = 3)

/-! ### Version regions (R294 to R300) -/

/-- The regions in use. -/
def State.vregs (s : State) : List Nat :=
  (s.regs.filter (fun e => decide (HBM.vreg 0 ≤ e.1) && decide (e.1 < HBM.vreg 1024) && decide (e.1 % 32 = 0)
    && decide (bits e.2.toNat 56 2 ≠ 0))).map (fun e => (e.1 - HBM.vreg 0) / 32)

/-- The region, the slot and the index within the slot of a block. -/
def State.regionOfBlock (s : State) (blk : Nat) : Option (Nat × Nat × Nat) :=
  s.vregs.findSome? (fun n =>
    let b := s.fld (HBM.BASE_BLK n)
    let len := s.fld (HBM.LEN_BLK n)
    if b ≤ blk ∧ blk < b + len * s.fld (HBM.SLOTS n) ∧ 0 < len then some (n, (blk - b) / len, (blk - b) % len)
    else none)

/-- Any block of a span of `n` bytes at `a` lies in a region: the span meets the range of some region. -/
def State.touchesRegion (s : State) (a n : Nat) : Bool :=
  s.vregs.any (fun r =>
    let lo := s.fld (HBM.BASE_BLK r) * 4096
    decide (lo < a + n) && decide (a < lo + s.fld (HBM.LEN_BLK r) * s.fld (HBM.SLOTS r) * 4096))

/-- Slot `k` of region `n` is free. -/
def State.slotFree (s : State) (n k : Nat) : Bool := (s.fld (HBM.FREE n)).testBit k

/-- The slot that is not free and holds generation `g`. -/
def State.slotHolding (s : State) (n g : Nat) : Option Nat :=
  (List.range (s.fld (HBM.SLOTS n))).find? (fun k => !s.slotFree n k && decide (s.fld (HBM.GEN n k) = g))

/-- g is older than the lit generation (R295). -/
def olderGen (lit g : Nat) : Bool :=
  let d := (lit + 2 ^ 24 - g) % 2 ^ 24
  decide (1 ≤ d) && decide (d ≤ 2 ^ 23)

/-- A HALO = 1 read of a block resolved to the block that serves it (R294, R300): the status, the block, the region. -/
def State.resolveRead (s : State) (blk g : Nat) : BitVec 16 × Nat × Option Nat :=
  match s.regionOfBlock blk with
  | none => (0, blk, none)
  | some (n, k, i) =>
    if k ≠ 0 then (Status.GEN_ADDR, blk, some n)
    else match s.slotHolding n g with
      | some k' => (0, s.fld (HBM.BASE_BLK n) + k' * s.fld (HBM.LEN_BLK n) + i, some n)
      | none => (if olderGen (s.fld HBM.LIT) g then Status.GEN_RETIRED else Status.GEN_UNKNOWN, blk, some n)

/-- The blocks that serve `n` bytes at `a`: with HALO = 1 those of a version region lie in the slot that holds generation `g`. -/
def State.servedBlocks (s : State) (halo : Bool) (a n g : Nat) : List Nat :=
  (blocksOf a n).map (fun b => if halo then (s.resolveRead b g).2.1 else b)

/-- A read names the shadow while it is open (the first row of R300). -/
def State.readsShadow (s : State) (g : Nat) : Bool := decide (s.fld HBM.OPEN = 1) && decide (g = s.fld HBM.SHADOW)

/-- The block that serves a HALO = 1 access which names generation `g`: of a version region one in the slot that holds it. -/
def State.servedBlock (s : State) (halo : Bool) (blk g : Nat) : Nat := if halo then (s.resolveRead blk g).2.1 else blk

/-- The blocks that a queued write changes. -/
def State.writtenBlocks (s : State) (r : HbmReq) (bs : List Byte) : List Nat :=
  (blocksOf r.addr.toNat (if r.halo then bs.length / 4128 * 4096 else bs.length)).map (fun b => s.servedBlock r.halo b r.gen.toNat)

/-! ### The channel queues (R279) -/

/-- A request at the queue of the channel that serves its first block. `near`: by the near path. -/
def State.enqueueHbm (s : State) (r : HbmReq) (near : Bool) : State :=
  let c := s.channelOf (s.servedBlock r.halo (r.addr.toNat / 4096) r.gen.toNat)
  let k := s.stack c.1
  s.setStack c.1 { k with queue := k.queue ++ [(c.2, { r with near := near, cycle := s.cycle })] }

/-- The requester of a queued request, as R12 numbers it: this module's tile, or the tile of another module. -/
def HbmReq.index (r : HbmReq) : Nat :=
  match r.sender with
  | .dma st _ => st.tile
  | .record st _ _ => st.tile
  | .message st _ => st.tile
  | .mcast st _ => st.tile
  | .away _ _ st _ => st.tile
  | .host _ => 0xFFF

/-- The request of a channel that is served next: of those accepted in the cycle of the oldest, the near path before the entry
router, then under R12's rotating pointer by logical index. -/
def Stack.next (x : Stack) (ch : Nat) : Option (Nat × HbmReq) :=
  match x.queue.find? (fun e => decide (e.1 = ch)) with
  | none => none
  | some e =>
    let same := x.queue.filter (fun f => decide (f.1 = ch) && decide (f.2.cycle = e.2.cycle))
    let near := same.filter (·.2.near)
    let group := if near.isEmpty then same else near
    let turn (f : Nat × HbmReq) : Nat := (f.2.index + 4096 - Map.get 0 x.turn ch) % 4096
    some (group.foldl (fun b f => if turn f < turn b then f else b) (group.headD e))

/-- That request, and the state without it. -/
def State.takeHbm (s : State) (k ch : Nat) : Option (HbmReq × State) :=
  let x := s.stack k
  match x.next ch with
  | none => none
  | some e => some (e.2, s.setStack k { x with queue := x.queue.erase e, turn := Map.set 0 x.turn ch (e.2.index + 1) })

end Sys2Proof.Machine
end

