-- ==== Sys2Proof/Machine/Charge.lean ====
section
/-! DEFINITION. Charging a fault to a unit, its classification and its eclipse (R456 to R459, R239, R240, R281 to R283). -/
namespace Sys2Proof.Machine

/-! ### HBM channels -/

/-- A refused request of a channel queue. -/
def State.refuseHbm (s : State) (r : HbmReq) (c : BitVec 16) : State :=
  match r.sender, r.dst with
  | .message st _, some d => s.send st.tile (.load st d r.pc c [])
  | .away dirs coord st tag, _ =>
    s.sendReply { type := 4, vc := 1, dst := coord.toNat, src := s.coord, dirs := dirs, dstTile := st.tile
                  tag := tag.toNat, status := c.toNat, epoch := st.epoch.toNat, bcn := st.low.toNat } []
  | dest, _ => s.answerTo dest 0 c none

/-- A channel resets (R283): its queued requests are answered with DOMAIN_RESET, its queued writes are journalled. -/
def State.resetChannel (s : State) (k ch : Nat) : State :=
  let x := s.stack k
  let mine := x.queue.filter (fun e => decide (e.1 = ch))
  let marks := mine.flatMap (fun e => match e.2.write with
    | some bs => (s.writtenBlocks e.2 bs).map (fun b => (ch, b))
    | none => [])
  let s := s.setStack k { x with
    queue := x.queue.filter (fun e => decide (e.1 ≠ ch)), journal := x.journal ++ marks
    resetAt := Map.set 0 x.resetAt ch s.count }
  let s := (s.setFld (HBM.CH_EPOCH k ch) ((s.fld (HBM.CH_EPOCH k ch) + 1) % 2 ^ 16)).setFld (HBM.CH_READY k ch) 0
  mine.foldl (fun s e => s.refuseHbm e.2 Status.DOMAIN_RESET) s

/-- A channel is eclipsed: copied to the stack's spare, or lost where the spare is in use or itself failed (R281, R282). -/
def State.eclipseChannel (s : State) (k ch : Nat) : State :=
  let f := s.fld (HBM.FAILED k)
  if f.testBit ch then s
  else
    let s := s.setFld (HBM.FAILED k) (f ||| 2 ^ ch)
    if s.fld (HBM.SPARE_USED k) = 0 ∧ (s.stack k).copying = none ∧ ch ≠ 15 ∧ f.testBit 15 = false then
      (s.setStack k { s.stack k with copying := some ch }).setFld (HBM.COPY_BUSY k) 1
    else if s.fld (HBM.SPARE_USED k) = 0 ∧ ch = 15 then s
    else
      { s with lh := { s.lh with unfit := s.self.toNat :: s.lh.unfit } }.logGlow 3 Status.HBM_CH_LOST (channelUnit k ch) 0xFFFF

/-! ### Members lost to their job (R445) -/

/-- Module `m` is declared lost: a job that runs on it, or is being placed on it, recovers. -/
def State.loseMember (s : State) (m : Nat) : State :=
  { s with lh := { s.lh with
      unfit := m :: s.lh.unfit.erase m
      jobs := s.lh.jobs.map (fun j =>
        if j.box.contains m && (decide (j.state = .running) || decide (j.state = .placing) || decide (j.state = .recovering)) then
          { j with state := .recovering, lost := m :: j.lost.erase m } else j) } }

/-! ### Eclipses -/

/-- A tile core is eclipsed (R459): reset, powered down (R35; a spare is powered down), substituted at the next superstep
boundary; with no free spare its row retires. The answer is the substitute's physical index. -/
def State.eclipseTile (s : State) (phys : Nat) : State × Nat :=
  let r := phys / 64
  let p := phys % 64
  match s.tileAt r p with
  | none => (s.setSpare phys { s.spare phys with powered := false }, 0xFFFF)
  | some t =>
    let s := (s.resetCore t).onTile t (fun x => x.setFld TILE.CORE_PWR 0)
    match s.chooseSpare r p with
    | none => (s.retireRow r, 0xFFFF)
    | some q =>
      match s.colAt r p with
      | some c => ({ s with moves := s.moves.filter (fun m => decide (m.row ≠ r ∨ m.col ≠ c)) ++ [⟨r, c, q⟩] }, r * 64 + q)
      | none => (s, 0xFFFF)

/-- Routers of a row that have failed. -/
def State.failedRouters (s : State) (r : Nat) : Nat := ((List.range 64).filter (fun p => decide (s.router r p ≠ .up))).length

/-- A gateway of Lighthouse fails; with both gone the module is lost to its job, and that is recorded (R426; R485 gives the
record neither KIND nor DETAIL). -/
def State.failGateway (s : State) (g : Nat) : State :=
  if s.lh.gatewaysDown.contains g then s
  else
    let s := { s with lh := { s.lh with gatewaysDown := g :: s.lh.gatewaysDown } }
    if s.lh.gatewaysDown.length < 2 then s
    else
      let k := s.draw 8
      let d := k.2.draw 64
      (d.2.logGlow k.1.toNat 0 moduleUnit d.1.toNat).loseMember s.self.toNat

/-- A router fails or is eclipsed (R239, R240): it answers for what it held, its tile goes with it, so do the stack
entry, the port and the gateway it hosts; a third in its row retires the row. -/
def State.failRouter (s : State) (phys : Nat) : State :=
  let r := phys / 64
  let p := phys % 64
  if s.router r p ≠ .up then s
  else
    let s := { s with routers := Map.set .up s.routers phys .failed }
    let s : State := match s.tileAt r p with
      | some t => (s.resetRouter t).onTile t (fun x => { x with rtrReady := true })
      | none => s
    let s := (s.setUnit (coreUnit phys) { s.unit (coreUnit phys) with state := max 2 (s.unit (coreUnit phys)).state })
    let e := s.eclipseTile phys
    let s := e.1.logGlow 3 Status.UNIT_ECLIPSED (coreUnit phys) e.2
    let s : State := ((List.range 16).filter (fun k => decide (stackEntry k = phys))).foldl
      (fun (s : State) k => s.setFld (HBM.ENTRY_DOWN k) 1) s
    let s : State := ((List.range 8).filter (fun k => decide (portEdge k = phys))).foldl (fun (s : State) k => s.fencePort k 4) s
    let s : State := ((List.range 2).filter (fun g => decide (gatewayAt g = phys))).foldl State.failGateway s
    if 3 ≤ s.failedRouters r then s.retireRow r else s

/-- Lockstep pairs in service. -/
def State.pairsLeft (s : State) : Nat := ((List.range 4).filter (fun i => decide ((s.unit (pairUnit i)).state < 2))).length

/-- The module takes no placement until every tile core in service has passed a test, due at once (R459, R467). -/
def State.exclude (s : State) : State :=
  let us := (List.range 3072).filter (fun u => decide ((s.unit u).state = 0))
  let s := us.foldl (fun (s : State) u => s.setUnit u { s.unit u with testDue := s.utc }) s
  { s with
    rel := { s.rel with excluded := true, proving := us }
    lh := { s.lh with unfit := s.self.toNat :: s.lh.unfit.erase s.self.toNat } }

/-- A unit is eclipsed (R459): the result for its kind, the record and its event. -/
def State.eclipse (s : State) (u : Nat) (permanent : Bool) : State :=
  let s := s.setUnit u { s.unit u with state := if permanent then 3 else max 2 (s.unit u).state }
  let i := u % 2 ^ 16
  match u / 2 ^ 28 with
  | 0 =>
    let e := s.eclipseTile i
    e.1.logGlow 3 Status.UNIT_ECLIPSED u e.2
  | 1 => (s.failRouter i).logGlow 3 Status.UNIT_ECLIPSED u 0xFFFF
  | 2 => ((s.resetChannel (i / 16) (i % 16)).eclipseChannel (i / 16) (i % 16)).logGlow 3 Status.UNIT_ECLIPSED u 0xFFFF
  | 3 => ((s.resetPort i false).fencePort i 2).logGlow 3 Status.UNIT_ECLIPSED u 0xFFFF
  | 4 =>
    let s := s.logGlow 3 Status.UNIT_ECLIPSED u 0xFFFF
    if s.pairsLeft = 0 then s.loseMember s.self.toNat else s
  | _ => s.exclude.logGlow 3 Status.UNIT_ECLIPSED u 0xFFFF

/-- A unit is classed permanent (R457), by rule 1 count, 2 retest or 3 not ready: recorded and eclipsed (R458). -/
def State.makePermanent (s : State) (u rule : Nat) (c : BitVec 16) : State :=
  if (s.unit u).state = 3 then s
  else
    let s := (s.logGlow 2 c u rule).setUnit u { s.unit u with result := 3 }
    let s := { s with rel := { s.rel with testing := Map.set none s.rel.testing u none } }
    s.eclipse u true

/-- One fault is charged to a unit (R456 to R458): recorded; FAULT_N of them within WINDOW_D make the unit permanent; a
tile core's test falls due at once. -/
def State.charge (s : State) (u : Nat) (c : BitVec 16) : State :=
  let e := s.unit u
  let e := { e with faults := (s.utc :: e.faults).take 3 }
  let s := s.setUnit u (if u < 3072 then { e with testDue := s.utc } else e)
  if s.policy NVM.FAULT_N ≤ s.recent u then s.makePermanent u 1 c
  else s.logGlow 1 c u (s.recent u)

/-- A fault of the core under a logical tile. -/
def State.chargeTile (s : State) (t : Nat) (c : BitVec 16) : State := s.charge (coreUnit (s.physOf t)) c

/-- A fault of the channel that serves a block, by its stack and physical channel. -/
def State.chargeChannel (s : State) (k ch : Nat) (c : BitVec 16) : State := s.charge (channelUnit k ch) c

end Sys2Proof.Machine
end

