-- ==== Sys2Proof/Machine/Ops.lean ====
section
/-! DEFINITION. The named operations over the state: tiles, registers, addresses, statuses, messages, and the issue of a
tile instruction. -/
namespace Sys2Proof.Machine

/-! ### Addresses (R24, R27) -/

/-- Where an access lies. -/
inductive Region where
  | hbm (a : Nat)
  | spad (t off : Nat)
  | tcb (t off : Nat)
  | reg (off : Nat)
  | unmapped

/-- The region of `n` bytes at device address `a`; `tiles` logical tiles are mapped. Bytes that leave the populated part
make the whole access unmapped (R27). -/
def regionOf (tiles a n : Nat) : Region :=
  if a + n ≤ 0xB4_0000_0000 then .hbm a
  else if 0x1000_0000_0000 ≤ a ∧ a < 0x1000_0000_0000 + tiles * 0x10_0000 then
    let off := a % 0x10_0000
    if off + n ≤ spadSize then .spad ((a - 0x1000_0000_0000) / 0x10_0000) off else .unmapped
  else if 0x1800_0000_0000 ≤ a ∧ a < 0x1800_0000_0000 + tiles * 0x1_0000 then
    let off := a % 0x1_0000
    if off + n ≤ 0x1_0000 then .tcb ((a - 0x1800_0000_0000) / 0x1_0000) off else .unmapped
  else if 0x2000_0000_0000 ≤ a ∧ a + n ≤ 0x2000_1000_0000 then .reg (a - 0x2000_0000_0000)
  else .unmapped

def State.region (s : State) (a n : Nat) : Region := regionOf s.tileCount a n

/-- `n` bytes of register space that no block occupies (R25): they read as 0, ignore writes and set UNMAPPED (R16, R27). -/
def bareReg (off n : Nat) : Bool :=
  (decide (0x02C0_0000 ≤ off) && decide (off + n ≤ sramBase)) || decide (0x0380_0000 ≤ off)

/-! ### Register files of a tile (R75) -/

/-- s0 reads 0. -/
def Tile.getS (t : Tile) (r : Nat) : Word := if r = 0 then 0 else Map.get 0 t.s r
/-- A write to s0 is discarded. -/
def Tile.putS (t : Tile) (r : Nat) (v : Word) : Tile := if r = 0 then t else { t with s := Map.set 0 t.s r v }
/-- p0 reads as all ones. -/
def Tile.getP (t : Tile) (r : Nat) : BitVec 256 := if r = 0 then BitVec.allOnes 256 else Map.get 0 t.p r
/-- A write to p0 is discarded. -/
def Tile.putP (t : Tile) (r : Nat) (v : BitVec 256) : Tile :=
  if r = 0 then t else { t with p := Map.set 0 t.p r v }
def Tile.getV (t : Tile) (r : Nat) : BitVec 8192 := Map.get 0 t.v r
def Tile.putV (t : Tile) (r : Nat) (v : BitVec 8192) : Tile := { t with v := Map.set 0 t.v r v }

/-- The identity, epoch and stamp a request of tile `t`'s core domain carries (R37). -/
def State.stamp (s : State) (t : Nat) : Stamp :=
  ⟨t, BitVec.ofNat 16 ((s.tile t).fld TILE.CORE_EPOCH), s.count.setWidth 32⟩

/-- R37: the reply's epoch differs, or its issue lies before the tick of the domain's last reset. -/
def Tile.stale (t : Tile) (now : BitVec 64) (st : Stamp) : Bool :=
  decide (st.epoch.toNat ≠ t.fld TILE.CORE_EPOCH) || (extend st.low now).ult t.resetAt

/-- A register that an instruction in flight will write (R81); s0 needs none. -/
def Tile.hold (t : Tile) (r : Nat) : Tile := if r = 0 then t else { t with busy := t.busy ++ [r] }
/-- It has been written. -/
def Tile.release (t : Tile) (r : Nat) : Tile := { t with busy := t.busy.erase r }
/-- The value of an instruction that completes later (R81). -/
def Tile.complete (t : Tile) (r : Nat) (v : Word) : Tile := (t.putS r v).release r

/-- An event becomes pending (R106). -/
def Tile.post (t : Tile) (ev : Nat) : Tile := t.setFld TILE.PEND (t.fld TILE.PEND ||| 2 ^ ev)

/-! ### Statuses recorded in TILE_FAULT (R102 to R104) -/

/-- ILLEGAL_OP, INSN_FIELD and PC_FAULT stop the stream whatever FAULT_STOP holds. -/
def alwaysStops (c : BitVec 16) : Bool :=
  decide (c = Status.ILLEGAL_OP) || decide (c = Status.INSN_FIELD) || decide (c = Status.PC_FAULT)

/-- A recorded status stops the stream (R103). -/
def Tile.stops (t : Tile) (c : BitVec 16) : Bool :=
  alwaysStops c || (decide (t.fld TILE.FAULT_STOP = 1) && (Status.cls c = 3 || Status.cls c = 4 || Status.cls c = 7))

/-- CODE, PC and VALID, unless they hold an earlier record. -/
def Tile.latch (t : Tile) (c : BitVec 16) (pc : BitVec 20) : Tile :=
  if t.fld TILE.FAULT_VALID = 1 then t
  else ((t.setFld TILE.FAULT_CODE c.toNat).setFld TILE.FAULT_PC pc.toNat).setFld TILE.FAULT_VALID 1

/-- A status recorded at an instruction's offset: the stream stops, or FAULT becomes pending. -/
def Tile.record (t : Tile) (c : BitVec 16) (pc : BitVec 20) : Tile :=
  let u := t.latch c pc
  if t.stops c then { u with halted := true } else if t.fld TILE.FAULT_STOP = 0 then u.post 6 else u

/-- A status that a reply brings to tile `t` is recorded; one that stops its stream ends the job (R444), and so does
POISON_CONSUMED. -/
def State.recordReply (s : State) (t : Nat) (c : BitVec 16) (pc : BitVec 20) : State :=
  let x := s.tile t
  let s := s.setTile t (x.record c pc)
  if x.stops c || decide (c = Status.POISON_CONSUMED) then s.endJob c else s

/-- An access to the scratchpad of tile `t` ended with `c`: SPAD_UE is charged to its core and recorded (R46, R456). -/
def State.chargeSpad (s : State) (t : Nat) (c : BitVec 16) : State :=
  if c = Status.SPAD_UE then s.chargeTile t c else s

/-- A status that tile `t` meets itself is recorded; SPAD_UE is one of its own scratchpad. -/
def State.record (s : State) (t : Nat) (c : BitVec 16) (pc : BitVec 20) : State := (s.recordReply t c pc).chargeSpad t c

/-! ### Fields of the formats (R86) -/

def fRD (w : BitVec 52) : Nat := bits w.toNat 43 5
def fRA (w : BitVec 52) : Nat := bits w.toNat 38 5
def fRB (w : BitVec 52) : Nat := bits w.toNat 33 5
def fRC (w : BitVec 52) : Nat := bits w.toNat 28 5
def fIMM12 (w : BitVec 52) : Nat := bits w.toNat 8 12
def fIMM32 (w : BitVec 52) : Nat := bits w.toNat 0 32
/-- IMM32 and DISP sign-extended to 64 bits. -/
def fSIMM32 (w : BitVec 52) : Word := (w.setWidth 32).signExtend 64

abbrev uRD : Nat × Nat := (43, 5)
abbrev uRA : Nat × Nat := (38, 5)
abbrev uRB : Nat × Nat := (33, 5)
abbrev uRC : Nat × Nat := (28, 5)
abbrev uIMM12 : Nat × Nat := (8, 12)
abbrev uIMM32 : Nat × Nat := (0, 32)

/-! ### Issue (R77 to R81, R88) -/

/-- The instruction buffer after the instruction at `pc` has issued. -/
def takeInsn (pc : BitVec 20) (b : List (Nat × BitVec 64)) : List (Nat × BitVec 64) :=
  (b.dropWhile (fun e => decide (e.1 ≠ pc.toNat))).drop 1

/-- R78. -/
def pcOk (pc : BitVec 20) : Bool := decide (pc.toNat % 8 = 0) && decide (pc.toNat < spadSize)

/-- The SIGs in the signal buffer (R95). -/
def Tile.heldSigs (t : Tile) : List HeldSig := t.sigs.filter (fun h => decide (h.op.kind = .sig))

/-- The scalar core can issue an instruction that names the s registers `regs` (R81): the core is out of reset, its
stream runs, nothing stops issue, the signal buffer has room (R95) and no register named waits to be written. -/
def Tile.canIssue (t : Tile) (regs : List Nat) : Bool :=
  decide (t.fld TILE.CORE_READY = 1) && !t.halted && decide (t.stall = .none) && decide (t.heldSigs.length < 8)
    && regs.all (fun r => !t.busy.contains r)

/-- PRED and PNEG (R84). -/
def predOf (w : BitVec 52) : Nat := bits w.toNat 48 3
def pnegOf (w : BitVec 52) : Bool := bit w.toNat 51

/-- The clocks of the core rail and mesh run: the arithmetic PLL is locked (R528). -/
def State.clocked (s : State) : Bool := !s.pwr.unlocked.contains (0, 0)

/-- The matrix engine and the lane unit work: DUTY is not 0 (R519, R529). -/
def State.lanesOn (s : State) : Bool := s.clocked && decide (s.pwr.duty ≠ 0)

/-- The instruction's predicate: lane i acts where bit i is 1 (R77). -/
def Tile.pred (t : Tile) (w : BitVec 52) : BitVec 256 :=
  if pnegOf w then ~~~(t.getP (predOf w)) else t.getP (predOf w)

/-- Bits [47:0] that the fields `fs` (lowest bit, width) do not cover are 0 (R88). -/
def unusedZero (w : BitVec 52) (fs : List (Nat × Nat)) : Bool :=
  decide (fs.foldl (fun v f => putBits v f.1 f.2 0) (w.toNat % 2 ^ 48) = 0)

/-- What the issue of a tile instruction needs to know of it: the fields it uses, the s registers it names, and whether
its fields hold values its entry allows. `vector`: it goes to the vector engine, where the predicate acts lane by lane.
`writesP`: the predicate register that it writes from the scalar core. `room`: the queue it enters has room (R80). -/
structure Form where
  used : List (Nat × Nat)
  regs : List Nat
  legal : Bool := true
  vector : Bool := false
  writesP : Option Nat := none
  room : Bool := true

/-- The predicate register that a queued instruction writes: VCMP's and GBERN's. -/
def QInsn.writesPred (q : QInsn) : Option Nat :=
  if (decide (q.cls = 3) && decide (q.op = 0xE)) || (decide (q.cls = 0xA) && decide (q.op = 5)) then some (fRD q.w % 8) else none

/-- A queued vector instruction reads or writes predicate register `r`: its PRED, the RC of VRED and VSCAN, its result. -/
def QInsn.usesPred (q : QInsn) (r : Nat) : Bool :=
  (decide (q.cls ≠ 2) && decide (predOf q.w = r)) || (decide (q.cls = 3) && decide (0x30 ≤ q.op) && decide (fRC q.w % 8 = r))
    || decide (q.writesPred = some r)

/-- The predicate registers are at rest for an instruction that waits for no vector work (R81): no queued instruction writes
its PRED, none uses the one that it writes. -/
def Tile.predsReady (t : Tile) (w : BitVec 52) (f : Form) : Bool :=
  f.vector || (!t.vq.any (fun q => decide (predOf w ≠ 0) && decide (q.writesPred = some (predOf w)))
    && !t.vq.any (fun q => match f.writesP with
      | some r => decide (r ≠ 0) && q.usesPred r
      | none => false))

/-- The issue of an instruction of tile `t`. A tile that cannot issue now leaves the state as it is. A PC that breaks
R78, and a field that breaks R88, stop the stream. An instruction whose predicate is false only advances the PC (R77).
Otherwise `body` gives the effect: it gets the instruction's offset and the state with the PC past the instruction. -/
def issue (t : Nat) (w : BitVec 52) (f : Form) (body : BitVec 20 → State → State) (s : State) : Result :=
  if s.tileCount ≤ t then .fault .noSuchUnit
  else
    let x := s.tile t
    if !s.clocked || !x.canIssue f.regs || !f.room || !x.predsReady w f then .next s
    else if !pcOk x.pc then .next (s.record t Status.PC_FAULT x.pc)
    else
      let x' := { x with ibuf := takeInsn x.pc x.ibuf }
      if !(unusedZero w f.used && f.legal) then .next ((s.setTile t x').record t Status.INSN_FIELD x.pc)
      else
        let s' := s.setTile t { x' with pc := x.pc + 8 }
        if !f.vector && !(x.pred w).getLsbD 0 then .next s' else .next (body x.pc s')

/-- The conditions under which tile `t` issues the instruction and it acts: the tile is there and can issue it, the PC and
the fields hold what R78 and R88 allow, and the predicate is true (R77; for the vector engine it acts lane by lane). -/
abbrev Issues (t : Nat) (w : BitVec 52) (f : Form) (s : State) : Prop :=
  t < s.tileCount ∧ s.clocked = true ∧ (s.tile t).canIssue f.regs = true ∧ f.room = true
    ∧ (s.tile t).predsReady w f = true
    ∧ pcOk (s.tile t).pc = true ∧ unusedZero w f.used = true ∧ f.legal = true
    ∧ (f.vector = true ∨ ((s.tile t).pred w).getLsbD 0 = true)

/-- The state with the instruction at tile `t`'s PC issued: it has left the buffer and the PC lies past it. -/
def State.issued (s : State) (t : Nat) : State :=
  s.setTile t { (s.tile t) with ibuf := takeInsn (s.tile t).pc (s.tile t).ibuf, pc := (s.tile t).pc + 8 }

/-- A status that the instruction at `pc` records: where it stops the stream and nothing has issued since, the PC stays at
the instruction (R103). -/
def State.faultAt (s : State) (t : Nat) (c : BitVec 16) (pc : BitVec 20) : State :=
  let s' := s.record t c pc
  if (s.tile t).stops c && decide ((s.tile t).pc = pc + 8) then s'.onTile t (fun x => { x with pc := pc }) else s'

/-- The same for a status that the reply of a load brings. -/
def State.faultReply (s : State) (t : Nat) (c : BitVec 16) (pc : BitVec 20) : State :=
  let s' := s.recordReply t c pc
  if (s.tile t).stops c && decide ((s.tile t).pc = pc + 8) then s'.onTile t (fun x => { x with pc := pc }) else s'

/-- A result in RD at once. -/
def State.putS (s : State) (t r : Nat) (v : Word) : State := s.onTile t (fun x => x.putS r v)

/-- A status, in RD[15:0]. -/
def State.putStatus (s : State) (t r : Nat) (c : BitVec 16) : State := s.putS t r (c.setWidth 64)

/-- A second of arithmetic cycles ends with the next one. -/
def State.secondEnds (s : State) : Bool := decide ((s.cycle + 1) % 940000000 = 0)

/-- The calendar counts a second (R498), and POWER_ON_S one while the core rail is on (R495). -/
def State.tickSecond (s : State) : State :=
  if !s.secondEnds then s
  else
    let s := s.bumpFld NVM.CAL
    if s.pwr.state = .p0 then s.bumpFld (NVM.LIFE 0) else s

/-- BCN_SUBTICK counts a cycle (R250), where the timing domain is on (R33). -/
def State.subtick (s : State) : State :=
  if s.awake then s.setFld BCN.SUBTICK (s.fld BCN.SUBTICK + 1) else s

end Sys2Proof.Machine
end

