-- ==== Sys2Proof/Machine/Flags.lean ====
section
/-! DEFINITION. The conditions of CMP (R89): the machine has no flags; a comparison fills a predicate register. -/
namespace Sys2Proof.Machine

/-- Condition `c` of CMP on two registers. -/
def condition (c : Nat) (a b : Word) : Bool :=
  match c with
  | 0 => a == b
  | 1 => a != b
  | 2 => a.slt b
  | 3 => !a.slt b
  | 4 => a.ult b
  | _ => !a.ult b

/-- Every bit of a predicate register. -/
def fillP (b : Bool) : BitVec 256 := if b then BitVec.allOnes 256 else 0

end Sys2Proof.Machine
end

