-- ==== Sys2Proof/Machine/Operands.lean ====
section
/-! DEFINITION. The operand forms of the scalar classes (R86, R89): which fields each uses, which s registers it names. -/
namespace Sys2Proof.Machine

/-- Format R with RD, RA and RB. -/
def formR (w : BitVec 52) : Form := { used := [uRD, uRA, uRB], regs := [fRD w, fRA w, fRB w] }

/-- Format I with RD, RA and IMM32, and with RD and IMM32. -/
def formI (w : BitVec 52) : Form := { used := [uRD, uRA, uIMM32], regs := [fRD w, fRA w] }
def formMovi (w : BitVec 52) : Form := { used := [uRD, uIMM32], regs := [fRD w] }

/-- CMP: RD[2:0] names a predicate register, RD[4:3] must be 0, IMM12 is one of the six conditions. -/
def formCmp (w : BitVec 52) : Form :=
  { used := [uRD, uRA, uRB, uIMM12], regs := [fRA w, fRB w], legal := decide (fRD w < 8) && decide (fIMM12 w < 6)
    writesP := some (fRD w % 8) }

/-- Format B: DISP alone, RA and DISP, CALL (s31 is written), RET (s31 is read). In format B, RA is bits [47:43]. -/
def formBr : Form := { used := [uIMM32], regs := [] }
def formBri (w : BitVec 52) : Form := { used := [uRD, uIMM32], regs := [fRD w] }
def formCall : Form := { used := [uIMM32], regs := [31] }
def formRet : Form := { used := [], regs := [31] }

/-- An ALU instruction of format R: RD from RA and RB. -/
def alu (op : Word → Word → Word) (t : Nat) (w : BitVec 52) (s : State) : Result :=
  issue t w (formR w) (fun _ s =>
    let x := s.tile t
    s.putS t (fRD w) (op (x.getS (fRA w)) (x.getS (fRB w)))) s

/-- An ALU instruction of format I: RD from RA and the sign-extended IMM32. -/
def aluImm (f : Form) (op : Word → Word → Word) (t : Nat) (w : BitVec 52) (s : State) : Result :=
  issue t w f (fun _ s => s.putS t (fRD w) (op ((s.tile t).getS (fRA w)) (fSIMM32 w))) s

/-- The PC 8 × DISP from `base`, modulo 2^20 (R75). -/
def branchTo (base : BitVec 20) (w : BitVec 52) : BitVec 20 := base + 8 * (fSIMM32 w).setWidth 20

/-- A branch: the new PC from the instruction's offset and the tile. -/
def jump (f : Form) (target : BitVec 20 → Tile → BitVec 20) (t : Nat) (w : BitVec 52) (s : State) : Result :=
  issue t w f (fun pc s => s.onTile t (fun x => { x with pc := target pc x })) s

end Sys2Proof.Machine
end

