-- ==== Sys2Proof/Machine/Alu.lean ====
section
/-! DEFINITION. The ALU and BR classes (R89). -/
namespace Sys2Proof.Machine

/-- The 128-bit signed product. -/
def product (a b : Word) : BitVec 128 := a.signExtend 128 * b.signExtend 128

def execAdd (t : Nat) (w : BitVec 52) (s : State) : Result := alu (· + ·) t w s
def execSub (t : Nat) (w : BitVec 52) (s : State) : Result := alu (· - ·) t w s
def execMul (t : Nat) (w : BitVec 52) (s : State) : Result := alu (fun a b => (product a b).setWidth 64) t w s
def execMulh (t : Nat) (w : BitVec 52) (s : State) : Result :=
  alu (fun a b => (product a b).extractLsb' 64 64) t w s
def execAnd (t : Nat) (w : BitVec 52) (s : State) : Result := alu (· &&& ·) t w s
def execOr (t : Nat) (w : BitVec 52) (s : State) : Result := alu (· ||| ·) t w s
def execXor (t : Nat) (w : BitVec 52) (s : State) : Result := alu (· ^^^ ·) t w s
def execShl (t : Nat) (w : BitVec 52) (s : State) : Result := alu (fun a b => a <<< (b.toNat % 64)) t w s
def execShr (t : Nat) (w : BitVec 52) (s : State) : Result := alu (fun a b => a >>> (b.toNat % 64)) t w s
def execSra (t : Nat) (w : BitVec 52) (s : State) : Result := alu (fun a b => a.sshiftRight (b.toNat % 64)) t w s

/-- Every bit of predicate RD[2:0] takes the condition. -/
def execCmp (t : Nat) (w : BitVec 52) (s : State) : Result :=
  issue t w (formCmp w) (fun _ s => s.onTile t (fun x =>
    x.putP (fRD w) (fillP (condition (fIMM12 w) (x.getS (fRA w)) (x.getS (fRB w)))))) s

def execAddi (t : Nat) (w : BitVec 52) (s : State) : Result := aluImm (formI w) (· + ·) t w s
def execMovi (t : Nat) (w : BitVec 52) (s : State) : Result := aluImm (formMovi w) (fun _ i => i) t w s
/-- RD takes (IMM32 << 32) OR RA[31:0]. -/
def execMovhi (t : Nat) (w : BitVec 52) (s : State) : Result :=
  aluImm (formI w) (fun a i => (i <<< 32) ||| (a.setWidth 32).setWidth 64) t w s

def execBr (t : Nat) (w : BitVec 52) (s : State) : Result := jump formBr (fun pc _ => branchTo pc w) t w s
def execBri (t : Nat) (w : BitVec 52) (s : State) : Result :=
  jump (formBri w) (fun _ x => branchTo ((x.getS (fRD w)).setWidth 20) w) t w s
/-- s31 takes PC + 8. -/
def execCall (t : Nat) (w : BitVec 52) (s : State) : Result :=
  issue t w formCall (fun pc s => s.onTile t (fun x =>
    { x.putS 31 (BitVec.ofNat 64 (pc.toNat + 8)) with pc := branchTo pc w })) s
def execRet (t : Nat) (w : BitVec 52) (s : State) : Result :=
  jump formRet (fun _ x => (x.getS 31).setWidth 20) t w s

end Sys2Proof.Machine
end

