-- ==== Sys2Proof/Machine/SemOps.lean ====
section
/-! DEFINITION. Semaphores: translation, the way to the home, the operations at the home, releases (R93 to R95, R263 to
R267, R273). -/
namespace Sys2Proof.Machine

/-- Where a virtual identifier leads (R264): the entry needs KIND ≠ 0 and a TAG equal to v[31:8]. -/
def Tile.translate (t : Tile) (v : Nat) : Option SemRef :=
  let e := t.fld (TILE.semXlat (v % 256))
  if bits e 24 2 = 0 ∨ bits e 0 24 ≠ bits v 8 24 then none
  else if bits e 24 2 = 1 then some (.here (bits e 32 12) (bits e 26 6))
  else if bits e 24 2 = 2 then some (.there (BitVec.ofNat 14 (bits e 44 14)) (bits e 32 12) (bits e 26 6))
  else some (.tree (bits e 58 4))

/-- The translation an operation uses (R264, R273): a SIG on a tree needs a configured tree, every other operation on
a tree identifier acts on the tree's release entry. -/
def State.semTarget (s : State) (t v : Nat) (sig : Bool) : Option SemRef :=
  match (s.tile t).translate v with
  | some (.tree m) =>
    if sig then (if s.fld (BCN.VALID m) = 1 then some (.tree m) else none)
    else some (.here (s.fld (BCN.REL_HOME m)) (s.fld (BCN.REL_ENTRY m)))
  | r => r

/-- The bytes of a semaphore operation that leaves the module (the packet's 16 data bytes; DESIGN CHOICE, log 14). -/
def SemOp.bytes (entry : Nat) (o : SemOp) : List Byte :=
  let c : Nat × Nat := match o with
    | .sig n => (1, n)
    | .swait e => (2, e)
    | .sdec n => (3, n)
    | .flare => (4, 0)
    | .sread => (5, 0)
  bytesOf (c.1 + entry * 2 ^ 8 + c.2 * 2 ^ 16) 16

/-- The bytes of a release that goes back to its home (R267). -/
def returnedBytes (entry : Nat) : List Byte := bytesOf (6 + entry * 2 ^ 8) 16

/-- The operation that such bytes name. -/
def SemOp.ofBytes (bs : List Byte) : Nat × SemOp :=
  let v := Machine.ofBytes bs
  let n := bits v 16 32
  (bits v 8 6, match bits v 0 8 with
    | 1 => .sig n
    | 2 => .swait n
    | 3 => .sdec n
    | 4 => .flare
    | _ => .sread)

/-- A request of tile `t` that leaves the module: through the port of its route, with a record of what its answer
becomes (R350), or answered by the edge router (R349). `no` is the refusal's message, its status filled in. -/
def State.sendRequest (s : State) (t : Nat) (h : Hdr) (payload : List Byte) (ok no : Msg) : State :=
  match requestPort s.shape s.coord h.dst with
  | none => s.send t (no.withStatus Status.MODULE_ABSENT)
  | some p =>
    if s.portRefuses p ≠ 0 then s.send t (no.withStatus (s.portRefuses p))
    else
      let q := s.port p
      let tag := q.nextTag
      let dirs := requestDirs s.shape s.coord h.dst
      let s := s.setPort p { q with nextTag := tag + 1 }
      let st := s.stamp t
      s.forward p ⟨s.coord, t, tag, dirs, some (ok, no), st, h.win⟩ { h with
        src := s.coord, dirs := dirs, srcTile := t, epoch := st.epoch.toNat,
        tag := tag.toNat, bcn := st.low.toNat, sstep := (s.tile t).fld TILE.SSTEP % 2 ^ 32, len := payload.length } payload

/-- The home is no tile but a collective engine, its entry a trigger counter (R378). -/
def SemRef.isEngine : SemRef → Bool
  | .here home _ => decide (0xF00 ≤ home) && decide (home ≤ 0xF03)
  | _ => false

/-- An operation of tile `t` sent to its home; a SIG to a collective engine waits there for its COLL_TRIGGER; `plain`: a signal
with no RD. -/
def State.semSend (s : State) (t : Nat) (ref : SemRef) (op : SemOp) (rd : Nat) (plain : Bool) : State :=
  let st := s.stamp t
  match ref with
  | .here home entry =>
    if ref.isEngine then
      match op with
      | .sig n =>
        let s := { s with collSigs := s.collSigs ++ [(home - 0xF00, entry, n)] }
        if plain then s else s.send t (.reply st rd 0 .sig)
      | _ => s.send t (.reply st rd (BitVec.ofNat 64 (s.fld (CE.COUNT (home - 0xF00) entry))) op.kind)
    else if (s.tile home).rtrReady then
      s.onTile home (fun x => { x with semOps := x.semOps ++ [⟨s.self, st, entry, op, rd, none, plain, none⟩] })
    else if plain then s else s.send t (.reply st rd (Status.DOMAIN_RESET.setWidth 64) op.kind)
  | .there hmod home entry =>
    s.sendRequest t { type := 5, vc := 3, dst := moduleCoord s.shape hmod.toNat, src := 0, dstTile := home }
      (op.bytes entry) (.reply st (if plain then 0 else rd) 0 (if plain then .value else op.kind))
      (.reply st (if plain then 0 else rd) 0 (if plain then .value else op.kind))
  | .tree m =>
    let s := match op with
      | .sig n => s.setFld (BCN.ARRIVED m) (s.fld (BCN.ARRIVED m) + n)
      | _ => s
    if plain then s else s.send t (.reply st rd 0 op.kind)

/-- The signal of a SYNCM field or a trigger: count 1, no RD (R95). -/
def State.signal (s : State) (t : Nat) (ref : Option SemRef) : State :=
  match ref with
  | some r => s.semSend t r (.sig 1) 0 true
  | none => s

/-! ### At the home -/

/-- A release on its way to a waiter. -/
def State.releaseWaiter (s : State) (home entry : Nat) (w : Waiter) : State :=
  match w.away with
  | none => s.send w.st.tile (.semRelease none home entry w)
  | some (dirs, coord, tag) =>
    s.sendReply {
      type := 6, vc := 1, dst := coord.toNat, src := s.coord, dirs := dirs, dstTile := w.st.tile, srcTile := home
      win := entry, tag := tag.toNat, epoch := w.st.epoch.toNat, bcn := w.st.low.toNat } []

/-- One operation at the home (R93). -/
def State.semApply (s : State) (home : Nat) (m : SemMsg) : State :=
  let e := s.sem home m.entry
  match m.op with
  | .sig n =>
    let k := min n e.waiters.length
    if e.count.toNat + (n - k) > 2 ^ 32 - 1 then s.semAnswer m (Status.SEM_OVERFLOW.setWidth 64)
    else
      let s := s.setSem home m.entry ⟨e.count + BitVec.ofNat 32 (n - k), e.waiters.drop k⟩
      let s := (e.waiters.take k).foldl (fun s w => s.releaseWaiter home m.entry w) s
      s.semAnswer m 0
  | .flare =>
    let s := s.setSem home m.entry ⟨e.count, []⟩
    (e.waiters.foldl (fun s w => s.releaseWaiter home m.entry w) s).semAnswer m 0
  | .sdec n =>
    if e.count.toNat < n then s.semAnswer m (Status.SEM_UNDERFLOW.setWidth 64)
    else (s.setSem home m.entry { e with count := e.count - BitVec.ofNat 32 n }).semAnswer m 0
  | .swait exp =>
    if 1 ≤ e.count.toNat then (s.setSem home m.entry { e with count := e.count - 1 }).semAnswer m 0
    else if 64 ≤ e.waiters.length then s.semAnswer m (Status.SEM_QFULL.setWidth 64)
    else s.setSem home m.entry { e with waiters := e.waiters ++ [⟨m.module, m.st, m.rd, exp, m.away⟩] }
  | .sread => s.semAnswer m (BitVec.ofNat 64 (e.count.toNat + e.waiters.length * 2 ^ 32))

/-- The group of an operation in R94's order. -/
def SemOp.rank : SemOp → Nat
  | .sig _ => 0
  | .flare => 1
  | .sdec _ => 2
  | .swait _ => 3
  | .sread => 4

/-- The requester as which an operation ranks: module and logical index. -/
def SemMsg.requester (m : SemMsg) : Nat × Nat :=
  match m.rank with
  | some r => (r.1.toNat, r.2)
  | none => (m.module.toNat, m.st.tile)

/-- R94: by group, then module index, then logical index. -/
def SemMsg.before (a b : SemMsg) : Bool :=
  let key (m : SemMsg) : Nat := (m.op.rank * 2 ^ 14 + m.requester.1) * 2 ^ 12 + m.requester.2
  decide (key a ≤ key b)

/-- Insertion into an ordered list, after its equals. -/
def semInsert (m : SemMsg) : List SemMsg → List SemMsg
  | [] => [m]
  | x :: xs => if x.before m then x :: semInsert m xs else m :: x :: xs

/-- The operations that one cycle brings: the longest run of waiting operations with no requester twice (a tile issues
one instruction in a cycle, so its own operations keep their order, R265); and the rest. -/
def semBatch : List (Nat × Nat) → List SemMsg → List SemMsg × List SemMsg
  | _, [] => ([], [])
  | seen, m :: ms =>
    if seen.contains m.requester then ([], m :: ms)
    else
      let r := semBatch (m.requester :: seen) ms
      (m :: r.1, r.2)

/-- What the signal buffer releases, oldest first, up to the first that still waits (R95, R265). -/
def State.sigDrain (s : State) (t : Nat) : List HeldSig → State
  | [] => s.onTile t (fun x => { x with sigs := [] })
  | h :: hs =>
    if h.waits ≠ [] then s.onTile t (fun x => { x with sigs := h :: hs })
    else match h.fails with
      | [] => (s.semSend t h.target h.op h.rd false).sigDrain t hs
      | f :: fs =>
        let c := (fs.foldl (fun b x => if x.1 < b.1 then x else b) f).2
        (s.onTile t (fun x => { x.complete h.rd (c.setWidth 64) with sigsOut := x.sigsOut - 1 })).sigDrain t hs

/-- Two references name one home. -/
def SemRef.sameHome (a b : SemRef) : Bool :=
  match a, b with
  | .here x _, .here y _ => decide (x = y)
  | .there m x _, .there n y _ => decide (m = n) && decide (x = y)
  | _, _ => false

/-- An operation other than SIG leaves, or waits in the buffer behind a held SIG to its home (R265). -/
def State.semIssue (s : State) (t : Nat) (ref : SemRef) (op : SemOp) (rd : Nat) : State :=
  if (s.tile t).sigs.any (fun h => h.target.sameHome ref) then
    s.onTile t (fun x => { x with sigs := x.sigs ++ [⟨ref, op, rd, [], []⟩] })
  else s.semSend t ref op rd false

/-- A DMA operation no longer holds the signals that named it: it ended with `c`, or DMACAN removed it (none). -/
def Tile.sigOpGone (t : Tile) (id : Nat) (c : Option (BitVec 16)) : Tile :=
  { t with sigs := t.sigs.map (fun h =>
      if h.waits.contains id then
        { h with
          waits := h.waits.erase id
          fails := match c with
            | some c => if Status.ok c then h.fails else h.fails ++ [(id, c)]
            | none => h.fails }
      else h) }

end Sys2Proof.Machine
end

