-- ==== Sys2Proof/Machine/Float.lean ====
section
/-! DEFINITION. Number formats, exact arithmetic on their values, and rounding (R137 to R143, R160). -/
namespace Sys2Proof.Machine

/-- The exact value of an element: (-1)^neg × m × 2^e, an infinity, or NaN. -/
inductive FVal where
  | nan
  | inf (neg : Bool)
  | fin (neg : Bool) (m : Nat) (e : Int)
  deriving DecidableEq, Repr

/-- A rounding mode (R140); stochastic rounding with its 16-bit draw (R141). -/
inductive Rnd where
  | near | zero | up | down
  | stoch (r : Nat)
  deriving DecidableEq, Repr

/-- A floating format (R137): width, mantissa bits, bias, the bits of its largest finite magnitude, of its canonical
NaN (R139), whether it has infinities and NaNs. -/
structure FloatFormat where
  width : Nat
  man : Nat
  bias : Nat
  maxBits : Nat
  nanBits : Nat
  hasInf : Bool := true
  hasNan : Bool := true

/-- The formats of R87 by FMT; the integer formats have no entry of their own. -/
def floatFormat (f : Nat) : FloatFormat :=
  match f with
  | 0 => ⟨64, 52, 1023, 0x7FEF_FFFF_FFFF_FFFF, 0x7FF8_0000_0000_0000, true, true⟩
  | 1 => ⟨32, 23, 127, 0x7F7F_FFFF, 0x7FC0_0000, true, true⟩
  | 2 => ⟨16, 7, 127, 0x7F7F, 0x7FC0, true, true⟩
  | 3 => ⟨16, 10, 15, 0x7BFF, 0x7E00, true, true⟩
  | 4 => ⟨8, 3, 7, 0x7E, 0x7F, false, true⟩
  | 5 => ⟨8, 2, 15, 0x7B, 0x7E, true, true⟩
  | 6 => ⟨6, 2, 3, 0x1F, 0, false, false⟩
  | 7 => ⟨6, 3, 1, 0x1F, 0, false, false⟩
  | _ => ⟨4, 1, 1, 0x7, 0, false, false⟩

/-- Bits of an element of FMT `f`. -/
def fmtWidth (f : Nat) : Nat := if f = 9 then 8 else if f = 0xA then 32 else (floatFormat f).width

/-- The value of an integer. -/
def FVal.ofInt (v : Int) (e : Int) : FVal := .fin (decide (v < 0)) v.natAbs e

/-- The value that an element's bits stand for (R137, R138); `mx`: an INT8 element stands for its integer × 2^-6. -/
def FVal.ofBits (f : Nat) (mx : Bool) (b : Nat) : FVal :=
  if f = 9 then .ofInt (signed 8 b) (if mx then -6 else 0)
  else if f = 0xA then .ofInt (signed 32 b) 0
  else
    let k := floatFormat f
    let neg := b.testBit (k.width - 1)
    let mag := b % 2 ^ (k.width - 1)
    if mag ≤ k.maxBits then
      let ex := mag / 2 ^ k.man
      let m := mag % 2 ^ k.man
      if ex = 0 then .fin neg m (1 - (k.bias : Int) - k.man)
      else .fin neg (2 ^ k.man + m) ((ex : Int) - k.bias - k.man)
    else if k.hasInf && decide (mag = k.maxBits + 1) then .inf neg else .nan

/-- The magnitude m × 2^e as a whole number of units 2^q, rounded (R140, R141). -/
def roundAt (q : Int) (r : Rnd) (neg : Bool) (m : Nat) (e : Int) : Nat :=
  if q ≤ e then m <<< (e - q).toNat
  else
    let sh := (q - e).toNat
    let k := m >>> sh
    let rem := m - k <<< sh
    if rem = 0 then k
    else
      let roundUp := match r with
        | .near => decide (2 ^ sh < 2 * rem) || (decide (2 * rem = 2 ^ sh) && decide (k % 2 = 1))
        | .zero => false
        | .up => !neg
        | .down => neg
        | .stoch d =>
          if neg then !decide (d < (2 ^ sh - rem) * 2 ^ 16 / 2 ^ sh) else decide (d < rem * 2 ^ 16 / 2 ^ sh)
      if roundUp then k + 1 else k

/-- The rounded magnitude as the bits of format `k`, its exponent unbounded above. -/
def FloatFormat.magnitude (k : FloatFormat) (r : Rnd) (neg : Bool) (m : Nat) (e : Int) : Nat :=
  if m = 0 then 0
  else
    let lo : Int := 1 - (k.bias : Int) - k.man
    let q := max lo ((m.log2 : Int) + e - k.man)
    (q - lo).toNat * 2 ^ k.man + roundAt q r neg m e

/-- The column of R142: nearest, the overflow direction, stochastic. -/
def Rnd.overflows (r : Rnd) (neg : Bool) : Bool :=
  match r with
  | .near => true
  | .zero => false
  | .up => !neg
  | .down => neg
  | .stoch _ => true

/-- The magnitude of an infinity, or of an overflow toward it, in format `k` of FMT `f` (R142, R143). -/
def infinityBits (f : Nat) (sat : Bool) : Nat :=
  let k := floatFormat f
  if !k.hasNan || (sat && decide (4 ≤ f)) then k.maxBits
  else if k.hasInf then k.maxBits + 1 else k.nanBits

/-- A sign and a magnitude in FMT `f`; a NaN has sign 0. -/
def signBits (f : Nat) (neg : Bool) (mag : Nat) : Nat :=
  let k := floatFormat f
  if k.hasNan && decide (mag = k.nanBits) then mag else mag + (if neg then 2 ^ (k.width - 1) else 0)

/-- A saturated integer as `w` bits. -/
def intBits (w lo hi : Nat) (neg : Bool) (mag : Nat) : Nat :=
  if neg then (2 ^ w - min mag lo) % 2 ^ w else min mag hi

/-- A value converted into FMT `f` (R140 to R143); `sat` is SAT_NARROW. -/
def FVal.toBits (f : Nat) (r : Rnd) (sat : Bool) (v : FVal) : Nat :=
  if f = 9 then
    match v with
    | .nan => 0
    | .inf neg => intBits 8 127 127 neg 127
    | .fin neg m e => intBits 8 127 127 neg (roundAt 0 r neg m e)
  else if f = 0xA then
    match v with
    | .nan => 0
    | .inf neg => intBits 32 (2 ^ 31) (2 ^ 31 - 1) neg (2 ^ 31)
    | .fin neg m e => intBits 32 (2 ^ 31) (2 ^ 31 - 1) neg (roundAt 0 r neg m e)
  else
    let k := floatFormat f
    match v with
    | .nan => k.nanBits
    | .inf neg => signBits f neg (infinityBits f sat)
    | .fin neg m e =>
      let b := k.magnitude r neg m e
      if b ≤ k.maxBits then signBits f neg b
      else if r.overflows neg then signBits f neg (infinityBits f sat) else signBits f neg k.maxBits

/-- The value rounded into FMT `f`, to nearest even. -/
def FVal.round (f : Nat) (v : FVal) : FVal := .ofBits f false (v.toBits f .near true)

/-! ### Exact arithmetic -/

def FVal.neg : FVal → FVal
  | .nan => .nan
  | .inf n => .inf (!n)
  | .fin n m e => .fin (!n) m e

/-- The signed significand of m × 2^e in units of 2^q, q ≤ e. -/
def scaled (neg : Bool) (m : Nat) (e q : Int) : Int :=
  let k : Int := (m <<< (e - q).toNat : Nat)
  if neg then -k else k

/-- The exact sum; `down` is rounding toward -∞, which gives an exact zero of unlike signs the sign - (R139). -/
def FVal.add (down : Bool) : FVal → FVal → FVal
  | .nan, _ => .nan
  | _, .nan => .nan
  | .inf a, .inf b => if a = b then .inf a else .nan
  | .inf a, _ => .inf a
  | _, .inf b => .inf b
  | .fin a m e, .fin b n f =>
    let q := min e f
    let k := scaled a m e q + scaled b n f q
    if k = 0 then .fin (if m = 0 ∧ a = b then a else down) 0 q else .ofInt k q

def FVal.isZero : FVal → Bool
  | .fin _ m _ => decide (m = 0)
  | _ => false

/-- The exact product. -/
def FVal.mul : FVal → FVal → FVal
  | .nan, _ => .nan
  | _, .nan => .nan
  | .inf a, .inf b => .inf (a != b)
  | .inf a, .fin b n _ => if n = 0 then .nan else .inf (a != b)
  | .fin a m _, .inf b => if m = 0 then .nan else .inf (a != b)
  | .fin a m e, .fin b n f => .fin (a != b) (m * n) (e + f)

/-- The quotient, to 160 bits with a sticky bit below them: enough for every rounding of R140 and R141. -/
def FVal.div : FVal → FVal → FVal
  | .nan, _ => .nan
  | _, .nan => .nan
  | .inf _, .inf _ => .nan
  | .inf a, .fin b _ _ => .inf (a != b)
  | .fin a _ _, .inf b => .fin (a != b) 0 0
  | .fin a m e, .fin b n f =>
    if n = 0 then (if m = 0 then .nan else .inf (a != b))
    else
      let sh := 160 + n.log2
      let q := m <<< sh / n
      let st := if m <<< sh % n = 0 then 0 else 1
      .fin (a != b) (2 * q + st) (e - f - sh - 1)

/-- The largest r below 2^k more than `r` with r² ≤ n. -/
def isqrtFrom (n : Nat) : Nat → Nat → Nat
  | 0, r => r
  | k + 1, r => isqrtFrom n k (if (r + 2 ^ k) * (r + 2 ^ k) ≤ n then r + 2 ^ k else r)

/-- The square root rounded down. -/
def isqrt (n : Nat) : Nat := isqrtFrom n (n.log2 / 2 + 1) 0

/-- The square root, with 160 further bits and a sticky bit. -/
def FVal.sqrt : FVal → FVal
  | .nan => .nan
  | .inf neg => if neg then .nan else .inf false
  | .fin neg m e =>
    if m = 0 then .fin neg 0 0
    else if neg then .nan
    else
      let odd := (e % 2).toNat
      let n := m <<< (odd + 320)
      let r := isqrt n
      let st := if r * r = n then 0 else 1
      .fin false (2 * r + st) ((e - odd) / 2 - 161)

/-! ### Order -/

/-- a < b for values that are not NaN; the two zeros are equal. -/
def FVal.lt : FVal → FVal → Bool
  | .inf a, .inf b => a && !b
  | .inf a, .fin _ _ _ => a
  | .fin _ _ _, .inf b => !b
  | .fin a m e, .fin b n f => decide (scaled a m e (min e f) < scaled b n f (min e f))
  | _, _ => false

def FVal.isNan : FVal → Bool
  | .nan => true
  | _ => false

/-- a = b as numbers. -/
def FVal.same (a b : FVal) : Bool := !a.isNan && !b.isNan && !a.lt b && !b.lt a

def FVal.isNeg : FVal → Bool
  | .nan => false
  | .inf n => n
  | .fin n _ _ => n

/-- IEEE 754-2019 maximum and minimum (R174). -/
def FVal.maximum (a b : FVal) : FVal :=
  if a.isNan || b.isNan then .nan
  else if a.lt b then b else if b.lt a then a else if a.isNeg then b else a
def FVal.minimum (a b : FVal) : FVal :=
  if a.isNan || b.isNan then .nan
  else if a.lt b then a else if b.lt a then b else if a.isNeg then a else b

def FVal.abs : FVal → FVal
  | .nan => .nan
  | .inf _ => .inf false
  | .fin _ m e => .fin false m e

/-! ### The reduction tree (R160) -/

/-- The largest power of two strictly less than `n`, for n ≥ 2. -/
def halfPower (n : Nat) : Nat := 2 ^ (n - 1).log2

/-- `tree` of R160 over a list in rank order; `fuel` at least the list's length. -/
def treeOf {α : Type} (z : α) (f : α → α → α) : Nat → List α → α
  | 0, _ => z
  | _ + 1, [] => z
  | _ + 1, [x] => x
  | fuel + 1, xs =>
    let h := halfPower xs.length
    f (treeOf z f fuel (xs.take h)) (treeOf z f fuel (xs.drop h))

/-- The sum of R160 in FMT `f`. -/
def treeSum (f : Nat) (xs : List FVal) : FVal :=
  treeOf (.fin true 0 0) (fun a b => (a.add false b).round f) xs.length xs

end Sys2Proof.Machine
end

