-- ==== Sys2Proof/Machine/HbmOps.lean ====
section
/-! DEFINITION. HBM: the Halo of a block, poison, the reads and writes of one block (chapter 10). -/
namespace Sys2Proof.Machine

/-! ### Halos (R288, R289) -/

/-- A block last written without a Halo: BARE 1, GEN 0, HVER 1. -/
def bareHalo : BitVec 256 := BitVec.ofNat 256 (2 ^ 97 + 2 ^ 128)

def State.haloOf (s : State) (blk : Nat) : BitVec 256 := Map.get bareHalo s.halo blk
def State.setHalo (s : State) (blk : Nat) (h : BitVec 256) : State := { s with halo := Map.set bareHalo s.halo blk h }

def haloGen (h : BitVec 256) : Nat := bits h.toNat 64 24
def haloLepoch (h : BitVec 256) : Nat := bits h.toNat 88 8
def haloPoison (h : BitVec 256) : Bool := bit h.toNat 96
def haloBare (h : BitVec 256) : Bool := bit h.toNat 97
def haloAttempt (h : BitVec 256) : Nat := bits h.toNat 104 8
def haloOrigin (h : BitVec 256) : Nat := bits h.toNat 112 16
def haloPut (h : BitVec 256) (lsb n v : Nat) : BitVec 256 := BitVec.ofNat 256 (putBits h.toNat lsb n v)

/-- The CRC of a block's data and Halo bytes 8 to 31. -/
def haloCrc (data : List Byte) (h : BitVec 256) : BitVec 64 := crc64 (data ++ bytesOf (h.toNat / 2 ^ 64) 24)

/-- The Halo with its CRC computed afresh. -/
def sealHalo (data : List Byte) (h : BitVec 256) : BitVec 256 := haloPut h 0 64 (haloCrc data h).toNat

/-- A Halo's CRC matches its block. -/
def haloMatches (data : List Byte) (h : BitVec 256) : Bool := haloCrc data h == h.setWidth 64

/-- The Halo a writer builds (R290). -/
def buildHalo (data : List Byte) (gen lepoch attempt : Nat) : BitVec 256 :=
  sealHalo data (haloPut (haloPut (haloPut (BitVec.ofNat 256 (2 ^ 128)) 64 24 gen) 88 8 lepoch) 104 8 attempt)

/-- The data of a block. -/
def State.blockData (s : State) (blk : Nat) : List Byte := readRun 0 s.hbm (blk * 4096) 4096

/-- POISON set in a block's Halo; a block already poisoned keeps its ORIGIN (R292). -/
def State.poison (s : State) (blk origin : Nat) : State :=
  let h := s.haloOf blk
  if haloPoison h then s
  else
    let h := haloPut (haloPut h 96 1 1) 112 16 origin
    s.setHalo blk (if haloBare h then h else sealHalo (s.blockData blk) h)

/-- ORIGIN of kind 1 naming the block's channel (R288). -/
def State.channelOrigin (s : State) (blk : Nat) : Nat :=
  let c := s.channelOf blk
  0x1000 + c.1 * 16 + c.2

/-! ### Storage code (R285) -/

/-- The keys of listed entries from `a` to `a + n - 1`. -/
def keysIn (m : Map Bool) (a n : Nat) : List Nat :=
  (m.filter (fun e => decide (a ≤ e.1) && decide (e.1 < a + n))).map (·.1)

/-- One uncorrectable burst found: counted, rewritten with the data as read (a free value), its block poisoned. -/
def State.badBurst (s : State) (u : Nat) : State :=
  let blk := u / 128
  let r := s.drawBytes 32
  let s := { r.2 with hbm := writeRun 0 r.2.hbm (u * 32) r.1, hbmBad := Map.set false r.2.hbmBad u false }
  let s := s.bumpFld (HBM.UNCORRECTED (s.place blk).1)
  let c := s.channelOf blk
  (s.poison blk (s.channelOrigin blk)).chargeChannel c.1 c.2 0

/-- A corrected burst, written back and counted. -/
def State.softBurst (s : State) (u : Nat) : State :=
  ({ s with hbmSoft := Map.set false s.hbmSoft u false }).bumpFld (HBM.CORRECTED (s.place (u / 128)).1)

/-- The storage code of the bursts that a read of `n` bytes at `a` touches. -/
def State.checkBursts (s : State) (a n : Nat) : State :=
  let lo := a / 32
  let k := (a + n + 31) / 32 - lo
  let s := (keysIn s.hbmSoft lo k).foldl State.softBurst s
  (keysIn s.hbmBad lo k).foldl State.badBurst s

/-- A write's bursts: those it covers whole carry fresh check codes; those it covers in part are read first. -/
def State.coverBursts (s : State) (a n : Nat) : State :=
  let lo := (a + 31) / 32
  let hi := (a + n) / 32
  let s := { s with
    hbmBad := s.hbmBad.filter (fun e => !(decide (lo ≤ e.1) && decide (e.1 < hi)))
    hbmSoft := s.hbmSoft.filter (fun e => !(decide (lo ≤ e.1) && decide (e.1 < hi))) }
  s.checkBursts a n

/-- What the read of one block gives. -/
structure BlockRead where
  st : State
  status : BitVec 16
  data : List Byte := []
  halo : BitVec 256 := 0

/-- Part of one block read without its Halo (R290): no CRC check; the caller looks at POISON (R292). -/
def State.readPart (s : State) (a n : Nat) : BlockRead :=
  let blk := a / 4096
  let s := s.checkBursts a n
  let s := if s.channelLost blk then s.poison blk (s.channelOrigin blk) else s
  ⟨s, 0, readRun 0 s.hbm a n, s.haloOf blk⟩

/-- A block whose CRC fails, or whose GEN is not the one named, at the controller: counted, recorded and poisoned in
place (R291). -/
def State.crcFailed (s : State) (blk : Nat) : State :=
  let s := s.bumpFld (HBM.CRC_FAILS (s.place blk).1)
  let c := s.channelOf blk
  ((s.poison blk (s.channelOrigin blk)).logGlow 0x0A Status.HALO_CRC (channelUnit c.1 c.2) (s.channelOrigin blk)).chargeChannel
    c.1 c.2 Status.HALO_CRC

/-- One block read with HALO = 1 (R290, R291, R300), its checks in the order of R300. -/
def State.readBlock (s : State) (blk g lepoch : Nat) : BlockRead :=
  let r := s.resolveRead blk g
  if r.1 ≠ 0 then ⟨s, r.1, [], 0⟩
  else
    let b := r.2.1
    let s := s.checkBursts (b * 4096) 4096
    let s := if s.channelLost b then s.poison b (s.channelOrigin b) else s
    let h := s.haloOf b
    let s := if !haloBare h && !haloMatches (s.blockData b) h then s.crcFailed b else s
    let h := s.haloOf b
    match r.2.2 with
    | none => if haloBare h then ⟨s, Status.HALO_BARE, [], h⟩ else ⟨s, 0, s.blockData b, h⟩
    | some _ =>
      if haloLepoch h ≠ lepoch then ⟨s.addCause { bit := 5, status := Status.LAYOUT_STALE }, Status.LAYOUT_STALE, [], h⟩
      else if s.readsShadow g then
        if haloBare h || haloGen h ≠ s.fld HBM.SHADOW || haloAttempt h ≠ s.fld HBM.ATTEMPT then
          ⟨s, Status.GEN_UNWRITTEN, [], h⟩
        else ⟨s, 0, s.blockData b, h⟩
      else if haloBare h then ⟨s, Status.HALO_BARE, [], h⟩
      else if haloGen h ≠ g then
        let s := s.crcFailed b
        ⟨s, 0, s.blockData b, s.haloOf b⟩
      else ⟨s, 0, s.blockData b, h⟩

/-- A write that covers a poisoned block whole clears POISON: counted and recorded (R293). -/
def State.clearPoison (s : State) (blk : Nat) : State :=
  let h := s.haloOf blk
  if haloPoison h then
    let c := s.channelOf blk
    ((s.bumpFld (HBM.POISON_CLEARED c.1)).logGlow 0x0B 0 (channelUnit c.1 c.2) (haloOrigin h)).setHalo blk
      (haloPut (haloPut h 96 1 0) 112 16 0)
  else s

/-- Part of one block, or all of it, written without a Halo: BARE becomes 1 (R290, R293). -/
def State.writePart (s : State) (a : Nat) (bs : List Byte) : State :=
  let blk := a / 4096
  let s := s.coverBursts a bs.length
  let s := if bs.length = 4096 then s.clearPoison blk else s
  let s := { s with hbm := writeRun 0 s.hbm a bs }
  s.setHalo blk (haloPut (s.haloOf blk) 97 1 1)

/-- A whole block and its Halo stored. -/
def State.storeBlock (s : State) (blk : Nat) (bs : List Byte) (h : BitVec 256) : State :=
  let s := s.coverBursts (blk * 4096) 4096
  let s := s.clearPoison blk
  { s with hbm := writeRun 0 s.hbm (blk * 4096) bs }.setHalo blk h

/-- One block written with HALO = 1 (R290, R294, R297). `poison` carries the ORIGIN of a poisoned source (R292). -/
def State.writeBlock (s : State) (blk : Nat) (bs : List Byte) (g lepoch : Nat) (poison : Option Nat) :
    State × BitVec 16 :=
  let put (s : State) (b att : Nat) : State :=
    let s := s.storeBlock b bs (buildHalo bs g lepoch att)
    match poison with
    | some o => s.poison b o
    | none => s
  match s.regionOfBlock blk with
  | none => (put s blk 0, 0)
  | some (n, k, i) =>
    if k ≠ 0 then (s, Status.GEN_ADDR)
    else if s.fld HBM.OPEN ≠ 1 ∨ g ≠ s.fld HBM.SHADOW then (s, Status.GEN_WRITE)
    else match s.slotHolding n g with
      | none => (s, Status.GEN_WRITE)
      | some k' =>
        let b := s.fld (HBM.BASE_BLK n) + k' * s.fld (HBM.LEN_BLK n) + i
        let h := s.haloOf b
        let fresh := haloBare h || haloGen h ≠ s.fld HBM.SHADOW || haloAttempt h ≠ s.fld HBM.ATTEMPT
        let s := put s b (s.fld HBM.ATTEMPT)
        (if fresh then s.setFld (HBM.WRITTEN n) (s.fld (HBM.WRITTEN n) + 1) else s, 0)

end Sys2Proof.Machine
end

