-- ==== Sys2Proof/Machine/MemOps.lean ====
section
/-! DEFINITION. What a MEM instruction does at its address (R91, R92): own scratchpad, own control block, the scratchpad of
another tile, HBM, the BCN_ block; tagged accesses and the wait table (R48 to R53). -/
namespace Sys2Proof.Machine

/-- The device address RA + OFF24 (R91), 48 bits. -/
def memAddr (a : Word) (w : BitVec 52) : Nat := ((a + (w.setWidth 24).signExtend 64).setWidth 48).toNat

/-- LEN and TAGM (R91). -/
def fLEN (w : BitVec 52) : Nat := bits w.toNat 32 4
def fTAGM (w : BitVec 52) : Nat := bits w.toNat 36 2

/-- The bytes that LEN moves. -/
def lenBytes (l : Nat) : Nat := if l < 4 then 2 ^ l else if l = 4 then 128 else (l - 4) * 256

/-- `n` bytes of a tile control block from `off`: byte by byte of its registers. -/
def Tile.readTcb (t : Tile) (off n : Nat) : List Byte :=
  (List.range n).map (fun i => BitVec.ofNat 8 (bits (t.readReg ((off + i) / 8 * 8)).toNat ((off + i) % 8 * 8) 8))

/-- The words of a store to the control block: offset, new bits, mask of the bits carried. -/
def tcbWords (off : Nat) (bs : List Byte) : List (Nat × Nat × Nat) :=
  (List.range ((off + bs.length + 7) / 8 - off / 8)).map (fun i =>
    let lo := (off / 8 + i) * 8
    let here := (List.range 8).filter (fun b => decide (off ≤ lo + b) && decide (lo + b < off + bs.length))
    (lo, here.foldl (fun v b => v + (bs.getD (lo + b - off) 0).toNat * 2 ^ (8 * b)) 0,
      here.foldl (fun v b => v + 255 * 2 ^ (8 * b)) 0))

/-- A store to the own control block: the tile, and whether a register refused a value (R17). -/
def Tile.writeTcb (t : Tile) (off : Nat) (bs : List Byte) : Tile × Bool :=
  (tcbWords off bs).foldl (fun r w =>
    let x := r.1.writeReg w.1 w.2.1 w.2.2
    (x.1, r.2 || x.2)) (t, false)

/-- `n` bytes of module registers. -/
def State.readRegs (s : State) (off n : Nat) : List Byte :=
  (List.range n).map (fun i => BitVec.ofNat 8 (bits (s.rd ((off + i) / 8 * 8)).toNat ((off + i) % 8 * 8) 8))

/-- Rows 0 to b/64 - 1 of a v register take `b` loaded bytes; the other rows stay (R91). -/
def loadRows (old : BitVec 8192) (bs : List Byte) : BitVec 8192 :=
  BitVec.ofNat 8192 (putBits old.toNat 0 (8 * bs.length) (ofBytes bs))

/-- The first `n` bytes of a v register. -/
def rowBytes (v : BitVec 8192) (n : Nat) : List Byte := bytesOf v.toNat n

/-- A load's bytes in its destination. -/
def Tile.fillLoad (t : Tile) (d : LoadDst) (bs : List Byte) : Tile :=
  match d with
  | .scalar rd => t.putS rd (BitVec.ofNat 64 (ofBytes bs))
  | .vector vd _ => t.putV vd (loadRows (t.getV vd) bs)

/-- A load of v register `vd`, issued after `ord` vector instructions, is in flight; it is no longer. -/
def Tile.holdV (t : Tile) (vd ord : Nat) : Tile := { t with vbusy := t.vbusy ++ [(vd, ord)] }
def Tile.releaseV (t : Tile) (vd : Nat) : Tile := { t with vbusy := t.vbusy.filter (fun e => decide (e.1 ≠ vd)) }

/-- The destination waits for its reply (R81). -/
def Tile.holdLoad (t : Tile) (d : LoadDst) (ord : Nat) : Tile :=
  match d with
  | .scalar rd => t.hold rd
  | .vector vd _ => t.holdV vd ord

def Tile.releaseLoad (t : Tile) (d : LoadDst) : Tile :=
  match d with
  | .scalar rd => t.release rd
  | .vector vd _ => t.releaseV vd

/-- A request put at the channel queue of its block (R279), or answered for a channel in reset (R38, R283). -/
def State.askHbm (s : State) (t : Nat) (r : HbmReq) (st : Stamp) (d : LoadDst) : State :=
  let blk := r.addr.toNat / 4096
  if s.channelReady blk then s.enqueueHbm r (nearStack (s.physOf t) (s.place blk).1)
  else s.send t (.load st d r.pc Status.DOMAIN_RESET [])

/-- The bytes of a load that SPAD_UE has stopped: those of a VLD's rows are undefined (R190); a scalar load writes no
register (R103). -/
def State.loseLoad (s : State) (t : Nat) (d : LoadDst) : State :=
  match d with
  | .scalar _ => s
  | .vector vd n =>
    let r := s.drawBytes n
    r.2.onTile t (fun x => x.putV vd (loadRows (x.getV vd) r.1))

/-- `n` bytes of scratchpad of tile `t` that a stopped VST was to write are undefined (R190). -/
def State.loseBytes (s : State) (t off n : Nat) : State :=
  let r := s.drawBytes n
  r.2.onTile t (fun x => { x with spad := writeRun 0 x.spad off r.1 })

/-- A plain load of tile `t` (R92), issued after `ord` vector instructions: done at once where the tile reaches it itself,
asked of the owner otherwise. -/
def State.plainLoad (s : State) (t : Nat) (pc : BitVec 20) (a n : Nat) (d : LoadDst) (ord : Nat) : State :=
  let x := s.tile t
  match s.region a n with
  | .unmapped => s.faultAt t Status.ADDR_UNMAPPED pc
  | .spad u off =>
    if u = t then
      let r := x.spadRead off n
      if r.2.1 = 0 then s.setTile t (r.1.fillLoad d r.2.2) else ((s.setTile t r.1).loseLoad t d).faultAt t r.2.1 pc
    else
      let st := s.stamp t
      let s := s.setTile t (x.holdLoad d ord)
      if (s.tile u).fld TILE.CORE_READY = 1 then
        s.onTile u (fun y => { y with reads := y.reads ++ [⟨.message st 0, BitVec.ofNat 48 a, n, some d, pc⟩] })
      else s.send t (.load st d pc Status.DOMAIN_RESET [])
  | .tcb u off => if u = t then s.setTile t (x.fillLoad d (x.readTcb off n)) else s.faultAt t Status.ADDR_DENIED pc
  | .hbm _ =>
    let st := s.stamp t
    if !(blocksOf a n).all (fun b => s.reaches t b) then s.faultAt t Status.ADDR_UNMAPPED pc
    else (s.setTile t (x.holdLoad d ord)).askHbm t
      { sender := .message st 0, addr := BitVec.ofNat 48 a, len := n, write := none, halo := false, gen := 0, lepoch := 0
        dst := some d, pc := pc } st d
  | .reg off =>
    if bcnBase ≤ off ∧ off + n ≤ bcnBase + 0x10_0000 then
      let bare := (List.range ((off + n + 7) / 8 - off / 8)).any (fun i => (modFields ((off / 8 + i) * 8)).isNone)
      (if bare then s.setFld HIF.UNMAPPED 1 else s).setTile t (x.fillLoad d (s.readRegs off n))
    else if bareReg off n then
      (s.setFld HIF.UNMAPPED 1).onTile t (fun x => x.fillLoad d (List.replicate n 0))
    else s.faultAt t Status.ADDR_DENIED pc

/-- A plain store of tile `t` (R92). The top 384 KiB of its own stride, which no scratchpad populates, are STORE_SCOPE as every
other address is (DESIGN CHOICE, log 97). A value that an own register refuses is TILE_CFG_VALUE, for TILE_SENTk too, to whose
NBLK the spec gives no status (DESIGN CHOICE, log 98). `vector`: the store is a VST (R190). -/
def State.plainStore (s : State) (t : Nat) (pc : BitVec 20) (a : Nat) (bs : List Byte) (vector : Bool) : State :=
  let x := s.tile t
  match s.region a bs.length with
  | .spad u off =>
    if u = t then
      let r := x.spadWrite off bs
      if r.2 = 0 then s.setTile t r.1
      else if vector then ((s.setTile t r.1).loseBytes t off bs.length).faultAt t r.2 pc
      else (s.setTile t r.1).faultAt t r.2 pc
    else s.faultAt t Status.STORE_SCOPE pc
  | .tcb u off =>
    if u = t then
      let r := x.writeTcb off bs
      if r.2 then (s.setTile t r.1).faultAt t Status.TILE_CFG_VALUE pc else s.setTile t r.1
    else s.faultAt t Status.STORE_SCOPE pc
  | _ => s.faultAt t Status.STORE_SCOPE pc

/-! ### Tagged accesses -/

/-- Accesses parked on a port (R51). -/
def Tile.parkedOn (t : Tile) (port : Nat) : Nat := (t.parked.filter (fun p => decide (p.port = port))).length

/-- The port unit of the vector engine is held by a parked access (R171). -/
def Tile.portHeld (t : Tile) : Bool :=
  t.parked.any (fun p => match p.user with | .vld _ _ _ => true | .vst _ _ _ => true | _ => false)

/-- A tagged VLD that is served: the bytes, and with a consuming load the cleared tags; SPAD_UE leaves the tags. -/
def State.serveLoad (s : State) (t : Nat) (kind : TagKind) (slot k vd : Nat) (pc : BitVec 20) : State :=
  let r := (s.tile t).spadRead (slot * 256) (k * 256)
  if r.2.1 ≠ 0 then ((s.setTile t r.1).loseLoad t (.vector vd (k * 256))).faultAt t r.2.1 pc
  else
    let x := r.1.putV vd (loadRows (r.1.getV vd) r.2.2)
    s.setTile t (if kind = .consume then x.setTags slot k false else x)

/-- A tagged store that is served: its bytes, then its tags (R49, R50). -/
def State.serveStore (s : State) (t : Nat) (slot k : Nat) (bs : List Byte) : State × BitVec 16 :=
  let r := (s.tile t).spadWrite (slot * 256) bs
  if r.2 ≠ 0 then (s.setTile t r.1, r.2) else (s.setTile t (r.1.setTags slot k true), 0)

/-- A tagged VST that is served; the bytes that SPAD_UE stops are undefined (R190). -/
def State.serveVst (s : State) (t : Nat) (slot k : Nat) (v : BitVec 8192) (pc : BitVec 20) : State :=
  let u := s.serveStore t slot k (rowBytes v (k * 256))
  if u.2 = 0 then u.1 else (u.1.loseBytes t (slot * 256) (k * 256)).faultAt t u.2 pc

/-- The address of a tagged access (R48, R92): its status, and its first slot. One that breaks both rules is TAG_SCOPE, and so
is one in the unpopulated top of the own stride (DESIGN CHOICE, log 97). -/
def State.tagTarget (s : State) (t a n : Nat) : BitVec 16 × Nat :=
  match s.region a n with
  | .spad u off =>
    if u ≠ t then (Status.TAG_SCOPE, 0)
    else if off % 256 ≠ 0 ∨ n % 256 ≠ 0 then (Status.TAG_ALIGN, 0)
    else (0, off / 256)
  | _ => (Status.TAG_SCOPE, 0)

/-- A VLD that starts (R91). -/
def State.startVld (s : State) (t : Nat) (q : QInsn) : State :=
  let n := lenBytes (fLEN q.w)
  let a := memAddr q.a q.w
  if fTAGM q.w = 0 then s.plainLoad t q.pc a n (.vector (fRD q.w) n) q.ord.1
  else
    let r := s.tagTarget t a n
    if r.1 ≠ 0 then s.faultAt t r.1 q.pc
    else
      let kind := if fTAGM q.w = 1 then TagKind.consume else TagKind.peek
      if (s.tile t).tagReady kind r.2 (n / 256) then s.serveLoad t kind r.2 (n / 256) (fRD q.w) q.pc
      else s.onTile t (fun x =>
        { x.holdV (fRD q.w) q.ord.1 with parked := x.parked ++ [⟨3, kind, r.2, n / 256, .vld (fRD q.w) q.pc q.ord.1⟩] })

/-- A VST that starts. -/
def State.startVst (s : State) (t : Nat) (q : QInsn) : State :=
  let n := lenBytes (fLEN q.w)
  let a := memAddr q.a q.w
  let v := (s.tile t).getV (fRD q.w)
  if fTAGM q.w = 0 then s.plainStore t q.pc a (rowBytes v n) true
  else
    let r := s.tagTarget t a n
    if r.1 ≠ 0 then s.faultAt t r.1 q.pc
    else if (s.tile t).tagReady .store r.2 (n / 256) then
      s.serveVst t r.2 (n / 256) v q.pc
    else s.onTile t (fun x => { x with parked := x.parked ++ [⟨3, .store, r.2, n / 256, .vst v q.pc q.ord.1⟩] })

end Sys2Proof.Machine
end

