-- ==== Sys2Proof/Machine/JobOps.lean ====
section
/-! DEFINITION. The campaign descriptor (R432, R433), the module's job, the start of a tile (R440), the tiles' control
blocks as Lighthouse writes them. -/
namespace Sys2Proof.Machine

/-- A field of a campaign descriptor's header. -/
def campFld (c : List Byte) (lsb n : Nat) : Nat := bits (ofBytes (c.take 512)) lsb n
/-- `n` bytes of a descriptor from an offset, as a number. -/
def campNum (c : List Byte) (off n : Nat) : Nat := ofBytes ((c.drop off).take n)

/-- Fields of the header (R432). -/
def Job.kind (j : Job) : Nat := campFld j.camp 8 2
def Job.bestEffort (j : Job) : Bool := campFld j.camp 10 1 = 1
def Job.repro (j : Job) : Nat := campFld j.camp 11 2
def Job.mirror (j : Job) : Bool := campFld j.camp 14 1 = 1
def Job.memGib (j : Job) : Nat := campFld j.camp 192 16
def Job.regions (j : Job) : Nat := campFld j.camp 480 16
def Job.trails (j : Job) : List Nat :=
  (List.range (campFld j.camp 640 16)).map (fun i => campNum j.camp (campFld j.camp 608 32 + 8 * i) 4)
def Job.colls (j : Job) : List (BitVec 512) :=
  j.newColls.getD
    ((List.range (campFld j.camp 544 16)).map (fun i => BitVec.ofNat 512 (campNum j.camp (campFld j.camp 512 32 + 64 * i) 64)))
def Job.stageN (j : Job) : Nat := campFld j.camp 2544 8
/-- A field of the step control block (R311), at bit 1024 of the header. -/
def Job.scb (j : Job) (lsb n : Nat) : Nat := campFld j.camp (1024 + lsb) n
def Job.voteOff (j : Job) : Nat := j.scb 0 32
def Job.flipOff (j : Job) : Nat := j.scb 32 16
def Job.gap (j : Job) : Nat := j.scb 48 16
def Job.voteTree (j : Job) : Nat := j.scb 64 4
def Job.level (j : Job) : Nat := j.scb 68 8
def Job.ssteps (j : Job) : Nat := j.scb 96 32
def Job.spbOff (j : Job) : Nat := j.scb 256 20
def Job.nwatch (j : Job) : Nat := j.scb 276 7
def Job.batches (j : Job) : Nat := j.scb 320 64

/-- The job that holds this module. -/
def State.job (s : State) : Option Job :=
  match s.lh.cur with
  | some k => s.lh.jobs.find? (fun j => j.id = k)
  | none => none

/-- Byte `off` of the Lighthouse SRAM (R427): of the firmware and of the campaign `c` in its place, whose content stands elsewhere
in State, else as it was last written; a part that State holds in another form reads as its bytes were left (log 107). -/
def Lighthouse.sramAt (l : Lighthouse) (c : List Byte) (off : Nat) : Byte :=
  if off < l.firmware.length ∧ off < 0x20_0000 then l.firmware.getD off 0
  else if 0x22_0000 ≤ off ∧ off - 0x22_0000 < c.length ∧ off < 0x40_0000 then c.getD (off - 0x22_0000) 0
  else Map.get 0 l.sram off

/-- Byte `off` of the SRAM as it stands, with the campaign of the module's job. -/
def State.sramByte (s : State) (off : Nat) : Byte :=
  s.lh.sramAt (match s.job with | some j => j.camp | none => []) off

/-- `n` bytes of the Lighthouse SRAM as a number. -/
def State.sramNum (s : State) (off n : Nat) : Nat := ofBytes ((List.range n).map (fun i => s.sramByte (off + i)))

/-- Entry `i` of the watch table of a job (R323): 16 bytes at WATCH_PTR of the Lighthouse SRAM. -/
def State.watch (s : State) (j : Job) (i : Nat) : Nat := s.sramNum (j.scb 288 32 + 16 * i) 16

def State.setJob (s : State) (j : Job) : State :=
  { s with lh := { s.lh with jobs := s.lh.jobs.map (fun x => if x.id = j.id then j else x) } }

/-- A byte of the Lighthouse SRAM is written, where it stands. -/
def State.sramSet (s : State) (off : Nat) (b : Byte) : State :=
  let l := s.lh
  let plain : State := { s with lh := { l with sram := Map.set 0 l.sram off b } }
  if off < l.firmware.length ∧ off < 0x20_0000 then { s with lh := { l with firmware := l.firmware.set off b } }
  else match s.job with
    | some j =>
      if 0x22_0000 ≤ off ∧ off - 0x22_0000 < j.camp.length ∧ off < 0x40_0000 then
        s.setJob { j with camp := j.camp.set (off - 0x22_0000) b }
      else plain
    | none => plain

/-- Lighthouse writes bytes of its SRAM (R26). -/
def State.sramWrite (s : State) (off : Nat) (bs : List Byte) : State :=
  (bs.zipIdx).foldl (fun (s : State) e => s.sramSet (off + e.2) e.1) s

/-- The logical tiles of the module. -/
def State.tileList (s : State) : List Nat := List.range s.tileCount

/-- The lit copy of the step state, a copy by number (R306, R307). -/
def Lighthouse.copy (l : Lighthouse) (i : Nat) : StepState := match i % 3 with | 0 => l.copy0 | 1 => l.copy1 | _ => l.copy2
def Lighthouse.lit (l : Lighthouse) : StepState := l.copy l.sel.toNat
def Lighthouse.setCopy (l : Lighthouse) (i : Nat) (x : StepState) : Lighthouse :=
  match i % 3 with
  | 0 => { l with copy0 := x }
  | 1 => { l with copy1 := x }
  | _ => { l with copy2 := x }

/-- The image entry of a tile for a USE (R433). -/
def Job.image (j : Job) (use t : Nat) : Option Nat :=
  ((List.range (campFld j.camp 416 32)).map (fun i => campNum j.camp (campFld j.camp 384 32 + 32 * i) 32)).find? (fun e =>
    decide (bits e 104 12 ≤ t) && decide (t ≤ bits e 116 12) && decide (bits e 128 2 = use))

/-- The image is loaded at scratchpad offset 0. -/
def State.loadImage (s : State) (j : Job) (use t : Nat) : State :=
  match j.image use t with
  | none => s
  | some e =>
    let s := s.onTile t (fun x => (x.spadWrite 0 (s.hostRead (bits e 0 64) (bits e 64 20))).1)
    { s with lh := { s.lh with uses := Map.set 0 s.lh.uses t use } }

/-- The stream starts at ENTRY (R440); the image of another USE is loaded first (R443). -/
def State.startTile (s : State) (j : Job) (use t : Nat) : State :=
  match j.image use t with
  | none => s
  | some e =>
    let s := if Map.get 0 s.lh.uses t = use then s else s.loadImage j use t
    s.onTile t (fun x => { x with
      pc := BitVec.ofNat 20 (bits e 84 20), halted := false, ended := false, haltReported := false, ibuf := [], stall := .none })

/-- The USE that the job's steps, or the open step, run: 0 the step program, 1 the evaluation program (R433, R443). -/
def State.use (s : State) : Nat :=
  match s.job with
  | some j => if j.kind = 1 ∨ (s.lh.step.map (·.eval)) = some true then 1 else 0
  | none => 0

/-- The first batch of the open step is staged, and the ones after it (R441). -/
def State.stagedAll (s : State) (j : Job) : Bool :=
  (List.range j.batches).all (fun i =>
    match Map.get none s.lh.staged ((s.lh.lit.cursor.toNat + i) % j.stageN) with
    | some b => decide (b.index.toNat = s.lh.lit.cursor.toNat + i) && decide (b.job = j.id)
    | none => false)

/-- The tiles start at an open (R440, R441, R296): those whose stream has halted and whose core is ready at once, the
others once they halt; all wait for a batch not yet staged and for a sweep. -/
def State.startTiles (s : State) : State :=
  match s.job, s.lh.step with
  | some j, some _ =>
    let u := s.use
    let s := { s with lh := { s.lh with startAtHalt := s.tileList } }
    if s.stagedAll j && !s.lh.sweepDue then
      s.tileList.foldl (fun (s : State) t =>
        let x := s.tile t
        if x.halted && x.ended && decide (x.fld TILE.CORE_READY = 1) then
          { s with lh := { s.lh with startAtHalt := s.lh.startAtHalt.erase t } }.startTile j u t
        else s) s
    else s
  | _, _ => s

/-- The context of the module's job that Lighthouse saved, for tile `t`. -/
def State.savedTile (s : State) (t : Nat) : Option Tile :=
  match s.lh.cur with
  | none => none
  | some k =>
    match s.lh.contexts.find? (fun c => c.job = k) with
    | some c => (c.tiles.find? (fun e => e.1 = t)).map (·.2)
    | none => none

/-- A core is ready again (R39, R40): its saved context comes back (R72); where a discard reset it, its step image is
loaded and it starts, if a step is open (R440). -/
def State.coreReady (s : State) (t : Nat) : State :=
  let x := s.tile t
  let x := match s.savedTile t with
    | some c => x.restore c
    | none => x
  let s := s.setTile t (x.setFld TILE.CORE_READY 1)
  match s.job with
  | none => s
  | some j =>
    if s.lh.reload.contains t then
      let s := ({ s with lh := { s.lh with reload := s.lh.reload.erase t } }).loadImage j s.use t
      if s.lh.startAtHalt.contains t && s.stagedAll j && !s.lh.sweepDue then
        { s with lh := { s.lh with startAtHalt := s.lh.startAtHalt.erase t } }.startTile j s.use t
      else s
    else s

end Sys2Proof.Machine
end

