-- ==== Sys2Proof/Machine/GlintFn.lean ====
section
/-! DEFINITION. Glint version 1 (R193, R194), its draws (R199, R200), and the rounding mode of an instruction (R140). -/
namespace Sys2Proof.Machine

/-- The four words of the round function. -/
abbrev GlintWords := BitVec 32 × BitVec 32 × BitVec 32 × BitVec 32

/-- Round `i`, with the key injection that follows an odd round. -/
def glintRound (kk : Nat → BitVec 32) (x : GlintWords) (i : Nat) : GlintWords :=
  let ra := [16, 8, 24, 12, 20].getD (i % 5) 0
  let rb := [8, 24, 12, 20, 16].getD (i % 5) 0
  let x0 := x.1 + x.2.1
  let x1 := x.2.1.rotateLeft ra ^^^ x0
  let x2 := x.2.2.1 + x.2.2.2
  let x3 := x.2.2.2.rotateLeft rb ^^^ x2
  if i % 2 = 1 then
    let j := (i + 1) / 2
    (x0 + kk (j % 3), x3 + kk ((j + 1) % 3), x2 + kk ((j + 2) % 3), x1 + BitVec.ofNat 32 j)
  else (x0, x3, x2, x1)

/-- One evaluation: key, stream, coordinate, draw index to 128 bits. -/
def glint (key : BitVec 64) (stream : BitVec 32) (coord : BitVec 64) (draw : BitVec 32) : BitVec 128 :=
  let k0 := key.setWidth 32
  let k1 := key.extractLsb' 32 32
  let kk := fun (j : Nat) => if j = 0 then k0 else if j = 1 then k1 else k0 ^^^ k1 ^^^ 0x5A17_C3E9#32
  let x := (List.range 10).foldl (glintRound kk)
    (draw + kk 0, coord.setWidth 32 + kk 1, coord.extractLsb' 32 32 + kk 2, stream)
  x.2.2.2 ++ x.2.2.1 ++ x.2.1 ++ x.1

/-- Word `n` of an evaluation. -/
def glintWord (o : BitVec 128) (n : Nat) : Nat := bits o.toNat (32 * n) 32

/-- The evaluation of stream slot `m` of tile `t` at a coordinate, `off` draws after the step's base (R197). -/
def Tile.glintAt (t : Tile) (m : Nat) (coord : BitVec 64) (off : Nat) : BitVec 128 :=
  glint (t.rd TILE.GLT_KEY.off) (BitVec.ofNat 32 (t.fld (TILE.glintStream m))) coord
    (BitVec.ofNat 32 (t.fld (TILE.glintBase m) + off))

/-- The 16-bit draw of stochastic rounding for an element at row r, column c (R199). -/
def Tile.roundDraw (t : Tile) (r c : Nat) : Nat :=
  let e := (t.fld TILE.GLT_SRC + r * t.fld TILE.SRSTRIDE + c) % 2 ^ 64
  bits (t.glintAt 0 (BitVec.ofNat 64 (e / 8)) (t.fld TILE.SROFF)).toNat (16 * (e % 8)) 16

/-- The mode that a RND field selects: TILE_MODE[RND_DEF] for 0 (R140). -/
def Tile.rndCode (t : Tile) (rnd : Nat) : Nat := if rnd = 0 then t.fld TILE.RND_DEF else rnd

/-- The rounding of the element at row r, column c under a mode of R140. -/
def Tile.rounding (t : Tile) (code r c : Nat) : Rnd :=
  match code with
  | 2 => .zero
  | 3 => .up
  | 4 => .down
  | 5 => .stoch (t.roundDraw r c)
  | _ => .near

/-- SAT_NARROW (R144). -/
def Tile.satNarrow (t : Tile) : Bool := decide (t.fld TILE.SAT_NARROW = 1)

end Sys2Proof.Machine
end

