-- ==== Sys2Proof/Machine/Approx.lean ====
section
/-! DEFINITION. The functions that R179 bounds: their exact results to far more bits than a bound needs, and the values that lie
within a bound. -/
namespace Sys2Proof.Machine

/-! ### Fixed point: an integer `i` stands for i / 2^320 -/

/-- One, and a finite value rounded down; magnitudes from 2^13 on stand for 2^13, where every function below is constant as far as
its format can tell. -/
def fxOne : Int := 2 ^ 320
def FVal.fixed : FVal → Int
  | .fin neg m e =>
    let n : Nat := if m = 0 then 0
      else if 13 ≤ (m.log2 : Int) + e then 2 ^ 333
      else if e + 320 < 0 then m >>> (-(e + 320)).toNat else m <<< (e + 320).toNat
    if neg then -(n : Int) else n
  | _ => 0

/-- The value of an integer in fixed point. -/
def FVal.ofFixed (i : Int) : FVal := .ofInt i (-320)

/-- Σ p(k) / (2k + 1), p(0) = `pw`, p(k + 1) = p(k) × `t` / 2^`p`: the series of atanh, and with a negative `t` of arctan. -/
def oddSeries (p : Nat) (t : Int) : Nat → Nat → Int → Int → Int
  | 0, _, _, sum => sum
  | fuel + 1, k, pw, sum => oddSeries p t fuel (k + 1) (pw * t / 2 ^ p) (sum + pw / (2 * k + 1))

/-- Σ p(k), p(0) = `pw`, p(k + 1) = p(k) × `t` / 2^320 / `den` k. -/
def termSeries (t : Int) (den : Nat → Nat) : Nat → Nat → Int → Int → Int
  | 0, _, _, sum => sum
  | fuel + 1, k, pw, sum => termSeries t den fuel (k + 1) (pw * t / 2 ^ 320 / den k) (sum + pw)

/-- ln 2, and π with `p` bits behind the point. -/
def fxLn2 : Int := 2 * oddSeries 320 (fxOne / 9) 110 0 (fxOne / 3) 0
def piBits (p : Nat) : Int :=
  16 * oddSeries p (-(2 ^ p / 25)) 120 0 (2 ^ p / 5) 0 - 4 * oddSeries p (-(2 ^ p / 57121)) 60 0 (2 ^ p / 239) 0

/-- i × 2^k. -/
def fxScale (i : Int) (k : Int) : Int := if k < 0 then i / 2 ^ (-k).toNat else i * 2 ^ k.toNat

/-- e^x: a number from 0.7 to 1.5, and the power of two that it is multiplied by. -/
def fxExp (x : Int) : Int × Int :=
  let k := (x + fxLn2 / 2) / fxLn2
  (termSeries (x - k * fxLn2) (fun n => n + 1) 80 0 fxOne 0, k)

/-- e^x in fixed point. -/
def fxExpAt (x : Int) : Int := fxScale (fxExp x).1 (fxExp x).2

/-- ln of m × 2^e, the mantissa's part and the exponent's. -/
def fxLn (m : Nat) (e : Int) : Int × Int :=
  let y : Int := (m : Int) * fxOne / 2 ^ m.log2
  let t := (y - fxOne) * fxOne / (y + fxOne)
  (2 * oddSeries 320 (t * t / fxOne) 110 0 t 0, e + m.log2)

/-- erf of a number from 0 to 6. -/
def fxErf (x : Int) : Int :=
  let x2 := x * x / fxOne
  let rec go : Nat → Nat → Int → Int → Int
    | 0, _, _, sum => sum
    | fuel + 1, n, pw, sum => go fuel (n + 1) (-(pw * x2 / fxOne / (n + 1))) (sum + pw / (2 * n + 1))
  2 * go 240 0 x 0 * fxOne / (isqrt (piBits 320 * fxOne).toNat : Int)

/-- A non-negative value reduced by whole turns, exactly. -/
def fxTurn (m : Nat) (e : Int) : Int :=
  let x : Int := if e + 480 < 0 then (m : Int) / 2 ^ (-(e + 480)).toNat else m * 2 ^ (e + 480).toNat
  x % (2 * piBits 480) / 2 ^ 160

/-- The exact result of an operation of R179 but for VDIV and VSQRT on a finite value, as closely as 150 bits tell it; VRSQRT's
operand is its exact sum. -/
def transExact (op : Nat) (v : FVal) : FVal :=
  let x := v.fixed
  match v with
  | .fin neg m e =>
    let sign (i : Int) : FVal := .ofFixed (if neg then -i else i)
    match op with
    | 0x1A => (FVal.fin false 1 0).div v.sqrt
    | 0x1B => (FVal.fin false 1 0).div v
    | 0x1C => .ofInt (fxExp x).1 ((fxExp x).2 - 320)
    | 0x1D => .ofInt (fxExp (x % fxOne * fxLn2 / fxOne)).1 ((fxExp (x % fxOne * fxLn2 / fxOne)).2 + x / fxOne - 320)
    | 0x1E => .ofFixed ((fxLn m e).1 + (fxLn m e).2 * fxLn2)
    | 0x1F => .ofFixed ((fxLn m e).1 * fxOne / fxLn2 + (fxLn m e).2 * fxOne)
    | 0x20 =>
      let y := fxExpAt (2 * min |x| (64 * fxOne))
      let r := (FVal.ofFixed (y - fxOne)).div (.ofFixed (y + fxOne))
      if neg then r.neg else r
    | 0x21 => (FVal.ofFixed (fxExpAt x)).div (.ofFixed (fxExpAt x + fxOne))
    | 0x22 => sign (fxErf (min |x| (6 * fxOne)))
    | 0x23 => sign (let r := fxTurn m e; termSeries (-(r * r / fxOne)) (fun n => (2 * n + 2) * (2 * n + 3)) 90 0 r 0)
    | _ => .ofFixed (let r := fxTurn m e; termSeries (-(r * r / fxOne)) (fun n => (2 * n + 1) * (2 * n + 2)) 90 0 fxOne 0)
  | _ => .nan

/-- The error bound of R179 in units in the last place. -/
def transUlps (op : Nat) : Nat := if 0x20 ≤ op ∧ op ≤ 0x22 then 2 else 1

/-- The value of FMT `f`, number `pick` of those that lie within `n` units in the last place of the exact result `y`; a zero has
the sign `neg0`. A result beyond the largest finite value follows R142. -/
def withinUlps (f n : Nat) (r : Rnd) (y : FVal) (neg0 : Bool) (pick : Nat) : Nat :=
  match y with
  | .fin neg m e =>
    let k := floatFormat f
    let least : Int := 1 - (k.bias : Int) - k.man
    let q := if m = 0 then least else max least ((m.log2 : Int) + e - k.man)
    if (FVal.ofBits f false k.maxBits).lt y.abs then y.toBits f r true
    else
      let place (v : FVal) (up : Bool) : Int :=
        match v with
        | .fin b m e => if b then -(k.magnitude (if up then .zero else .up) false m e : Int)
          else k.magnitude (if up then .up else .zero) false m e
        | _ => 0
      let span := n * 2 ^ 64 + 1
      let lo := place (y.abs.add false (.fin true span (q - 64))) true
      let hi := min (place (y.abs.add false (.fin false span (q - 64))) false) k.maxBits
      let i := lo + (pick % (hi - lo + 1).toNat : Nat)
      signBits f (if i = 0 then neg0 else xor neg (decide (i < 0))) i.natAbs
  | _ => y.toBits f r true

end Sys2Proof.Machine
end

