-- ==== Sys2Proof/Machine/VecOps.lean ====
section
/-! DEFINITION. The vector engine's element views and lane computations (R169, R170, R173, R174, R178 to R182). -/
namespace Sys2Proof.Machine

/-! ### Format V (R86) -/
def fFMT (w : BitVec 52) : Nat := bits w.toNat 24 4
def fRND (w : BitVec 52) : Nat := bits w.toNat 20 4
def fSTG (w : BitVec 52) : Nat := bits w.toNat 17 3
def fEND (w : BitVec 52) : Bool := bit w.toNat 16
def fSUB (w : BitVec 52) : Nat := bits w.toNat 12 4

/-! ### Views: element k of a register, rows first, lies at bit width × k -/

/-- Elements of a register whose elements are `w` bits wide; its columns. -/
def viewCount (w : Nat) : Nat := 8192 / w
def viewCols (w : Nat) : Nat := 512 / w

/-- Elements listed low first, as one number. -/
def packElems (w : Nat) (xs : List Nat) : Nat := xs.foldr (fun x acc => acc * 2 ^ w + x % 2 ^ w) 0

/-- Element `k` of a register. -/
def elemOf (w : Nat) (v : BitVec 8192) (k : Nat) : Nat := bits v.toNat (w * k) w

/-- The lane whose predicate bit governs element `k` (R77, R170). -/
def laneOf (w k : Nat) : Nat := k * w / 32

/-- The register with every element that the predicate selects replaced (R77). -/
def writeElems (w : Nat) (pred : BitVec 256) (old : BitVec 8192) (new : Nat → Nat) : BitVec 8192 :=
  BitVec.ofNat 8192 (packElems w ((List.range (viewCount w)).map (fun k =>
    if pred.getLsbD (laneOf w k) then new k else elemOf w old k)))

/-- A predicate from its bits. -/
def maskOf (f : Nat → Bool) : BitVec 256 :=
  BitVec.ofNat 256 ((List.range 256).foldr (fun i acc => acc * 2 + ofBool (f i)) 0)

/-- Predicate bits written under a predicate. -/
def writeMask (pred old : BitVec 256) (f : Nat → Bool) : BitVec 256 :=
  maskOf (fun i => if pred.getLsbD i then f i else old.getLsbD i)

/-! ### Element-wise operations (R174, R179) -/

/-- SUB[1:0]: VB, VC name scalar registers that are broadcast (R173). -/
def bcastB (w : BitVec 52) : Bool := bit (fSUB w) 0
def bcastC (w : BitVec 52) : Bool := bit (fSUB w) 1

/-- Element `k` of the second and third operand. -/
def Tile.opB (t : Tile) (q : QInsn) (wd k : Nat) : Nat :=
  if bcastB q.w then q.b.toNat % 2 ^ wd else elemOf wd (t.getV (fRB q.w)) k
def Tile.opC (t : Tile) (q : QInsn) (wd k : Nat) : Nat :=
  if bcastC q.w then q.c.toNat % 2 ^ wd else elemOf wd (t.getV (fRC q.w)) k

/-- The exact result of operation `op` on float values; `down` as in FVal.add. -/
def floatElem (op sub : Nat) (down : Bool) (a b c : FVal) : FVal :=
  match op with
  | 1 => a.add down b
  | 2 => a.add down b.neg
  | 3 => a.mul b
  | 4 =>
    let p := a.mul b
    (if bit sub 3 then p.neg else p).add down (if bit sub 2 then c.neg else c)
  | 5 => a.add down (b.mul (c.add down a.neg))
  | 6 => a.minimum b
  | 7 => a.maximum b
  | 8 => a.abs
  | 0x18 => a.div b
  | _ => a.sqrt

/-- The result of operation `op` on INT32 elements. -/
def intElem (op : Nat) (a b : Nat) : Nat :=
  match op with
  | 1 => (a + b) % 2 ^ 32
  | 2 => (a + 2 ^ 32 - b) % 2 ^ 32
  | 3 => a * b % 2 ^ 32
  | 6 => if signed 32 a ≤ signed 32 b then a else b
  | 7 => if signed 32 a ≤ signed 32 b then b else a
  | 8 => if a = 2 ^ 31 then 2 ^ 31 - 1 else (signed 32 a).natAbs
  | 0xA => a &&& b
  | 0xB => a ||| b
  | _ => a ^^^ b

/-- An operation of R179 but for VDIV and VSQRT in FP32 or FP64, on a value: special inputs under R180, else one of the values
within the bound, which the operation, the format, the mode and the operands `a`, `b` alone choose (R161: the same on every
part). What an infinite operand of VRSQRT and VRCP gives is not stated: it is free. -/
def transValue (op f code : Nat) (r : Rnd) (v : FVal) (a b : Nat) : Nat :=
  let out (v : FVal) := v.toBits f .near true
  let one (neg : Bool) := out (.fin neg 1 0)
  let free := (Config.transcendental op f code (BitVec.ofNat 64 (if op = 0x1A then a + b * 2 ^ 32 else a))).toNat
  match v with
  | .nan => out .nan
  | .inf neg =>
    match op with
    | 0x1A => if neg then out .nan else free % 2 ^ fmtWidth f
    | 0x1B => free % 2 ^ fmtWidth f
    | 0x1C | 0x1D => if neg then 0 else out (.inf false)
    | 0x1E | 0x1F => if neg then out .nan else out (.inf false)
    | 0x20 | 0x22 => one neg
    | 0x21 => if neg then 0 else one false
    | _ => out .nan
  | .fin neg m _ =>
    if (op = 0x1A ∨ op = 0x1B) ∧ m = 0 then out (.inf neg)
    else if op = 0x1A ∧ neg = true then out .nan
    else if (op = 0x1E ∨ op = 0x1F) ∧ m = 0 then out (.inf true)
    else if (op = 0x1E ∨ op = 0x1F) ∧ neg = true then out .nan
    else withinUlps f (transUlps op) r (transExact op v) (neg && [0x20, 0x22, 0x23].contains op) free

/-- The bits of such an operation in format `f`; a BF16 or FP16 result is computed in FP32 and rounded once (R179). -/
def transElem (op f code : Nat) (r : Rnd) (a b : Nat) : Nat :=
  let down : Bool := decide (code = 4)
  let v (g x : Nat) := FVal.ofBits g false x
  let sum := if op = 0x1A then (v f a).add down (v f b) else v f a
  if f = 2 ∨ f = 3 then
    (FVal.ofBits 1 false (transValue op 1 code r sum ((v f a).toBits 1 .near true) ((v f b).toBits 1 .near true))).toBits f r true
  else transValue op f code r sum a b

/-- Element `k` of the destination of an element-wise instruction. -/
def Tile.elemResult (t : Tile) (q : QInsn) (k : Nat) : Nat :=
  let f := fFMT q.w
  let wd := fmtWidth f
  let a := elemOf wd (t.getV (fRA q.w)) k
  let b := t.opB q wd k
  let code := t.rndCode (fRND q.w)
  if f = 0xA then intElem q.op a b
  else if 0x1A ≤ q.op then transElem q.op f code (t.rounding code (k / viewCols wd) (k % viewCols wd)) a b
  else
    let c := t.opC q wd k
    let v := FVal.ofBits f false
    (floatElem q.op (fSUB q.w) (decide (code = 4)) (v a) (v b) (v c)).toBits f
      (t.rounding code (k / viewCols wd) (k % viewCols wd)) t.satNarrow

/-- The predicate of a queued instruction. -/
def Tile.qpred (t : Tile) (q : QInsn) : BitVec 256 := t.pred q.w

/-- An element-wise instruction. -/
def Tile.vecElementwise (t : Tile) (q : QInsn) : Tile :=
  t.putV (fRD q.w) (writeElems (fmtWidth (fFMT q.w)) (t.qpred q) (t.getV (fRD q.w)) (t.elemResult q))

/-- VMOV: d ← b, the bits as they stand. `byte` stands for a scalar broadcast to an 8-bit view, which R173 does not give. -/
def Tile.vecMove (t : Tile) (q : QInsn) (byte : Nat) : Tile :=
  let wd := fmtWidth (fFMT q.w)
  t.putV (fRD q.w) (writeElems wd (t.qpred q) (t.getV (fRD q.w))
    (fun k => if bcastB q.w && decide (wd = 8) then byte else t.opB q wd k))

/-- The conditions of VCMP (R174). -/
def compareElem (f cond a b : Nat) : Bool :=
  if f = 0xA then
    let x := signed 32 a
    let y := signed 32 b
    match cond with
    | 0 => decide (x = y)
    | 1 => decide (x ≠ y)
    | 2 => decide (x < y)
    | 3 => decide (x ≤ y)
    | 4 => decide (y < x)
    | 5 => decide (y ≤ x)
    | _ => false
  else
    let x := FVal.ofBits f false a
    let y := FVal.ofBits f false b
    match cond with
    | 0 => x.same y
    | 1 => !x.same y
    | 2 => x.lt y
    | 3 => x.lt y || x.same y
    | 4 => y.lt x
    | 5 => y.lt x || x.same y
    | _ => x.isNan || y.isNan

/-- VCMP: a predicate register; both lanes of an FP64 element alike, under the predicate bit of its even lane. -/
def Tile.vecCompare (t : Tile) (q : QInsn) : Tile :=
  let f := fFMT q.w
  let wd := fmtWidth f
  let p := t.qpred q
  let d := fRD q.w % 8
  t.putP d (maskOf (fun i =>
    let k := i * 32 / wd
    if p.getLsbD (laneOf wd k) then
      compareElem f (fRC q.w % 8) (elemOf wd (t.getV (fRA q.w)) k) (t.opB q wd k)
    else (t.getP d).getLsbD i))

/-- VTRN: the transpose of a 16 × 16 array. -/
def Tile.vecTranspose (t : Tile) (q : QInsn) : Tile :=
  t.putV (fRD q.w) (writeElems 32 (t.qpred q) (t.getV (fRD q.w))
    (fun k => elemOf 32 (t.getV (fRA q.w)) (k % 16 * 16 + k / 16)))

/-- VCVT (R178): destination element `k` of the part that is converted; none where it keeps its value. -/
def Tile.convertElem (t : Tile) (q : QInsn) (k : Nat) : Option Nat :=
  let f := fFMT q.w
  let g := fSUB q.w
  let ws := fmtWidth f
  let wd := fmtWidth g
  let p := fRB q.w
  let r := k / viewCols wd
  let c := k % viewCols wd
  let src : Option Nat :=
    if wd < ws then
      let n := viewCols ws
      if n * p ≤ c ∧ c < n * (p + 1) then some (r * n + (c - n * p)) else none
    else some (r * viewCols ws + c + viewCols wd * p)
  src.map (fun i => (FVal.ofBits f false (elemOf ws (t.getV (fRA q.w)) i)).toBits g
    (t.rounding (t.rndCode (fRND q.w)) r c) t.satNarrow)

def Tile.vecConvert (t : Tile) (q : QInsn) : Tile :=
  let wd := fmtWidth (fSUB q.w)
  let old := t.getV (fRD q.w)
  t.putV (fRD q.w) (writeElems wd (t.qpred q) old (fun k => (t.convertElem q k).getD (elemOf wd old k)))

/-! ### Reductions and scans (R181, R182) -/

/-- The element numbers of line `i` along an axis (0 down column i, 1 along row i), in index order. -/
def lineOf (wd axis i : Nat) : List Nat :=
  if axis = 0 then (List.range 16).map (fun r => r * viewCols wd + i)
  else (List.range (viewCols wd)).map (fun c => i * viewCols wd + c)

/-- How many lines there are. -/
def lineCount (wd axis : Nat) : Nat := if axis = 0 then viewCols wd else 16

/-- VC[3] = 1 names a predicate in VC[2:0]. -/
def usesVC (w : BitVec 52) : Bool := bit (fRC w) 3

/-- The reduction of one line of elements, those that take part marked. -/
def reduceLine (f op : Nat) (xs : List (Bool × Nat)) : Nat :=
  if f = 0xA then
    match op with
    | 0 => xs.foldl (fun (s : Nat) (x : Bool × Nat) => if x.1 then (s + x.2) % 2 ^ 32 else s) 0
    | 1 => xs.foldl (fun (s : Nat) (x : Bool × Nat) => if x.1 then intElem 7 s x.2 else s) (2 ^ 31)
    | 2 => xs.foldl (fun (s : Nat) (x : Bool × Nat) => if x.1 then intElem 6 s x.2 else s) (2 ^ 31 - 1)
    | _ => xs.foldl (fun (s : Nat) (x : Bool × Nat) => if x.1 then (s + x.2 * x.2) % 2 ^ 32 else s) 0
  else
    let v := FVal.ofBits f false
    let r := match op with
      | 0 => treeSum f (xs.map (fun (x : Bool × Nat) => if x.1 then v x.2 else .fin true 0 0))
      | 1 => (xs.map (fun (x : Bool × Nat) => if x.1 then v x.2 else .inf true)).foldl FVal.maximum (.inf true)
      | 2 => (xs.map (fun (x : Bool × Nat) => if x.1 then v x.2 else .inf false)).foldl FVal.minimum (.inf false)
      | _ => treeSum f (xs.map (fun (x : Bool × Nat) => if x.1 then ((v x.2).mul (v x.2)).round f else .fin true 0 0))
    r.toBits f .near true

def Tile.vecReduce (t : Tile) (q : QInsn) : Tile :=
  let f := fFMT q.w
  let wd := fmtWidth f
  let axis := bits (fSUB q.w) 2 1
  let src := t.getV (fRA q.w)
  let part := if usesVC q.w then t.getP (fRC q.w % 8) else BitVec.allOnes 256
  let line (i : Nat) :=
    reduceLine f (fSUB q.w % 4) ((lineOf wd axis i).map (fun k => (part.getLsbD (laneOf wd k), elemOf wd src k)))
  let old := t.getV (fRD q.w)
  t.putV (fRD q.w) (writeElems wd (t.qpred q) old (fun k =>
    if axis = 0 then (if k < viewCols wd then line k else elemOf wd old k)
    else if k % viewCols wd = 0 then line (k / viewCols wd) else elemOf wd old k))

/-- One line's running sums: segment marks and elements, from `y` (as bits); the outputs in index order. -/
def scanLine (f : Nat) (excl : Bool) (y0 y : Nat) : List (Bool × Nat) → List Nat
  | [] => []
  | (seg, x) :: xs =>
    let y := if seg then y0 else y
    let z := if f = 0xA then (y + x) % 2 ^ 32
      else ((FVal.ofBits f false y).add false (FVal.ofBits f false x)).toBits f .near true
    (if excl then y else z) :: scanLine f excl y0 z xs

def Tile.vecScan (t : Tile) (q : QInsn) : Tile :=
  let f := fFMT q.w
  let wd := fmtWidth f
  let axis := bits (fSUB q.w) 0 1
  let src := t.getV (fRA q.w)
  let seg := if usesVC q.w then t.getP (fRC q.w % 8) else 0
  let y0 := if f = 0xA then 0 else 2 ^ (wd - 1)
  let lines := (List.range (lineCount wd axis)).map (fun i =>
    let ks := lineOf wd axis i
    let y := if bit (fSUB q.w) 2 then elemOf wd (t.getV (fRB q.w)) (ks.getLastD 0) else y0
    scanLine f (bit (fSUB q.w) 1) y0 y (ks.map (fun k => (seg.getLsbD (laneOf wd k), elemOf wd src k))))
  t.putV (fRD q.w) (writeElems wd (t.qpred q) (t.getV (fRD q.w)) (fun k =>
    let r := k / viewCols wd
    let c := k % viewCols wd
    if axis = 0 then (lines.getD c []).getD r 0 else (lines.getD r []).getD c 0))

end Sys2Proof.Machine
end

