-- ==== Sys2Proof/Machine/VecPass.lean ====
section
/-! DEFINITION. The vector engine's passes over the scratchpad: the census (R165 to R167, R183), the scale pass (R146,
R147, R184 to R186) and the long-format adds (R157, R187). Each answers the state and a status, 0 for success. -/
namespace Sys2Proof.Machine

/-- Two byte ranges (start, length) overlap. -/
def overlaps (a b : Nat × Nat) : Bool := decide (a.1 < b.1 + b.2) && decide (b.1 < a.1 + a.2) && decide (a.2 ≠ 0) && decide (b.2 ≠ 0)

/-- A byte range lies in the populated scratchpad. -/
def inSpad (r : Nat × Nat) : Bool := decide (r.1 + r.2 ≤ spadSize)

/-- Free bytes where an access that SPAD_UE stopped left its destination undefined (R190). -/
def State.scramble (s : State) (t : Nat) (rs : List (Nat × Nat)) : State :=
  rs.foldl (fun s r =>
    let d := s.drawBytes r.2
    d.2.onTile t (fun x => { x with spad := writeRun 0 x.spad r.1 d.1 })) s

/-- A list of writes; the first that SPAD_UE stops leaves every range undefined. -/
def State.writeAll (s : State) (t : Nat) (ws : List (Nat × List Byte)) : State × BitVec 16 :=
  let r := ws.foldl (fun (r : State × BitVec 16) (w : Nat × List Byte) =>
    if r.2 ≠ 0 then r
    else
      let u := (r.1.tile t).spadWrite w.1 w.2
      (r.1.setTile t u.1, u.2)) (s, 0)
  if r.2 = 0 then r else (r.1.scramble t (ws.map (fun w => (w.1, w.2.length))), r.2)

/-- A list of reads: the bytes of each, and the first status met. -/
def Tile.readAll (t : Tile) (rs : List (Nat × Nat)) : Tile × BitVec 16 × List (List Byte) :=
  rs.foldl (fun (r : Tile × BitVec 16 × List (List Byte)) (a : Nat × Nat) =>
    if r.2.1 ≠ 0 then r
    else
      let u := r.1.spadRead a.1 a.2
      (u.1, u.2.1, r.2.2 ++ [u.2.2])) (t, 0, [])

/-! ### Census -/

/-- Rounding v to nearest even into census target `n` (R166): the magnitude exceeds the largest finite, is zero. -/
def targetTest (n : Nat) (scaled : Bool) (m : Nat) (e : Int) : Bool × Bool :=
  if n = 7 then
    let k := roundAt 0 .near false m (if scaled then e + 6 else e)
    (decide (127 < k), decide (k = 0))
  else
    let k := floatFormat (if n < 5 then n + 4 else n - 3)
    let b := k.magnitude .near false m e
    (decide (k.maxBits < b), decide (b = 0))

/-- The magnitude equals the largest finite one of the value's format (R165). -/
def isLargest (f b : Nat) : Bool :=
  if f = 9 then decide (127 ≤ (signed 8 b).natAbs) else decide (b % 2 ^ (fmtWidth f - 1) = (floatFormat f).maxBits)

/-- The 21 counts that one value of format `f` adds to, in the order of R166. `scale`: the exponent of its group's
scale, where the census is taken with scaling; `bad`: its group's scale is 0xFF. -/
def censusOf (f : Nat) (scale : Option Int) (bad : Bool) (b : Nat) : List Nat :=
  let v := FVal.ofBits f false b
  let rest (a : Nat × Nat × Nat × Nat) (tests : List (Bool × Bool)) : List Nat :=
    [1, a.1, a.2.1, a.2.2.1, a.2.2.2] ++ (tests.map (fun x => [ofBool x.1, ofBool x.2])).flatten
  let none8 := List.replicate 8 (false, false)
  match v with
  | .nan => rest (0, 1, 0, 0) none8
  | .inf _ => if bad then rest (0, 1, 0, 0) none8 else rest (0, 0, 1, 0) none8
  | .fin _ m e =>
    if bad then rest (0, 1, 0, 0) none8
    else if m = 0 then rest (1, 0, 0, 0) none8
    else rest (0, 0, 0, ofBool (isLargest f b))
      ((List.range 8).map (fun n => targetTest n scale.isSome m (e - scale.getD 0)))

/-- Counts added. -/
def addCounts (a b : List Nat) : List Nat := List.zipWith (· + ·) a b

/-- 21 counts of 0. -/
def noCounts : List Nat := List.replicate 21 0

/-- The counts of a 128-byte record. -/
def recordCounts (r : Nat) : List Nat := (List.range 21).map (fun i => bits r (48 * i) 48)

/-- A record with counts added (R167) or replaced: the record, and whether a count saturated. -/
def censusRecord (old : Nat) (add : Bool) (counts : List Nat) (fmt : Nat) (scaled : Bool) : Nat × Bool :=
  let sums := if add then addCounts (recordCounts old) counts else counts
  let clamp := sums.any (fun n => decide (2 ^ 48 ≤ n))
  let body := packElems 48 (sums.map (fun n => min n (2 ^ 48 - 1)))
  let fm := if add then bits old 1008 4 else fmt
  let sc := if add then bits old 1012 1 else ofBool scaled
  let cl := if clamp || (add && bit old 1013) then 1 else 0
  (body + fm * 2 ^ 1008 + sc * 2 ^ 1012 + cl * 2 ^ 1013, clamp)

/-- A record that holds the counts of no value is given SRC_FMT and SCALED: no census has been taken into it yet. -/
def freshRecord (old fmt : Nat) (scaled : Bool) : Nat :=
  if bits old 0 48 = 0 then putBits (putBits old 1008 4 fmt) 1012 1 (ofBool scaled) else old

/-- A census record read, updated and written back (R183). The census of a scale pass (`pass`) writes SRC_FMT and SCALED (R184)
into a record that holds no count, and keeps those of any other (R167; DESIGN CHOICE, log 101). -/
def State.putCensus (s : State) (t off : Nat) (add pass : Bool) (counts : List Nat) (fmt : Nat) (scaled : Bool) :
    State × BitVec 16 :=
  let r := (s.tile t).spadRead off 128
  if r.2.1 ≠ 0 then (s.setTile t r.1, r.2.1)
  else
    let old := ofBytes r.2.2
    let c := censusRecord (if pass then freshRecord old fmt scaled else old) add counts fmt scaled
    let u := r.1.spadWrite off (bytesOf c.1 128)
    (s.setTile t (if c.2 && decide (u.2 = 0) then u.1.setFld TILE.VEC_CLAMP 1 else u.1), u.2)

/-- VCENS (R183). An offset that is no multiple of 128 or leaves the scratchpad is a value the entry forbids. -/
def State.vecCensus (s : State) (t : Nat) (q : QInsn) : State × BitVec 16 :=
  let x := s.tile t
  let f := fFMT q.w
  let wd := fmtWidth f
  let off := q.b.toNat
  if off % 128 ≠ 0 ∨ !inSpad (off, 128) then (s, Status.INSN_FIELD)
  else
    let p := x.qpred q
    let v := x.getV (fRA q.w)
    let counts := (List.range (viewCount wd)).foldl (fun c k =>
      if p.getLsbD (laneOf wd k) then addCounts c (censusOf f none false (elemOf wd v k)) else c) noCounts
    s.putCensus t off (!bit (fSUB q.w) 0) false counts f false

/-! ### The scale pass -/

/-- M_f as m × 2^e and emax_f (R146). -/
def scaleConst (tf : Nat) : Nat × Int × Int :=
  match tf with
  | 4 => (7, 6, 8)
  | 5 => (7, 13, 15)
  | 6 => (7, 2, 4)
  | 7 => (15, -1, 2)
  | 8 => (3, 1, 2)
  | _ => (127, -6, 0)

/-- The scale of a group (R146, R147): its byte, and the exponent s. 0xFF for a group with a non-finite value. -/
def groupScale (tf : Nat) (floorRule : Bool) (vs : List FVal) : Nat × Int :=
  let bad := vs.any (fun v => match v with | .fin _ _ _ => false | _ => true)
  let amax := vs.foldl (fun (a : FVal) (v : FVal) => if a.lt v.abs then v.abs else a) (.fin false 0 0)
  match amax with
  | .fin _ m e =>
    if bad then (0xFF, 0)
    else if m = 0 then (0x7F, 0)
    else
      let c := scaleConst tf
      let top : Int := m.log2 + e
      let s0 : Int := top - (c.1.log2 + c.2.1)
      let s := if floorRule then top - c.2.2
        else if scaled false m e (min e (c.2.1 + s0)) ≤ scaled false c.1 (c.2.1 + s0) (min e (c.2.1 + s0)) then s0
        else s0 + 1
      let s := max (-127) (min 127 s)
      ((s + 127).toNat, s)
  | _ => (0xFF, 0)

/-- The value divided by 2^s. -/
def FVal.shift (v : FVal) (s : Int) : FVal :=
  match v with
  | .fin n m e => .fin n m (e - s)
  | v => v

/-- The settings of one VSCALE. -/
structure ScaleJob where
  desc : Nat
  f : Nat
  rows : Nat
  cols : Nat
  esz : Nat
  tf : Nat
  refl : Bool
  cens : Bool
  noscale : Bool

/-- The descriptor's fields (R184). -/
def scaleJob (d f : Nat) : ScaleJob :=
  { desc := d, f := f, rows := bits d 40 13, cols := bits d 53 13, esz := fmtWidth f / 8, tf := bits d 66 4
    refl := bit d 70, cens := bit d 71, noscale := bit d 72 }

/-- ⌈a / b⌉. -/
def ceilDiv (a b : Nat) : Nat := (a + b - 1) / b

/-- Bytes of a square of FMT `f` (R110). -/
def squareBytes (f : Nat) : Nat := 2304 * fmtWidth f / 8

/-- BASE, PSTR and SCALE of a copy (0 direct, 1 reflected). -/
def ScaleJob.place (j : ScaleJob) (c : Nat) : Nat × Nat × Nat :=
  (bits j.desc (128 + 64 * c) 20, bits j.desc (148 + 64 * c) 20, bits j.desc (168 + 64 * c) 20)

/-- Depth and width of a copy: R and C, or C and R. -/
def ScaleJob.shape (j : ScaleJob) (c : Nat) : Nat × Nat := if c = 0 then (j.rows, j.cols) else (j.cols, j.rows)

/-- The ranges that a copy writes: one for each panel's squares, one for its scales (R185). -/
def ScaleJob.ranges (j : ScaleJob) (c : Nat) : List (Nat × Nat) :=
  let p := j.place c
  let sh := j.shape c
  let panels := ceilDiv sh.2 48
  (List.range panels).map (fun i => (p.1 + i * p.2.1, ceilDiv sh.1 48 * squareBytes j.tf))
    ++ (if j.noscale then [] else [(p.2.2, panels * 48 * ceilDiv sh.1 32)])

/-- The source rows. -/
def ScaleJob.source (j : ScaleJob) : List (Nat × Nat) :=
  (List.range j.rows).map (fun r => (bits j.desc 0 20 + r * bits j.desc 20 20, j.cols * j.esz))

def ScaleJob.copies (j : ScaleJob) : List Nat := if j.refl then [0, 1] else [0]

/-- The census record's range. -/
def ScaleJob.record (j : ScaleJob) : List (Nat × Nat) := if j.cens then [(bits j.desc 256 20, 128)] else []

/-- A copy's place keeps its limits. -/
def ScaleJob.placeOk (j : ScaleJob) (c : Nat) : Bool :=
  let p := j.place c
  decide (p.1 % 64 = 0) && decide (p.2.1 % 64 = 0) && decide (ceilDiv (j.shape c).1 48 * squareBytes j.tf ≤ p.2.1)

/-- R186: the descriptor is taken. -/
def ScaleJob.ok (j : ScaleJob) : Bool :=
  let d := j.desc
  let dim (n : Nat) := decide (16 ≤ n) && decide (n ≤ 4096) && decide (n % 16 = 0)
  let outs := (j.copies.map j.ranges)
  let others := j.source ++ j.record
  decide (bits d 73 55 = 0) && decide (bits d 188 4 = 0) && decide (bits d 252 4 = 0) && decide (bits d 276 236 = 0)
    && decide (bits d 0 20 % 64 = 0) && decide (bits d 20 20 % 64 = 0) && decide (j.cols * j.esz ≤ bits d 20 20)
    && dim j.rows && dim j.cols && decide (4 ≤ j.tf) && decide (j.tf ≤ 9)
    && j.copies.all j.placeOk && (!j.cens || decide (bits d 256 20 % 128 = 0))
    && (outs.flatten ++ others).all inSpad
    && outs.flatten.all (fun r => !others.any (overlaps r))
    && !(j.record.any (fun r => j.source.any (overlaps r)))
    && (match outs with
        | [a, b] => a.all (fun r => !b.any (overlaps r))
        | _ => true)

/-- Source element (r, c) from the rows read, as bits. -/
def ScaleJob.elem (j : ScaleJob) (rows : List Nat) (r c : Nat) : Nat := bits (rows.getD r 0) (c * (8 * j.esz)) (8 * j.esz)

/-- Element (i, k) of a copy before the scale pass: the source, or its transpose; none beyond R or C. -/
def ScaleJob.at (j : ScaleJob) (rows : List Nat) (c i k : Nat) : Option (Nat × Nat × FVal) :=
  let rc := if c = 0 then (i, k) else (k, i)
  if rc.1 < j.rows ∧ rc.2 < j.cols then some (rc.1, rc.2, FVal.ofBits j.f false (j.elem rows rc.1 rc.2)) else none

/-- The scale of group `g` of index `k` of a copy. -/
def ScaleJob.scaleOf (j : ScaleJob) (rows : List Nat) (floorRule : Bool) (c g k : Nat) : Nat × Int :=
  groupScale j.tf floorRule ((List.range 32).filterMap (fun i => (j.at rows c (32 * g + i) k).map (·.2.2)))

/-- One stored element of a copy. -/
def ScaleJob.stored (j : ScaleJob) (t : Tile) (rows : List Nat) (code : Nat) (c i k : Nat) (sc : Nat × Int) : Nat :=
  match j.at rows c i k with
  | none => 0
  | some (r, cl, v) =>
    let rnd := t.rounding code r cl
    if j.noscale then v.toBits j.tf rnd t.satNarrow
    else if sc.1 = 0xFF then 0
    else (v.shift (if j.tf = 9 then sc.2 - 6 else sc.2)).toBits j.tf rnd t.satNarrow

/-- The bytes of a copy, as writes (R185). -/
def ScaleJob.writes (j : ScaleJob) (t : Tile) (rows : List Nat) (code c : Nat) : List (Nat × List Byte) :=
  let p := j.place c
  let sh := j.shape c
  let panels := ceilDiv sh.2 48
  let groups := ceilDiv sh.1 32
  let squares := ceilDiv sh.1 48
  let fl := decide (t.fld TILE.SCALE_RULE = 1)
  let w := fmtWidth j.tf
  let panel (i : Nat) : List (Nat × List Byte) :=
    let scales := (List.range groups).map (fun g => (List.range 48).map (fun k => j.scaleOf rows fl c g (48 * i + k)))
    let elems := (List.range squares).map (fun sq =>
      packElems w ((List.range 2304).map (fun e =>
        let d := 48 * sq + e / 48
        j.stored t rows code c d (48 * i + e % 48) ((scales.getD (d / 32) []).getD (e % 48) (0x7F, 0)))))
    (p.1 + i * p.2.1, (elems.map (fun n => bytesOf n (squareBytes j.tf))).flatten) ::
      (if j.noscale then [] else
        [(p.2.2 + i * 48 * groups, scales.flatten.map (fun x => BitVec.ofNat 8 x.1))])
  ((List.range panels).map panel).flatten

/-- The census of the source, grouped along the stored rows as the direct copy is (R184). -/
def ScaleJob.census (j : ScaleJob) (rows : List Nat) (floorRule : Bool) : List Nat :=
  (List.range j.cols).foldl (fun acc k =>
    let scales := (List.range (ceilDiv j.rows 32)).map (fun g => j.scaleOf rows floorRule 0 g k)
    (List.range j.rows).foldl (fun acc r =>
      let sc := scales.getD (r / 32) (0x7F, 0)
      addCounts acc (censusOf j.f (if j.noscale then none else some sc.2) (!j.noscale && decide (sc.1 = 0xFF))
        (j.elem rows r k))) acc) noCounts

/-- VSCALE (R184 to R186). A descriptor offset that is no multiple of 64 is a value the entry forbids. -/
def State.vecScale (s : State) (t : Nat) (q : QInsn) : State × BitVec 16 :=
  let off := q.a.toNat
  if off % 64 ≠ 0 then (s, Status.INSN_FIELD)
  else if !inSpad (off, 64) then (s, Status.VEC_DESC)
  else
    let d := (s.tile t).spadRead off 64
    if d.2.1 ≠ 0 then (s.setTile t d.1, d.2.1)
    else
      let j := scaleJob (ofBytes d.2.2) (fFMT q.w)
      if !j.ok then (s.setTile t d.1, Status.VEC_DESC)
      else
        let r := d.1.readAll j.source
        let s := s.setTile t r.1
        if r.2.1 ≠ 0 then (s.scramble t (j.copies.map j.ranges).flatten, r.2.1)
        else
          let rows := r.2.2.map ofBytes
          let code := r.1.rndCode (fRND q.w)
          let u := s.writeAll t ((j.copies.map (j.writes r.1 rows code)).flatten)
          if u.2 ≠ 0 ∨ !j.cens then u
          else u.1.putCensus t (bits j.desc 256 20) true true (j.census rows (decide (r.1.fld TILE.SCALE_RULE = 1))) j.f
            (!j.noscale)

/-- The cycles that the pass takes (R186). -/
def ScaleJob.cycles (j : ScaleJob) : Nat :=
  24 + j.rows * ceilDiv (j.cols * j.esz) 128
    + (j.copies.map (fun c =>
        let sh := j.shape c
        ceilDiv (ceilDiv sh.2 48 * ceilDiv sh.1 48 * squareBytes j.tf) 128
          + (if j.noscale then 0 else ceilDiv (ceilDiv sh.2 48 * 48 * ceilDiv sh.1 32) 128))).foldl (· + ·) 0
    + (if j.cens then 2 else 0)

/-! ### Long-format values (R151, R153, R157) -/

/-- A long element: an exact N, or the fallen-back form with its FP32 bits. -/
inductive LongVal where
  | exact (n : Int)
  | fallen (b : Nat)
  deriving DecidableEq, Repr

def LongVal.ofBits (w : Nat) : LongVal :=
  if w / 2 ^ 32 = 0x8000_0000_0000_0000 then .fallen (w % 2 ^ 32) else .exact (signed 96 w)

def LongVal.toBits : LongVal → Nat
  | .exact n => (n % (2 ^ 96 : Int)).toNat
  | .fallen b => 0x8000_0000_0000_0000 * 2 ^ 32 + b

/-- Its value under anchor `a`. -/
def LongVal.value (a : Int) : LongVal → FVal
  | .exact n => .ofInt n a
  | .fallen b => .ofBits 1 false b

/-- The sum of two long values under the smaller of their anchors (R157). -/
def LongVal.add (aa ab : Int) (x y : LongVal) : LongVal :=
  let d := min aa ab
  let fall := LongVal.fallen (((x.value aa).add false (y.value ab)).toBits 1 .near true)
  match x, y with
  | .exact m, .exact n =>
    let k := m * 2 ^ (aa - d).toNat + n * 2 ^ (ab - d).toNat
    if k.natAbs < 2 ^ 95 - 2 ^ 64 then .exact k else fall
  | _, _ => fall

def LongVal.isFallen : LongVal → Bool
  | .fallen _ => true
  | _ => false

/-- A long value as FP32, rounded once. -/
def LongVal.toFp32 (a : Int) (v : LongVal) : Nat := (v.value a).toBits 1 .near true

/-- The `n` long elements at `bs`. -/
def longElems (n : Nat) (bs : List Byte) : List LongVal :=
  let w := ofBytes bs
  (List.range n).map (fun i => LongVal.ofBits (bits w (96 * i) 96))

/-- VLADD (R187). A descriptor offset that is no multiple of 32 is a value the entry forbids, as for VSCALE. -/
def State.vecLongAdd (s : State) (t : Nat) (q : QInsn) : State × BitVec 16 :=
  let off := q.a.toNat
  if off % 32 ≠ 0 then (s, Status.INSN_FIELD)
  else if !inSpad (off, 32) then (s, Status.VEC_DESC)
  else
    let dr := (s.tile t).spadRead off 32
    if dr.2.1 ≠ 0 then (s.setTile t dr.1, dr.2.1)
    else
      let s := s.setTile t dr.1
      let d := ofBytes dr.2.2
      let n := bits d 96 16
      let out32 := bit d 94
      let a := (bits d 0 20, 12 * n)
      let b := (bits d 32 20, 12 * n)
      let o := (bits d 64 20, (if out32 then 4 else 12) * n)
      let bad := decide (bits d 30 2 ≠ 0) || decide (bits d 62 2 ≠ 0) || bit d 95 || decide (bits d 112 144 ≠ 0)
        || decide (n = 0) || decide (32768 < n)
        || !([a, b, o].all inSpad) || overlaps a b
        || (overlaps o a && decide (o.1 ≠ a.1)) || (overlaps o b && decide (o.1 ≠ b.1))
      if bad then (s, Status.VEC_DESC)
      else
        let r := (s.tile t).readAll [a, b]
        let s := s.setTile t r.1
        if r.2.1 ≠ 0 then (s.scramble t [o], r.2.1)
        else
          let aa := signed 10 (bits d 20 10)
          let ab := signed 10 (bits d 52 10)
          let xs := longElems n (r.2.2.getD 0 [])
          let ys := longElems n (r.2.2.getD 1 [])
          let zs := List.zipWith (LongVal.add aa ab) xs ys
          let an := min aa ab
          let bs := if out32 then bytesOf (packElems 32 (zs.map (LongVal.toFp32 an))) o.2
            else bytesOf (packElems 96 (zs.map LongVal.toBits)) o.2
          let u := s.writeAll t [(o.1, bs)]
          if u.2 ≠ 0 then u
          else
            let s := if zs.any LongVal.isFallen then u.1.onTile t (fun x => x.setFld TILE.VEC_LFALLBACK 1) else u.1
            s.writeAll t [(off, bytesOf (putBits d 84 10 (an % 1024).toNat) 32)]

/-- The cycles of a VLADD of `n` elements. -/
def longAddCycles (n : Nat) (out32 : Bool) : Nat := 16 + ceilDiv (24 * n) 128 + ceilDiv ((if out32 then 4 else 12) * n) 128

end Sys2Proof.Machine
end

