-- ==== Sys2Proof/Machine/StepOps.lean ====
section
/-! DEFINITION. The training step: slots and pins (R294 to R302), the step parameter block (R313), the vote word (R319 to
R328), the candidates and the flip (R305 to R309, R329 to R336). -/
namespace Sys2Proof.Machine

/-! ### Slots and pins -/

/-- The version regions of the layout in force: those of a pending re-shard are not among them (R388). -/
def State.layout (s : State) : List Nat :=
  match s.lh.reshard with
  | some r => s.vregs.filter (fun n => !r.regions.contains n)
  | none => s.vregs

/-- The slot that holds the lit generation. -/
def State.litSlot (s : State) (n : Nat) : Option Nat := s.slotHolding n (s.fld HBM.LIT)

/-- The lowest free slot. -/
def State.freeSlot (s : State) (n : Nat) : Option Nat := (List.range (s.fld (HBM.SLOTS n))).find? (fun k => s.slotFree n k)

def State.setPin (s : State) (n k v : Nat) : State := s.setFld (HBM.PIN n k) v
def State.freeIt (s : State) (n k : Nat) : State := s.setFld (HBM.FREE n) (s.fld (HBM.FREE n) ||| 2 ^ k)

/-- Slots older than the lit generation that hold no pin become free (R302). -/
def State.retireSlots (s : State) : State :=
  s.vregs.foldl (fun s n => (List.range (s.fld (HBM.SLOTS n))).foldl (fun s k =>
    if !s.slotFree n k && olderGen (s.fld HBM.LIT) (s.fld (HBM.GEN n k)) && decide (s.fld (HBM.PIN n k) = 0) then s.freeIt n k
    else s) s) s

/-- One pin of each listed slot released, and the slots that this retires. -/
def State.unpin (s : State) (pins : List (Nat × Nat)) : State :=
  (pins.foldl (fun s p => s.setPin p.1 p.2 (s.fld (HBM.PIN p.1 p.2) - 1)) s).retireSlots

/-- Every block of every free slot is marked BARE (R296). -/
def State.sweepHalos (s : State) : State :=
  let inFree (b : Nat) : Bool := s.vregs.any (fun n =>
    let len := s.fld (HBM.LEN_BLK n)
    (List.range (s.fld (HBM.SLOTS n))).any (fun k =>
      let lo := s.fld (HBM.BASE_BLK n) + k * len
      s.slotFree n k && decide (lo ≤ b) && decide (b < lo + len)))
  { s with
    halo := s.halo.filterMap (fun e =>
      if inFree e.1 then (let h := haloPut e.2 97 1 1; if h = bareHalo then none else some (e.1, h)) else some e)
    lh := { s.lh with sweepDue := false } }

/-- Every region has a free slot, and no pin of the open passes R301, for a step with `trails` trailing readers. -/
def State.canOpen (s : State) (shadow : Bool) (trails : Nat) : Bool :=
  s.vregs.all (fun n =>
    (!shadow || (s.freeSlot n).isSome)
      && (match s.litSlot n with | some k => decide (s.fld (HBM.PIN n k) + 1 + trails ≤ 65535) | none => true))

/-- Steps 1 and 2 of R296. -/
def State.openShadow (s : State) : State :=
  let sh := (s.fld HBM.LIT + 1) % 2 ^ 24
  let s := ((s.setFld HBM.SHADOW sh).setFld HBM.ATTEMPT ((s.fld HBM.ATTEMPT + 1) % 2 ^ 8)).setFld HBM.OPEN 1
  let s := s.vregs.foldl (fun s n => match s.freeSlot n with
    | some k => ((s.setFld (HBM.GEN n k) sh).setFld (HBM.FREE n) (s.fld (HBM.FREE n) - 2 ^ k)).setFld (HBM.WRITTEN n) 0
    | none => s) s
  { s with lh := { s.lh with openings := s.lh.openings + 1 } }

/-- A step pin and the lease pins on the slot that holds the lit generation of every region: the state, the pinned slots. -/
def State.placePins (s : State) (trails : Nat) : State × List (Nat × Nat) :=
  s.vregs.foldl (fun (r : State × List (Nat × Nat)) n => match r.1.litSlot n with
    | some k => (r.1.setPin n k (r.1.fld (HBM.PIN n k) + 1 + trails), r.2 ++ [(n, k)])
    | none => r) (s, [])

/-- An open shadow is thrown away: OPEN ← 0, its slots FREE, the step pins released (R302). -/
def State.dropShadow (s : State) (pins : List (Nat × Nat)) : State :=
  let s := if s.fld HBM.OPEN = 1 then
      (s.vregs.foldl (fun s n => match s.slotHolding n (s.fld HBM.SHADOW) with
        | some k => s.freeIt n k
        | none => s) s).setFld HBM.OPEN 0
    else s
  s.unpin pins

/-! ### FP64 (R313, R326, R328) -/

def f64 (b : Nat) : FVal := FVal.ofBits 0 false b
def f32 (b : Nat) : FVal := FVal.ofBits 1 false b
def add64 (a b : FVal) : FVal := (a.add false b).round 0
def sub64 (a b : FVal) : FVal := (a.add false b.neg).round 0
def mul64 (a b : FVal) : FVal := (a.mul b).round 0
def div64 (a b : FVal) : FVal := (a.div b).round 0
def sqrt64 (a : FVal) : FVal := a.sqrt.round 0
def one64 : FVal := .fin false 1 0
def FVal.to64 (v : FVal) : BitVec 64 := BitVec.ofNat 64 (v.toBits 0 .near false)
def FVal.to32 (v : FVal) : Nat := v.toBits 1 .near false

/-- lr at a step (R432): the schedule's entries on either side, held beyond the first and the last. -/
def Job.rate (j : Job) (step : Nat) : FVal :=
  let es := (List.range (campFld j.camp 704 32)).map (fun i =>
    (campNum j.camp (campFld j.camp 672 32 + 16 * i) 8, campNum j.camp (campFld j.camp 672 32 + 16 * i + 8) 8))
  match (es.filter (fun e => decide (e.1 ≤ step))).getLast?, es.find? (fun e => decide (step < e.1)) with
  | some a, some b =>
    if a.1 = step then f64 a.2
    else f64 (Config.interpolate64 (BitVec.ofNat 64 a.2) (BitVec.ofNat 64 b.2) (step - a.1) (b.1 - a.1)).toNat
  | some a, none => f64 a.2
  | none, some b => f64 b.2
  | none, none => .fin false 0 0

/-- The step parameter block (R313). -/
def Job.block (j : Job) (x : StepState) (lit shadow attempt : Nat) : Nat :=
  let b1 := f64 (campFld j.camp 768 64)
  let b2 := f64 (campFld j.camp 832 64)
  let n := x.step.toNat
  let lr := j.rate n
  let pow (b : FVal) : FVal := f64 (Config.power64 b.to64 (BitVec.ofNat 64 (n + 1))).toNat
  let lrt := div64 (mul64 lr (sqrt64 (sub64 one64 (pow b2)))) (sub64 one64 (pow b1))
  let ls := f32 x.ls.toNat
  [(n, 0, 64), (lit, 64, 24), (shadow, 88, 24), (x.lepoch.toNat, 112, 8), (attempt, 120, 8), (x.ls.toNat, 128, 32),
   ((div64 one64 ls).to32, 160, 32), ((sub64 one64 b1).to32, 192, 32), ((sub64 one64 b2).to32, 224, 32),
   ((f64 (campFld j.camp 896 64)).to32, 256, 32), (lrt.neg.to32, 288, 32),
   ((sub64 one64 (mul64 lr (f64 (campFld j.camp 960 64)))).to32, 320, 32), (lr.to32, 352, 32),
   (x.cursor.toNat, 384, 64)].foldl (fun w f => putBits w f.2.1 f.2.2 f.1) 0

/-! ### Watches (R323 to R328) -/

def wTile (w : Nat) : Nat := bits w 0 12
def wOff (w : Nat) : Nat := bits w 12 20
def wKind (w : Nat) : Nat := bits w 32 2
def wTarget (w : Nat) : Nat := bits w 34 3
def wThresh (w : Nat) : FVal := f32 (bits w 64 32)
def wWarmup (w : Nat) : Nat := bits w 96 16
def wAlpha (w : Nat) : FVal := .fin false 1 (-(bits w 112 5 : Int))

/-- The watch entries by number. -/
def State.watchList (s : State) (j : Job) : List (Nat × Nat) := (List.range j.nwatch).map (fun i => (i, s.watch j i))

/-- A watched census record as it lies. -/
def State.censusAt (s : State) (w : Nat) : Nat := ofBytes (readRun 0 (s.tile (wTile w)).spad (wOff w) 128)

/-- What a watch finds at V: the bits of the vote it clears with their status, WATCH_CLAMPED, the value taken. -/
structure Found where
  causes : List Cause := []
  clamped : Bool := false
  taken : Option (BitVec 32) := none

/-- A ratio above a threshold, in FP64. -/
def ratioOver (d total : Nat) (z : FVal) : Bool :=
  decide (0 < total) && z.lt (div64 (FVal.ofInt d 0) (FVal.ofInt total 0))

/-- A watch of KIND 0 to 2, from its snapshot, and a scalar watch from its slot and its statistics (R324 to R326). -/
def State.judge (s : State) (w : Nat) (snap : List Nat) (st : WatchStat) (commits : Nat) : Found :=
  let k := wKind w
  let nonfin (b : Bool) : List Cause := if b then [{ bit := 1, status := Status.STEP_NONFINITE, tile := wTile w }] else []
  let spiked (b : Bool) : List Cause := if b then [{ bit := 2, status := Status.STEP_SPIKE, tile := wTile w }] else []
  if k = 3 then
    if (s.tile (wTile w)).full (wOff w / 256) then
      let v := ofBytes (readRun 0 (s.tile (wTile w)).spad (wOff w) 4)
      let x := f32 v
      let bad := match x with | .fin _ _ _ => false | _ => true
      let spike := !bad && decide (wWarmup w ≤ commits)
        && (mul64 (wThresh w) (sqrt64 (f64 st.s2.toNat))).lt (sub64 x (f64 st.mu.toNat))
      ⟨nonfin bad ++ spiked spike, false, some (BitVec.ofNat 32 v)⟩
    else ⟨[{ bit := 3, status := Status.STEP_INCOMPLETE, tile := wTile w }], false, none⟩
  else
    let r := s.censusAt w
    if bit r 1013 then ⟨[], true, none⟩
    else
      let now := recordCounts r
      let d (i : Nat) : Nat := (now.getD i 0 + 2 ^ 48 - snap.getD i 0) % 2 ^ 48
      let fires := if k = 0 then decide (0 < d 2 + d 3)
        else if k = 1 then ratioOver (d 4) (d 0) (wThresh w)
        else ratioOver (d (5 + 2 * wTarget w)) (d 0) (wThresh w)
      ⟨if k = 0 then nonfin fires else spiked fires, false, none⟩

/-- The statistics that a commit leaves of a scalar watch (R328). -/
def WatchStat.next (st : WatchStat) (w : Nat) (commits : Nat) (v : BitVec 32) : WatchStat :=
  let x := f32 v.toNat
  if commits = 0 ∨ !st.used then ⟨true, x.to64, 0⟩
  else
    let a := wAlpha w
    let mu := f64 st.mu.toNat
    let d := sub64 x mu
    ⟨true, (add64 mu (mul64 a d)).to64, (mul64 (sub64 one64 a) (add64 (f64 st.s2.toNat) (mul64 (mul64 a d) d))).to64⟩

/-! ### The vote (R319 to R321, R463 to R465, R470) -/

/-- The step being attempted is a sentinel step (R463): by the K of the job's authority. -/
def State.sentinel (s : State) : Bool :=
  let k := match s.job with
    | some j => j.voteK
    | none => s.policy NVM.K
  decide (s.lh.lit.step.toNat % k = k - 1)

/-- Every reduction that the step declares has ended (R320); an entry of zeros declares none (R432). -/
def Job.reduced (j : Job) (st : OpenStep) : Bool :=
  st.readOnly || ((List.range j.colls.length).all (fun i =>
    let d := j.colls.getD i 0
    let op := bits d.toNat 0 4
    decide (d = 0) || (decide (op ≠ 0) && decide (op ≠ 2)) || st.reduced.contains i))

/-- The parts of COMPLETE that the tiles and the regions hold (R320). -/
def State.workDone (s : State) (j : Job) (st : OpenStep) : Bool :=
  s.tileList.all (fun t =>
    let x := s.tile t
    decide ((Map.get 0 st.base t).toNat + j.ssteps ≤ x.fld TILE.SSTEP)
      && (match x.phase with | some p => !p.started | none => true) && x.dma.isEmpty)
    && j.reduced st

/-- A region falls short of R298. -/
def State.shortRegion (s : State) (ns : List Nat) : Bool :=
  ns.any (fun n => decide (s.fld (HBM.WRITTEN n) < s.fld (HBM.LEN_BLK n)))

/-- A comparison of Mirror mode that is still open (R470). -/
def State.mirrorOpen (s : State) (j : Job) : Bool := j.mirror && (!s.rel.mirrorOwn.isEmpty || !s.rel.mirrorPeer.isEmpty)

/-- The causes found at +0 c of V; an input fault and a thermal stop that last clear POWER_OK (R515, R529). A region that falls
short clears COMPLETE and MEM_OK, both with GEN_INCOMPLETE; work left undone clears COMPLETE with STEP_INCOMPLETE (DEDUCED, log
113). -/
def State.voteCauses (s : State) (j : Job) (st : OpenStep) (found : List Found) : List Cause :=
  let c (b : Bool) (x : Cause) : List Cause := if b then [x] else []
  let shadow := !st.readOnly && !st.noSlot
  let short := shadow && s.shortRegion s.layout
  found.flatMap (·.causes)
    ++ c (!s.workDone j st) { bit := 3, status := Status.STEP_INCOMPLETE }
    ++ c short { bit := 3, status := Status.GEN_INCOMPLETE }
    ++ c (s.mirrorOpen j) { bit := 4, status := Status.MIRROR_MISMATCH }
    ++ c short { bit := 5, status := Status.GEN_INCOMPLETE }
    ++ c (s.sentinel && s.rel.verdict = none) { bit := 8, status := Status.REPLICA_MINORITY }
    ++ c s.pwr.range { bit := 9, status := Status.PWR_INPUT } ++ c s.pwr.stopped { bit := 9, status := Status.THERM_THROTTLE }

/-- An element fell back on this module (R163, R187, R375), read at level A. -/
def State.fellBack (s : State) (j : Job) : Bool :=
  decide (j.repro = 1) &&
    (s.tileList.any (fun t => decide ((s.tile t).fld TILE.EXACT_RANGE = 1) || decide ((s.tile t).fld TILE.VEC_LFALLBACK = 1))
      || [0, 1, 2, 3].any (fun a => decide (s.fld (CE.LFALLBACK a) = 1)))

/-- The sticky bits of R163, R187 and R375 cleared. -/
def State.clearFallback (s : State) : State :=
  let s := [0, 1, 2, 3].foldl (fun (s : State) a => s.setFld (CE.LFALLBACK a) 0) s
  s.tileList.foldl (fun (s : State) t => s.onTile t (fun x => (x.setFld TILE.EXACT_RANGE 0).setFld TILE.VEC_LFALLBACK 0)) s

/-- The vote word: bits of the causes cleared, COMMIT with any of bits 1 to 9, bits 10 and 11 as given. -/
def voteWord (cs : List Cause) (exact reshard : Bool) : BitVec 64 :=
  let cleared (b : Nat) : Bool := cs.any (fun x => decide (x.bit = b))
  let any := (List.range 10).any (fun b => decide (b ≠ 0) && cleared b)
  BitVec.ofNat 64 ((List.range 64).foldl (fun w b =>
    let off := if b = 0 then any else if b ≤ 9 then cleared b else if b = 10 then !exact else if b = 11 then !reshard else false
    if off then w else w + 2 ^ b) 0)

/-- A pending re-shard is ready on this module, or none is pending (R319, R388). -/
def State.reshardReady (s : State) (st : OpenStep) : Bool :=
  match s.lh.reshard with
  | none => true
  | some r => !st.readOnly && !st.noSlot && !s.shortRegion r.regions

/-- The module's vote at V: the step with what it found, the scalar watches taken, the causes used up. -/
def State.formVote (s : State) (j : Job) (st : OpenStep) : State :=
  let lit := s.lh.lit
  let found := (s.watchList j).map (fun w =>
    (w, s.judge w.2 (Map.get [] st.snaps w.1) (Map.get {} lit.watches w.1) lit.commits.toNat))
  let late := s.voteCauses j st (found.map (·.2))
  let cs := (late.foldl (fun (s : State) c => s.addCause c) s).causes
  let fell := s.fellBack j
  let st' : OpenStep := { st with
    voted := true
    word := voteWord cs (!fell) (s.reshardReady st)
    cause := match cs with | x :: _ => x.status | [] => 0
    veto := cs.find? (fun x => x.bit = 7)
    fellBack := fell
    clamped := found.any (fun f => f.2.clamped)
    taken := found.foldl (fun m f => Map.set none m f.1.1 f.2.taken) []
    reshard := s.lh.reshard }
  let s := if late.any (fun x => decide (x.bit = 8)) then
      { s.logGlow 8 Status.REPLICA_MINORITY moduleUnit 1 with rel := { s.rel with verdict := some 2 } } else s
  let s := found.foldl (fun (s : State) f =>
    if f.2.taken.isSome then s.onTile (wTile f.1.2) (fun x => x.setTags (wOff f.1.2 / 256) 1 false) else s) s
  let s := if j.repro = 1 then s.clearFallback else s
  { s with causes := [], lh := { s.lh with step := some st' } }

/-! ### The candidates (R305, R309, R328, R332) -/

/-- LS and LS_RUN after a commit. -/
def Job.scaleUp (j : Job) (x : StepState) : BitVec 32 × BitVec 16 :=
  if j.scb 240 1 = 0 then (x.ls, x.lsRun)
  else if j.scb 224 16 ≠ 0 ∧ x.lsRun.toNat + 1 = j.scb 224 16 then
    (BitVec.ofNat 32 (((((FVal.fin false 2 0).mul (f32 x.ls.toNat)).round 1).minimum (f32 (j.scb 192 32))).to32), 0)
  else (x.ls, x.lsRun + 1)

/-- LS and LS_RUN after a discard with result bit 1 clear or set. -/
def Job.scaleDown (j : Job) (x : StepState) (finite : Bool) : BitVec 32 × BitVec 16 :=
  if j.scb 240 1 = 0 ∨ finite then (x.ls, x.lsRun)
  else (BitVec.ofNat 32 ((((FVal.fin false 1 (-1)).mul (f32 x.ls.toNat)).round 1).maximum (f32 (j.scb 160 32))).to32, 0)

/-- DRAW after each slot's declared advance. -/
def Job.drawn (j : Job) (x : StepState) : List (BitVec 32) :=
  (List.range 8).map (fun i => x.draw.getD i 0 + BitVec.ofNat 32 (j.scb (384 + 32 * i) 32))

/-- The commit candidate, under the watches `ws`; `epoch` is the layout epoch of an accepted re-shard. -/
def Job.commit (j : Job) (ws : List (Nat × Nat)) (st : OpenStep) (x : StepState) (epoch : Option (BitVec 8)) : StepState :=
  let cursor := x.cursor + BitVec.ofNat 64 j.batches
  if st.readOnly then
    if j.kind = 0 then { x with cursor := cursor, skipRun := 0 }
    else { x with step := x.step + 1, commits := x.commits + 1, cursor := cursor, draw := j.drawn x, skipRun := 0 }
  else
    let l := j.scaleUp x
    { x with
      step := x.step + 1, cursor := cursor, draw := j.drawn x, lepoch := epoch.getD x.lepoch, commits := x.commits + 1
      ls := l.1, lsRun := l.2, skipRun := 0
      watches := ws.foldl (fun m e => match Map.get none st.taken e.1 with
        | some v => Map.set {} m e.1 ((Map.get {} m e.1).next e.2 x.commits.toNat v)
        | none => m) x.watches }

/-- The discard candidate. -/
def Job.discard (j : Job) (x : StepState) (finite : Bool) : StepState :=
  let l := j.scaleDown x finite
  { x with ls := l.1, lsRun := l.2, skipped := x.skipped + 1, skipRun := x.skipRun + 1 }

/-- The result commits the step (R322). -/
def VoteResult.commits (r : VoteResult) : Bool := r.word.getLsbD 0 && decide (r.missing = 0)

/-- The re-shard that the result makes take effect (R330, R388): the one that was pending at V. -/
def OpenStep.accepts (st : OpenStep) (r : VoteResult) : Option Reshard :=
  if r.commits && r.word.getLsbD 11 && !st.readOnly then st.reshard else none

/-- The result of the vote reaches Lighthouse, which completes both candidates (R307, R329): the commit candidate in the copy
after the lit one, the discard candidate in the third. -/
def State.takeVote (s : State) (j : Job) (st : OpenStep) (r : VoteResult) : State :=
  let x := s.lh.lit
  let i := s.lh.sel.toNat
  let yes := j.commit (s.watchList j) st x ((st.accepts r).map (·.epoch))
  { s with lh := { (s.lh.setCopy (i + 1) yes).setCopy (i + 2) (j.discard x (r.word.getLsbD 1)) with
      step := some { st with result := some r } } }

/-! ### The flip (R302, R330, R331) -/

/-- The step parameter block's tag on every tile. -/
def State.clearBlockTag (s : State) (j : Job) : State :=
  s.tileList.foldl (fun (s : State) t => s.onTile t (fun x => x.setTags (j.spbOff / 256) 1 false)) s

/-- DRAW_BASE on every tile (R197). -/
def State.writeDraws (s : State) (x : StepState) : State :=
  s.tileList.foldl (fun (s : State) t => s.onTile t (fun y =>
    (List.range 8).foldl (fun (y : Tile) m => y.setFld (TILE.glintBase m) (x.draw.getD m 0).toNat) y)) s

/-- An accepted re-shard takes effect (R388): the new regions carry the new epoch, those of the old layout end, the engines
take the new descriptors. -/
def State.switchLayout (s : State) (j : Job) (r : Reshard) : State :=
  let old := s.layout
  let s := r.regions.foldl (fun (s : State) n => s.setFld (HBM.LEPOCH n) r.epoch.toNat) s
  let s := old.foldl (fun (s : State) n => s.setFld (HBM.SLOTS n) 0) s
  let s := s.setJob { j with newColls := some r.colls }
  { s with lh := { s.lh with reshard := none } }

/-- The step record (R336). -/
def stepRecord (s : State) (st : OpenStep) (before after : StepState) (commit late : Bool) (attempt : Nat) : BitVec 512 :=
  let r := st.result.getD ⟨0, 0, 0⟩
  let v := st.veto.getD { bit := 0, status := 0 }
  BitVec.ofNat 512 <|
    [(before.step.toNat, 0, 64), (s.count.toNat, 64, 64), (s.fld HBM.LIT, 128, 24), (attempt, 152, 8), (ofBool commit, 160, 1),
     (ofBool late, 161, 1), (ofBool st.fellBack, 162, 1), (ofBool st.clamped, 163, 1), (st.cause.toNat, 176, 16),
     (v.reason.toNat, 192, 16), (v.tile, 208, 12), (r.word.toNat, 224, 64), (r.missing, 288, 14), (r.absent, 302, 14),
     (st.word.toNat, 320, 64), (after.ls.toNat, 384, 32), (after.skipRun.toNat, 416, 16), (after.skipped.toNat, 448, 64)].foldl
      (fun w f => putBits w f.2.1 f.2.2 f.1) 0

/-- The memory's part of a flip. -/
def State.flipMemory (s : State) (j : Job) (st : OpenStep) (commit : Bool) (reshard : Option Reshard) : State :=
  if st.readOnly then s.unpin st.pins
  else if commit then
    let s := (s.setFld HBM.LIT (s.fld HBM.SHADOW)).setFld HBM.OPEN 0
    let s := match reshard with
      | some r => s.switchLayout j r
      | none => s
    { s with lh := { s.lh with openings := 0 } }.unpin st.pins
  else
    let s := s.dropShadow st.pins
    if !st.noSlot && decide (0 < s.lh.openings) && decide (s.lh.openings % 256 = 0) then { s with lh := { s.lh with sweepDue := true } }
    else s

/-- Where a job stands in the host's eyes (R410): live operation states follow it. -/
def State.opState (s : State) (tag : BitVec 64) (v : Nat) : State :=
  { s with hif := { s.hif with ops := s.hif.ops.map (fun (o : Op) => if o.tag = tag then { o with state := v } else o) } }

/-- A job leaves the module: the module belongs to no job (R423). -/
def State.freeModule (s : State) : State :=
  let s := s.vregs.foldl (fun (s : State) n => s.wr (HBM.vreg n) 0) s
  { s with
    causes := [], jobFault := none, colls := [], collOut := [], collHeld := []
    rel := { s.rel with mirrorOwn := [], mirrorPeer := [], mirrorDone := [], mirrorCrc := [], digests := [], verdict := none, noMajority := none }
    lh := { s.lh with
      cur := none, step := none, nextOpen := none, leases := [], startAtHalt := [], reload := [], uses := []
      suspension := none, ckpt := none, ckptWait := none, ckptAsked := [], ckptDue := false, ckptDone := none, batches := [], staged := []
      evalDue := false, reshard := none, sweepDue := false, openings := 0
      contexts := match s.lh.cur with
        | some k => s.lh.contexts.filter (fun c => decide (c.job ≠ k))
        | none => s.lh.contexts } }

/-- The commands that wait for a job's checkpoint, stop, staging or resumption, with the status each gets when the job ends
first: the final entry of a target comes before a command that names it is applied (R421). -/
def State.endWaiters (s : State) (j : Job) : State :=
  let s := s.lh.ckptAsked.foldl (fun (s : State) a => s.finish a.1 a.2 Status.OP_CANCELLED none) s
  let s := (s.lh.ckpt.toList ++ s.lh.ckptWait.toList).foldl (fun (s : State) c =>
    c.asked.foldl (fun (s : State) a => s.finish a.1 a.2 Status.OP_CANCELLED none) s) s
  let s := (s.lh.batches.filter (fun b => decide (b.job = j.id))).foldl (fun (s : State) b =>
    s.finish b.ring b.desc Status.OP_TAG_UNKNOWN none) s
  match s.lh.suspension with
  | some u =>
    let s := if u.job = j.id then
        u.cancels.foldl (fun (s : State) c => s.finish c.1 c.2 Status.OP_TAG_UNKNOWN none) s else s
    if u.job = j.id ∧ (u.why = 0 ∨ u.why = 4) then s.finish u.ring u.desc Status.OP_TAG_UNKNOWN none
    else if u.job = j.id ∧ u.why = 2 then s.finish u.ring u.desc Status.OP_CANCELLED none
    else s
  | none => s

/-- A job ends with its final entry (R438, R444, R446): its modules are free, its saved contexts are released. -/
def State.closeJob (s : State) (j : Job) (c : BitVec 16) (result : Option (BitVec 64)) : State :=
  let s := match s.hif.ops.find? (fun o => o.tag = j.tag) with
    | some o => s.finish o.ring o.desc c result
    | none => s
  let s := if s.lh.cur = some j.id then (s.endWaiters j).freeModule else s
  { s with lh := { s.lh with
      jobs := s.lh.jobs.filter (fun x => decide (x.id ≠ j.id))
      contexts := s.lh.contexts.filter (fun x => decide (x.job ≠ j.id)) } }

/-- What follows a flip in the campaign's loop (R310, R333, R442 to R446, R466). -/
def State.afterFlip (s : State) (j : Job) (st : OpenStep) (x : StepState) (commit : Bool) : State :=
  let counted := commit && !(st.readOnly && decide (j.kind = 0))
  let split := s.rel.verdict = some 3
  let s := if split ∧ !commit ∧ s.rel.noMajority = some x.step then s.endJob Status.REPLICA_MINORITY else s
  let s := { s with rel := { s.rel with noMajority := if split ∧ !commit then some x.step else none } }
  let s := if s.rel.verdict = some 1 then s.loseMember s.self.toNat else s
  match s.jobFault with
  | some c => s.closeJob j c none
  | none =>
    let lost := decide ((s.job.map (·.state)) = some JobState.recovering)
    let ended := counted && decide (campFld j.camp 256 64 ≠ 0) && decide (campFld j.camp 256 64 ≤ x.commits.toNat)
    let limit := !commit && decide (x.skipRun.toNat = j.scb 80 16)
    let every := campFld j.camp 320 32
    let due := counted && (ended || !s.lh.ckptAsked.isEmpty || (decide (every ≠ 0) && decide (x.commits.toNat % every = 0)))
    let ev := campFld j.camp 352 32
    let hold := lost || ended || limit || j.host || j.priority.isSome || s.lh.suspension.isSome
    let s := { s with lh := { s.lh with
      ckptDue := due && s.lh.ckpt.isNone
      evalDue := if counted then decide (j.kind = 0) && decide (ev ≠ 0) && decide (x.commits.toNat % ev = 0)
        else s.lh.evalDue && !(commit && st.readOnly)
      nextOpen := if hold then none else some (st.flip + BitVec.ofNat 64 j.gap) } }
    if limit then
      let s := (s.setJob { j with host := true }).opState j.tag 2
      s.report Status.STEP_ABORT_LIMIT 0
    else s

/-- Results of a served batch (R443). -/
def State.servedResults (s : State) (j : Job) (cursor : BitVec 64) : State :=
  match Map.get none s.lh.staged (cursor.toNat % j.stageN) with
  | some b =>
    let recs := s.tileList.flatMap (fun t => (s.tile t).picks.flatMap (fun o => readRun 0 (s.tile t).spad o 32))
    (s.hostWrite b.out.toNat recs).interim j.tag 0 b.index
  | none => s

/-- A committed evaluation pass appends its output to the ring at EVAL_HADDR (R443); nothing states how much it is nor what
it holds (free values, log 58). -/
def State.evalOutput (s : State) (j : Job) : State :=
  let base := campFld j.camp 2240 64
  let len := campFld j.camp 2304 64
  let n := s.draw 64
  let k := n.1.toNat % (len + 1)
  let b := n.2.drawBytes k
  let room := min k (len - s.lh.evalAt)
  let s := (b.2.hostWrite (base + s.lh.evalAt) (b.1.take room)).hostWrite base (b.1.drop room)
  { s with lh := { s.lh with evalAt := (s.lh.evalAt + k) % len } }

/-- The flip (R331), made at F or, late, on arrival (R334): the selector names one of the two candidates. -/
def State.applyFlip (s : State) (j : Job) (st : OpenStep) (late : Bool) : State :=
  let r := st.result.getD ⟨0, 0, 0⟩
  let commit := r.commits
  let lit := s.lh.lit
  let attempt := s.fld HBM.ATTEMPT
  let sel := (s.lh.sel.toNat + if commit then 1 else 2) % 3
  let next := s.lh.copy sel
  let s := s.flipMemory j st commit (st.accepts r)
  let s := { s with lh := { s.lh with sel := BitVec.ofNat 2 sel, step := none } }
  let s := if commit then s.bumpFld (NVM.LIFE 3) else s
  let s := (s.clearBlockTag j).writeDraws next
  let s := if commit && decide (j.kind = 2) then s.servedResults j lit.cursor else s
  let s := if commit && st.eval then s.evalOutput j else s
  let s := if commit then { s with lh := { s.lh with startAtHalt := [] } }
    else
      let stuck := s.tileList.filter (fun t => !((s.tile t).halted && (s.tile t).ended))
      let s := stuck.foldl (fun (s : State) t => s.resetCore t) s
      let s := [0, 1, 2, 3].foldl (fun (s : State) a => (List.range 64).foldl (fun (s : State) k => s.setFld (CE.COUNT a k) 0) s) s
      { s with lh := { s.lh with reload := stuck, startAtHalt := [] } }
  let s := { s with lh := { s.lh with
    records := (s.lh.records ++ [stepRecord s st lit next commit late attempt]).drop (s.lh.records.length + 1 - 256) } }
  let s := if late then s.report Status.STEP_RESULT_LATE 0 else s
  let s := if 0 < r.missing then s.report Status.MODULE_ABSENT r.absent else s
  let s := if !commit && st.word.getLsbD 0 then s.report Status.STEP_DISCARDED 0 else s
  let s := if commit then s else s.rel.mirrorTests.foldl (fun (s : State) u => s.setUnit u { s.unit u with testDue := s.utc }) s
  let s := { s with rel := { s.rel with mirrorOwn := [], mirrorPeer := [], mirrorDone := [] } }
  s.afterFlip ((s.job).getD j) st next commit

/-- The open step is thrown away with nothing committed: the shadow, the pins, the block's tag (R31, R334). -/
def State.abandonStep (s : State) : State :=
  match s.lh.step, s.job with
  | some st, some j =>
    let s := if st.readOnly then s.unpin st.pins else s.dropShadow st.pins
    { s.clearBlockTag j with lh := { s.lh with step := none, startAtHalt := [] } }
  | _, _ => { s with lh := { s.lh with step := none } }

end Sys2Proof.Machine
end

