-- ==== Sys2Proof/Machine/BeaconOps.lean ====
section
/-! DEFINITION. Sync trees (R268 to R273) over a job's box, the count's steps (R248, R257), elections (R253 to R255). -/
namespace Sys2Proof.Machine

/-! ### Trees over a box (R268; the shape is the model's, log 28) -/

/-- The coordinate one link away through port `p` (R360). -/
def neighbourOf (shape x p : Nat) : Nat :=
  let a := p / 2
  let n := axisSize shape a
  let c := coordOf x a
  putBits x (6 * a) 6 (if p % 2 = 1 then (c + 1) % n else (c + n - 1) % n)

/-- The port toward the root, none at the root. -/
def toRoot (shape root x : Nat) : Option Nat := requestPort shape x root

/-- The way from `x` to the root passes through `c`. -/
def passes (shape root c : Nat) : Nat → Nat → Bool
  | 0, x => decide (x = c)
  | fuel + 1, x => decide (x = c) || (match toRoot shape root x with
    | some p => passes shape root c fuel (neighbourOf shape x p)
    | none => false)

/-- Hops from `x` to the root. -/
def depthOf (shape root : Nat) : Nat → Nat → Nat
  | 0, _ => 0
  | fuel + 1, x => match toRoot shape root x with
    | some p => depthOf shape root fuel (neighbourOf shape x p) + 1
    | none => 0

/-- More hops than any route has. -/
def maxHops : Nat := 160

/-- The members of a box whose way to the root passes through `c`. -/
def subtreeOf (shape root c : Nat) (box : List Nat) : List Nat :=
  box.filter (fun m => passes shape root c maxHops (moduleCoord shape m))

/-- The root of a box's trees: its lowest module. -/
def boxRoot (box : List Nat) : Nat := box.foldl min (box.headD 0)

/-- The height of a box's trees. -/
def boxHeight (shape : Nat) (box : List Nat) : Nat :=
  let root := moduleCoord shape (boxRoot box)
  (box.map (fun m => depthOf shape root maxHops (moduleCoord shape m))).foldl max 0

/-- The ports of module `x` that lead to children. -/
def childPorts (shape root x : Nat) (box : List Nat) : List Nat :=
  (List.range 8).filter (fun p =>
    let c := neighbourOf shape x p
    decide (c ≠ x) && box.contains (moduleIndex shape c)
      && (match toRoot shape root c with | some q => decide (q = (if p % 2 = 0 then p + 1 else p - 1)) | none => false))

/-- The box of the module's job; the module alone where there is none. -/
def State.box (s : State) : List Nat := match s.job with | some j => j.box | none => [s.self.toNat]
def State.treeHeight (s : State) : Nat := boxHeight s.shape s.box
def State.treeDepth (s : State) : Nat := depthOf s.shape (moduleCoord s.shape (boxRoot s.box)) maxHops s.coord
def State.treeLevel (s : State) : Nat := match s.job with | some j => j.level | none => 1

/-! ### Reductions -/

def State.tree (s : State) (m : Nat) : Option TreeRun := Map.get none s.bcn.trees m
def State.setTree (s : State) (m : Nat) (r : Option TreeRun) : State :=
  { s with bcn := { s.bcn with trees := Map.set none s.bcn.trees m r } }

/-- A reduction opens (R269): the member contributes `v` at t_c; what came from children before it opened is taken (R271). -/
def State.startTree (s : State) (m op : Nat) (v tc tr : BitVec 64) (level height depth : Nat) (barrier : Bool) : State :=
  let s := (s.setFld (BCN.BUSY m) 1).setTree m (some {
    op := op, tc := tc, tr := tr, level := level, height := height, depth := depth, own := some v, kids := Map.get [] s.bcn.early m
    closed := false, barrier := barrier, sum := none })
  { s with bcn := { s.bcn with early := Map.set [] s.bcn.early m [] } }

/-- t_c + 2 × (H + 1) × L. -/
def earliestDeliver (tc : BitVec 64) (level height : Nat) : BitVec 64 := tc + BitVec.ofNat 64 (2 * (height + 1) * level)

/-- The close of the node: t_c + (H - h + 1) × L. -/
def TreeRun.closeAt (r : TreeRun) : BitVec 64 := r.tc + BitVec.ofNat 64 ((r.height + 1 - r.depth) * r.level)

/-- Two values combined: 0 AND, 1 OR, 2 unsigned MAX, else SUM. -/
def combine (op : Nat) (a b : BitVec 64) : BitVec 64 :=
  match op with
  | 0 => a &&& b
  | 1 => a ||| b
  | 2 => if a.ult b then b else a
  | _ => a + b

/-- The value of no contribution. -/
def combineZero (op : Nat) : BitVec 64 := if op = 0 then BitVec.allOnes 64 else 0

/-- The lower of two optional module indices. -/
def lowest (a b : Option Nat) : Option Nat :=
  match a, b with
  | some x, some y => some (min x y)
  | some x, none => some x
  | none, b => b

/-- What a node holds at its close: the value, the modules included, the lowest one absent. -/
def TreeRun.close (r : TreeRun) (self : Nat) (missing : List Nat) : BitVec 64 × Nat × Option Nat :=
  let v := r.kids.foldl (fun v k => combine r.op v k.value) (r.own.getD (combineZero r.op))
  let n := r.kids.foldl (fun n k => n + k.count) (if r.own.isSome then 1 else 0)
  let lost := missing ++ (if r.own.isSome then [] else [self])
  (v, n, r.kids.foldl (fun a k => lowest a k.lowest) (lost.foldl (fun a x => lowest a (some x)) none))

/-- The bytes of a contribution or a result between modules. -/
def treeBytes (m : Nat) (x : BitVec 64 × Nat × Option Nat) : List Byte :=
  bytesOf (m + x.1.toNat * 2 ^ 8 + x.2.1 * 2 ^ 72 + (match x.2.2 with | some a => (a + 1) * 2 ^ 88 | none => 0)) 13

/-- The children of a configured tree. -/
def State.children (s : State) (m : Nat) : List Nat := (List.range 8).filter (fun p => (s.fld (BCN.CHILDREN m)).testBit p)

/-- The reduction is the vote of the open step. -/
def State.isVote (s : State) (m : Nat) (r : TreeRun) : Bool :=
  match s.job, s.lh.step with
  | some j, some st => decide (m = j.voteTree) && decide (r.op = 0) && st.voted && decide (r.tc = st.vote) && !r.barrier
  | _, _ => false

/-- The result at its users (R269, R270, R273, R322, R447). -/
def State.applyResult (s : State) (m : Nat) (r : TreeRun) (x : BitVec 64 × Nat × Option Nat) : State :=
  let late := (ahead r.tr s.count) < 0
  let missing := s.box.length - x.2.1
  let vote := s.isVote m r
  let s := s.setTree m none
  let s := if late then s.bumpFld (BCN.LATE m) else s
  let s := ((s.setFld (BCN.MISSING m) missing).setFld (BCN.FIRST_ABSENT m) (x.2.2.getD 0)).setFld (BCN.BUSY m) 0
  let s : State := match vote, s.job, s.lh.step with
    | true, some j, some st => s.takeVote j st ⟨x.1, missing, x.2.2.getD 0⟩
    | _, _, _ => s
  let s : State := match s.lh.suspension with
    | some u =>
      if u.tc = some (r.tc, r.tr) ∧ r.op = 0 ∧ !vote then
        let held := match s.lh.step with
          | some st => decide (ahead st.vote s.count > 0)
          | none => false
        { s with lh := { s.lh with suspension := some { u with
            agreed := some (x.1 = 1 && decide (missing = 0) && held), stoppedAt := some s.count } } }
      else s
    | none => s
  if r.barrier then
    if missing = 0 then
      let home := s.fld (BCN.REL_HOME m)
      let n := s.fld (BCN.REL_N m)
      let s := s.setFld (BCN.ARRIVED m) 0
      if (s.tile home).rtrReady then
        s.semApply home { module := s.self, st := ⟨home, 0, 0⟩, entry := s.fld (BCN.REL_ENTRY m), op := if n = 0 then .flare else .sig n
                          rd := 0, plain := true }
      else s
    else (s.setFld (BCN.SYNC_MISSING m) 1).report Status.SYNC_MISSING m
  else s

/-- The node's close (R268 to R270, R272, R322), due at its close edge or once all its children have contributed: the node sends up
what it holds; the root's result goes down. The subtrees of children absent from the vote are declared lost. -/
def State.closeNode (s : State) (m : Nat) : State :=
  match s.tree m with
  | none => s
  | some r =>
    let kids := s.children m
    let late := kids.filter (fun p => !r.kids.any (fun k => decide (k.port = p)))
    if r.closed ∨ ahead r.tc s.count > 0 ∨ (ahead r.closeAt s.count > 0 ∧ late ≠ []) then s
    else
      let root := moduleCoord s.shape (boxRoot s.box)
      let gone := late.flatMap (fun p => subtreeOf s.shape root (neighbourOf s.shape s.coord p) s.box)
      let x := r.close s.self.toNat gone
      let s := if s.isVote m r then gone.foldl State.loseMember s else s
      let p := s.fld (BCN.PARENT m)
      if p = 15 then
        let s := s.setTree m (some { r with closed := true, sum := some x })
        kids.foldl (fun (s : State) k => s.control k .result (treeBytes m x)) s
      else (s.setTree m (some { r with closed := true })).control p .contribution (treeBytes m x)

/-- A result that waits for t_r is applied at its edge (R269): the root's own, and one that came before t_r. -/
def State.applyDue (s : State) (m : Nat) : State :=
  match s.tree m with
  | none => s
  | some r => match r.sum with
    | some x => if ahead r.tr s.count > 0 then s else s.applyResult m r x
    | none => s

/-! ### Events of one count (R261) -/

/-- The scheduled changes of the row maps take effect in one cycle, between two phases of every tile (R236). -/
def State.changeMap (s : State) : State :=
  if s.betweenPhases then { s.moves.foldl State.applyMove s with moves := [] } else s

/-- A scheduled tick period takes effect from the edge of its count (R249). -/
def State.changeTick (s : State) : State :=
  match s.bcn.pendingTick with
  | some (c, ns) =>
    if ahead c s.count ≤ 0 then { s.setFld BCN.TICK_NS ns with bcn := { s.bcn with pendingTick := none } } else s
  | none => s

/-- The closes that are due. -/
def State.closeDue (s : State) : State := (List.range 16).foldl State.closeNode s

/-- A flip that is due. -/
def State.flipDue (s : State) : State :=
  match s.lh.step, s.job with
  | some st, some j =>
    if st.result.isNone ∨ s.count ≠ st.flip ∨ (s.lh.suspension.bind (·.agreed)) = some true then s else s.applyFlip j st false
  | _, _ => s

/-- Every event that R261 places before those of class `k` and that is due at this count has run: map changes (1), tick changes
(2), tree closes (3), flips (4). A module that has lost the Beacon runs none (R257). -/
def State.runDue (s : State) (k : Nat) : State :=
  if s.fld BCN.STATE = 5 then s
  else
    let s := if 1 < k then s.changeMap else s
    let s := if 2 < k then s.changeTick else s
    let s := if 3 < k then s.closeDue else s
    if 4 < k then s.flipDue else s

/-- Module events that are pending (R260): those of the host, and Lighthouse's own. -/
def State.pendingEvents (s : State) : Nat :=
  let step : Nat := match s.lh.step with
    | some st => if st.voted then 1 else 2
    | none => 0
  s.bcn.schedule.length + s.moves.length + ofBool s.bcn.pendingTick.isSome
    + ((List.range 16).filter (fun m => (s.tree m).isSome)).length + step + ofBool s.lh.nextOpen.isSome + ofBool s.lh.ckptDue

/-! ### The machine's other modules -/

/-- Modules of the machine. -/
def State.machineSize (s : State) : Nat := [0, 1, 2, 3].foldl (fun n a => n * axisSize s.shape a) 1

/-- This module is the placement authority: the master (R428). -/
def State.authority (s : State) : Bool := decide (s.fld BCN.STATE = 2)

/-- A control packet of a placement to every member but this one (log 14): 0 a first open, 1 a placement, 2 a suspension,
3 an end, 4 a ready report, 5 and 6 a member that is not free, that is free again (R522), 7 a count that was taken, 8 the new first
open after it (R446). -/
def State.tellMembers (s : State) (box : List Nat) (bs : List Byte) : State :=
  (box.filter (fun m => decide (m ≠ s.self.toNat))).foldl (fun (s : State) m => s.controlTo m .placement bs) s

/-- A job has a box on this module or a place in its table (R249, R278). -/
def State.anyPlaced (s : State) : Bool := s.lh.cur.isSome || s.lh.jobs.any (fun j => !j.box.isEmpty)

/-- The master schedules a tick period and tells every other module its count (R249; 1,024 ticks ahead, log 109). -/
def State.scheduleTick (s : State) (ns : Nat) : State :=
  let n := s.count + 1024
  let s := { s with bcn := { s.bcn with pendingTick := some (n, ns) } }
  ((List.range s.machineSize).filter (fun m => decide (m ≠ s.self.toNat))).foldl (fun (s : State) m =>
    s.controlTo m .tick (bytesOf (1 + ns * 2 ^ 8 + n.toNat * 2 ^ 32) 12)) s

/-- A tick period that the host asks for on this module: the master schedules it, another module asks the master (R249). -/
def State.askTick (s : State) (ns : Nat) : State :=
  if s.fld BCN.STATE = 2 ∨ s.fld BCN.STATE = 0 then s.scheduleTick ns
  else s.controlTo (s.fld BCN.MASTER) .tick (bytesOf (ns * 2 ^ 8) 4)

/-- A control packet of a tick period: a member's request to the master, refused with BCN_BUSY while a job is placed, or the
master's schedule. -/
def State.takeTick (s : State) (v : Nat) : State :=
  let ns := bits v 8 21
  if bits v 0 8 = 1 then { s with bcn := { s.bcn with pendingTick := some (BitVec.ofNat 64 (bits v 32 64), ns) } }
  else if s.fld BCN.STATE ≠ 2 then s
  else if s.anyPlaced then s.report Status.BCN_BUSY 0
  else s.scheduleTick ns

/-! ### The count and its source -/

/-- A job opens at a new first tick (R446): its open step is thrown away, the loop goes on from the lit state. -/
def State.openAt (s : State) (id n : BitVec 64) : State :=
  if s.lh.cur = some id then
    let s := s.abandonStep
    { s with lh := { s.lh with nextOpen := some n } }
  else s

/-- The authority sets the new first open of a job that runs, 1,024 ticks from now, on every member (R439, R446). -/
def State.setFirstOpen (s : State) (j : Job) : State :=
  if j.state ≠ .running ∨ j.host ∨ j.priority.isSome then s
  else
  let n := s.count + 1024
  (s.tellMembers j.box (bytesOf (8 + j.id.toNat * 2 ^ 8 + n.toNat * 2 ^ 72) 17)).openAt j.id n

/-- The module's job needs a new first open (R446): its open step is thrown away, and the authority is told. -/
def State.newFirstOpen (s : State) (j : Job) : State :=
  let s := s.abandonStep
  if s.authority then s.setFirstOpen j
  else
    let s : State := { s with lh := { s.lh with nextOpen := none } }
    s.controlTo (s.fld BCN.MASTER) .placement (bytesOf (7 + j.id.toNat * 2 ^ 8) 9)

/-- The source's count taken at an edge (R248, R257): DESYNC is set, BCN_DESYNC reported for every job placed on the module; the
one that holds it gets a new first open. -/
def State.takeCount (s : State) (c : BitVec 64) : State :=
  let s := (s.setFld BCN.COUNT c.toNat).setFld BCN.DESYNC 1
  let s := (s.lh.jobs.filter (fun j => j.box.contains s.self.toNat)).foldl (fun (s : State) _ => s.report Status.BCN_DESYNC 0) s
  match s.job with
  | some j => s.newFirstOpen j
  | none => s

/-- The hops of a source from the master, where a frame of it has been noted; else a free value, as no frame tells them
(log 110). -/
def State.hopsOf (s : State) (p : Nat) : Nat × State :=
  match s.bcn.sources.find? (fun e => decide (e.port = p)) with
  | some e => (e.hops, s)
  | none =>
    let d := s.draw 8
    (d.1.toNat, d.2)

/-- Port `p` is a source of agreeing, unmarked edges. -/
def State.noteSource (s : State) (p : Nat) : State :=
  let h := s.hopsOf p
  let s := h.2.dropSource p
  { s with bcn := { s.bcn with sources := ⟨p, h.1⟩ :: s.bcn.sources } }

/-- Locked to source `p`: unmarked edges are taken from it. -/
def State.lockTo (s : State) (p : Nat) : State :=
  let s := ((s.setFld BCN.STATE 1).setFld BCN.SRC p).dropSource p
  { s with bcn := { s.bcn with marked := false, lockedAt := some s.cycle } }

/-- What a new source says: its hops from the master; of a new term, or to a module that holds no count, nothing tells the
master nor its key (free values). -/
def State.newParent (s : State) (p : Nat) (term : BitVec 16) : State :=
  let h := s.hopsOf p
  let s := h.2.setFld BCN.DEPTH (min 255 (h.1 + 1))
  if term.toNat = s.fld BCN.TERM ∧ s.bcn.holds then s
  else
    let m := s.draw 14
    let k := m.2.draw 8
    let s := (k.2.setFld BCN.MASTER m.1.toNat).setFld BCN.TERM term.toNat
    { s with bcn := { s.bcn with best := some ⟨k.1, m.1⟩ } }

/-- The term as BCN_STAT holds it. -/
def State.term (s : State) : BitVec 16 := BitVec.ofNat 16 (s.fld BCN.TERM)

/-- Source `a` comes before `b` (R251): fewer hops, then the BCN pins, then the lower port. -/
def EdgeSource.before (a b : EdgeSource) : Bool :=
  decide (a.hops < b.hops)
    || (decide (a.hops = b.hops) && (decide (a.port = 8) || (decide (b.port ≠ 8) && decide (a.port < b.port))))

/-- The first of some sources under R251. -/
def nextSource (l : List EdgeSource) : Option EdgeSource :=
  l.foldl (fun best e => match best with
    | some b => if e.before b then some e else some b
    | none => some e) none

/-- Source `p` disagrees with the module's count (R252): it is counted and dropped, the next one is taken; BCN_DESYNC where no
other agrees. -/
def State.disagrees (s : State) (p : Nat) : State :=
  let s := (s.bumpFld BCN.COUNT_ERRS).dropSource p
  if s.fld BCN.STATE = 1 ∧ s.fld BCN.SRC = p then
    match nextSource s.bcn.sources with
    | some e => (s.newParent e.port s.term).lockTo e.port
    | none => ((s.setFld BCN.STATE 3).setFld BCN.SRC 15).report Status.BCN_DESYNC 0
  else s

/-- The low 16 bits of the count at the last edge marked on port `p`, as a frame carries them (R252): those of this edge or of
the one before it (log 108), of a port whose edges agreed. -/
def State.checkLow (s : State) (p low : Nat) : State :=
  let n := s.count.toNat % 2 ^ 16
  let source := (decide (s.fld BCN.STATE = 1) && decide (s.fld BCN.SRC = p)) || s.bcn.sources.any (fun e => decide (e.port = p))
  if s.bcn.holds && source && decide (low ≠ n) && decide ((low + 1) % 2 ^ 16 ≠ n) then s.disagrees p else s

/-- Term `t` is older than `now`, modulo 2^16. -/
def olderTerm (t now : Nat) : Bool :=
  let d := (now + 2 ^ 16 - t) % 2 ^ 16
  decide (1 ≤ d) && decide (d < 2 ^ 15)

/-- R253: the better of two keys. -/
def ElectionKey.better (a b : ElectionKey) : ElectionKey :=
  if a.prio.toNat > b.prio.toNat ∨ (a.prio = b.prio ∧ a.module.toNat ≤ b.module.toNat) then a else b

/-- The module's own key, where it is a candidate. -/
def State.ownKey (s : State) : Option ElectionKey :=
  if s.fld BCN.CAND = 1 then some ⟨BitVec.ofNat 8 (s.fld BCN.PRIO), s.self⟩ else none

/-- The best key of the term advertised on every port, and on the BCN pins of a board (R254). -/
def State.advertise (s : State) : State :=
  match s.bcn.best with
  | none => s
  | some k =>
    let s := if s.fld BCN.BOARD = 1 then { s with pins := { s.pins with advert := some (s.fld BCN.TERM, k, s.bcn.floor) } } else s
    (List.range 8).foldl (fun (s : State) p =>
      s.control p .advert (bytesOf (s.fld BCN.TERM + k.prio.toNat * 2 ^ 16 + k.module.toNat * 2 ^ 24 + s.bcn.floor.toNat * 2 ^ 40) 13)) s

/-- The count floor of a candidate (R255): 1 above the count last saved, 0 where none has been. -/
def State.countFloor (s : State) : BitVec 64 :=
  if s.fld NVM.FLOOR = 0 then 0 else BitVec.ofNat 64 (s.fld NVM.FLOOR) + 1

/-- The module enters electing under a term (R254, R255). -/
def State.elect (s : State) (term : Nat) : State :=
  let s := (s.setFld BCN.STATE 4).setFld BCN.TERM term
  let s := { s with bcn := { s.bcn with
    best := s.ownKey, sources := [], floor := if s.fld BCN.CAND = 1 then s.countFloor else 0 } }
  s.advertise

end Sys2Proof.Machine
end

