-- ==== Sys2Proof/Machine/Sys.lean ====
section
/-! DEFINITION. The SYS class, the instruction fetch, words that are no instruction, and the ends of WAIT and HALT (R78,
R88, R89, R104, R106). -/
namespace Sys2Proof.Machine

/-- NOP: the only legal word has every other bit 0, PRED and PNEG included (R89). -/
def execNop (t : Nat) (w : BitVec 52) (s : State) : Result :=
  issue t w { used := [], regs := [], legal := decide (w = 0) } (fun _ s => s) s

/-- BCNRD: the Beacon count at issue. -/
def execBcnrd (t : Nat) (w : BitVec 52) (s : State) : Result :=
  issue t w { used := [uRD], regs := [fRD w] } (fun _ s => s.putS t (fRD w) s.count) s

/-- HALT stops issue (R104). -/
def execHalt (t : Nat) (w : BitVec 52) (s : State) : Result :=
  issue t w { used := [], regs := [] }
    (fun _ s => s.onTile t (fun x => { x with halted := true, ended := true, haltReported := false })) s

/-- Every engine queue of the tile is empty. -/
def Tile.enginesEmpty (t : Tile) : Bool :=
  t.vq.isEmpty && t.mq.isEmpty && t.xq.isEmpty && t.dma.isEmpty && t.lists.isEmpty && t.running.isNone

/-- The end of the stream is reported to Lighthouse (R104). -/
def execHaltReport (t : Nat) (s : State) : Result :=
  if s.tileCount ≤ t then .fault .noSuchUnit
  else
    let x := s.tile t
    if x.halted && x.ended && !x.haltReported && x.enginesEmpty then .next (s.setTile t { x with haltReported := true })
    else .next s

/-! ### WAIT (R106) -/

def fDL (w : BitVec 52) : Bool := bit w.toNat 32

/-- EVM[6:0], with LH and, where DL is 1, DEADLINE. -/
def waitEvents (w : BitVec 52) : Nat := bits w.toNat 0 7 ||| 0x20 ||| ofBool (fDL w)

/-- A WAIT completes: RD takes the enabled pending bits (and `extra` above them), which are cleared. -/
def Tile.wake (t : Tile) (rd events extra : Nat) : Tile :=
  let p := t.fld TILE.PEND
  let hit := p &&& events
  { (t.setFld TILE.PEND (p - hit)).putS rd (BitVec.ofNat 64 (extra * 2 ^ 32 + hit)) with stall := .none }

def execWait (t : Nat) (w : BitVec 52) (s : State) : Result :=
  issue t w
    { used := [uRD, (32, 1), (0, 7)] ++ (if fDL w then [uRA] else [])
      regs := [fRD w] ++ (if fDL w then [fRA w] else []) }
    (fun _ s =>
      let x := s.tile t
      let ev := waitEvents w
      let d := x.getS (fRA w)
      if fDL w && decide (s.fld BCN.STATE = 5) then s.setTile t (x.wake (fRD w) ev Status.BCN_LOST.toNat)
      else if fDL w && tooFar d s.count then s.setTile t (x.wake (fRD w) ev Status.SCHED_RANGE.toNat)
      else
        let x := if fDL w && decide (ahead d s.count ≤ 0) then x.post 0 else x
        if x.fld TILE.PEND &&& ev ≠ 0 then s.setTile t (x.wake (fRD w) ev 0)
        else s.setTile t { x with
          stall := .wait (fRD w) (BitVec.ofNat 7 ev) (if fDL w then some d else none) (x.fld TILE.WAITLVL) }) s

/-- An enabled event is pending: the WAIT completes (R106, R107; the wake latency is time, which no command takes). -/
def execWaitWake (t : Nat) (s : State) : Result :=
  if s.tileCount ≤ t then .fault .noSuchUnit
  else
    let x := s.tile t
    match x.stall with
    | .wait rd ev _ _ => if x.fld TILE.PEND &&& ev.toNat ≠ 0 then .next (s.setTile t (x.wake rd ev.toNat 0)) else .next s
    | _ => .next s

/-! ### Words that are no instruction (R85, R88, R89, R121, R174, R200) -/

/-- CLASS is not listed, or OP is not listed for it. -/
def unlisted (word : BitVec 64) : Bool := (Sys2Proof.tileInstr 0 word).isNone

/-- The scalar core meets such a word: ILLEGAL_OP stops the stream (R88). A listed word is not one, and leaves the state
as it is. -/
def execIllegalOp (t : Nat) (word : BitVec 64) (s : State) : Result :=
  if s.tileCount ≤ t then .fault .noSuchUnit
  else
    let x := s.tile t
    if !unlisted word || !s.clocked || !x.canIssue [] then .next s
    else if !pcOk x.pc then .next (s.record t Status.PC_FAULT x.pc)
    else .next ((s.setTile t { x with ibuf := takeInsn x.pc x.ibuf }).record t Status.ILLEGAL_OP x.pc)

/-! ### The instruction fetch (R78) -/

/-- The instructions of the 128-byte line of offset `a`, from `a` to the line's end. -/
def lineWords (t : Tile) (a : Nat) : List (Nat × BitVec 64) :=
  (List.range (16 - a % 128 / 8)).map (fun i =>
    (a + 8 * i, BitVec.ofNat 64 (ofBytes (readRun 0 t.spad (a + 8 * i) 8))))

/-- A line is fetched: the one after the last buffered, or, where the buffer does not hold the PC, the one of the PC. A
fetch is a plain read (R46): an uncorrectable word is SPAD_UE at the PC. -/
def execInstructionFetch (t : Nat) (s : State) : Result :=
  if s.tileCount ≤ t then .fault .noSuchUnit
  else
    let x := s.tile t
    let kept := x.ibuf.dropWhile (fun e => decide (e.1 ≠ x.pc.toNat))
    if !s.clocked || x.fld TILE.CORE_READY = 0 || x.halted || decide (16 < kept.length) then .next s
    else if kept.isEmpty && !pcOk x.pc then .next (s.record t Status.PC_FAULT x.pc)
    else
      let a := match kept.getLast? with
        | some e => e.1 + 8
        | none => x.pc.toNat
      if spadSize ≤ a then .next s
      else
        let r := x.spadRead a (128 - a % 128)
        if r.2.1 ≠ 0 then .next ((s.setTile t r.1).record t r.2.1 x.pc)
        else .next (s.setTile t { r.1 with ibuf := kept ++ lineWords r.1 a })

end Sys2Proof.Machine
end

