-- ==== Sys2Proof/Machine/Hbm.lean ====
section
/-! DEFINITION. The channel queues, resets, sparing, scrub and temperature of the HBM stacks (R279 to R287, R290 to R300). -/
namespace Sys2Proof.Machine

/-- The pieces of `n` bytes at `a`, one per 4 KiB block: address and length. -/
def blockPieces (a n : Nat) : List (Nat × Nat) :=
  (List.range ((a + n + 4095) / 4096 - a / 4096)).map (fun i =>
    let lo := max a ((a / 4096 + i) * 4096)
    (lo, min (a + n) ((a / 4096 + i + 1) * 4096) - lo))

/-- What a read of several pieces has gathered: the first status that refused it, the bytes, the Halos. -/
structure Gathered where
  st : State
  status : BitVec 16 := 0
  data : List Byte := []
  halos : List Byte := []

/-- A read without Halos, piece by piece: a poisoned block is consumed (R290, R292), a version region refuses (R294). -/
def State.gatherPlain (s : State) (a n : Nat) : Gathered :=
  if s.touchesRegion a n then { st := s, status := Status.GEN_ADDR }
  else (blockPieces a n).foldl (fun (g : Gathered) p =>
    if g.status ≠ 0 then g
    else
      let r := g.st.readPart p.1 p.2
      { g with st := r.st, status := if haloPoison r.halo then Status.POISON_CONSUMED else 0, data := g.data ++ r.data }) { st := s }

/-- Whole blocks read with their Halos (R290, R291, R300); poison goes with them (R292). -/
def State.gatherBlocks (s : State) (blk k g lepoch : Nat) : Gathered :=
  (List.range k).foldl (fun (x : Gathered) i =>
    if x.status ≠ 0 then x
    else
      let r := x.st.readBlock (blk + i) g lepoch
      { st := r.st, status := r.status, data := x.data ++ r.data, halos := x.halos ++ bytesOf r.halo.toNat 32 }) { st := s }

/-- The reply of a served read: to the tile that loads, or to the requester in another module, with the Halos behind the
data (log 14). -/
def State.replyRead (s : State) (r : HbmReq) (data : List Byte) : State :=
  match r.sender, r.dst with
  | .message st _, some d => s.send st.tile (.load st d r.pc 0 data)
  | .away dirs coord st tag, _ =>
    s.sendReply { type := 2, vc := 1, dst := coord.toNat, src := s.coord, dirs := dirs, dstTile := st.tile, tag := tag.toNat
                  epoch := st.epoch.toNat, bcn := st.low.toNat, len := data.length, halo := r.halo } data
  | _, _ => s

/-- ORIGIN of kind 3, or of kind 0 for an engine without a logical index: the unit that sent a write (R288). -/
def sendingOrigin (st : Sender) : Nat :=
  let of (t : Nat) : Nat := if t < 0xF00 then 0x3000 + t else t
  match st with
  | .away _ _ st _ => of st.tile
  | .dma st _ => of st.tile
  | .record st _ _ => of st.tile
  | .message st _ => of st.tile
  | .mcast st _ => of st.tile
  | .host _ => 0xFFF

/-- Blocks written with the Halos they arrived with, one by one; one whose CRC fails for good is written poisoned
(R291). The status is the first refusal, else HALO_CRC where a block failed. -/
def State.writeArrival (s : State) (r : HbmReq) (bs : List Byte) : State × BitVec 16 :=
  let k := bs.length / 4128
  (List.range k).foldl (fun (x : State × BitVec 16) i =>
    if x.2 ≠ 0 ∧ x.2 ≠ Status.HALO_CRC then x
    else
      let d := (bs.drop (4096 * i)).take 4096
      let h := BitVec.ofNat 256 (ofBytes ((bs.drop (4096 * k + 32 * i)).take 32))
      let bad := !haloMatches d h
      let blk := r.addr.toNat / 4096 + i
      let c := x.1.channelOf blk
      let s : State := if bad then (x.1.bumpFld (HBM.CRC_FAILS c.1)).logGlow 0x0A Status.HALO_CRC (channelUnit c.1 c.2) (sendingOrigin r.sender)
        else x.1
      let w := s.writeBlock blk d r.gen.toNat r.lepoch.toNat
        (if bad then some (sendingOrigin r.sender) else if haloPoison h then some (haloOrigin h) else none)
      (w.1, if w.2 ≠ 0 then w.2 else if bad then Status.HALO_CRC else x.2)) (s, 0)

/-- A queued request is served (R280, R287, R290, R294, R297): a read answered with its data, a write checked, placed and
acknowledged. -/
def State.serveReq (s : State) (r : HbmReq) : State :=
  match r.write with
  | none =>
    let g := if r.halo then s.gatherBlocks (r.addr.toNat / 4096) (r.len / 4096) r.gen.toNat r.lepoch.toNat
      else s.gatherPlain r.addr.toNat r.len
    if g.status ≠ 0 then g.st.refuseHbm r g.status else g.st.replyRead r (g.data ++ g.halos)
  | some bs =>
    let w : State × BitVec 16 := if r.halo then s.writeArrival r bs
      else if s.touchesRegion r.addr.toNat bs.length then (s, Status.GEN_ADDR)
      else ((blockPieces r.addr.toNat bs.length).foldl (fun (s : State) p =>
        s.writePart p.1 ((bs.drop (p.1 - r.addr.toNat)).take p.2)) s, 0)
    if w.2 ≠ 0 then w.1.refuseHbm r w.2 else w.1.answerTo r.sender 0 0 none

/-- Every request that a channel has accepted is served. -/
def State.serveChannel (k ch : Nat) : Nat → State → State
  | 0, s => s
  | n + 1, s =>
    match s.takeHbm k ch with
    | some (r, s') => State.serveChannel k ch n (s'.serveReq r)
    | none => s

/-- What the channel of a block accepted before this access is served first (R279). -/
def State.serveBefore (s : State) (blk : Nat) : State :=
  let c := s.channelOf blk
  State.serveChannel c.1 c.2 (s.stack c.1).queue.length s

/-- The stacks and their controllers are active: neither in self-refresh nor off (R33). -/
def State.hbmActive (s : State) : Bool := decide (s.pwr.state = .p0)

/-- The next request of a channel is served, where it is a write or a read as asked; a stack at level 3 and one that is not active
serve nothing (R33, R279, R287). -/
def serveNext (write : Bool) (stack ch : Nat) (s : State) : Result :=
  if 16 ≤ stack ∨ 16 ≤ ch then .fault .noSuchUnit
  else if s.fld (HBM.TLEVEL stack) = 3 ∨ s.hbmActive = false then .next s
  else match s.takeHbm stack ch with
    | none => .next s
    | some (r, s') => if r.write.isSome = write then .next (s'.serveReq r) else .next s

/-- HBM_READ: the read that a channel's queue holds next is served (R279, R280). -/
def execHbmRead (stack ch : Nat) (s : State) : Result := serveNext false stack ch s

/-- HBM_WRITE: the write that a channel's queue holds next is checked, placed and acknowledged (R279, R280, R290, R294, R297). -/
def execHbmWrite (stack ch : Nat) (s : State) : Result := serveNext true stack ch s

/-- A burst that the sparing copy could not correct: rewritten as read, counted, its block poisoned with ORIGIN of kind 4
(R281, R285, R288). -/
def State.copyBurst (s : State) (k ch u : Nat) : State :=
  let r := s.drawBytes 32
  let s := { r.2 with hbm := writeRun 0 r.2.hbm (u * 32) r.1, hbmBad := Map.set false r.2.hbmBad u false }
  ((s.bumpFld (HBM.UNCORRECTED k)).poison (u / 128) (0x4000 + k * 16 + ch)).chargeChannel k ch 0

/-- SPARING_COPY_DONE: the copy of a channel to the spare ends; the sparing map switches, and HBM_STACK_STAT records the replaced
channel (R281). -/
def execSparingCopyDone (stack : Nat) (s : State) : Result :=
  if 16 ≤ stack then .fault .noSuchUnit
  else match (s.stack stack).copying with
    | none => .next s
    | some ch =>
      let mine (u : Nat) : Bool := decide ((s.place (u / 128)).1 = stack) && decide ((s.place (u / 128)).2.1 = ch)
      let soft := (s.hbmSoft.map (·.1)).filter mine
      let bad := (s.hbmBad.map (·.1)).filter mine
      let s := soft.foldl State.softBurst s
      let s := bad.foldl (fun (s : State) u => s.copyBurst stack ch u) s
      let s := s.setStack stack { s.stack stack with copying := none }
      .next (((s.setFld (HBM.COPY_BUSY stack) 0).setFld (HBM.SPARE_USED stack) 1).setFld (HBM.SPARE_FOR stack) ch)

/-- CHANNEL_RESET: a channel that has power resets (R33, R283); the reset is recorded. -/
def execChannelReset (stack ch : Nat) (s : State) : Result :=
  if 16 ≤ stack ∨ 16 ≤ ch then .fault .noSuchUnit
  else if !s.awake then .next s
  else
    let s := s.resetChannel stack ch
    .next (s.logGlow 0x0D 0 (channelUnit stack ch) (s.fld (HBM.CH_EPOCH stack ch)))

/-- CHANNEL_READY: the channel is ready; its journalled writes are poisoned (R283). -/
def execChannelReady (stack ch : Nat) (s : State) : Result :=
  if 16 ≤ stack ∨ 16 ≤ ch then .fault .noSuchUnit
  else if s.fld (HBM.CH_READY stack ch) = 1 then .next s
  else
    let x := s.stack stack
    let mine := (x.journal.filter (fun e => decide (e.1 = ch))).map (·.2)
    let s := s.setStack stack { x with journal := x.journal.filter (fun e => decide (e.1 ≠ ch)) }
    let s := mine.foldl (fun (s : State) b => s.poison b (0x1000 + stack * 16 + ch)) s
    .next (s.setFld (HBM.CH_READY stack ch) 1)

/-- Addressed blocks of the module: 720 GiB (R277). -/
def blockCount : Nat := 188743680

/-- SCRUB_READ: the copier reads one block; SCRUB_H = 0 stops scrubbing, and so does self-refresh (R33, R285, R286). -/
def execScrubRead (blk : Nat) (s : State) : Result :=
  if blockCount ≤ blk then .fault .noSuchUnit
  else if s.hbmActive = false ∨ s.fld HBM.SCRUB_H = 0 ∨ !s.channelReady blk ∨ s.stackAsleep blk ∨ s.channelLost blk then .next s
  else .next (s.checkBursts (blk * 4096) 4096)

/-- The threshold of a temperature level (R287). -/
def levelAt (l : Nat) : Nat := 75 + 10 * l

/-- The level after a reading: entered at its threshold, left 3 °C below it. -/
def nextLevel (cur temp : Nat) : Nat :=
  let on (l : Nat) : Bool := decide (levelAt l ≤ temp) || (decide (l ≤ cur) && decide (levelAt l < temp + 3))
  if on 3 then 3 else if on 2 then 2 else if on 1 then 1 else 0

/-- Any stack is at level 3: the memory duty is 4 (R529). -/
def State.memoryDuty (s : State) : Nat :=
  if (List.range 16).any (fun k => decide (s.fld (HBM.TLEVEL k) = 3)) then 4 else 16

end Sys2Proof.Machine
end

