-- ==== Sys2Proof/Machine/TxnOps.lean ====
section
/-! DEFINITION. Tile-scope transactions: handles, releases, cancellations, drops (R29, R97, R232, R233, R548). -/
namespace Sys2Proof.Machine

def Tile.txn (t : Tile) (h : Nat) : Txn := Map.get {} t.txns h
def Tile.setTxn (t : Tile) (h : Nat) (x : Txn) : Tile := { t with txns := Map.set {} t.txns h x }

/-- A descriptor with TX = 1 is accepted only on an open handle (R548). -/
def Tile.txnOpen (t : Tile) (h : Nat) : Bool := decide ((t.txn h).st = .opened)

/-- The handle that carries a transaction's key. -/
def Tile.handleOf (t : Tile) (key : Nat) : Option Nat :=
  [0, 1, 2, 3].find? (fun h => (t.txn h).st ≠ .free && decide ((t.txn h).key = key))

/-- What a TXH field names: the handle and its present transaction. -/
def Tile.named (t : Tile) (h : Nat) : Nat × Nat := (h, (t.txn h).key)

/-- The handle still carries the transaction that an instruction named, and it is open (R548). -/
def Tile.txnTakes (t : Tile) (n : Nat × Nat) : Bool := t.txnOpen n.1 && decide ((t.txn n.1).key = n.2)

/-- An operation that named the handle's transaction has not sent its last copy (R548). -/
def Tile.txnUnsent (t : Tile) (h : Nat) : Bool :=
  let n := some (t.named h)
  t.dma.any (fun o => decide (o.txn = n) && !o.readDone && o.status.isNone)
  || t.xq.any (fun q => decide (q.txn = n))
  || (match t.phase with
      | some p => decide (p.txn = n) && decide (p.issued.length < p.nsend)
      | none => false)
  || t.mcasts.any (fun m => decide (m.txn = n) && !m.stalled.isEmpty)

/-- The targets of a transaction's copies that hold a dark copy of it now, whether or not their acknowledgement has come. -/
def State.darkHolders (s : State) (key : Nat × Nat) (sent : List Nat) : List Nat :=
  sent.eraseDups.filter (fun u => decide ((s.tile u).darkOf key ≠ []))

/-- The targets that a drop or a release of tile `t`'s transaction goes to (R29, R548). -/
def State.txnHolders (s : State) (t : Nat) (y : Txn) : List Nat := s.darkHolders (t, y.key) (y.acked ++ y.open_)

/-- R97: RD of a TXREL: the status in [15:0], the logical index in [27:16]. -/
def relResult (c : BitVec 16) (i : BitVec 12) : Word := c.setWidth 64 ||| (i.setWidth 64 <<< 16)

/-- A TXREL or TXCAN completes on RD: the TXN event becomes pending (R106). -/
def Tile.txnDone (t : Tile) (rd : Nat) (v : Word) : Tile := (t.complete rd v).post 4

/-- A copy sent under a transaction: its handle, while it still carries that transaction, waits for the target's answer. -/
def State.txnSent (s : State) (t : Nat) (n : Option (Nat × Nat)) (target : Nat) : State :=
  match n with
  | none => s
  | some n => s.onTile t (fun x =>
      if (x.txn n.1).key = n.2 then x.setTxn n.1 { x.txn n.1 with open_ := (x.txn n.1).open_ ++ [target] } else x)

/-- The opener and key under which a transaction's copies land dark. -/
def darkKey (t : Nat) (n : Option (Nat × Nat)) : Option (Nat × Nat) := n.map (fun n => (t, n.2))

/-- The transaction of a dark copy is still live: a copy of any other is dropped on arrival (R548). -/
def State.darkLive (s : State) (d : Nat × Nat) : Bool :=
  let x := s.tile d.1
  [0, 1, 2, 3].any (fun h =>
    decide ((x.txn h).key = d.2) && (decide ((x.txn h).st = .opened) || decide ((x.txn h).st = .releasing)))
  || x.mcasts.any (fun m => decide (m.key = d.2))

/-- A transaction is cancelled (R548): its dark copies are dropped, a waiting TXREL completes with the status. -/
def State.txnCancel (s : State) (t h : Nat) (c : BitVec 16) (i : BitVec 12) : State :=
  let x := s.tile t
  let y := x.txn h
  if y.st = .opened ∨ y.st = .releasing then
    let us := s.txnHolders t y
    let s := us.foldl (fun s u => s.send u (.drop t y.key)) s
    let z : Txn := { y with st := .cancelled, status := c, index := i, dropped := true, drops := us.length, relRd := none }
    s.onTile t (fun x => match y.relRd with
      | some rd => (x.setTxn h {}).txnDone rd (relResult c i)
      | none => x.setTxn h z)
  else s

/-- What the state of handle `h` allows now: a release whose copies have all been acknowledged leaves; a TXCAN whose
operations have sent their copies drops them, and completes once every drop has arrived. -/
def State.txnSettle1 (s : State) (t h : Nat) : State :=
  let x := s.tile t
  let y := x.txn h
  match y.canRd with
  | some rd =>
    if x.txnUnsent h then s
    else if !y.dropped then
      let us := s.txnHolders t y
      let s := us.foldl (fun s u => s.send u (.drop t y.key)) s
      let y' := { y with st := TxnState.cancelled, dropped := true, drops := us.length }
      if us = [] then
        s.onTile t (fun x =>
          let x := (x.setTxn h {}).txnDone rd 0
          match y.relRd with
          | some r => x.txnDone r (Status.TXN_STATE.setWidth 64)
          | none => x)
      else s.onTile t (fun x => x.setTxn h y')
    else if y.drops = 0 then
      s.onTile t (fun x =>
        let x := (x.setTxn h {}).txnDone rd 0
        match y.relRd with
        | some r => x.txnDone r (Status.TXN_STATE.setWidth 64)
        | none => x)
    else s
  | none =>
    match y.st, y.relRd with
    | .releasing, some rd =>
      if y.open_ = [] ∧ !x.txnUnsent h then
        let s := y.acked.eraseDups.foldl (fun s u => s.send u (.txnRelease t y.key)) s
        s.onTile t (fun x => (x.setTxn h {}).txnDone rd 0)
      else s
    | _, _ => s

def State.txnSettle (s : State) (t : Nat) : State := [0, 1, 2, 3].foldl (fun s h => s.txnSettle1 t h) s

/-- The answer to a dark copy reaches the opener (R29, R548). -/
def State.txnAnswer (s : State) (t : Nat) (dark : Option (Nat × Nat)) (target : Nat) (c : BitVec 16) : State :=
  match dark with
  | none => s
  | some (_, key) =>
    match (s.tile t).handleOf key with
    | none => s
    | some h =>
      let y := (s.tile t).txn h
      let s := s.onTile t (fun x => x.setTxn h { y with
        open_ := y.open_.erase target, acked := if c = 0 then y.acked ++ [target] else y.acked })
      if c = 0 then s else s.txnCancel t h c (BitVec.ofNat 12 target)

/-- A queue window held by a dark copy lets go: at the release HEAD and OCCUPIED take the copy's slots, at a drop only
the credit returns (R233). -/
def Tile.unhold (t : Tile) (key : Nat × Nat) (take : Bool) : Tile :=
  t.wins.foldl (fun x e =>
    if e.2.held = some key then
      let d := e.2
      let k := ((t.darkOf key).filter (fun y => decide (d.base ≤ y) && decide (y < d.base + d.len))).length
      x.setWindow e.1 (if take then { d.advance k with held := none }
        else { d with held := none, granted := d.granted - k })
    else x) t

/-- Held writes return to the head of port 0 once no window holds them. -/
def Tile.retryHeld (t : Tile) : Tile := { t with writes := t.heldWrites ++ t.writes, heldWrites := [] }

/-- A release at its target (R232): dark bits clear and tags set in one cycle. -/
def Tile.applyRelease (t : Tile) (key : Nat × Nat) : Tile :=
  let xs := t.darkOf key
  (((t.unhold key true).setDark xs none).fillTags xs).retryHeld

/-- A drop at its target (R233): dark bits clear, tags stay clear, bytes remain. -/
def Tile.applyDrop (t : Tile) (key : Nat × Nat) : Tile :=
  let xs := t.darkOf key
  ((t.unhold key false).setDark xs none).retryHeld

/-- A drop has reached its target. -/
def State.dropArrived (s : State) (opener key : Nat) : State :=
  match (s.tile opener).handleOf key with
  | none => s
  | some h =>
    let y := (s.tile opener).txn h
    (s.onTile opener (fun x => x.setTxn h { y with drops := y.drops - 1 })).txnSettle1 opener h

end Sys2Proof.Machine
end

