-- ==== Sys2Proof/Machine/DmaOps.lean ====
section
/-! DEFINITION. DMA descriptors and the movement of an operation unit by unit (R98 to R100, R290 to R294, R549). -/
namespace Sys2Proof.Machine

/-! ### The descriptor (R98) -/
def dSrc (d : BitVec 256) : Nat := bits d.toNat 0 48
def dDst (d : BitVec 256) : Nat := bits d.toNat 64 48
def dWin (d : BitVec 256) : Nat := bits d.toNat 112 6
def dLen (d : BitVec 256) : Nat := bits d.toNat 128 32
def dWgen (d : BitVec 256) : BitVec 16 := BitVec.ofNat 16 (bits d.toNat 160 16)
def dDtag (d : BitVec 256) : Bool := bit d.toNat 176
def dStag (d : BitVec 256) : Bool := bit d.toNat 177
def dHalo (d : BitVec 256) : Bool := bit d.toNat 178
def dTgen (d : BitVec 256) : Nat := bits d.toNat 184 24
def dLepoch (d : BitVec 256) : Nat := bits d.toNat 208 8
/-- The bits that a DMA descriptor reserves are 0. -/
def dReservedOk (d : BitVec 256) : Bool :=
  decide (bits d.toNat 48 16 = 0 ∧ bits d.toNat 118 10 = 0 ∧ bits d.toNat 179 5 = 0 ∧ bits d.toNat 216 40 = 0)

def Region.isHbm : Region → Bool
  | .hbm _ => true
  | _ => false
/-- The region is the tile's own scratchpad. -/
def Region.isOwn (t : Nat) : Region → Bool
  | .spad u _ => decide (u = t)
  | _ => false
/-- The region is another tile's scratchpad. -/
def Region.isOther (t : Nat) : Region → Bool
  | .spad u _ => !decide (u = t)
  | _ => false

/-- `n` bytes of a region that a DMA engine may reach (R16, R26, R27): 0, or the refusing status. -/
def Region.dmaRight (n : Nat) : Region → BitVec 16
  | .unmapped => Status.ADDR_UNMAPPED
  | .hbm _ => 0
  | .spad _ _ => 0
  | .reg off => if bareReg off n then 0 else Status.ADDR_DENIED
  | _ => Status.ADDR_DENIED

/-- The refusal of a descriptor of tile `t` before anything moves (R27, R99, R290, R294, R300); 0 where it is taken. -/
def State.dmaCheck (s : State) (t : Nat) (d : BitVec 256) : BitVec 16 :=
  let n := dLen d
  let src := s.region (dSrc d) n
  let dst := s.region (dDst d) n
  if n = 0 || !dReservedOk d then Status.DMA_DESC
  else if (dDtag d && !dst.isOwn t) || (dStag d && !src.isOwn t) then Status.DMA_DESC
  else if (dDtag d && (dDst d % 256 ≠ 0 || n % 256 ≠ 0)) || (dStag d && (dSrc d % 256 ≠ 0 || n % 256 ≠ 0)) then
    Status.DMA_DESC
  else if dst.isOther t && (dDst d % 256 ≠ 0 || n % 256 ≠ 0) then Status.DMA_DESC
  else if dHalo d && !src.isHbm && !dst.isHbm then Status.DMA_DESC
  else if dHalo d && src.isHbm && dst.isHbm && (dTgen d ≠ 0 || dLepoch d ≠ 0) then Status.DMA_DESC
  else if src.dmaRight n ≠ 0 then src.dmaRight n
  else if dst.dmaRight n ≠ 0 then dst.dmaRight n
  else if dHalo d && (n % 4096 ≠ 0 || (src.isHbm && dSrc d % 4096 ≠ 0) || (dst.isHbm && dDst d % 4096 ≠ 0)) then
    Status.HALO_ALIGN
  else 0

/-- The refusal that the span as a whole meets when the operation starts: a HALO = 0 span that touches a version region,
an HBM to HBM span that does (R294), a read whose generation no slot holds (R300). -/
def State.spanCheck (s : State) (d : BitVec 256) : BitVec 16 :=
  let n := dLen d
  let src := s.region (dSrc d) n
  let dst := s.region (dDst d) n
  let hits (r : Region) (a : Nat) : Bool := r.isHbm && s.touchesRegion a n
  if !dHalo d && (hits src (dSrc d) || hits dst (dDst d)) then Status.GEN_ADDR
  else if src.isHbm && dst.isHbm && (hits src (dSrc d) || hits dst (dDst d)) then Status.GEN_ADDR
  else if dHalo d && src.isHbm && !dst.isHbm then
    let c := (s.resolveRead (dSrc d / 4096) (dTgen d)).1
    if c = Status.GEN_RETIRED ∨ c = Status.GEN_UNKNOWN then c else 0
  else 0

/-! ### Units (R549) -/

/-- How much of a range of `n` bytes at `a` a unit may take on a side of the transfer. -/
def sideLimit (r : Region) (t : Nat) (a n : Nat) : Nat :=
  match r with
  | .hbm _ => min n (4096 - a % 4096)
  | .spad u _ => if u = t then n else min n 8192
  | _ => n

/-- The length of the next unit of an operation that has moved `m` bytes: a block with HALO = 1, else a tagged piece of up to
four slots, else what both sides take at once. -/
def State.unitLen (s : State) (t : Nat) (d : BitVec 256) (m : Nat) : Nat :=
  let left := dLen d - m
  if dHalo d then min left 4096
  else if dStag d || dDtag d then min left 1024
  else sideLimit (s.region (dSrc d) 1) t (dSrc d + m) (sideLimit (s.region (dDst d) 1) t (dDst d + m) left)

/-- How many of the `n` bytes still to be handled one access takes on a side: four slots under a tag (R99). -/
def pieceLen (tag : Bool) (n : Nat) : Nat := if tag then min n 1024 else n

/-- A range of at most 4 KiB, block by block. -/
def hbmParts (a n : Nat) : List (Nat × Nat) :=
  let k := min n (4096 - a % 4096)
  if k = n then [(a, n)] else [(a, k), (a + k, n - k)]

/-- Parts of blocks read without their Halos: the bytes, the ORIGIN of the first poisoned block (R292). -/
def State.readParts (s : State) : List (Nat × Nat) → State × List Byte × Option Nat
  | [] => (s, [], none)
  | p :: ps =>
    let r := s.readPart p.1 p.2
    let q := r.st.readParts ps
    (q.1, r.data ++ q.2.1, if haloPoison r.halo then some (haloOrigin r.halo) else q.2.2)

/-- Parts of blocks written without their Halos; a poisoned source poisons them (R292). -/
def State.writeParts (s : State) (bs : List Byte) (o : Option Nat) : List (Nat × Nat) → State
  | [] => s
  | p :: ps =>
    let s := s.writePart p.1 (bs.take p.2)
    (match o with | some o => s.poison (p.1 / 4096) o | none => s).writeParts (bs.drop p.2) o ps

/-- An access at address `a` has ended with `c`: SPAD_UE is charged to the tile whose scratchpad it met (R46). -/
def State.chargeAt (s : State) (a : Nat) (c : BitVec 16) : State :=
  match s.region a 1 with
  | .spad u _ => s.chargeSpad u c
  | _ => s

/-- `n` bytes at `a` read for a descriptor; tags are not looked at here. -/
def State.readUnit (s : State) (d : BitVec 256) (a n : Nat) : State × BitVec 16 × UnitData :=
  match s.region a n with
  | .spad u off =>
    if (s.tile u).fld TILE.CORE_READY ≠ 1 then (s, Status.DOMAIN_RESET, ⟨[], none, none⟩)
    else
      let r := (s.tile u).spadRead off n
      (s.setTile u r.1, r.2.1, ⟨r.2.2, none, none⟩)
  | .hbm _ =>
    let blk := a / 4096
    let toHbm := (s.region (dDst d) 1).isHbm
    if !(s.servedBlocks (dHalo d) a n (dTgen d)).all s.channelReady then (s, Status.DOMAIN_RESET, ⟨[], none, none⟩)
    else if dHalo d then
      let r := if toHbm then s.readBlock blk 0 0 else s.readBlock blk (dTgen d) (dLepoch d)
      let bad := haloPoison r.halo
      if r.status ≠ 0 then (r.st, r.status, ⟨[], none, none⟩)
      else if bad && !toHbm then (r.st, Status.POISON_CONSUMED, ⟨[], none, none⟩)
      else (r.st, 0, ⟨r.data, some r.halo, if bad then some (haloOrigin r.halo) else none⟩)
    else
      let r := s.readParts (hbmParts a n)
      if r.2.2.isSome && !toHbm then (r.1, Status.POISON_CONSUMED, ⟨[], none, none⟩) else (r.1, 0, ⟨r.2.1, none, r.2.2⟩)
  | .reg _ => (s.setFld HIF.UNMAPPED 1, 0, ⟨List.replicate n 0, none, none⟩)
  | _ => (s, Status.ADDR_UNMAPPED, ⟨[], none, none⟩)

/-! ### Mirror mode (R469) -/

/-- The module's job runs in Mirror mode (bit 14 of its campaign). -/
def State.mirrored (s : State) : Bool :=
  match s.lh.cur with
  | some k => (s.lh.jobs.filter (fun j => decide (j.id = k))).any (fun j => bit (ofBytes (j.camp.take 4)) 14)
  | none => false

/-- A running CRC-64/XZ taken on over more bytes. -/
def crc64More (c : Word) (bs : List Byte) : Word :=
  BitVec.ofNat 64 (crcRun 0xC96C5795D7870F42 (c.toNat ^^^ 0xFFFFFFFFFFFFFFFF) bs ^^^ 0xFFFFFFFFFFFFFFFF)

/-- Bytes as lines of 128, each preceded by its 48-bit target address. -/
def mirrorLines : Nat → Nat → List Byte → List Byte
  | 0, _, _ => []
  | n + 1, a, bs => bytesOf a 6 ++ bs.take 128 ++ mirrorLines n (a + 128) (bs.drop 128)

/-- What tile `t` sends or writes outside its scratchpad folded into its CRC. -/
def State.foldMirror (s : State) (t a : Nat) (bs : List Byte) : State :=
  if !s.mirrored then s
  else
    let c := crc64More (Map.get 0 s.rel.mirrorCrc t) (mirrorLines ((bs.length + 127) / 128) a bs)
    { s with rel := { s.rel with mirrorCrc := Map.set 0 s.rel.mirrorCrc t c } }

/-- A write into another tile's scratchpad on its way (R60): the target's router answers for a core in reset (R38). -/
def State.postWrite (s : State) (target : Nat) (w : RemoteWrite) (from_ : Nat) : State :=
  if (s.tile target).fld TILE.CORE_READY = 1 then
    s.onTile target (fun x => { x with writes := x.writes ++ [w] })
  else s.send from_ (.answer w.sender target Status.DOMAIN_RESET w.dark)

/-- Bytes written at `a` for operation `id`. A write into another tile is sent, dark under the operation's transaction, and
answered later. One into the tile's own scratchpad is no copy at a target: TX does not darken it, and DTAG sets its tags at
once (DESIGN CHOICE, log 99). -/
def State.writeUnit (s : State) (t id : Nat) (d : BitVec 256) (txn : Option (Nat × Nat)) (a : Nat) (u : UnitData) :
    State × BitVec 16 :=
  match s.region a u.data.length with
  | .spad v off =>
    if v = t then
      if dDtag d then s.serveStore t (off / 256) (u.data.length / 256) u.data
      else
        let r := (s.tile t).spadWrite off u.data
        (s.setTile t r.1, r.2)
    else
      let s := (s.foldMirror t a u.data).onTile t (fun x =>
        { x with dma := x.dma.map (fun o => if o.id = id then { o with unacked := o.unacked + 1 } else o) })
      let s := s.txnSent t txn v
      (s.postWrite v ⟨.dma (s.stamp t) id, dWin d, dWgen d, off / 256, true, u.data, darkKey t txn, none⟩ t, 0)
  | .hbm _ =>
    let blk := a / 4096
    let s := s.foldMirror t a u.data
    if !(s.servedBlocks (dHalo d) a u.data.length (dTgen d)).all s.channelReady then (s, Status.DOMAIN_RESET)
    else match u.halo with
      | some h => ((s.storeBlock blk u.data h), 0)
      | none =>
        if dHalo d then s.writeBlock blk u.data (dTgen d) (dLepoch d) u.poison
        else (s.writeParts u.data u.poison (hbmParts a u.data.length), 0)
  | .reg _ => (s.setFld HIF.UNMAPPED 1, 0)
  | _ => (s, Status.ADDR_UNMAPPED)

/-- How an attempt to move an operation on went. -/
inductive Moved where
  | went
  | parked
  | waits
  | ended
  deriving DecidableEq, Repr

/-- The operation `id` of tile `t` with `f` applied. -/
def Tile.onOp (t : Tile) (id : Nat) (f : DmaOp → DmaOp) : Tile :=
  { t with dma := t.dma.map (fun o => if o.id = id then f o else o) }

/-- The operation ends with a status: it moves nothing more. -/
def State.dmaFail (s : State) (t id : Nat) (c : BitVec 16) : State × Moved :=
  let s := s.onTile t (fun x => x.onOp id (fun o => { o with status := some c }))
  (if c = Status.POISON_CONSUMED then s.endJob c else s, .ended)

/-- The HBM blocks of the unit of `n` bytes in hand: those of its source, those of its destination. -/
def State.unitBlocks (s : State) (o : DmaOp) (n : Nat) : List Nat :=
  let side (a : Nat) : List Nat :=
    if (s.region a n).isHbm then s.servedBlocks (dHalo o.desc) a n (dTgen o.desc) else []
  side (dSrc o.desc + o.moved) ++ side (dDst o.desc + o.moved)

/-- A tagged piece of operation `o` parks on port 1, unless that port's entries are all in use (R51). -/
def State.dmaPark (s : State) (t : Nat) (o : DmaOp) (kind : TagKind) (slot k : Nat) : State × Moved :=
  if 4 ≤ (s.tile t).parkedOn 1 then (s, .waits)
  else (s.onTile t (fun x => { x with parked := x.parked ++ [⟨1, kind, slot, k, .dma o.id⟩] }), .parked)

/-- The next piece of the unit of `n` bytes in hand is read. With the last byte of the source read, SYNCM 2 signals (R95). -/
def State.dmaReadPiece (s : State) (t : Nat) (o : DmaOp) (u : UnitData) (n : Nat) : State × Moved :=
  let d := o.desc
  let m := u.data.length
  let a := dSrc d + o.moved + m
  let k := pieceLen (dStag d) (n - m)
  let slot := a % 0x10_0000 / 256
  if dStag d && !(s.tile t).tagReady .consume slot (k / 256) then s.dmaPark t o .consume slot (k / 256)
  else
    let r := s.readUnit d a k
    if r.2.1 ≠ 0 then
      let q := r.1.dmaFail t o.id r.2.1
      (q.1.chargeAt a r.2.1, q.2)
    else
      let s := if dStag d then r.1.onTile t (fun x => x.setTags slot (k / 256) false) else r.1
      let v : UnitData := ⟨u.data ++ r.2.2.data, r.2.2.halo, r.2.2.poison⟩
      let s := s.onTile t (fun x => x.onOp o.id (fun o => { o with got := some v }))
      (if o.syncm = 2 ∧ o.moved + m + k = dLen d then s.signal t o.sem else s, .went)

/-- The next piece of the unit `u` of `n` bytes is written; after the last one the unit has moved. -/
def State.dmaWritePiece (s : State) (t : Nat) (o : DmaOp) (u : UnitData) (n : Nat) : State × Moved :=
  let d := o.desc
  let b := dDst d + o.moved + o.put
  let k := pieceLen (dDtag d) (n - o.put)
  let slot := b % 0x10_0000 / 256
  if dDtag d && !(s.tile t).tagReady .store slot (k / 256) then s.dmaPark t o .store slot (k / 256)
  else
    let q := s.writeUnit t o.id d o.txn b { u with data := (u.data.drop o.put).take k }
    if q.2 ≠ 0 then
      let r := q.1.dmaFail t o.id q.2
      (r.1.chargeAt b q.2, r.2)
    else
      let done := decide (o.put + k = n)
      (q.1.onTile t (fun x => x.onOp o.id (fun o =>
        if done then { o with got := none, put := 0, moved := o.moved + n, readDone := decide (o.moved + n = dLen d) }
        else { o with put := o.put + k })), .went)

/-- One request of operation `o` on port 1 or into the mesh (R80, R549): a piece of its unit is read, and written where that
completes the unit, or a piece is written. It waits while a stack of its unit serves nothing (R287), and comes behind what the
channels of its blocks have accepted (R279). -/
def State.dmaUnit (s : State) (t : Nat) (o : DmaOp) : State × Moved :=
  let n := s.unitLen t o.desc o.moved
  let bs := s.unitBlocks o n
  if bs.any s.stackAsleep then (s, .waits)
  else if !bs.all (fun b => s.reaches t b) then s.dmaFail t o.id Status.ADDR_UNMAPPED
  else
    let s := bs.foldl State.serveBefore s
    let u : UnitData := o.got.getD ⟨[], none, none⟩
    if u.data.length < n then
      let r := s.dmaReadPiece t o u n
      match r.2, (r.1.tile t).dma.find? (fun p => p.id = o.id) with
      | .went, some p =>
        match p.got with
        | some v => if v.data.length < n then r else r.1.dmaWritePiece t p v n
        | none => r
      | _, _ => r
    else s.dmaWritePiece t o u n

/-- The operation a queue carries (R80): its first. -/
def Tile.current (t : Tile) (que : Nat) : Option DmaOp := t.dma.find? (fun o => o.que = que)

/-- The operation of a queue that the engine can move on: started, not over, not parked. -/
def Tile.dmaReady (t : Tile) (que : Nat) : Option DmaOp :=
  (t.current que).filter (fun o => o.started && !o.readDone && o.status.isNone
    && !t.parked.any (fun p => decide (p.user = .dma o.id)))

/-- The queue's turn (R12): one request of its operation, and the pointer goes past the queue. -/
def State.dmaServe (s : State) (t que : Nat) : State × Bool :=
  match (s.tile t).dmaReady que with
  | none => (s, false)
  | some o =>
    let r := s.dmaUnit t o
    if r.2 = .waits then (r.1, false) else (r.1.onTile t (fun x => { x with dmaNext := (que + 1) % 4 }), true)

/-- The first of the listed queues that has a request is served. -/
def State.dmaFirst (s : State) (t : Nat) : List Nat → State × Bool
  | [] => (s, false)
  | q :: qs =>
    let r := s.dmaServe t q
    if r.2 then r else r.1.dmaFirst t qs

/-- The engine serves the four queues, one request at a time under R12's pointer, until the operation of queue `que` needs or
gets nothing more: `fuel` bounds the requests. -/
def State.dmaRun (s : State) (t que : Nat) : Nat → State
  | 0 => s
  | fuel + 1 =>
    if ((s.tile t).dmaReady que).isNone then s
    else
      let r := s.dmaFirst t ((List.range 4).map (fun i => ((s.tile t).dmaNext + i) % 4))
      if r.2 then r.1.dmaRun t que fuel else r.1

/-- Enough requests for every operation of the tile: each moves at least one byte on one side. -/
def Tile.dmaFuel (t : Tile) : Nat := (t.dma.map (fun o => 2 * dLen o.desc)).sum

/-- Operations in a queue. The one in flight holds its place among the 16 until it ends (DESIGN CHOICE, log 99). -/
def Tile.queued (t : Tile) (que : Nat) : Nat := (t.dma.filter (fun o => decide (o.que = que))).length

/-- A queue that became empty: DMA_DONE is pending, and a DMAWT on it completes with the first non-success status since
the previous DMAWT (R100, R106). -/
def Tile.queueEmpty (t : Tile) (que : Nat) : Tile :=
  if t.queued que ≠ 0 then t
  else
    let t := t.post 2
    match t.stall with
    | .dmawt q rd =>
      if q = que then
        { t.putS rd ((Map.get 0 t.dmaStatus que).setWidth 64) with
          stall := .none, dmaStatus := Map.set 0 t.dmaStatus que 0 }
      else t
    | _ => t

/-- An operation ends (R95, R100): its status, its SYNCM 1 signal, the signals and the transaction that waited for it. -/
def State.dmaFinish (s : State) (t : Nat) (o : DmaOp) : State :=
  let c : BitVec 16 := o.status.getD (if o.late then Status.SCHED_LATE else 0)
  let s := s.onTile t (fun x =>
    let x := { x with
      dma := x.dma.filter (fun p => decide (p.id ≠ o.id))
      dmaStatus := if Status.ok c ∨ Map.get 0 x.dmaStatus o.que ≠ 0 then x.dmaStatus
        else Map.set 0 x.dmaStatus o.que c
      dmaFails := if Status.ok c then x.dmaFails else x.dmaFails ++ [(o.que, o.id, c)] }
    (x.sigOpGone o.id (some c)).queueEmpty o.que)
  let s := if Status.ok c && decide (o.syncm = 1) then s.signal t o.sem else s
  (s.sigDrain t (s.tile t).sigs).txnSettle t

/-- Everything of the operation has moved and every write it sent has been answered, or it failed and has. -/
def DmaOp.ended (o : DmaOp) : Bool := (o.readDone || o.status.isSome) && decide (o.unacked = 0)

end Sys2Proof.Machine
end

