-- ==== Sys2Proof/Machine/XchOps.lean ====
section
/-! DEFINITION. The exchange engine: its queue, windows and credits, dynamic messages and multicasts, compiled phases
(chapters 02 and 08). -/
namespace Sys2Proof.Machine

/-! ### Reports of a phase -/

/-- A status of a compiled phase reaches Lighthouse (R218), with the tile, its superstep count and the record, where a record
raised it: EXCH_OK is lost. -/
def State.reportPhase (s : State) (t : Nat) (c : BitVec 16) (record : Option Nat) : State :=
  s.addCause { bit := 4, status := c, tile := t, sstep := (s.tile t).rd TILE.SSTEP.off, record := record }

/-- The first status of the running phase other than EXCH_LATE (R216), reported (R218). -/
def State.phaseStatus (s : State) (t : Nat) (c : BitVec 16) (record : Option Nat) : State :=
  if c = 0 ∨ c = Status.EXCH_LATE then s
  else
    (s.onTile t (fun x => { x with phase := x.phase.map (fun p => { p with first := some (p.first.getD c) }) })).reportPhase t c
      record

/-! ### Credits (R64) -/

def Credit.is (c : Credit) (m : BitVec 14) (tile win : Nat) : Bool :=
  decide (c.module = m) && decide (c.tile = tile) && decide (c.win = win)

/-- The entry of the credit table for a target tile of this module and a window. -/
def State.credit (s : State) (t target win : Nat) : Option Credit :=
  (s.tile t).credits.find? (fun c => c.is s.self target win)

/-- The engine holds `k` credits for the target: those of the entry for the target and the window, whatever generation the
message itself names, which the target judges (DESIGN CHOICE, log 102). -/
def State.hasCredit (s : State) (t target win k : Nat) : Bool :=
  match s.credit t target win with
  | some c => decide (k ≤ c.count)
  | none => false

def State.useCredit (s : State) (t target win k : Nat) : State :=
  s.onTile t (fun x => { x with credits := x.credits.map (fun c =>
    if c.is s.self target win then { c with count := c.count - k } else c) })

/-! ### Dynamic messages (R101, R230, R231) -/

/-- The entries of a target list (R220): target, window, generation, first slot, and whether a reserved bit is set. -/
def listEntries (bs : List Byte) : Nat → List (Nat × Nat × Nat × Nat × Bool)
  | 0 => []
  | n + 1 =>
    let e := ofBytes (bs.take 8)
    (bits e 0 12, bits e 12 6, bits e 32 16, bits e 48 12, decide (bits e 18 14 ≠ 0 ∨ bits e 60 4 ≠ 0)) ::
      listEntries (bs.drop 8) n

/-- Slices of at most 32 slots. -/
def sliceWrites : Nat → List Byte → List (List Byte)
  | 0, _ => []
  | fuel + 1, bs => if bs.length ≤ 8192 then [bs] else bs.take 8192 :: sliceWrites fuel (bs.drop 8192)

/-- A dynamic message's RD: the status in [15:0], the failing target in [27:16]. -/
def mcResult (c : BitVec 16) (target : Nat) : Word := BitVec.ofNat 64 (c.toNat + (if c = 0 then 0 else target * 2 ^ 16))

/-- The message with key `k` changed. -/
def Tile.onMcast (t : Tile) (k : Nat) (f : Mcast → Mcast) : Tile :=
  { t with mcasts := t.mcasts.map (fun m => if m.key = k then f m else m) }
def Tile.dropMcast (t : Tile) (k : Nat) : Tile := { t with mcasts := t.mcasts.filter (fun m => decide (m.key ≠ k)) }

/-- The transaction key under which a message's copies land dark: its transaction's, its own for a multicast. -/
def Mcast.dark (m : Mcast) (t : Nat) : Option (Nat × Nat) :=
  match m.txn with
  | some n => darkKey t (some n)
  | none => if m.multi then some (t, m.key) else none

/-- One copy leaves: credits taken, the write posted at its target. -/
def State.sendCopy (s : State) (t : Nat) (m : Mcast) (gen : BitVec 16) (target win : Nat) : State :=
  let st := s.stamp t
  let s := (s.useCredit t target win m.slots).txnSent t m.txn target
  let s := s.foldMirror t (Config.windowAddress s.self.toNat target win 0).toNat m.data
  (sliceWrites (m.data.length / 8192 + 1) m.data).foldl (fun s bs =>
    s.postWrite target ⟨if m.multi then .mcast st m.key else .message st m.key, win, gen, 0, false, bs, m.dark t, none⟩ t) s

/-- The stalled branches that have credit now leave (R231). A branch that waited for it ends its wait: `waited`, the TAG event
(R106). -/
def State.resumeBranches (s : State) (t key : Nat) (waited : Bool) : List (Nat × Nat) → State
  | [] => s
  | (target, win) :: rest =>
    match (s.tile t).mcasts.find? (fun m => m.key = key) with
    | none => s
    | some m =>
      let s := if s.hasCredit t target win m.slots then
          let g := match s.credit t target win with | some c => c.gen | none => 0
          (s.onTile t (fun x => (if waited then x.post 3 else x).onMcast key (fun m =>
            { m with stalled := m.stalled.erase (target, win), sent := m.sent ++ [(target, win)] }))).sendCopy t m g target win
        else s
      s.resumeBranches t key waited rest

/-- A message that is over: RD, its SYNCM 1 signal. -/
def State.mcDone (s : State) (t : Nat) (m : Mcast) (c : BitVec 16) (target : Nat) : State :=
  let s := s.onTile t (fun x => (x.dropMcast m.key).complete m.rd (mcResult c target))
  if c = 0 && decide (m.syncm = 1) then s.signal t m.sem else s

/-- A multicast is cancelled (R231): RD names the failing target; its dark copies are dropped, wherever one has landed. One under
a handle cancels the transaction, where the handle still carries it. -/
def State.mcCancel (s : State) (t : Nat) (m : Mcast) (c : BitVec 16) (target : Nat) : State :=
  let s := s.mcDone t m c target
  match m.txn with
  | some n =>
    if ((s.tile t).txn n.1).key = n.2 then s.txnCancel t n.1 c (BitVec.ofNat 12 target) else s
  | none => (s.darkHolders (t, m.key) ((m.acked ++ m.sent).map (·.1))).foldl (fun s u => s.send u (.drop t m.key)) s

/-- Every target has acknowledged: the release leaves (TX = 0), or the handle has the copies (TX = 1). -/
def State.mcSettle (s : State) (t key : Nat) : State :=
  match (s.tile t).mcasts.find? (fun m => m.key = key) with
  | none => s
  | some m =>
    if m.stalled = [] ∧ m.sent = [] then
      let s := if m.multi && m.txn.isNone then m.acked.foldl (fun s u => s.send u.1 (.txnRelease t m.key)) s else s
      s.mcDone t m 0 0
    else s

/-- The XSEND descriptor's own fields (R230). -/
def dMc (d : BitVec 256) : Nat := bits d.toNat 216 2
def dLcm1 (d : BitVec 256) : Nat := bits d.toNat 218 6
def dList (d : BitVec 256) : Nat := bits d.toNat 224 20

/-- A unicast XSEND descriptor: R99's limits, DST in another tile's scratchpad; the multicast fields 0. -/
def State.xsendCheck (s : State) (t : Nat) (d : BitVec 256) : BitVec 16 :=
  let c := s.dmaCheck t d
  if c ≠ 0 then c
  else if (s.region (dDst d) (dLen d)).isOther t then 0 else Status.DMA_DESC

/-- The limits of a multicast descriptor (R230), its list read. -/
def State.mcForm (s : State) (t : Nat) (d : BitVec 256) (es : List (Nat × Nat × Nat × Nat × Bool)) : BitVec 16 :=
  let n := dLen d
  if dMc d ≠ 1 ∨ bits d.toNat 244 12 ≠ 0 ∨ dDst d ≠ 0 ∨ dWin d ≠ 0 ∨ dWgen d ≠ 0 ∨ n = 0 ∨ n % 256 ≠ 0 ∨ 8192 < n
    ∨ dList d % 64 ≠ 0 ∨ spadSize < dList d + 8 * (dLcm1 d + 1) then Status.MCAST_FORM
  else if dDtag d || dStag d || dHalo d || !(s.region (dSrc d) n).isOwn t || bits d.toNat 48 16 ≠ 0
    || bits d.toNat 118 10 ≠ 0 || bits d.toNat 179 5 ≠ 0 then Status.MCAST_FORM
  else if es.any (fun e => e.2.2.2.2 || e.2.2.1 ≠ 0 || e.2.2.2.1 ≠ 0 || e.1 = t || s.tileCount ≤ e.1) then Status.MCAST_FORM
  else if (es.map (·.1)).eraseDups.length ≠ es.length then Status.MCAST_FORM
  else 0

/-- The source of a message, whose blocks of `n` bytes from `a` on are read unit by unit (R549); the first status ends it. -/
def State.readSource (s : State) (t : Nat) (d : BitVec 256) (m : Nat) : Nat → State × BitVec 16 × List Byte
  | 0 => (s, 0, [])
  | fuel + 1 =>
    if dLen d ≤ m then (s, 0, [])
    else
      let a := dSrc d + m
      let n := if dHalo d then 4096 else sideLimit (s.region (dSrc d) 1) t a (dLen d - m)
      let bs := if (s.region a n).isHbm then s.servedBlocks (dHalo d) a n (dTgen d) else []
      if !bs.all (fun b => s.reaches t b) then (s, Status.ADDR_UNMAPPED, [])
      else
        let r := (bs.foldl State.serveBefore s).readUnit d a n
        if r.2.1 ≠ 0 then (r.1.chargeAt a r.2.1, r.2.1, [])
        else
          let q := r.1.readSource t d (m + n) fuel
          (q.1, q.2.1, r.2.2.data ++ q.2.2)

/-- A stack that a message's source lies on serves nothing (R287). -/
def State.sourceAsleep (s : State) (d : BitVec 256) : Bool :=
  (s.region (dSrc d) (dLen d)).isHbm && (s.servedBlocks (dHalo d) (dSrc d) (dLen d) (dTgen d)).any s.stackAsleep

/-- The pieces of a tagged source that can be consumed now, after the `m` bytes taken: consuming loads of port 0 of up to four
slots (R49, R101). The next one parks where its slots are not full. A status ends it. -/
def State.readTagged (s : State) (t : Nat) (d : BitVec 256) (got : List Byte) : Nat → State × BitVec 16 × List Byte
  | 0 => (s, 0, got)
  | fuel + 1 =>
    if dLen d ≤ got.length then (s, 0, got)
    else
      let k := min 1024 (dLen d - got.length)
      let off := dSrc d % 0x10_0000 + got.length
      let x := s.tile t
      if !x.tagReady .consume (off / 256) (k / 256) then
        if x.parked.any (fun p => decide (p.user = .xsend)) then (s, 0, got)
        else (s.setTile t { x with parked := x.parked ++ [⟨0, .consume, off / 256, k / 256, .xsend⟩] }, 0, got)
      else
        let r := x.spadRead off k
        if r.2.1 ≠ 0 then ((s.setTile t r.1).chargeSpad t r.2.1, r.2.1, got)
        else (s.setTile t (r.1.setTags (off / 256) (k / 256) false)).readTagged t d (got ++ r.2.2) fuel

/-- How far the instruction at the head of the exchange queue got: it is over, or it waits. -/
inductive Turn where
  | over (s : State)
  | waits (s : State)

/-- An XCH instruction ends with a status in RD. -/
def State.xchEnds (s : State) (t rd : Nat) (c : BitVec 16) : Turn :=
  .over (s.onTile t (fun x => x.complete rd (c.setWidth 64)))

/-- A message of `data` to the listed targets enters the engine: its record, under a key of its own. -/
def State.newMessage (s : State) (t : Nat) (q : QInsn) (multi : Bool) (data : List Byte) (slots : Nat)
    (stalled sent : List (Nat × Nat)) : State × Mcast :=
  let key := s.key
  let m : Mcast := {
    key := key.1, multi := multi, rd := bits q.w.toNat 43 5, data := data, slots := slots, stalled := stalled, sent := sent
    acked := [], txn := q.txn, syncm := bits q.w.toNat 26 2, sem := q.sem }
  (key.2.onTile t (fun x => { x with mcasts := x.mcasts ++ [m], xsend := none, creditWait := false }), m)

/-- SYNCM 2 of a message whose source has been read (R95). -/
def State.sentSignal (s : State) (t : Nat) (m : Mcast) : State := if m.syncm = 2 then s.signal t m.sem else s

/-- A unicast XSEND with descriptor `d` at the head of the queue (R64, R101): it waits for its credits, then for its source. -/
def State.runUnicast (s : State) (t : Nat) (q : QInsn) (d : BitVec 256) : Turn :=
  let x := s.tile t
  let rd := bits q.w.toNat 43 5
  let c := s.xsendCheck t d
  if c ≠ 0 then s.xchEnds t rd c
  else if q.txn.any (fun n => !x.txnTakes n) then s.xchEnds t rd Status.TXN_STATE
  else match s.region (dDst d) (dLen d) with
    | .spad u _ =>
      let k := (dLen d + 255) / 256
      let span := s.spanCheck d
      if span ≠ 0 then s.xchEnds t rd span
      else if !s.hasCredit t u (dWin d) k then .waits (s.setTile t { x with creditWait := true })
      else
        let s := s.setTile t { (if x.creditWait then x.post 3 else x) with creditWait := false }
        let go (s : State) (data : List Byte) : Turn :=
          let sent := (sliceWrites (dLen d / 8192 + 1) data).map (fun _ => (u, dWin d))
          let r := s.newMessage t q false data k [] sent
          .over ((r.1.sendCopy t r.2 (dWgen d) u (dWin d)).sentSignal t r.2)
        if dStag d then
          let v := s.readTagged t d (x.xsend.getD []) (dLen d)
          if v.2.1 ≠ 0 then (v.1.onTile t (fun x => { x with xsend := none })).xchEnds t rd v.2.1
          else if v.2.2.length < dLen d then .waits (v.1.onTile t (fun x => { x with xsend := some v.2.2 }))
          else go v.1 v.2.2
        else if s.sourceAsleep d then .waits s
        else
          let v := s.readSource t d 0 (dLen d)
          if v.2.1 ≠ 0 then
            (if v.2.1 = Status.POISON_CONSUMED then v.1.endJob v.2.1 else v.1).xchEnds t rd v.2.1
          else go v.1 v.2.2
    | _ => s.xchEnds t rd Status.DMA_DESC

/-- A multicast XSEND with descriptor `d` at the head of the queue (R230, R231); it waits while eight multicasts run. -/
def State.runMulticast (s : State) (t : Nat) (q : QInsn) (d : BitVec 256) : Turn :=
  let x := s.tile t
  let rd := bits q.w.toNat 43 5
  if 8 ≤ (x.mcasts.filter (·.multi)).length then .waits s
  else
    let l := x.spadRead (dList d) (8 * (dLcm1 d + 1))
    let es := listEntries l.2.2 (dLcm1 d + 1)
    let c := s.mcForm t d es
    if c ≠ 0 then s.xchEnds t rd c
    else if l.2.1 ≠ 0 then ((s.setTile t l.1).chargeSpad t l.2.1).xchEnds t rd l.2.1
    else if q.txn.any (fun n => !x.txnTakes n) then s.xchEnds t rd Status.TXN_STATE
    else
      let v := s.readUnit d (dSrc d) (dLen d)
      if v.2.1 ≠ 0 then (v.1.chargeAt (dSrc d) v.2.1).xchEnds t rd v.2.1
      else
        let targets := es.map (fun e => (e.1, e.2.1))
        let r := v.1.newMessage t q true v.2.2.data (dLen d / 256) targets []
        .over ((r.1.resumeBranches t r.2.key false targets).sentSignal t r.2)

/-- XSEND at the head of the exchange queue. None begins while a multicast has a stalled branch. -/
def State.runXsend (s : State) (t : Nat) (q : QInsn) : Turn :=
  let x := s.tile t
  let r := x.spadRead q.a.toNat 32
  let d := BitVec.ofNat 256 (ofBytes r.2.2)
  if x.mcasts.any (fun m => !m.stalled.isEmpty) then .waits s
  else if r.2.1 ≠ 0 then ((s.setTile t r.1).chargeSpad t r.2.1).xchEnds t (bits q.w.toNat 43 5) r.2.1
  else if dMc d = 0 then s.runUnicast t q d
  else s.runMulticast t q d

/-! ### Windows (R57, R65, R69, R90) -/

def fIMMw (w : BitVec 52) : Nat := fIMM12 w % 64

/-- The range overlaps another window that is open or closing (R57). -/
def Tile.winOverlaps (t : Tile) (win base len : Nat) : Bool :=
  t.wins.any (fun e => decide (e.1 ≠ win) && decide (e.2.st ≠ .closed)
    && decide (base < e.2.base + e.2.len) && decide (e.2.base < base + len))

/-- WOPEN: RD takes the status and the generation. -/
def Tile.wopen (t : Tile) (q : QInsn) : Tile :=
  let win := fIMMw q.w
  let d := t.window win
  let queue := (fIMM12 q.w).testBit 6
  let rd := fRD q.w
  let base := q.a.toNat
  let len := q.b.toNat
  let bad := d.st ≠ .closed || len = 0 || decide (base + len > 2560) || t.winOverlaps win base len
    || (queue && anyRun t.tags base len)
  if bad then t.complete rd (BitVec.ofNat 64 (Status.WIN_STATE.toNat + d.gen.toNat * 2 ^ 16))
  else
    (t.setWindow win { d with
      base := base, len := len, queue := queue, st := .opened, head := 0, tail := 0, occupied := 0, granted := 0
      held := none }).complete rd (BitVec.ofNat 64 (d.gen.toNat * 2 ^ 16))

/-- A close begins (R69, R70): the generation advances, granted credit is void. -/
def Tile.beginClose (t : Tile) (win : Nat) : Tile :=
  let d := t.window win
  t.setWindow win { d with gen := d.gen + 1, st := .closing, granted := 0 }

/-- WGRANT: an accepted grant travels to its sender (R65, R550). One that names a logical index which this module's map does not
hold is refused with ADDR_UNMAPPED (DESIGN CHOICE, log 103); one to a core in reset comes back with DOMAIN_RESET (R38). -/
def State.runWgrant (s : State) (t : Nat) (q : QInsn) : State :=
  let x := s.tile t
  let win := fIMMw q.w
  let d := x.window win
  let rd := fRD q.w
  let m := q.b.toNat
  let sender := q.a.toNat % 2 ^ 12
  let mod : BitVec 14 := BitVec.ofNat 14 (q.a.toNat / 2 ^ 16)
  let fin (c : BitVec 16) : State := s.onTile t (fun x => x.complete rd (c.setWidth 64))
  if d.st ≠ .opened || !d.queue then fin Status.WIN_STATE
  else if m = 0 ∨ d.pool < m then fin Status.CREDIT_RANGE
  else if mod = s.self ∧ s.tileCount ≤ sender then fin Status.ADDR_UNMAPPED
  else
    let st := s.stamp t
    let s := s.setTile t { x.setWindow win { d with granted := d.granted + m } with grantsOut := x.grantsOut + 1 }
    if mod = s.self then
      if (s.tile sender).fld TILE.CORE_READY = 1 then s.send sender (.grant s.self t win d.gen m rd st none)
      else s.send t (.grantBack win d.gen m rd st Status.DOMAIN_RESET)
    else s.sendRequest t { type := 10, vc := 1, dst := moduleCoord s.shape mod.toNat, src := 0, dstTile := sender,
                           win := win, wgen := d.gen.toNat, fslot := m } [] (.grantPlaced rd st)
                           (.grantBack win d.gen m rd st Status.CREDIT_TABLE_FULL)

/-! ### Compiled phases (R212 to R222) -/

/-- Lighthouse holds the tile's XSTART for the stop superstep of a suspension (R447), and any while the job is suspended. -/
def State.holdsStart (s : State) (x : Tile) : Bool :=
  match s.lh.suspension with
  | some u => decide (u.stop.toNat ≤ x.fld TILE.SSTEP)
  | none => match s.lh.cur with
    | some k => s.lh.contexts.any (fun c => decide (c.job = k))
    | none => false

/-- The compute phase that an XSTART ends is over: the vector and MAT instructions issued before it have ended (R212), and no list
is posted or running (R133). -/
def Tile.computeOver (x : Tile) (ord : Nat × Nat) : Bool :=
  x.vq.all (fun q => decide (ord.1 ≤ q.ord.1)) && x.vbusy.all (fun e => decide (ord.1 ≤ e.2))
    && x.parked.all (fun p => match p.user with
      | .vld _ _ n => decide (ord.1 ≤ n)
      | .vst _ _ n => decide (ord.1 ≤ n)
      | _ => true)
    && x.mq.all (fun q => decide (ord.2 ≤ q.ord.2)) && x.lists.isEmpty && x.running.isNone
    && x.astWait.all (fun e => decide (ord.2 ≤ e.2))

/-- XSTART at the head of the queue: it waits under R212 or is held (R236, R447). -/
def State.runXstart (s : State) (t : Nat) (q : QInsn) : Turn :=
  let x := s.tile t
  let rd := fRD q.w
  if !x.computeOver q.ord || x.phase.isSome || x.startHeld.isSome || s.holdsStart x then .waits s
  else if s.fld BCN.STATE = 5 then s.xchEnds t rd Status.BCN_LOST
  else if tooFar q.b s.count then s.xchEnds t rd Status.SCHED_RANGE
  else
    let off := q.a.toNat
    let r := x.spadRead off 64
    let h := ofBytes r.2.2
    let nsend := bits h 16 12
    if off % 64 ≠ 0 ∨ spadSize < off + 64 then s.xchEnds t rd Status.EXCH_PROGRAM
    else if r.2.1 ≠ 0 then ((s.setTile t r.1).chargeSpad t r.2.1).xchEnds t rd r.2.1
    else if bits h 0 8 ≠ 1 ∨ bits h 8 8 ≠ 0 ∨ bits h 28 4 ≠ 0 ∨ bits h 44 20 ≠ 0 ∨ bits h 96 416 ≠ 0
      ∨ spadSize < off + 64 + 32 * nsend then s.xchEnds t rd Status.EXCH_PROGRAM
    else if q.txn.any (fun n => !x.txnTakes n) then s.xchEnds t rd Status.TXN_STATE
    else
      let p : Phase := {
        prog := off, start := q.b, late := decide (ahead q.b s.count ≤ 0), syncm := bits q.w.toNat 26 2, sem := q.sem
        nsend := nsend, nrecv := bits h 32 12, end_ := bits h 64 32, txn := q.txn }
      (s.setTile t { r.1 with phase := some p }).xchEnds t rd 0

/-- One instruction at the head of the exchange queue (R80). -/
def State.runXch (s : State) (t : Nat) (q : QInsn) : Turn :=
  match q.op with
  | 0x01 => s.runXstart t q
  | 0x03 => s.runXsend t q
  | 0x10 => .over (s.onTile t (fun x => x.wopen q))
  | 0x11 => .over (s.onTile t (fun x =>
      { x.beginClose (fIMMw q.w) with closing := some (fIMMw q.w, fRD q.w) }))
  | _ => .over (s.runWgrant t q)

/-- An XWAIT completes when no phase runs or waits to start and none is queued (R101). -/
def Tile.xwaitSettle (t : Tile) : Tile :=
  match t.stall with
  | .xwait rd =>
    if t.phase.isNone && !t.xq.any (fun q => decide (q.op = 0x01)) then
      { t.putS rd (BitVec.ofNat 64 (t.fld TILE.PHASE_STATUS)) with stall := .none }
    else t
  | _ => t

/-- The exchange queue runs in order as far as it goes. -/
def State.xqDrain (s : State) (t : Nat) : List QInsn → State
  | [] => s.onTile t (fun x => { x with xq := [] }.xwaitSettle)
  | q :: qs =>
    let s := s.onTile t (fun x => { x with xq := q :: qs })
    if (s.tile t).closing.isSome then s
    else match s.runXch t q with
      | .waits s => s
      | .over s => s.xqDrain t qs

def State.xqRun (s : State) (t : Nat) : State := s.xqDrain t (s.tile t).xq

/-- Module `m`'s partner in Mirror mode: the rank across the D axis, d XOR 1 (R468). -/
def State.partner (s : State) : Nat :=
  let d := coordOf s.coord 3
  moduleIndex s.shape (putBits s.coord 18 6 (if d % 2 = 0 then d + 1 else d - 1))

/-- The bytes of a digest record, and of the tile digests that follow it on a mismatch. -/
def mirrorBytes (sstep : Nat) (digest : BitVec 64) (ds : List (Nat × BitVec 64)) : List Byte :=
  bytesOf sstep 4 ++ bytesOf digest.toNat 8 ++ ds.flatMap (fun e => bytesOf e.1 2 ++ bytesOf e.2.toNat 8)

/-- Two digest records of a superstep are compared once both are present (R470): of digests that differ, the lowest tile that
differs is named as soon as the partner's tile digests have come; the differing tiles are tested at the discard. -/
def State.compareMirror (s : State) (n : Nat) : State :=
  match Map.get none s.rel.mirrorOwn n, Map.get none s.rel.mirrorPeer n with
  | some (d, ds), some (e, es) =>
    if d ≠ e ∧ es = [] then s
    else
      let s := { s with rel := { s.rel with
        mirrorOwn := Map.set none s.rel.mirrorOwn n none, mirrorPeer := Map.set none s.rel.mirrorPeer n none } }
      if d = e then s
      else
        let bad := (ds.filter (fun x => es.any (fun y => decide (y.1 = x.1) && decide (y.2 ≠ x.2)))).map (·.1)
        let phys := bad.map s.physOf
        let s := { s with rel := { s.rel with mirrorTests := s.rel.mirrorTests ++ phys } }
        (s.addCause { bit := 4, status := Status.MIRROR_MISMATCH, tile := bad.headD 0xFFF }).logGlow 9 Status.MIRROR_MISMATCH
          (coreUnit (phys.headD 0)) s.partner
  | _, _ => s

/-- Tile `t` ends superstep `n` (R469): its digest is formed and its CRC restarts; once every tile has ended it, the module
digest is formed and sent to the partner. -/
def State.endMirror (s : State) (t n : Nat) : State :=
  if !s.mirrored then s
  else
    let done := s.rel.mirrorDone ++ [(n, t, Map.get 0 s.rel.mirrorCrc t)]
    let mine := (List.range s.tileCount).filterMap (fun u =>
      (done.find? (fun e => decide (e.1 = n) && decide (e.2.1 = u))).map (fun e => (u, e.2.2)))
    let s := { s with rel := { s.rel with mirrorDone := done, mirrorCrc := Map.set 0 s.rel.mirrorCrc t 0 } }
    if mine.length < s.tileCount then s
    else
      let d := crc64 (mine.flatMap (fun e => bytesOf e.2.toNat 8))
      let s := { s with rel := { s.rel with
        mirrorDone := done.filter (fun e => decide (e.1 ≠ n)), mirrorOwn := Map.set none s.rel.mirrorOwn n (some (d, mine)) } }
      (s.controlTo s.partner .mirror (mirrorBytes n d [])).compareMirror n

/-- A digest record of the partner comes, with its tile digests where the two differ. -/
def State.takeMirror (s : State) (n : Nat) (digest : BitVec 64) (ds : List (Nat × BitVec 64)) : State :=
  let s := { s with rel := { s.rel with mirrorPeer := Map.set none s.rel.mirrorPeer n (some (digest, ds)) } }
  let s := match Map.get none s.rel.mirrorOwn n with
    | some (d, es) => if d ≠ digest then s.controlTo s.partner .mirror (mirrorBytes n d es) else s
    | none => s
  s.compareMirror n

/-- A phase ends with its status (R215, R216): XCH_DONE, the superstep count, XWAIT. -/
def State.endPhase (s : State) (t : Nat) (p : Phase) (c : BitVec 16) : State :=
  let s := s.onTile t (fun x =>
    let x := { x with phase := none, recv0 := 0, early := x.recv1, recv1 := [] }
    let x := (x.setFld TILE.PHASE_STATUS c.toNat).setFld TILE.SSTEP (x.fld TILE.SSTEP + 1)
    let x := if c = Status.EXCH_LATE then x.bumpFld TILE.LATE_PHASES else x
    let x := x.post 1
    match x.stall with
    | .xwait rd => { x.putS rd (c.setWidth 64) with stall := .none }
    | _ => x)
  let s := s.endMirror t ((s.tile t).fld TILE.SSTEP % 2 ^ 32)
  let s := if Status.ok c && decide (p.syncm = 1) then s.signal t p.sem else s
  (s.txnSettle t).xqRun t

end Sys2Proof.Machine
end

