-- ==== Sys2Proof/Machine/Beacon.lean ====
section
/-! DEFINITION. The Beacon: edges, sources, holdover, elections (R248 to R262), reductions over the sync trees (R268 to
R273). -/
namespace Sys2Proof.Machine

/-- A WAIT deadline at or before the count becomes pending (R106). -/
def Tile.dueDeadline (t : Tile) (now : BitVec 64) : Tile :=
  match t.stall with
  | .wait _ _ (some d) _ => if ahead d now ≤ 0 then t.post 0 else t
  | _ => t

/-- A tree whose local arrivals reached its target contributes to a SUM reduction at this tick (R273). -/
def State.startBarrier (s : State) (m : Nat) : State :=
  let n := s.fld (BCN.ARRIVED m)
  if s.fld (BCN.VALID m) = 1 ∧ s.fld (BCN.BUSY m) = 0 ∧ 0 < s.fld (BCN.LOCAL_TARGET m) ∧ s.fld (BCN.LOCAL_TARGET m) ≤ n
    ∧ s.fld (BCN.SYNC_MISSING m) = 0 then
    let l := s.treeLevel
    let h := s.treeHeight
    s.startTree m 3 (BitVec.ofNat 64 n) s.count (earliestDeliver s.count l h) l h s.treeDepth true
  else s

/-- The drive of the BCN buses at an edge (R538). -/
def State.driveEdge (s : State) : State :=
  let s := match s.pins.stopDriving with
    | some n => if ahead n s.count ≤ 0 then { s.setFld BCN.DRIVING 0 with pins := { s.pins with stopDriving := none } } else s
    | none => s
  match s.pins.driveFrom with
  | some n => if ahead n s.count ≤ 0 then { s.setFld BCN.DRIVING 1 with pins := { s.pins with driveFrom := none } } else s
  | none => s

/-- The sync frame of every 1,024th edge (R251, R352): to the ports that lead to a module which has chosen this one as parent,
never to the source. Which those are nothing tells this module (a free value, log 111). Behind the count and the term the frame
holds whether the edge is marked as holdover (R256). -/
def State.sendSync (s : State) : State :=
  let v := s.draw 8
  let held := decide (s.fld BCN.STATE ≠ 1) && decide (s.fld BCN.STATE ≠ 2)
  ((List.range 8).filter (fun p => v.1.getLsbD p && decide (p ≠ s.fld BCN.SRC))).foldl (fun (s : State) p =>
    s.control p .sync (bytesOf (s.count.toNat + s.fld BCN.TERM * 2 ^ 64 + ofBool held * 2 ^ 80) 11)) v.2

/-- A moved tile whose state has been restored is held no longer (R236). -/
def State.releaseMoved (s : State) : State :=
  (s.tiles.filter (fun e => match e.2.startHeld with | some n => decide (ahead n s.count ≤ 0) | none => false)).foldl
    (fun (s : State) e => (s.onTile e.1 (fun x => { x with startHeld := none })).xqRun e.1) s

/-- BEACON_EDGE: the count rises by 1, SUBTICK restarts (R248, R250); deadlines fall due (R106), results that wait for this edge are
applied (R269), barrier contributions are made (R273), the ports mark the edge, a sync frame leaves on every 1,024th (R352). -/
def execBeaconEdge (s : State) : Result :=
  if !s.awake then .next s
  else
    let s := (s.setFld BCN.COUNT ((s.fld BCN.COUNT + 1) % 2 ^ 64)).setFld BCN.SUBTICK 0
    let s := if s.fld BCN.STATE = 5 then s
      else
        let s : State := { s with tiles := s.tiles.map (fun e => (e.1, e.2.dueDeadline s.count)) }
        (List.range 16).foldl (fun (s : State) m => (s.applyDue m).startBarrier m) s
    let s := s.releaseMoved
    let s := s.markEdges
    .next (if s.count.toNat % 1024 = 0 ∧ s.fld BCN.STATE ≠ 0 then s.sendSync else s).driveEdge

/-- SYNC_FRAME: the full count and the term from a source (R252, R254, R256, R262). `hold`: its edges are marked. -/
def execSyncFrame (src : Nat) (count : BitVec 64) (term : BitVec 16) (hold : Bool) (s : State) : Result :=
  if 9 ≤ src then .fault .noSuchUnit
  else
    let st := s.fld BCN.STATE
    if !s.awake then .next s
    else if st ≠ 0 ∧ olderTerm term.toNat (s.fld BCN.TERM) then .next s
    else if !s.bcn.holds then
      if hold then .next s
      else
        let s := ((s.newParent src term).setFld BCN.COUNT count.toNat).lockTo src
        .next { s with bcn := { s.bcn with holds := true } }
    else if st = 2 ∨ st = 5 ∨ st = 0 then .next s
    else if count ≠ s.count then .next (s.disagrees src)
    else if hold then
      let s := s.dropSource src
      .next { s with bcn := { s.bcn with marked := s.bcn.marked || (decide (st = 1) && decide (s.fld BCN.SRC = src)) } }
    else if st = 3 then if s.pwr.locked.isSome then .next s else .next ((s.newParent src term).lockTo src)
    else if st = 1 ∧ s.fld BCN.SRC = src then
      let s := if term.toNat = s.fld BCN.TERM then s else s.newParent src term
      .next { s with bcn := { s.bcn with marked := false } }
    else .next (s.noteSource src)

/-- TICK_PERIOD_CHANGE: a scheduled change from the edge of its count (R249), behind the map changes of that count (R261). -/
def execTickPeriodChange (s : State) : Result :=
  if s.fld BCN.STATE = 5 then .next s else .next (s.runDue 2).changeTick

/-- HOLDOVER_ENTRY: the source's edges are marked, or three of them were missed (R256). -/
def execHoldoverEntry (s : State) : Result :=
  if s.fld BCN.STATE ≠ 1 then .next s
  else
    let s := if s.bcn.marked then s else ((s.bumpFld BCN.MISSED_EDGES).bumpFld BCN.MISSED_EDGES).bumpFld BCN.MISSED_EDGES
    .next ((s.setFld BCN.STATE 3).setFld BCN.SRC 15)

/-- HOLDOVER_SOURCE_SEARCH: a source of unmarked edges of the term, or electing under the next term (R253, R254, R256); at
cold start, where no module has a master, the same search leads to the first election. -/
def execHoldoverSourceSearch (found : Option Nat) (s : State) : Result :=
  let st := s.fld BCN.STATE
  if !s.awake ∨ (st ≠ 3 ∧ st ≠ 0) ∨ s.pwr.locked.isSome then .next s
  else match found with
    | some p =>
      if 9 ≤ p then .fault .noSuchUnit
      else if st = 3 then .next ((s.newParent p s.term).lockTo p) else .next s
    | none => .next (s.elect ((s.fld BCN.TERM + 1) % 2 ^ 16))

/-- ELECTION_ADVERTISEMENT: a key heard under a term (R254). A module with unmarked edges of its master's takes no part, unless it
locked to them in this same cycle: the newer term comes before an edge of the older (R274). -/
def execElectionAdvertisement (term : BitVec 16) (prio : BitVec 8) (module : BitVec 14) (floor : BitVec 64) (s : State) :
    Result :=
  let st := s.fld BCN.STATE
  let key : ElectionKey := ⟨prio, module⟩
  if !s.awake ∨ (st ≠ 0 ∧ olderTerm term.toNat (s.fld BCN.TERM)) then .next s
  else
    let newer := decide (term.toNat ≠ s.fld BCN.TERM)
    let joins := decide (st = 0) || (decide (st = 3) && newer) || (decide (st = 1) && s.bcn.marked) || (decide (st = 4) && newer)
      || (decide (st = 1) && newer && decide (s.bcn.lockedAt = some s.cycle))
    let s := if joins then s.elect term.toNat else s
    if s.fld BCN.STATE ≠ 4 then .next s
    else
      let best := match s.bcn.best with
        | some b => b.better key
        | none => key
      let high := if s.bcn.floor.ult floor then floor else s.bcn.floor
      if s.bcn.best = some best ∧ s.bcn.floor = high then .next s
      else .next ({ s with bcn := { s.bcn with best := some best, floor := high } }.advertise)

/-- ELECTION_CLOSE: 2 ms after it entered electing (R254, R255). -/
def execElectionClose (s : State) : Result :=
  if s.fld BCN.STATE ≠ 4 then .next s
  else
    let s := s.bumpFld BCN.ELECTIONS
    match s.bcn.best with
    | none => .next (s.elect ((s.fld BCN.TERM + 1) % 2 ^ 16))
    | some k =>
      let s := s.setFld BCN.MASTER k.module.toNat
      if k.module = s.self then
        let s := if s.bcn.holds then s else s.setFld BCN.COUNT ((s.bcn.floor.toNat + 2 ^ 32) % 2 ^ 64)
        let s := ((s.setFld BCN.STATE 2).setFld BCN.SRC 15).setFld BCN.DEPTH 0
        .next { s with bcn := { s.bcn with holds := true, marked := false, sources := [] } }
      else match s.bcn.holds, nextSource s.bcn.sources with
        | true, some e => .next ((s.newParent e.port s.term).lockTo e.port)
        | true, none => .next ((s.setFld BCN.STATE 3).setFld BCN.SRC 15)
        | false, _ => .next ((s.setFld BCN.STATE 0).setFld BCN.SRC 15)

/-- Scheduled work of a tile that has not started ends with BCN_LOST (R257). -/
def State.loseSchedule (s : State) (t : Nat) : State :=
  let x := s.tile t
  let s := (x.dma.filter (fun o => o.sched.isSome && !o.started)).foldl (fun (s : State) o =>
    s.onTile t (fun x => x.onOp o.id (fun o => { o with started := true, status := some Status.BCN_LOST }))) s
  let s : State := match x.phase with
    | some p => if p.started then s else s.endPhase t p Status.BCN_LOST
    | none => s
  match (s.tile t).stall with
  | .wait rd ev (some _) _ => s.onTile t (fun x => x.wake rd ev.toNat Status.BCN_LOST.toNat)
  | _ => s

/-- HOLDOVER_LIMIT: BCN_LOST (R257); it counts in the open step's vote, or in the next one (R321). -/
def execHoldoverLimit (s : State) : Result :=
  if s.fld BCN.STATE ≠ 3 ∧ s.fld BCN.STATE ≠ 4 then .next s
  else
    let s := ((s.setFld BCN.STATE 5).setFld BCN.SRC 15).report Status.BCN_LOST 0
    let s := s.addCause { bit := 6, status := Status.BCN_LOST }
    .next ((s.tiles.map (·.1)).foldl State.loseSchedule s)

/-- BEACON_RELOCK: a lost module locks again (R257). -/
def execBeaconRelock (src : Nat) (count : BitVec 64) (s : State) : Result :=
  if 9 ≤ src then .fault .noSuchUnit
  else if s.fld BCN.STATE ≠ 5 then .next s
  else
    let s := (s.newParent src s.term).lockTo src
    if count = s.count then .next s else .next (s.takeCount count)

/-- FABRIC_REJOIN: edges of another master's part (R258). -/
def execFabricRejoin (src : Nat) (term : BitVec 16) (prio : BitVec 8) (master : BitVec 14) (count : BitVec 64) (s : State) :
    Result :=
  if 9 ≤ src then .fault .noSuchUnit
  else
    let st := s.fld BCN.STATE
    let theirs : ElectionKey := ⟨prio, master⟩
    let free := s.draw 22
    let own : ElectionKey := if st = 2 then ⟨BitVec.ofNat 8 (s.fld BCN.PRIO), s.self⟩
      else s.bcn.best.getD ⟨free.1.extractLsb' 0 8, free.1.extractLsb' 8 14⟩
    let s := if st ≠ 2 ∧ s.bcn.best.isNone then free.2 else s
    if st = 0 ∨ st = 5 ∨ term.toNat = s.fld BCN.TERM ∨ own.better theirs = own then .next s
    else
      let s := (((s.newParent src term).setFld BCN.MASTER master.toNat).setFld BCN.TERM term.toNat).lockTo src
      let s := { s with bcn := { s.bcn with best := some theirs, sources := [] } }
      if count = s.count then .next s else .next (s.takeCount count)

/-! ### Sync trees -/

/-- Why Lighthouse refuses a reduction (R260, R269); 0 where it does not. -/
def State.treeRefusal (s : State) (tc tr : BitVec 64) (level height depth : Nat) : BitVec 16 :=
  if tooFar tc s.count ∨ (tr - earliestDeliver tc level height).toInt < 0 ∨ height < depth then Status.SCHED_RANGE
  else if ahead tc s.count ≤ 0 then Status.SCHED_PAST
  else if 256 ≤ s.pendingEvents then Status.SCHED_FULL
  else 0

/-- TREE_REDUCTION_START (R269): refused, with nothing changed, for a t_r before t_c + 2 × (H + 1) × L, for a t_c that has passed or
lies too far ahead, and with a full schedule (R260); it does nothing on a tree that is not configured or is busy. -/
def execTreeReductionStart (tree op : Nat) (contribution tc tr : BitVec 64) (level height depth : Nat) (s : State) : Result :=
  if 16 ≤ tree ∨ 4 ≤ op then .fault .noSuchUnit
  else if s.fld (BCN.VALID tree) = 0 ∨ s.fld (BCN.BUSY tree) = 1 ∨ s.fld BCN.STATE = 5 then .next s
  else
    let c := s.treeRefusal tc tr level height depth
    if c ≠ 0 then .next (s.report c tree)
    else .next (s.startTree tree op contribution tc tr level height depth false)

/-- TREE_CONTRIBUTION (R268, R271): of a child, before or in the cycle of the close; dropped and counted after it. One that comes
before this node's reduction has opened is kept for it. -/
def execTreeContribution (tree port : Nat) (value : BitVec 64) (count : Nat) (absent : Option Nat) (s : State) : Result :=
  if 16 ≤ tree ∨ 8 ≤ port then .fault .noSuchUnit
  else if !(s.children tree).contains port then .next s
  else
    let k : Contribution := ⟨port, value, count, absent⟩
    match s.tree tree with
    | some r =>
      if r.closed then .next (s.bumpFld (BCN.DROPPED tree))
      else if r.kids.any (fun k => decide (k.port = port)) then .next s
      else .next (s.setTree tree (some { r with kids := r.kids ++ [k] }))
    | none =>
      let early := (Map.get [] s.bcn.early tree).filter (fun k => decide (k.port ≠ port)) ++ [k]
      .next { s with bcn := { s.bcn with early := Map.set [] s.bcn.early tree early } }

/-- TREE_NODE_CLOSE (R268 to R270, R272, R322), behind the changes of its count that R261 places before it; none while the Beacon is
lost (R257). -/
def execTreeNodeClose (tree : Nat) (s : State) : Result :=
  if 16 ≤ tree then .fault .noSuchUnit
  else if s.fld BCN.STATE = 5 then .next s
  else .next ((s.runDue 3).closeNode tree)

/-- TREE_RESULT (R269, R270, R273): held until t_r, or applied on arrival after it; the root applies its own. -/
def execTreeResult (tree : Nat) (value : BitVec 64) (count : Nat) (absent : Option Nat) (s : State) : Result :=
  if 16 ≤ tree then .fault .noSuchUnit
  else match s.tree tree with
    | none => .next s
    | some r =>
      if s.fld (BCN.PARENT tree) = 15 then .next (if s.fld BCN.STATE = 5 then s else s.applyDue tree)
      else if ahead r.tr s.count > 0 ∨ s.fld BCN.STATE = 5 then .next (s.setTree tree (some { r with sum := some (value, count, absent) }))
      else .next (s.applyResult tree r (value, count, absent))

end Sys2Proof.Machine
end

