-- ==== Sys2Proof/Machine/CollOps.lean ====
section
/-! DEFINITION. Collective engines: descriptors (R380), participants (R370), formats and schedules (R371, R372, R160, R157),
memory (R377, R381), packets (R376). -/
namespace Sys2Proof.Machine

/-! ### The descriptor (R380) -/
def cdOp (d : BitVec 512) : Nat := bits d.toNat 0 4
def cdFmt (d : BitVec 512) : Nat := bits d.toNat 4 2
def cdBidir (d : BitVec 512) : Bool := bit d.toNat 6
def cdHalo (d : BitVec 512) : Bool := bit d.toNat 7
def cdLepoch (d : BitVec 512) : Nat := bits d.toNat 8 8
def cdTrig (d : BitVec 512) : Nat := bits d.toNat 16 6
def cdAnchor (d : BitVec 512) : Int := signed 10 (bits d.toNat 22 10)
def cdSrc (d : BitVec 512) : Nat := bits d.toNat 32 48
def cdDst (d : BitVec 512) : Nat := bits d.toNat 80 48
def cdLen (d : BitVec 512) : Nat := bits d.toNat 128 40
def cdTgen (d : BitVec 512) : Nat := bits d.toNat 168 24
def cdHome (d : BitVec 512) : Nat := bits d.toNat 192 12
def cdEntry (d : BitVec 512) : Nat := bits d.toNat 204 6
def cdNext (d : BitVec 512) : Nat := bits d.toNat 210 8
def cdNaxis (d : BitVec 512) : Nat := bits d.toNat 218 2
def cdNextEn (d : BitVec 512) : Bool := bit d.toNat 220
def cdRoot (d : BitVec 512) : Nat := bits d.toNat 221 6
def cdTrigN (d : BitVec 512) : Nat := bits d.toNat 240 16
def cdDeadline (d : BitVec 512) : BitVec 64 := BitVec.ofNat 64 (bits d.toNat 256 64)
def cdStride (d : BitVec 512) : Nat := bits d.toNat 320 48

/-- The offset of descriptor `i` of axis `a`'s engine. -/
def collReg (a i : Nat) : Nat := ceBase a + 0x2_0000 + 64 * i
/-- The descriptor as its registers hold it. -/
def State.collDesc (s : State) (a i : Nat) : BitVec 512 :=
  BitVec.ofNat 512 ((List.range 8).foldl (fun v k => v + (s.rd (collReg a i + 8 * k)).toNat * 2 ^ (64 * k)) 0)
def State.putCollDesc (s : State) (a i : Nat) (d : BitVec 512) : State :=
  (List.range 8).foldl (fun (s : State) k => s.wr (collReg a i + 8 * k) (BitVec.ofNat 64 (bits d.toNat (64 * k) 64))) s

/-- Whether the operation reduces, and whether it does so on the ordered schedule (R372). -/
def cdReduces (d : BitVec 512) : Bool := decide (cdOp d = 0) || decide (cdOp d = 2)
def State.ordered (s : State) (d : BitVec 512) : Bool :=
  cdReduces d && decide (cdFmt d ≤ 1) && decide ((s.job.map Job.repro) ≠ some 2)

/-! ### Participants and chunks (R369, R370, R373) -/

/-- The job's extent on an axis, and this module's rank. -/
def State.extent (s : State) (a : Nat) : Nat := ((s.box.map (fun m => coordOf (moduleCoord s.shape m) a)).eraseDups).length
def State.rank (s : State) (a : Nat) : Nat := if s.extent a = 1 then 0 else coordOf s.coord a

/-- Bytes of one chunk (of one rank's block where nothing is reduced). -/
def chunkLen (d : BitVec 512) (n : Nat) : Nat := if cdReduces d then cdLen d / n else cdLen d

/-- The halves of a chunk: the length of the one that runs in the + and of the one that runs in the − direction. A ring
pass does not split its blocks (R385). -/
def halfLen (d : BitVec 512) (n h : Nat) : Nat :=
  let len := chunkLen d n
  if cdOp d = 3 then (if h = 0 ∨ cdBidir d then len else 0)
  else if !cdBidir d then (if h = 0 then len else 0)
  else
    let first := if cdHalo d then (len / 4096 + 1) / 2 * 4096 else len / 2
    if h = 0 then first else len - first
/-- Where a half starts within its chunk. -/
def halfOff (d : BitVec 512) (n h : Nat) : Nat := if h = 0 ∨ cdOp d = 3 then 0 else halfLen d n 0

/-- Hops of a block that is gathered: a ring pass with BIDIR splits the ranks by their distance. -/
def hopLimit (d : BitVec 512) (n h : Nat) : Nat :=
  if cdOp d = 3 ∧ cdBidir d then (if h = 0 then n / 2 else (n - 1) / 2) else n - 1

/-- Data bytes of one contribution packet: a tensor block, 256 long elements, 256 bytes where up to 31 subtrees travel, else
4 KiB (DESIGN CHOICE, log 29). -/
def State.segLen (s : State) (d : BitVec 512) : Nat :=
  if cdHalo d then 4096 else if cdReduces d ∧ cdFmt d = 2 then 3072 else if s.ordered d then 256 else 4096

/-- The segments of `len` bytes: offset and length. -/
def segments (len seg : Nat) : List (Nat × Nat) :=
  (List.range ((len + seg - 1) / seg)).map (fun i => (i * seg, min seg (len - i * seg)))

/-! ### Elements (R371, R157, R160) -/

/-- Elements of `w` bits at `bs`. -/
def elemsAt (w : Nat) (bs : List Byte) : List Nat :=
  let v := ofBytes bs
  (List.range (8 * bs.length / w)).map (fun i => bits v (w * i) w)

/-- Two runs of elements added in FMT `f`, each sum rounded to nearest even. -/
def addRuns (f : Nat) (x y : List Byte) : List Byte :=
  let w := fmtWidth f
  bytesOf (packElems w (List.zipWith (fun a b =>
    (((FVal.ofBits f false a).add false (.ofBits f false b)).toBits f .near false)) (elemsAt w x) (elemsAt w y))) x.length

/-- A long partial: its bytes and its anchor. -/
structure LongRunAt where
  data : List Byte
  anchor : Int
  fell : Bool

/-- Two long runs added under the smaller anchor (R157). -/
def LongRunAt.add (x y : LongRunAt) : LongRunAt :=
  let n := x.data.length / 12
  let zs := List.zipWith (LongVal.add x.anchor y.anchor) (longElems n x.data) (longElems n y.data)
  ⟨bytesOf (packElems 96 (zs.map LongVal.toBits)) x.data.length, min x.anchor y.anchor, zs.any LongVal.isFallen⟩

/-- The split of node [lo, hi) of R160's tree: lo plus the largest power of two below its size. -/
def splitAt160 (lo hi : Nat) : Nat := lo + 2 ^ Nat.log2 (hi - lo - 1)

/-- The maximal completed nodes of [lo, hi), where `has` says which ranks have been added. -/
def completed (has : Nat → Bool) : Nat → Nat → Nat → List (Nat × Nat)
  | 0, _, _ => []
  | fuel + 1, lo, hi =>
    if (List.range (hi - lo)).all (fun i => has (lo + i)) then [(lo, hi)]
    else if hi - lo ≤ 1 then []
    else
      let m := splitAt160 lo hi
      completed has fuel lo m ++ completed has fuel m hi

/-- The value of a completed node, from the nodes that were held and the leaf of this rank. -/
def nodeValue (f : Nat) (held : List ((Nat × Nat) × List Byte)) (leaf : List Byte) : Nat → Nat → Nat → List Byte
  | 0, _, _ => leaf
  | fuel + 1, lo, hi =>
    match held.find? (fun e => decide (e.1 = (lo, hi))) with
    | some e => e.2
    | none =>
      if hi - lo ≤ 1 then leaf
      else
        let m := splitAt160 lo hi
        addRuns f (nodeValue f held leaf fuel lo m) (nodeValue f held leaf fuel m hi)

/-- The place of rank `q` on the path of chunk `c` in direction `h`: the path ends at rank `c` (R372). -/
def placeOn (n c h q : Nat) : Nat := if h = 0 then (q + 2 * n - c - 1) % n else (c + 2 * n - 1 - q) % n

/-- The set of subtrees that leaves rank `r`, from the bytes that arrived and its own contribution. -/
def orderedStep (f n c h r : Nat) (bs own : List Byte) : List (List Byte) :=
  let k := placeOn n c h r
  let before := completed (fun q => decide (placeOn n c h q < k)) n 0 n
  let after := completed (fun q => decide (placeOn n c h q ≤ k)) n 0 n
  let held := before.zipIdx.map (fun e => (e.1, (bs.drop (e.2 * own.length)).take own.length))
  after.map (fun e => nodeValue f held own n e.1 e.2)

/-! ### Memory (R369, R377, R381) -/

/-- What an engine reads: a status, bytes, the Halo of a block read with HALO = 1. -/
structure EngineRead where
  st : State
  status : BitVec 16
  data : List Byte := []
  halo : List Byte := []

/-- The block that serves an engine's access at `a`. -/
def State.ceBlock (s : State) (d : BitVec 512) (a : Nat) : Nat := s.servedBlock (cdHalo d) (a / 4096) (cdTgen d)

/-- The blocks of an engine's access. -/
def State.ceBlocks (s : State) (d : BitVec 512) (a n : Nat) : List Nat :=
  match s.region a n with
  | .hbm _ => (blocksOf a n).map (fun b => s.servedBlock (cdHalo d) b (cdTgen d))
  | _ => []

/-- An access of an engine waits: a stack that it names serves nothing (R287). -/
def State.ceAsleep (s : State) (d : BitVec 512) (a n : Nat) : Bool := (s.ceBlocks d a n).any s.stackAsleep

/-- Why the stacks of an access do not serve an engine, which has no near path (R283, R284); 0 where they do. -/
def State.ceDown (s : State) (d : BitVec 512) (a n : Nat) : BitVec 16 :=
  let bs := s.ceBlocks d a n
  if !bs.all (fun b => s.stackReachable (s.place b).1) then Status.ADDR_UNMAPPED
  else if !bs.all s.channelReady then Status.DOMAIN_RESET
  else 0

/-- A read of an engine, behind what the channels have accepted (R279). -/
def State.ceRead (s : State) (d : BitVec 512) (a n : Nat) : EngineRead :=
  match s.region a n with
  | .hbm _ =>
    if s.ceDown d a n ≠ 0 then ⟨s, s.ceDown d a n, [], []⟩
    else
      let s := (s.ceBlocks d a n).foldl State.serveBefore s
      if cdHalo d then
        let r := s.readBlock (a / 4096) (cdTgen d) (cdLepoch d)
        if r.status ≠ 0 then ⟨r.st, r.status, [], []⟩
        else if haloPoison r.halo then ⟨r.st, Status.POISON_CONSUMED, [], []⟩
        else ⟨r.st, 0, r.data, bytesOf r.halo.toNat 32⟩
      else
        let g := s.gatherPlain a n
        ⟨g.st, g.status, g.data, []⟩
  | .spad t off =>
    if (s.tile t).fld TILE.CORE_READY ≠ 1 then ⟨s, Status.DOMAIN_RESET, [], []⟩
    else
      let r := (s.tile t).spadRead off n
      ⟨s.setTile t r.1, r.2.1, r.2.2, []⟩
  | .unmapped => ⟨s, Status.ADDR_UNMAPPED, [], []⟩
  | _ => ⟨s, Status.ADDR_DENIED, [], []⟩

/-- An output written. `halo`: the Halo that came with a gathered block. An engine has no write path to a scratchpad, whose windows
it could not name (R54, R368; DESIGN CHOICE, log 112). -/
def State.ceWrite (s : State) (d : BitVec 512) (a : Nat) (bs halo : List Byte) : State × BitVec 16 :=
  match s.region a bs.length with
  | .hbm _ =>
    if s.ceDown d a bs.length ≠ 0 then (s, s.ceDown d a bs.length)
    else
      let s := (s.ceBlocks d a bs.length).foldl State.serveBefore s
      if cdHalo d then
        if halo = [] ∨ (s.regionOfBlock (a / 4096)).isSome then s.writeBlock (a / 4096) bs (cdTgen d) (cdLepoch d) none
        else (s.storeBlock (a / 4096) bs (BitVec.ofNat 256 (ofBytes halo)), 0)
      else if s.touchesRegion a bs.length then (s, Status.GEN_ADDR)
      else ((blockPieces a bs.length).foldl (fun (s : State) p => s.writePart p.1 ((bs.drop (p.1 - a)).take p.2)) s, 0)
  | .unmapped => (s, Status.ADDR_UNMAPPED)
  | _ => (s, Status.ADDR_DENIED)

/-! ### Packets (R376) -/

/-- A collective at work: the state, its record, the first status that stops it. -/
structure Work where
  st : State
  c : Coll
  status : BitVec 16 := 0

/-- The mark in ADDR of a packet of the second stage of an all-reduce (DESIGN CHOICE, log 29). -/
def gatherMark : Nat := 2 ^ 47

/-- A contribution sent in direction `h` (0 +, 1 −); it stays in the output buffer for a resend. -/
def Work.emit (w : Work) (a h chunk addr held : Nat) (anch : Int) (fell : Bool) (bs halo : List Byte) : Work :=
  let s := w.st
  let p := if h = 0 then 2 * a + 1 else 2 * a
  let no := s.portRefuses p
  if w.status ≠ 0 then w
  else if no ≠ 0 then { w with status := no }
  else
    let pay := bs ++ halo
    let hdr : Hdr := {
      type := 7, vc := 2, dst := neighbourOf s.shape s.coord p, src := s.coord, dirs := if h = 0 then 0 else 2 ^ a
      srcTile := 0xF00 + a, addr := addr, len := pay.length + 8, halo := !halo.isEmpty, lepoch := cdLepoch w.c.desc
      ext := w.c.d + chunk * 2 ^ 8 + (anch % 1024).toNat * 2 ^ 24 + ofBool fell * 2 ^ 34 + held * 2 ^ 35 }
    let full := pay ++ bytesOf (crc64 pay).toNat 8
    let s := s.transmit p hdr full
    { w with st := { s with collOut := Map.set [] s.collOut a (Map.get [] s.collOut a ++ [(p, ⟨hdr.encode, full⟩)]) } }

/-- A read of this rank's own contribution; a refusal stops the collective. -/
def Work.own (w : Work) (off n : Nat) : Work × List Byte × List Byte :=
  if w.status ≠ 0 then (w, [], [])
  else
    let r := w.st.ceRead w.c.desc (cdSrc w.c.desc + off) n
    ({ w with st := r.st, status := r.status }, r.data, r.halo)

/-- An output written at an offset of DST. -/
def Work.out (w : Work) (off : Nat) (bs halo : List Byte) : Work :=
  if w.status ≠ 0 then w
  else
    let r := w.st.ceWrite w.c.desc (cdDst w.c.desc + off) bs halo
    { w with st := r.1, status := r.2 }

/-- Where the block of rank `q` lands in DST (R369). -/
def blockAt (d : BitVec 512) (n q : Nat) : Nat :=
  if cdOp d = 2 then q * chunkLen d n else if cdOp d = 4 then 0 else q * cdStride d

/-- The anchor met. -/
def Work.meet (w : Work) (anch : Int) : Work :=
  { w with c := { w.c with anchor := (min anch (signed 10 w.c.anchor) % 1024).toNat } }

/-- A reduced piece leaves rank `r`, or is its output; of an all-reduce the output starts its second stage. -/
def Work.pass (w : Work) (a n r c h off : Nat) (held : Nat) (anch : Int) (fell : Bool) (bs : List Byte) : Work :=
  let d := w.c.desc
  if r ≠ c then w.emit a h (2 * c + h) off held anch fell bs []
  else
    let at_ := (if cdOp d = 2 then c * chunkLen d n else 0) + halfOff d n h + off
    let w := (w.out at_ bs []).meet anch
    if cdOp d = 2 then w.emit a h (2 * c + h) (off + gatherMark) 0 anch fell bs [] else w

/-- The first hops of a reduction: rank r starts chunk r − 1 in the + and chunk r + 1 in the − direction (R372). -/
def Work.startReduce (w : Work) (a n r : Nat) : Work :=
  let d := w.c.desc
  [0, 1].foldl (fun (w : Work) h =>
    let c := if h = 0 then (r + n - 1) % n else (r + 1) % n
    (segments (halfLen d n h) (w.st.segLen d)).foldl (fun (w : Work) g =>
      let o := w.own (c * chunkLen d n + halfOff d n h + g.1) g.2
      let fell := decide (cdFmt d = 2) && (longElems (g.2 / 12) o.2.1).any LongVal.isFallen
      (o.1.meet (cdAnchor d)).pass a n r c h g.1 1 (cdAnchor d) fell o.2.1) w) w

/-- The first hops of a gather: this rank's block, written to its own place but in a ring pass, and sent both ways. -/
def Work.startGather (w : Work) (a n r : Nat) : Work :=
  let d := w.c.desc
  [0, 1].foldl (fun (w : Work) h =>
    (segments (halfLen d n h) (w.st.segLen d)).foldl (fun (w : Work) g =>
      let o := w.own (halfOff d n h + g.1) g.2
      let w := if cdOp d = 3 then o.1 else o.1.out (blockAt d n r + halfOff d n h + g.1) o.2.1 o.2.2
      if 0 < hopLimit d n h then w.emit a h (2 * r + h) g.1 0 0 false o.2.1 o.2.2 else w) w) w

/-- How many segments an engine handles after its start. -/
def State.segmentsDue (s : State) (d : BitVec 512) (n r : Nat) : Nat :=
  let segs (h : Nat) : Nat := (segments (halfLen d n h) (s.segLen d)).length
  let both := (n - 1) * (segs 0 + segs 1)
  if n = 1 then 0
  else match cdOp d with
    | 0 => both
    | 2 => 2 * both
    | 3 => hopLimit d n 0 * segs 0 + hopLimit d n 1 * segs 1
    | 4 => if r = cdRoot d then 0 else segs 0 + segs 1
    | _ => both

/-- The collective stops with a status: LAYOUT_STALE aborts the step too (R300, R377). -/
def State.collFail (s : State) (a d : Nat) (c : BitVec 16) : State :=
  let s := s.collStop a d c
  let s := if c = Status.POISON_CONSUMED then s.endJob c else s
  if c = Status.LAYOUT_STALE then s.addCause { bit := 5, status := c } else s

/-- A collective after some work: its record kept, its sticky fallback bit, or its stop. -/
def Work.done (w : Work) (a : Nat) (fell : Bool) : State :=
  let s := if fell then w.st.setFld (CE.LFALLBACK a) 1 else w.st
  if w.status ≠ 0 then s.collFail a w.c.d w.status
  else s.setColls a ((s.collsOf a).map (fun x => if x.d = w.c.d then w.c else x))

/-- A DONE signal: a SIG of count 1 at DONE_HOME (R378). -/
def State.collDone (s : State) (a : Nat) (d : BitVec 512) : State :=
  if (s.tile (cdHome d)).rtrReady then
    s.semApply (cdHome d) { module := s.self, st := ⟨0xF00 + a, 0, 0⟩, entry := cdEntry d, op := .sig 1, rd := 0, plain := true }
  else s

/-- A piece of a rank's block arrives and goes on with its anchor and its fallback mark (R369, R376, R378, R385). -/
def Work.land (w : Work) (a n r q h off : Nat) (anch : Int) (fell : Bool) (bs halo : List Byte) : Work :=
  let d := w.c.desc
  let w := w.out (blockAt d n q + halfOff d n h + off) bs halo
  let dist := if h = 0 then (r + n - q) % n else (q + n - r) % n
  let mark := if cdOp d = 2 then gatherMark else 0
  let w := if dist < hopLimit d n h then w.emit a h (2 * q + h) (off + mark) 0 anch fell bs halo else w
  let k := Map.get 0 w.c.landed q + 1
  let w := { w with c := { w.c with left := w.c.left - 1, landed := Map.set 0 w.c.landed q k } }
  if w.status = 0 ∧ cdOp d = 3 ∧ k = (segments (halfLen d n h) (w.st.segLen d)).length then { w with st := w.st.collDone a d } else w

/-- A checked contribution is combined and sent on, or lands. -/
def Work.take (w : Work) (a : Nat) (hdr : Hdr) (bs : List Byte) : Work × Bool :=
  let d := w.c.desc
  let n := w.st.extent a
  let r := w.st.rank a
  let chunk := bits hdr.ext 8 16
  let c := chunk / 2
  let h := chunk % 2
  let off := hdr.addr % gatherMark
  if cdReduces d ∧ hdr.addr < gatherMark then
    let len := min (w.st.segLen d) (halfLen d n h - off)
    let o := w.own (c * chunkLen d n + halfOff d n h + off) len
    let w := { o.1 with c := { o.1.c with left := o.1.c.left - 1 } }
    if cdFmt d = 2 then
      let anch := signed 10 (bits hdr.ext 24 10)
      let x := (⟨bs, anch, false⟩ : LongRunAt).add ⟨o.2.1, cdAnchor d, false⟩
      ((w.meet x.anchor).pass a n r c h off 1 x.anchor x.fell x.data, x.fell)
    else
      let f := cdFmt d + 1
      let held := if w.st.ordered d then orderedStep f n c h r bs o.2.1 else [addRuns f bs o.2.1]
      (w.pass a n r c h off held.length 0 false held.flatten, false)
  else
    let data := if hdr.halo then bs.take 4096 else bs
    let halo := if hdr.halo then bs.drop 4096 else []
    let anch := signed 10 (bits hdr.ext 24 10)
    let w := if cdReduces d && decide (cdFmt d = 2) then w.meet anch else w
    (w.land a n r c h off anch (bit hdr.ext 34) data halo, false)

end Sys2Proof.Machine
end

