-- ==== Sys2Proof/Machine/Coll.lean ====
section
/-! DEFINITION. Collectives: triggers, contributions, ends, deadlines (R376 to R382); the temperature of a stack, for which they
wait (R287). -/
namespace Sys2Proof.Machine

/-- The accesses with which a descriptor starts at this rank: address and length. -/
def State.startSpans (s : State) (d : BitVec 512) (n r : Nat) : List (Nat × Nat) :=
  let segs (h : Nat) : List (Nat × Nat) := segments (halfLen d n h) (s.segLen d)
  if n = 1 then [(cdSrc d, cdLen d), (cdDst d, cdLen d)]
  else if cdReduces d then
    [0, 1].flatMap (fun h =>
      let c := if h = 0 then (r + n - 1) % n else (r + 1) % n
      (segs h).map (fun g => (cdSrc d + c * chunkLen d n + halfOff d n h + g.1, g.2)))
  else if cdOp d = 4 ∧ r ≠ cdRoot d then []
  else [0, 1].flatMap (fun h => (segs h).flatMap (fun g =>
    [(cdSrc d + halfOff d n h + g.1, g.2), (cdDst d + blockAt d n r + halfOff d n h + g.1, g.2)]))

/-- The accesses that a contribution needs here. -/
def State.takeSpans (s : State) (d : BitVec 512) (n r : Nat) (hdr : Hdr) (len : Nat) : List (Nat × Nat) :=
  let chunk := bits hdr.ext 8 16
  let c := chunk / 2
  let h := chunk % 2
  let off := halfOff d n h + hdr.addr % gatherMark
  if cdReduces d ∧ hdr.addr < gatherMark then
    (cdSrc d + c * chunkLen d n + off, min (s.segLen d) (halfLen d n h - hdr.addr % gatherMark))
      :: (if r = c then [(cdDst d + (if cdOp d = 2 then c * chunkLen d n else 0) + off, len)] else [])
  else [(cdDst d + blockAt d n c + off, len)]

/-- An engine waits for a stack of one of these accesses (R287). -/
def State.ceWaits (s : State) (d : BitVec 512) (spans : List (Nat × Nat)) : Bool := spans.any (fun e => s.ceAsleep d e.1 e.2)

/-- The work with which a collective starts. -/
def State.collRun (s : State) (a : Nat) (c : Coll) : State :=
  let d := c.desc
  let n := s.extent a
  let r := s.rank a
  let w : Work := { st := s, c := c }
  if n = 1 then
    ((segments (cdLen d) 4096).foldl (fun (w : Work) g =>
      let o := w.own g.1 g.2
      o.1.out g.1 o.2.1 o.2.2) w).done a false
  else if cdReduces d then (w.startReduce a n r).done a false
  else if cdOp d = 4 ∧ r ≠ cdRoot d then s
  else (w.startGather a n r).done a false

/-- A descriptor starts (R369, R370, R372, R378): a packet of an earlier run leaves the output buffer. It waits for a stack that
serves nothing (R287). -/
def State.collBegin (s : State) (a i : Nat) : State :=
  let d := s.collDesc a i
  let n := s.extent a
  let r := s.rank a
  let kept := (Map.get [] s.collOut a).filter (fun e => decide (bits e.2.header.toNat 312 8 ≠ i))
  let s : State := { s with collOut := Map.set [] s.collOut a kept }
  let waits := s.ceWaits d (s.startSpans d n r)
  let c : Coll := { d := i, desc := d, left := s.segmentsDue d n r, anchor := (cdAnchor d % 1024).toNat, waits := waits }
  let s := s.setColls a (s.collsOf a ++ [c])
  if waits then s else s.collRun a c

/-- The collective whose contributions descriptor `i` takes. -/
def State.collAt (s : State) (a i : Nat) : Option Coll := (s.collsOf a).find? (fun x => decide (x.d = i) && !x.waits)

/-- The contributions that came before a descriptor's start, taken in order. -/
def State.collTake (s : State) (a : Nat) (c : Coll) (hdr : Hdr) (bs : List Byte) : State :=
  let r := ({ st := s, c := c : Work }).take a hdr bs
  r.1.done a r.2

/-- A contribution at an engine whose descriptor runs: CDIG, then LEPOCH, are checked before its payload is used (R377). -/
def State.collArrive (s : State) (a : Nat) (c : Coll) (header : BitVec 384) (payload : List Byte) (cdig : BitVec 64) : State :=
  let hdr := Hdr.decode header
  let key := (bits hdr.ext 8 16, hdr.addr)
  let p := if bits hdr.ext 8 1 = 0 then 2 * a else 2 * a + 1
  if crc64 payload ≠ cdig then
    if c.resent.contains key then
      ((s.bumpFld (CE.DIGEST_FAILS a)).report Status.COLL_DIGEST hdr.src).collFail a c.d Status.COLL_DIGEST
    else
      let s := (s.bumpFld (CE.RESENDS a)).setColls a ((s.collsOf a).map (fun x =>
        if x.d = c.d then { x with resent := key :: x.resent } else x))
      s.control p .resend (bytesOf (c.d + key.1 * 2 ^ 8 + key.2 * 2 ^ 24) 9)
  else if hdr.lepoch ≠ cdLepoch c.desc then (s.bumpFld (CE.STALE a)).collFail a c.d Status.LAYOUT_STALE
  else s.collTake a c hdr payload

/-- A contribution waits in its engine, where its descriptor has not started or a stack that it needs serves nothing. -/
def State.collHold (s : State) (a : Nat) (e : BitVec 384 × List Byte × BitVec 64) : State :=
  { s with collHeld := Map.set [] s.collHeld a (Map.get [] s.collHeld a ++ [e]) }

/-- A contribution at its engine. -/
def State.collContribution (s : State) (a : Nat) (header : BitVec 384) (payload : List Byte) (cdig : BitVec 64) : State :=
  match s.collAt a (bits header.toNat 312 8) with
  | some c =>
    if s.ceWaits c.desc (s.takeSpans c.desc (s.extent a) (s.rank a) (Hdr.decode header) payload.length) then
      s.collHold a (header, payload, cdig)
    else s.collArrive a c header payload cdig
  | none => s.collHold a (header, payload, cdig)

/-- The contributions held for descriptor `i`, given to it in the order of their arrival. -/
def State.collCatchUp (s : State) (a i : Nat) : State :=
  let all := Map.get [] s.collHeld a
  let isMine (e : BitVec 384 × List Byte × BitVec 64) : Bool := decide (bits e.1.toNat 312 8 = i)
  let s := { s with collHeld := Map.set [] s.collHeld a (all.filter (fun e => !isMine e)) }
  (all.filter isMine).foldl (fun (s : State) e => s.collContribution a e.1 e.2.1 e.2.2) s

/-- A stack serves again: the collectives that waited start, and the contributions that waited are taken (R287). -/
def State.collWake (s : State) : State :=
  [0, 1, 2, 3].foldl (fun (s : State) a =>
    (s.collsOf a).foldl (fun (s : State) c =>
      let s := if c.waits && !s.ceWaits c.desc (s.startSpans c.desc (s.extent a) (s.rank a)) then
          let c := { c with waits := false }
          (s.setColls a ((s.collsOf a).map (fun x => if x.d = c.d then c else x))).collRun a c
        else s
      s.collCatchUp a c.d) s) s

/-- At most 32 descriptors of an engine run (BF_CE_STAT). -/
def State.collRoom (s : State) (a i : Nat) : Bool :=
  decide ((s.collsOf a).length < 32) && !(s.collsOf a).any (fun x => decide (x.d = i))

/-- The descriptor armed on a counter starts once the counter has reached its TRIG_N, which is subtracted (R378). -/
def State.collTry (s : State) (a k : Nat) : State :=
  let i := s.fld (CE.ARMED a k)
  let n := cdTrigN (s.collDesc a i)
  if s.fld (CE.ARMED_VALID a k) = 1 ∧ n ≠ 0 ∧ n ≤ s.fld (CE.COUNT a k) ∧ s.collRoom a i then
    ((s.setFld (CE.COUNT a k) (s.fld (CE.COUNT a k) - n)).collBegin a i).collCatchUp a i
  else s

/-- COLL_TRIGGER: a SIG of count n reaches a trigger counter (R378). -/
def execCollTrigger (axis counter n : Nat) (s : State) : Result :=
  if 4 ≤ axis ∨ 64 ≤ counter then .fault .noSuchUnit
  else
    let s := match takeFirst (fun e => decide (e = (axis, counter, n))) s.collSigs with
      | some r => { s with collSigs := r.2 }
      | none => s
    .next ((s.setFld (CE.COUNT axis counter) (s.fld (CE.COUNT axis counter) + n)).collTry axis counter)

/-- COLL_CONTRIBUTION: a packet of TYPE 7 reaches the engine of its axis (R376, R377). -/
def execCollContribution (axis : Nat) (header : BitVec 384) (payload : List (BitVec 8)) (cdig : BitVec 64) (s : State) : Result :=
  if 4 ≤ axis then .fault .noSuchUnit else .next (s.collContribution axis header payload cdig)

/-- COLL_END: the last output is acknowledged; DONE is signalled (a ring pass signals each block as it lands), the chained
descriptor starts (R378, R379). -/
def execCollEnd (axis d : Nat) (s : State) : Result :=
  if 4 ≤ axis ∨ 256 ≤ d then .fault .noSuchUnit
  else match (s.collsOf axis).find? (fun x => x.d = d) with
    | none => .next s
    | some c =>
      if c.left ≠ 0 ∨ c.waits then .next s
      else
        let s := s.setColls axis ((s.collsOf axis).filter (fun x => decide (x.d ≠ d)))
        let s : State := { (s.setFld (CE.LAST_DESC axis) d).setFld (CE.LAST_STATUS axis) 0 with
          collAnchors := Map.set 0 s.collAnchors (axis * 256 + d) c.anchor
          lh := { s.lh with step := s.lh.step.map (fun (st : OpenStep) => { st with reduced := st.reduced ++ [axis * 256 + d] }) } }
        let s := if cdOp c.desc = 3 ∧ s.extent axis ≠ 1 then s else s.collDone axis c.desc
        let s := if cdNextEn c.desc ∧ s.collRoom (cdNaxis c.desc) (cdNext c.desc) then
            (s.collBegin (cdNaxis c.desc) (cdNext c.desc)).collCatchUp (cdNaxis c.desc) (cdNext c.desc)
          else s
        .next ((List.range 64).foldl (fun (s : State) k => s.collTry axis k) s)

/-- COLL_DEADLINE: a collective still running at its DEADLINE stops (R382). -/
def execCollDeadline (axis d : Nat) (s : State) : Result :=
  if 4 ≤ axis ∨ 256 ≤ d then .fault .noSuchUnit
  else match (s.collsOf axis).find? (fun x => x.d = d) with
    | none => .next s
    | some c =>
      if ahead (cdDeadline c.desc) s.count > 0 ∨ (c.left = 0 ∧ !c.waits) then .next s
      else .next ((s.bumpFld (CE.TIMEOUTS axis)).collFail axis d Status.COLL_TIMEOUT)

/-- A resend of a contribution asked for by the neighbour on port `p` (R377). -/
def State.collResend (s : State) (p d chunk addr : Nat) : State :=
  match (Map.get [] s.collOut (p / 2)).find? (fun e =>
      let h := Hdr.decode e.2.header
      decide (e.1 = p) && decide (bits h.ext 0 8 = d) && decide (bits h.ext 8 16 = chunk) && decide (h.addr = addr)) with
  | some e => s.transmit p (Hdr.decode e.2.header) e.2.payload
  | none => s

/-- STACK_TEMP_READ: a stack's temperature and its level (R287, R529). What a stack has accepted when it enters level 3 is served at
the old level (R303); when it leaves it, the collectives that waited for it go on. -/
def execStackTempRead (stack : Nat) (temp : BitVec 8) (s : State) : Result :=
  if 16 ≤ stack then .fault .noSuchUnit
  else if !s.awake then .next s
  else
    let old := s.fld (HBM.TLEVEL stack)
    let new := nextLevel old temp.toNat
    let s := (s.setFld (HBM.TEMP stack) temp.toNat).setFld (HBM.TLEVEL stack) new
    let hot := (List.range 16).any (fun k => decide (2 ≤ s.fld (HBM.TLEVEL k)))
    let s := { s with
      pwr := { s.pwr with memory := s.memoryDuty, hot := s.pwr.hot && hot }
      lh := { s.lh with unfit := if s.pwr.hot && !hot then s.lh.unfit.erase s.self.toNat else s.lh.unfit } }
    let s := if old < 2 ∧ new = 2 then s.report Status.HBM_HOT stack else s
    if old < 3 ∧ new = 3 then
      let s := (List.range 16).foldl (fun (s : State) ch => State.serveChannel stack ch (s.stack stack).queue.length s) s
      let s := s.report Status.HBM_OVERTEMP stack
      .next (s.addCause { bit := 9, status := Status.HBM_OVERTEMP })
    else if old = 3 ∧ new < 3 then .next s.collWake else .next s

end Sys2Proof.Machine
end

