-- ==== Sys2Proof/Machine/Dma.lean ====
section
/-! DEFINITION. The DMA class and the life of a DMA operation (R98 to R100). -/
namespace Sys2Proof.Machine

/-! ### Format D (R86) -/
def fSCHED (w : BitVec 52) : Bool := bit w.toNat 32
def fQUE (w : BitVec 52) : Nat := bits w.toNat 28 4
def fSYNCM (w : BitVec 52) : Nat := bits w.toNat 26 2
def fRCd (w : BitVec 52) : Nat := bits w.toNat 21 5
def fTX (w : BitVec 52) : Bool := bit w.toNat 20
def fTXH (w : BitVec 52) : Nat := bits w.toNat 18 2

/-- The fields that SYNCM and TX bring with them: RC where SYNCM is not 0, TXH where TX is 1. -/
def usedSyncTx (w : BitVec 52) : List (Nat × Nat) :=
  [(26, 2), (20, 1)] ++ (if fSYNCM w = 0 then [] else [(21, 5)]) ++ (if fTX w then [(18, 2)] else [])
def regsSync (w : BitVec 52) : List Nat := if fSYNCM w = 0 then [] else [fRCd w]

def formDmast (x : Tile) (w : BitVec 52) : Form :=
  { used := [uRD, uRA, (32, 1), (28, 4)] ++ (if fSCHED w then [uRB] else []) ++ usedSyncTx w
    regs := [fRD w, fRA w] ++ (if fSCHED w then [fRB w] else []) ++ regsSync w
    legal := decide (fQUE w < 4) && decide (fSYNCM w ≠ 3)
    room := decide (x.queued (fQUE w) < 16) }

/-- A descriptor offset (R98): a multiple of 32, at most 0x9_FFE0. -/
def descOffOk (a : Word) : Bool := decide (a.toNat % 32 = 0) && decide (a.toNat ≤ 0x9_FFE0)

/-- SYNCM's semaphore, translated at issue (R95): none where there is none to signal; `some none` where it fails. -/
def State.syncTarget (s : State) (t : Nat) (w : BitVec 52) : Option (Option SemRef) :=
  if fSYNCM w = 0 then none else some (s.semTarget t (((s.tile t).getS (fRCd w)).toNat % 2 ^ 32) true)

/-- DMAST: the descriptor is copied, checked, and queued (R98 to R100). -/
def execDmast (t : Nat) (w : BitVec 52) (s : State) : Result :=
  issue t w (formDmast (s.tile t) w) (fun pc s =>
    let x := s.tile t
    let a := x.getS (fRA w)
    let rd := fRD w
    if !descOffOk a then s.faultAt t Status.INSN_FIELD pc
    else if s.syncTarget t w = some none then s.putStatus t rd Status.SEM_XLAT
    else
      let r := x.spadRead a.toNat 32
      let s := s.setTile t r.1
      let d := BitVec.ofNat 256 (ofBytes r.2.2)
      let at_ := x.getS (fRB w)
      if r.2.1 ≠ 0 then (s.putStatus t rd r.2.1).chargeSpad t r.2.1
      else if s.dmaCheck t d ≠ 0 then s.putStatus t rd (s.dmaCheck t d)
      else if fTX w && !x.txnOpen (fTXH w) then s.putStatus t rd Status.TXN_STATE
      else if fSCHED w && decide (s.fld BCN.STATE = 5) then s.putStatus t rd Status.BCN_LOST
      else if fSCHED w && tooFar at_ s.count then s.putStatus t rd Status.SCHED_RANGE
      else
        let k := s.key
        let o : DmaOp := {
          id := k.1, que := fQUE w, desc := d, sched := if fSCHED w then some at_ else none
          late := fSCHED w && decide (ahead at_ s.count ≤ 0)
          syncm := fSYNCM w, sem := (s.syncTarget t w).getD none, txn := if fTX w then some (x.named (fTXH w)) else none }
        (k.2.onTile t (fun x => { x with dma := x.dma ++ [o] })).putStatus t rd 0) s

def formDmawt (w : BitVec 52) : Form :=
  { used := [uRD, (28, 4)], regs := [fRD w], legal := decide (fQUE w < 4) }
def formDmacan (w : BitVec 52) : Form := { used := [(28, 4)], regs := [], legal := decide (fQUE w < 4) }

/-- DMAWT: RD takes the queue's first non-success status once the queue is empty. -/
def execDmawt (t : Nat) (w : BitVec 52) (s : State) : Result :=
  issue t w (formDmawt w) (fun _ s => s.onTile t (fun x =>
    let q := fQUE w
    if x.queued q = 0 then
      { x.putS (fRD w) ((Map.get 0 x.dmaStatus q).setWidth 64) with dmaStatus := Map.set 0 x.dmaStatus q 0 }
    else { x with stall := .dmawt q (fRD w) })) s

/-- DMACAN: the operations of the queue that have not started leave it. -/
def execDmacan (t : Nat) (w : BitVec 52) (s : State) : Result :=
  issue t w (formDmacan w) (fun _ s =>
    let q := fQUE w
    let out := ((s.tile t).dma.filter (fun o => decide (o.que = q) && !o.started)).map (·.id)
    if out = [] then s
    else
      let s := s.onTile t (fun x =>
        let x := { x with dma := x.dma.filter (fun o => !(decide (o.que = q) && !o.started)) }
        (out.foldl (fun x id => x.sigOpGone id none) x).queueEmpty q)
      (s.sigDrain t (s.tile t).sigs).txnSettle t) s

/-- DMA_OP_START: the engine takes the operation at the head of the queue, not before its count, and serves its first
request. -/
def execDmaOpStart (t que : Nat) (s : State) : Result :=
  if s.tileCount ≤ t ∨ 4 ≤ que then .fault .noSuchUnit
  else match (s.tile t).current que with
    | none => .next s
    | some o =>
      let early := match o.sched with
        | some c => decide (ahead c s.count > 0)
        | none => false
      if o.started || early || decide ((s.tile t).fld TILE.CORE_READY = 0) then .next s
      else
        let s := s.onTile t (fun x => x.onOp o.id (fun o => { o with started := true }))
        let c := s.spanCheck o.desc
        if c ≠ 0 then .next (s.dmaFail t o.id c).1 else .next (s.dmaServe t que).1

/-- The answers to an operation's writes, one after another. -/
def State.dmaAnswers (s : State) (t : Nat) : Nat → State
  | 0 => s
  | fuel + 1 =>
    match takeFirst (fun m => match m with | .answer (.dma _ _) _ _ _ => true | _ => false) (s.tile t).mail with
    | some (.answer (.dma st id) target c dark, rest) =>
      let s := s.onTile t (fun x => { x with mail := rest })
      let s := if (s.tile t).stale s.count st then s.onTile t (fun x => x.bumpFld TILE.STALE_REPLIES)
        else
          let s := s.onTile t (fun x => x.onOp id (fun o =>
            { o with unacked := o.unacked - 1, status := if c = 0 then o.status else some (o.status.getD c) }))
          s.txnAnswer t dark target c
      s.dmaAnswers t fuel
    | _ => s

/-- DMA_OP_END: answers are taken in, the engine serves its queues until this one's operation needs nothing more, and that
operation ends once all of it is over. -/
def execDmaOpEnd (t que : Nat) (s : State) : Result :=
  if s.tileCount ≤ t ∨ 4 ≤ que then .fault .noSuchUnit
  else
    let s := s.dmaAnswers t (s.tile t).mail.length
    let s := s.dmaRun t que (s.tile t).dmaFuel
    match (s.tile t).current que with
    | none => .next s
    | some o => if o.started && o.ended then .next (s.dmaFinish t o) else .next s

end Sys2Proof.Machine
end

