-- ==== Sys2Proof/Machine/MatOps.lean ====
section
/-! DEFINITION. What one MAT instruction does (R109 to R127, R150 to R155, R158): operand streams, accumulators, exact sums. -/
namespace Sys2Proof.Machine

/-! ### Format X (R86) -/
def fACC (w : BitVec 52) : Nat := bits w.toNat 44 4
def xRA (w : BitVec 52) : Nat := bits w.toNat 39 5
def xRB (w : BitVec 52) : Nat := bits w.toNat 34 5
def xRK (w : BitVec 52) : Nat := bits w.toNat 29 5
def xFMT (w : BitVec 52) : Nat := bits w.toNat 25 4
def fREFA (w : BitVec 52) : Bool := bit w.toNat 24
def fREFB (w : BitVec 52) : Bool := bit w.toNat 23
def fEXACT (w : BitVec 52) : Bool := bit w.toNat 22
def fZACC (w : BitVec 52) : Bool := bit w.toNat 21
def fPAIR (w : BitVec 52) : Bool := bit w.toNat 20
def fMSEL (w : BitVec 52) : Nat := bits w.toNat 16 4
def fMX (w : BitVec 52) : Bool := bit w.toNat 15

/-- ACC names a0 to a11, or e0 to e3 with EXACT (R117). -/
def accOk (w : BitVec 52) : Bool := decide (fACC w < (if fEXACT w then 4 else 12))

/-- The fields that each MAT instruction uses (R121), and whether they hold allowed values (R115, R117). -/
def matUsed (op : Nat) : List (Nat × Nat) :=
  match op with
  | 1 => [(15, 33)]
  | 8 => [(44, 4), (22, 1)]
  | 9 => [(44, 4), (39, 5), (29, 5), (25, 4), (22, 1)]
  | 0xA => [(44, 4), (39, 5), (29, 5), (25, 4), (22, 1), (16, 4)]
  | _ => [(39, 5), (34, 5)]
def matLegal (op : Nat) (w : BitVec 52) : Bool :=
  match op with
  | 1 => accOk w && decide ((if fEXACT w then 4 else 1) ≤ xFMT w) && decide (xFMT w ≤ 9)
    && (!fMX w || (decide (4 ≤ xFMT w) && !fREFA w && !fREFB w))
  | 8 => accOk w
  | 9 => accOk w && decide (xFMT w ≤ 0xA)
  | 0xA => accOk w && decide (xFMT w ≤ 0xA)
  | _ => true

/-! ### Masks (R125, R126) -/

/-- The masks that MSEL selects, as they stand. -/
def Tile.mask (t : Tile) (w : BitVec 52) : BitVec 48 × BitVec 48 :=
  if fMSEL w = 0 then (BitVec.allOnes 48, BitVec.allOnes 48)
  else (BitVec.ofNat 48 (t.fld (TILE.matRows (fMSEL w))), BitVec.ofNat 48 (t.fld (TILE.matCols (fMSEL w))))

/-- Output element (i, j) is kept. -/
def QInsn.keeps (q : QInsn) (i j : Nat) : Bool := q.rows.getLsbD i && q.cols.getLsbD j
def QInsn.keepsNone (q : QInsn) : Bool := decide (q.rows = 0) || decide (q.cols = 0)

/-! ### The accumulator store (R76): 32-bit words, a(n) from word 2304 n, ek from word 6912 k -/

/-- The 2,304 elements of a(n), row by row. -/
def Tile.accRead (t : Tile) (n : Nat) : List Nat := (readRun 0 t.acc (2304 * n) 2304).map BitVec.toNat
def Tile.accWrite (t : Tile) (n : Nat) (xs : List Nat) : Tile :=
  { t with acc := writeRun 0 t.acc (2304 * n) (xs.map (BitVec.ofNat 32)) }

/-- The 2,304 elements of ek. -/
def Tile.longRead (t : Tile) (k : Nat) : List LongVal :=
  let w := packElems 32 ((readRun 0 t.acc (6912 * k) 6912).map BitVec.toNat)
  (List.range 2304).map (fun i => LongVal.ofBits (bits w (96 * i) 96))
def Tile.longWrite (t : Tile) (k : Nat) (xs : List LongVal) : Tile :=
  let w := packElems 96 (xs.map LongVal.toBits)
  { t with acc := writeRun 0 t.acc (6912 * k) ((List.range 6912).map (fun i => BitVec.ofNat 32 (bits w (32 * i) 32))) }

/-! ### Anchors, term counts, ERANGE (R120, R151, R156) -/

def Tile.anchor (t : Tile) (k : Nat) : Int := signed 10 (t.fld (anchorFld k))
def Tile.setAnchor (t : Tile) (k : Nat) (a : Int) : Tile :=
  (t.setFld (anchorFld k) (a % 1024).toNat).setFld (anchorSet k) 1

/-- The term count of ek back to 0, ERANGE bit k cleared. -/
def Tile.clearTerms (t : Tile) (k : Nat) : Tile :=
  let u := { t with terms := Map.set 0 t.terms k 0 }
  u.setFld TILE.ERANGE (u.fld TILE.ERANGE - (u.fld TILE.ERANGE &&& 2 ^ k))

/-- Bit k of ERANGE and EXACT_RANGE set. -/
def Tile.setRange (t : Tile) (k : Nat) : Tile :=
  (t.setFld TILE.ERANGE (t.fld TILE.ERANGE ||| 2 ^ k)).setFld TILE.EXACT_RANGE 1

/-! ### Operand streams (R111 to R115) -/

/-- BASE, STRIDE, SCALE of an operand register. -/
def strBase (v : Word) : Nat := bits v.toNat 0 20
def strStride (v : Word) : Nat := bits v.toNat 20 20
def strScale (v : Word) : Nat := bits v.toNat 40 20

/-- R114 for one stream. -/
def streamOk (f depth : Nat) (mx : Bool) (v : Word) : Bool :=
  decide (bits v.toNat 60 4 = 0) && (mx || decide (strScale v = 0)) && decide (strBase v % 64 = 0)
    && decide (strStride v % 64 = 0)
    && inSpad (strBase v + (ceilDiv depth 48 - 1) * strStride v, squareBytes f)
    && (!mx || inSpad (strScale v, depth / 32 * 48))

/-- The status with which an MMA is refused (R114, R115). -/
def mmaCheck (q : QInsn) : BitVec 16 :=
  let k := q.c.toNat
  let f := xFMT q.w
  let mx := fMX q.w
  if k = 0 ∨ 2 ^ 24 < k then Status.MAT_OPERAND
  else if !streamOk f k mx q.a || !streamOk f k mx q.b then Status.MAT_OPERAND
  else if mx && decide (k % 32 ≠ 0) then Status.MAT_MX
  else 0

/-- The byte ranges that a stream reads: its squares, the last of a direct stream only as far as the depth uses it, and
its scales. -/
def streamReads (f depth : Nat) (mx refl : Bool) (v : Word) : List (Nat × Nat) :=
  (List.range (ceilDiv depth 48)).map (fun n =>
    (strBase v + n * strStride v,
      if refl then squareBytes f else min 48 (depth - 48 * n) * (48 * fmtWidth f / 8)))
    ++ (if mx then [(strScale v, depth / 32 * 48)] else [])

/-- Depth step `d` of a stream from the bytes read: the 48 elements by output index, each with its scale. -/
def streamStep (f : Nat) (mx refl : Bool) (squares : List Nat) (scales d : Nat) : List FVal :=
  let sq := squares.getD (d / 48) 0
  let w := fmtWidth f
  (List.range 48).map (fun i =>
    let pos := if refl then i * 48 + d % 48 else d % 48 * 48 + i
    let v := FVal.ofBits f mx (bits sq (w * pos) w)
    if mx then
      let e := bits scales (8 * (d / 32 * 48 + i)) 8
      if e = 0xFF then .nan else v.shift (127 - (e : Int))
    else v)

/-- The squares and the scales of what was read. -/
def streamParts (mx : Bool) (bs : List (List Byte)) : List Nat × Nat :=
  let ns := bs.map ofBytes
  if mx then (ns.dropLast, ns.getLastD 0) else (ns, 0)

/-- The smallest unbiased scale exponent of a group, and the smallest sum over the groups of two streams; none where
every scale is 0xFF. -/
def groupMin (scales g : Nat) : Option Int :=
  ((List.range 48).filterMap (fun i =>
    let e := bits scales (8 * (g * 48 + i)) 8
    if e = 0xFF then none else some ((e : Int) - 127))).min?
def scaleMin (depth sa sb : Nat) : Option Int :=
  ((List.range (depth / 32)).filterMap (fun g =>
    match groupMin sa g, groupMin sb g with
    | some x, some y => some (x + y)
    | _, _ => none)).min?

/-! ### The sums -/

/-- Lists of 16. -/
def chunks16 {α : Type} : Nat → List α → List (List α)
  | 0, _ => []
  | _ + 1, [] => []
  | n + 1, xs => xs.take 16 :: chunks16 n (xs.drop 16)

/-- One chunk into an FP32 value: one rounding (R158). -/
def chunkFp32 (acc : Nat) (ps : List FVal) : Nat :=
  if ps.isEmpty then acc else (ps.foldl (FVal.add false) (.ofBits 1 false acc)).toBits 1 .near true

/-- The reference order (R158). -/
def sumFp32 (acc : Nat) (ps : List FVal) : Nat := (chunks16 (ps.length + 1) ps).foldl chunkFp32 acc

/-- λ_min and E_f (R150). -/
def exactConst (f : Nat) (mx : Bool) : Int × Int :=
  match f with
  | 4 => (-9, 28)
  | 5 => (-16, 33)
  | 6 => (-4, 12)
  | 7 => (-3, 4)
  | 8 => (-1, 4)
  | _ => (if mx then -6 else 0, 0)

/-- A long element in the course of an MMA, and whether it has met a breaking product (R153). -/
abbrev LongRun := LongVal × Bool

/-- The exact products of one chunk in turn; the first that breaks a condition, or is not finite, moves the element to
the fallen-back form, and it and the rest of the chunk are added there (R153, R154). `n` terms have been counted. -/
def chunkExact (a ef : Int) (v : Int) (n : Nat) : List FVal → LongRun
  | [] => (.exact v, false)
  | p :: ps =>
    let fall (range : Bool) : LongRun := (.fallen (chunkFp32 ((LongVal.exact v).toFp32 a) (p :: ps)), range)
    match p with
    | .fin neg m q =>
      if m = 0 then chunkExact a ef v (n + 1) ps
      else if q < a ∨ a + ef + 32 < q ∨ 2 ^ 24 ≤ n then fall true
      else chunkExact a ef (v + scaled neg m q a) (n + 1) ps
    | _ => fall false

/-- A long element through its chunks. -/
def sumExact (a ef : Int) : Nat → LongRun → List (List FVal) → LongRun
  | _, r, [] => r
  | n, (v, br), c :: cs =>
    let r : LongRun := match v with
      | .exact k =>
        let x := chunkExact a ef k n c
        (x.1, br || x.2)
      | .fallen b => (.fallen (chunkFp32 b c), br)
    sumExact a ef (n + c.length) r cs

/-- The products of element (i, j), from the streams' steps. -/
def productsOf (as bs : List (List FVal)) (i j : Nat) : List FVal :=
  List.zipWith (fun (a b : List FVal) => (a.getD i .nan).mul (b.getD j .nan)) as bs

/-- A product as an integer (R138): none where it is not one. -/
def FVal.asInt : FVal → Option Int
  | .fin neg m q =>
    let v : Option Int := if 0 ≤ q then some (m * 2 ^ q.toNat) else if m % 2 ^ (-q).toNat = 0 then some (m / 2 ^ (-q).toNat) else none
    v.map (fun v => if neg then -v else v)
  | _ => none

/-- A product as the configuration's free value sees it. -/
def FVal.asPair : FVal → Option (Int × Int)
  | .fin neg m q => some (if neg then -(m : Int) else m, q)
  | _ => none

/-- An INT32 element with its products added (R117): modulo 2^32 where all are integers, else the configuration's free value
(R115 with EXACT = 0 states no other sum; log 24). -/
def sumInt (acc : Nat) (ps : List FVal) : Nat :=
  if ps.all (fun p => p.asInt.isSome) then
    (ps.foldl (fun (v : Int) (p : FVal) => v + p.asInt.getD 0) (acc : Int) % 2 ^ 32).toNat
  else (Config.scaledSum acc (ps.map FVal.asPair)).toNat

/-- The 48 × 48 element positions. -/
def cells : List (Nat × Nat) := (List.range 2304).map (fun e => (e / 48, e % 48))

/-- The cycles in which the array adds products (R110). -/
def arrayCycles (f depth : Nat) : Nat :=
  if f = 8 then ceilDiv depth 2 else if f = 2 ∨ f = 3 then 2 * depth else if f = 1 then 16 * depth else depth

/-- An MMA that is not refused: the accumulator from the streams' steps. -/
def State.mmaApply (s : State) (t : Nat) (q : QInsn) (as bs : List (List FVal)) (low : Option Int) : State :=
  let x := s.tile t
  let n := fACC q.w
  let f := xFMT q.w
  let mx := fMX q.w
  let x := x.countFld TILE.MAT_BUSY (arrayCycles f q.c.toNat)
  if fEXACT q.w then
    let x := if fZACC q.w then (x.clearTerms n).setFld (anchorSet n) 0 else x
    let c := exactConst f mx
    let d := s.draw 10
    let fresh := decide (x.fld (anchorSet n) = 0)
    let x := if fresh then x.setAnchor n (match (if mx then low else some 0) with
      | some l => 2 * c.1 + l
      | none => signed 10 d.1.toNat) else x
    let s := if fresh && mx && low.isNone then d.2 else s
    let a := x.anchor n
    let count := Map.get 0 x.terms n
    let old := x.longRead n
    let new := (cells.zip old).map (fun (e : (Nat × Nat) × LongVal) =>
      if q.keeps e.1.1 e.1.2 then
        sumExact a c.2 count (if fZACC q.w then .exact 0 else e.2, false)
          (chunks16 (q.c.toNat + 1) (productsOf as bs e.1.1 e.1.2))
      else (e.2, false))
    let x := { x.longWrite n (new.map (·.1)) with terms := Map.set 0 x.terms n (count + q.c.toNat) }
    s.setTile t (if new.any (·.2) then x.setRange n else x)
  else
    let old := x.accRead n
    let zero := fZACC q.w
    let new := (cells.zip old).map (fun (e : (Nat × Nat) × Nat) =>
      if q.keeps e.1.1 e.1.2 then
        let ps := productsOf as bs e.1.1 e.1.2
        let acc := if zero then 0 else e.2
        if f = 9 then sumInt acc ps else sumFp32 acc ps
      else e.2)
    s.setTile t (x.accWrite n new)

/-- MMA: the state, and the status it raises. -/
def State.runMma (s : State) (t : Nat) (q : QInsn) : State × BitVec 16 :=
  let c := mmaCheck q
  if c ≠ 0 then (s, c)
  else if q.keepsNone then (s, 0)
  else
    let f := xFMT q.w
    let mx := fMX q.w
    let k := q.c.toNat
    let a := (s.tile t).readAll (streamReads f k mx (fREFA q.w) q.a)
    if a.2.1 ≠ 0 then (s.setTile t a.1, a.2.1)
    else
      let b := a.1.readAll (streamReads f k mx (fREFB q.w) q.b)
      let s := s.setTile t b.1
      if b.2.1 ≠ 0 then (s, b.2.1)
      else
        let pa := streamParts mx a.2.2
        let pb := streamParts mx b.2.2
        let steps := List.range k
        (s.mmaApply t q (steps.map (streamStep f mx (fREFA q.w) pa.1 pa.2))
          (steps.map (streamStep f mx (fREFB q.w) pb.1 pb.2)) (scaleMin k pa.2 pb.2), 0)

/-! ### AZERO, ALD, AST (R121, R122) -/

/-- AZERO: every element 0; for ek the term count and ERANGE too, and SET_k cleared (R151). -/
def Tile.azero (t : Tile) (q : QInsn) : Tile :=
  let n := fACC q.w
  if fEXACT q.w then ((t.longWrite n (List.replicate 2304 (.exact 0))).clearTerms n).setFld (anchorSet n) 0
  else t.accWrite n (List.replicate 2304 0)

/-- Fields of RK. -/
def kRND (v : Word) : Nat := bits v.toNat 0 3
def kLONG (v : Word) : Bool := bit v.toNat 3
def kTAG (v : Word) : Bool := bit v.toNat 4
def kSLOT (v : Word) : Nat := bits v.toNat 5 12

/-- Bytes of an element that ALD or AST moves. -/
def accSize (q : QInsn) : Nat :=
  if kLONG q.c then 12 else if xFMT q.w = 2 ∨ xFMT q.w = 3 then 2 else 4

/-- The combinations of R122. -/
def accMoveOk (q : QInsn) : Bool :=
  let f := xFMT q.w
  let k := q.c
  let ast := decide (q.op = 0xA)
  let ex := fEXACT q.w
  let narrow := decide (f = 1) || decide (f = 0xA) || decide (f = 2) || decide (f = 3)
  decide (bits q.a.toNat 20 44 = 0) && decide (q.a.toNat % 64 = 0) && inSpad (bits q.a.toNat 0 20, 2304 * accSize q)
    && (if ast then decide (k.toNat < 2 ^ 17) && decide (kRND k ≤ 5) && (!kTAG k || decide (kSLOT k < 2560))
        else decide (k.toNat = 0) || decide (k.toNat = 8))
    && (if ex then decide (kRND k = 0) && (if kLONG k then decide (f = 0) else ast && narrow)
        else !kLONG k && narrow)

/-- ALD's new accumulator from the bytes read. -/
def Tile.aload (t : Tile) (q : QInsn) (bs : List Byte) : Tile :=
  let n := fACC q.w
  let f := xFMT q.w
  let w := ofBytes bs
  if fEXACT q.w then
    ((t.longWrite n ((List.range 2304).map (fun i => LongVal.ofBits (bits w (96 * i) 96)))).clearTerms n).setFld
      (anchorSet n) 1
  else if f = 2 ∨ f = 3 then
    t.accWrite n ((List.range 2304).map (fun i => (FVal.ofBits f false (bits w (16 * i) 16)).toBits 1 .near true))
  else t.accWrite n ((List.range 2304).map (fun i => bits w (32 * i) 32))

/-- AST's elements, as bits of `accSize` bytes. -/
def Tile.astore (t : Tile) (q : QInsn) : List Nat :=
  let n := fACC q.w
  let f := xFMT q.w
  if fEXACT q.w then
    let a := t.anchor n
    (t.longRead n).map (fun v =>
      if kLONG q.c then v.toBits
      else if f = 0xA then (v.value a).toBits 0xA .near true
      else match v with
        | .fallen b => if f = 1 then b else (FVal.ofBits 1 false b).toBits f .near true
        | .exact k => (FVal.ofInt k a).toBits f .near true)
  else if f = 2 ∨ f = 3 then
    let code := t.rndCode (kRND q.c)
    (cells.zip (t.accRead n)).map (fun (e : (Nat × Nat) × Nat) =>
      (FVal.ofBits 1 false e.2).toBits f (t.rounding code e.1.1 e.1.2) true)
  else t.accRead n

/-- The writes of AST: runs of kept elements (R126). -/
def astWrites (q : QInsn) (xs : List Nat) : List (Nat × List Byte) :=
  let sz := accSize q
  let base := bits q.a.toNat 0 20
  let row (i : Nat) : List (Nat × List Byte) :=
    ((List.range 48).foldl (fun (r : List (Nat × List Nat)) j =>
      if !q.keeps i j then r
      else
        let v := xs.getD (i * 48 + j) 0
        match r.getLast? with
        | some (st, vs) => if st + vs.length = j then r.dropLast ++ [(st, vs ++ [v])] else r ++ [(j, [v])]
        | none => [(j, [v])]) []).map (fun (g : Nat × List Nat) =>
          (base + (i * 48 + g.1) * sz, bytesOf (packElems (8 * sz) g.2) (sz * g.2.length)))
  ((List.range 48).map row).flatten

/-- What a MAT instruction leaves behind: a status, or an AST that waits for its slot. -/
inductive MatEnd where
  | status (c : BitVec 16)
  | waits

/-- AST: the data is written plainly; with TAG the slot's tag follows once the slot is empty. One that a status stops writes
nothing, as R134 has it of an item; a direct AST too (DEDUCED, log 100). -/
def State.runAst (s : State) (t : Nat) (q : QInsn) : State × MatEnd :=
  if !accMoveOk q then (s, .status Status.INSN_FIELD)
  else
    let old := s.tile t
    let u := s.writeAll t (astWrites q (old.astore q))
    if u.2 ≠ 0 then
      (u.1.onTile t (fun x => { x with spad := old.spad, eccSingle := old.eccSingle, eccDouble := old.eccDouble }), .status u.2)
    else if !kTAG q.c then (u.1, .status 0)
    else
      let slot := kSLOT q.c
      let x := u.1.tile t
      if x.tagReady .store slot 1 then (u.1.setTile t (x.setTags slot 1 true), .status 0)
      else (u.1.setTile t { x with parked := x.parked ++ [⟨2, .store, slot, 1, .ast q.pc⟩], astWait := some (slot, q.ord.2) }, .waits)

/-- One MAT instruction other than MRUN. -/
def State.runMat (s : State) (t : Nat) (q : QInsn) : State × MatEnd :=
  match q.op with
  | 1 =>
    let r := s.runMma t q
    (r.1, .status r.2)
  | 8 => (s.onTile t (fun x => x.azero q), .status 0)
  | 9 =>
    if !accMoveOk q then (s, .status Status.INSN_FIELD)
    else
      let r := (s.tile t).spadRead (bits q.a.toNat 0 20) (2304 * accSize q)
      if r.2.1 ≠ 0 then (s.setTile t r.1, .status r.2.1) else (s.setTile t (r.1.aload q r.2.2), .status 0)
  | _ => s.runAst t q

/-- R123: the pair is refused. -/
def pairRefused (p q : QInsn) : Bool :=
  decide (q.op ≠ 1) || fPAIR q.w || decide (xFMT p.w ≠ xFMT q.w) || fEXACT p.w != fEXACT q.w || fMX p.w != fMX q.w
    || decide (fACC p.w = fACC q.w)

end Sys2Proof.Machine
end

