-- ==== Sys2Proof/Machine/MatQueue.lean ====
section
/-! DEFINITION. The matrix engine's queue, pairs and work lists (R80, R123, R127 to R134). -/
namespace Sys2Proof.Machine

/-! ### Work lists -/

/-- An item's instruction from its 32 bytes (R129); none where it breaks that rule. -/
def itemOf (t : Tile) (off : Nat) (bs : List Byte) : Option QInsn :=
  let n := ofBytes bs
  let w := BitVec.ofNat 52 n
  let op := bits n 52 8
  if decide (bits n 60 4 = 4) && [1, 8, 9, 0xA].contains op && decide (bits n 48 4 = 0) && decide (xRA w = 0)
      && decide (xRB w = 0) && decide (xRK w = 0) && unusedZero w (matUsed op) && matLegal op w then
    let m := t.mask w
    some { cls := 4, op := op, w := w, pc := BitVec.ofNat 20 off, a := BitVec.ofNat 64 (bits n 64 64)
           b := BitVec.ofNat 64 (bits n 128 64), c := BitVec.ofNat 64 (bits n 192 64), rows := m.1, cols := m.2 }
  else none

/-- The item at an offset as it reads now: the tile, a status, the instruction. -/
def Tile.readItem (t : Tile) (off : Nat) : Tile × BitVec 16 × Option QInsn :=
  let r := t.spadRead off 32
  (r.1, r.2.1, if r.2.1 = 0 then itemOf r.1 off r.2.2 else none)

/-- The running list moves to item `n`, or ends. -/
def Tile.listAt (t : Tile) (n : Nat) (done : Bool) : Tile :=
  { t with running := t.running.map (fun r => { r with next := n, done := done }) }

/-- A status of an item: the list ends (R134). -/
def State.failList (s : State) (t : Nat) (c : BitVec 16) (off : Nat) : State :=
  (s.onTile t (fun x => x.listAt 0 true)).record t c (BitVec.ofNat 20 off)

/-- The items of the running list from its next one, in order; `fuel` bounds them. An AST that waits for its slot stops
the run until the slot is served. A status of one item of a pair stops both (R134); that of the first is taken before that of
the second. -/
def State.runItems (t : Nat) : Nat → State → State
  | 0, s => s
  | fuel + 1, s =>
    match (s.tile t).running with
    | none => s
    | some r =>
      if r.done then s
      else if r.list.count ≤ r.next then s.onTile t (fun x => x.listAt r.next true)
      else
        let off := r.list.off + 32 * r.next
        let i := (s.tile t).readItem off
        let s := s.setTile t i.1
        if i.2.1 ≠ 0 then s.failList t i.2.1 off
        else match i.2.2 with
          | none => s.failList t Status.INSN_FIELD off
          | some p =>
            if p.op = 1 ∧ fPAIR p.w = true then
              let j := if r.next + 1 < r.list.count then i.1.readItem (off + 32) else (i.1, 0, none)
              let s := s.setTile t j.1
              if j.2.1 ≠ 0 then s.failList t j.2.1 (off + 32)
              else match j.2.2 with
                | none =>
                  if r.next + 1 < r.list.count then s.failList t Status.INSN_FIELD (off + 32)
                  else s.failList t Status.MAT_PAIR off
                | some q =>
                  if pairRefused p q then s.failList t Status.MAT_PAIR off
                  else
                    let a := s.runMma t p
                    if a.2 ≠ 0 then a.1.failList t a.2 off
                    else
                      let b := s.runMma t q
                      if b.2 ≠ 0 then b.1.failList t b.2 (off + 32)
                      else State.runItems t fuel ((a.1.runMma t q).1.onTile t (fun x => x.listAt (r.next + 2) false))
            else
              let a := s.runMat t p
              match a.2 with
              | .waits => a.1.onTile t (fun x => x.listAt (r.next + 1) false)
              | .status c =>
                if c ≠ 0 then a.1.failList t c off
                else State.runItems t fuel (a.1.onTile t (fun x => x.listAt (r.next + 1) false))

/-- The items that are left, as far as they run. -/
def State.continueList (s : State) (t : Nat) : State :=
  match (s.tile t).running with
  | some r => if s.lanesOn then State.runItems t (r.list.count + 1) s else s
  | none => s

/-! ### MRUN (R128) -/

/-- The list that MRUN's registers describe; none where it is refused. -/
def mrunList (x : Tile) (q : QInsn) : Option WorkList :=
  let b := q.b.toNat
  let n := bits b 0 8
  let off := q.a.toNat
  if n = 0 ∨ bits b 10 6 ≠ 0 ∨ bits b 30 34 ≠ 0 ∨ bits off 20 44 ≠ 0 ∨ off % 32 ≠ 0 ∨ !inSpad (off, 32 * n) then none
  else
    let slot := bits b 16 12
    some { off := off, count := n, backward := bit b 8, last := bit b 9, slot := slot, waits := bit b 28
           consume := bit b 29, pc := q.pc, ready := !bit b 28 || x.full slot }

/-! ### The engine queue -/

/-- One start at the head of the engine queue; none where nothing can start. -/
def State.matStep (s : State) (t : Nat) : Option State :=
  let x := s.tile t
  match x.mq with
  | [] => none
  | p :: rest =>
    let pop (n : Nat) := s.setTile t { x with mq := x.mq.drop n }
    if p.op = 0x10 then
      match mrunList x p with
      | none => some ((pop 1).faultAt t Status.MAT_OPERAND p.pc)
      | some l => if x.lists.length < 16 then some (s.setTile t { x with mq := rest, lists := x.lists ++ [l] }) else none
    else if x.running.isSome || x.astWait.isSome then none
    else if p.op = 1 ∧ fPAIR p.w = true then
      match rest with
      | [] => none
      | q :: _ =>
        if pairRefused p q then some ((pop (if q.op = 1 then 2 else 1)).faultAt t Status.MAT_PAIR p.pc)
        else
          let a := (pop 2).runMma t p
          let s := if a.2 = 0 then a.1 else a.1.faultAt t a.2 p.pc
          let b := s.runMma t q
          some (if b.2 = 0 then b.1 else b.1.faultAt t b.2 q.pc)
    else
      let a := (pop 1).runMat t p
      match a.2 with
      | .waits => some a.1
      | .status c => some (if c = 0 then a.1 else a.1.faultAt t c p.pc)

/-- Starts in queue order, as long as something can start; `n` bounds them. -/
def State.matSteps (t : Nat) : Nat → State → State
  | 0, s => s
  | n + 1, s => match s.matStep t with
    | some s' => State.matSteps t n s'
    | none => s

/-- The engine queue runs as far as it can; with DUTY 0 not at all (R519). -/
def State.drainMat (s : State) (t : Nat) : State := if s.lanesOn then State.matSteps t (s.tile t).mq.length s else s

/-- A MAT instruction enters the engine queue: its register values and its mask as they stand (R81, R127). -/
def enqueueMat (t op : Nat) (w : BitVec 52) (pc : BitVec 20) (s : State) : State :=
  let x := s.tile t
  let m := x.mask w
  let q : QInsn := { cls := 4, op := op, w := w, pc := pc, a := x.getS (xRA w), b := x.getS (xRB w), c := x.getS (xRK w)
                     rows := m.1, cols := m.2, ord := (x.vecs, x.mats) }
  (s.setTile t { x with mq := x.mq ++ [q], mats := x.mats + 1 }).drainMat t

/-- The issue of a MAT instruction. -/
def issueMat (t op : Nat) (w : BitVec 52) (regs : List Nat) (s : State) : Result :=
  issue t w { used := matUsed op, regs := regs, legal := matLegal op w, room := decide ((s.tile t).mq.length < 16) }
    (enqueueMat t op w) s

/-! ### The picker (R131, R132) -/

/-- The picker may start forward lists. -/
def Tile.forwardOpen (t : Tile) : Bool :=
  decide (t.fld TILE.FWD_AHEAD = 0) || decide (t.fld TILE.AHEAD < t.fld TILE.FWD_AHEAD)

/-- The list that the picker takes, and the others. -/
def Tile.pickList (t : Tile) : Option (WorkList × List WorkList) :=
  let can (l : WorkList) := l.ready && (l.backward || t.forwardOpen)
  let of (b : Bool) := takeFirst (fun l => can l && (l.backward == b)) t.lists
  match t.fld TILE.MAT_POLICY with
  | 0 => (of true).or (of false)
  | 1 => (of false).or (of true)
  | _ => (of (!t.lastBackward)).or (takeFirst can t.lists)

end Sys2Proof.Machine
end

