-- ==== Sys2Proof/Machine/GlintOps.lean ====
section
/-! DEFINITION. What the GLT instructions compute: draws (R200, R201) and the sampling stages (R202 to R209). -/
namespace Sys2Proof.Machine

/-! ### Draws -/

/-- The coordinate of element `k` of a view with `wd`-bit elements (R200). -/
def QInsn.coord (q : QInsn) (wd k : Nat) : Nat :=
  (q.b.toNat + k / viewCols wd * (q.c.toNat / 2 ^ 32) + k % viewCols wd) % 2 ^ 64

/-- The element's word. -/
def Tile.drawWord (t : Tile) (q : QInsn) (e : Nat) : Nat :=
  glintWord (t.glintAt (fSUB q.w % 8) (BitVec.ofNat 64 (e / 4)) (q.c.toNat % 2 ^ 32)) (e % 4)

/-- Uniform in [0, 1), and in (0, 1) (R201). -/
def uniform0 (w : Nat) : FVal := .fin false (w / 2 ^ 8) (-24)
def uniform1 (w : Nat) : FVal := .fin false (2 * (w / 2 ^ 9) + 1) (-24)

/-- An FP32 value as bits, rounded to nearest even. -/
def fp32 (v : FVal) : Nat := v.toBits 1 .near true
/-- The FP32 value of bits. -/
def ofFp32 (b : Nat) : FVal := .ofBits 1 false b
/-- The FP32 functions of R179 on bits, to nearest even. -/
def vlog (b : Nat) : Nat := transElem 0x1E 1 1 .near b 0
def vexp (b : Nat) : Nat := transElem 0x1C 1 1 .near b 0
def vcos (b : Nat) : Nat := transElem 0x24 1 1 .near b 0

/-- -VLOG(-VLOG(u)), as in GGUMB. -/
def gumbel (w : Nat) : FVal :=
  (ofFp32 (vlog (fp32 (ofFp32 (vlog (fp32 (uniform1 w)))).neg))).neg

/-- GNORM's value from its two words, in FP32. -/
def normal (w1 w2 : Nat) : FVal :=
  let l := ofFp32 (vlog (fp32 (uniform1 w1)))
  let r := ((FVal.fin true 2 0).mul l).round 1 |>.sqrt |>.round 1
  let a := fp32 ((uniform0 w2).mul (ofFp32 0x40C9_0FDB))
  (r.mul (ofFp32 (vcos a))).round 1

/-- Element `k` of the destination of GRAW, GUNI, GUNO, GNORM or GGUMB. -/
def Tile.glintElem (t : Tile) (q : QInsn) (k : Nat) : Nat :=
  let f := fFMT q.w
  let wd := fmtWidth f
  let e := q.coord wd k
  let w := t.drawWord q e
  match q.op with
  | 1 => w
  | 2 => (uniform0 w).toBits f .zero true
  | 3 => (uniform1 w).toBits f .zero true
  | 4 =>
    let o := t.glintAt (fSUB q.w % 8) (BitVec.ofNat 64 (e / 2)) (q.c.toNat % 2 ^ 32)
    (normal (glintWord o (2 * (e % 2))) (glintWord o (2 * (e % 2) + 1))).toBits f .near true
  | _ => fp32 ((ofFp32 (elemOf 32 (t.getV (fRA q.w)) k)).add false (gumbel w))

def Tile.glintDraw (t : Tile) (q : QInsn) : Tile :=
  t.putV (fRD q.w) (writeElems (fmtWidth (fFMT q.w)) (t.qpred q) (t.getV (fRD q.w)) (t.glintElem q))

/-- GBERN: a predicate register. -/
def Tile.glintBernoulli (t : Tile) (q : QInsn) : Tile :=
  let p := t.qpred q
  let d := fRD q.w % 8
  t.putP d (maskOf (fun i =>
    if p.getLsbD i then
      let prob := if bit (fSUB q.w) 3 then q.a.toNat % 2 ^ 32 else elemOf 32 (t.getV (fRA q.w)) i
      (uniform0 (t.drawWord q (q.coord 32 i))).lt (ofFp32 prob)
    else (t.getP d).getLsbD i))

/-! ### Frames -/

/-- A candidate record (R203). -/
structure Cand where
  y : Nat
  ix : Nat
  deriving DecidableEq, Repr

/-- The order of R203. -/
def Cand.before (a b : Cand) : Bool :=
  let x := ofFp32 a.y
  let y := ofFp32 b.y
  y.lt x || (!x.lt y && decide (a.ix < b.ix))

/-- A candidate put into a sorted list of at most `k`. -/
def insertCand (k : Nat) (c : Cand) : List Cand → List Cand
  | [] => if k = 0 then [] else [c]
  | d :: ds => if k = 0 then [] else if c.before d then (c :: d :: ds).take k else d :: insertCand (k - 1) c ds

/-- The best `k` of a list. -/
def bestOf (k : Nat) (cs : List Cand) : List Cand := cs.foldl (fun l c => insertCand k c l) []

/-- A frame (R203); M and S as FP32 bits. -/
structure Frame where
  m : Nat
  s : Nat
  inf : Bool
  nans : Bool
  recs : List Cand
  deriving DecidableEq, Repr

def frameBytes (k : Nat) : Nat := 16 + 8 * k

def Frame.toBytes (f : Frame) (k : Nat) : List Byte :=
  bytesOf (packElems 64 (
    [f.recs.length + f.m * 2 ^ 32, f.s + ofBool f.inf * 2 ^ 32 + ofBool f.nans * 2 ^ 33]
      ++ f.recs.map (fun c => c.y + c.ix * 2 ^ 32))) (frameBytes k)

def Frame.ofBytes (k : Nat) (bs : List Byte) : Frame :=
  let w := Machine.ofBytes bs
  { m := bits w 32 32, s := bits w 64 32, inf := bit w 96, nans := bit w 97
    recs := (List.range (min k (bits w 0 32))).map (fun i => ⟨bits w (128 + 64 * i) 32, bits w (160 + 64 * i) 22⟩) }

/-- -∞ and +∞ in FP32. -/
def minusInf : Nat := 0xFF80_0000
def plusInf : Nat := 0x7F80_0000

/-- The tree sum of FP32 bits; an empty one is +0. -/
def sum32 (xs : List Nat) : Nat := if xs.isEmpty then 0 else fp32 (treeSum 1 (xs.map ofFp32))

/-- VEXP(y - M), the difference rounded to FP32. -/
def expDiff (y m : Nat) : Nat := vexp (fp32 ((ofFp32 y).add false (ofFp32 m).neg))

/-- SLOC's frame (R204) from the scores, as bits of format `f`. -/
def localFrame (f k base rtemp : Nat) (xs : List Nat) : Frame :=
  let vs := xs.map (FVal.ofBits f false)
  let nans := vs.any FVal.isNan
  let isInf (neg : Bool) (v : FVal) := decide (v = .inf neg)
  if vs.any (isInf false) then
    let cs := (vs.zip (List.range vs.length)).filterMap (fun (x : FVal × Nat) =>
      if isInf false x.1 then some (Cand.mk plusInf (base + x.2)) else none)
    ⟨plusInf, fp32 (.ofInt cs.length 0), true, nans, bestOf k cs⟩
  else
    let ys := vs.map (fun v => if v.isNan || isInf true v then none else some (fp32 (v.mul (ofFp32 rtemp))))
    let cs := (ys.zip (List.range ys.length)).filterMap (fun (x : Option Nat × Nat) => x.1.map (fun y => Cand.mk y (base + x.2)))
    if cs.isEmpty then ⟨minusInf, 0, false, nans, []⟩
    else
      let m := fp32 ((cs.map (fun c => ofFp32 c.y)).foldl FVal.maximum (.inf true))
      ⟨m, sum32 (ys.map (fun y => match y with | some y => expDiff y m | none => 0)), false, nans, bestOf k cs⟩

/-- SMRG's frame (R205). -/
def mergeFrames (k : Nat) (fs : List Frame) : Frame :=
  let recs := bestOf k (fs.map (·.recs)).flatten
  let nans := fs.any (·.nans)
  if fs.any (·.inf) then ⟨plusInf, sum32 ((fs.filter (·.inf)).map (·.s)), true, nans, recs⟩
  else
    let m := fp32 ((fs.map (fun f => ofFp32 f.m)).foldl FVal.maximum (.inf true))
    ⟨m, sum32 (fs.map (fun f =>
      if f.recs.isEmpty then 0 else fp32 ((ofFp32 f.s).mul (ofFp32 (expDiff f.m m))))), false, nans, recs⟩

/-- p of each record, and the running sums c (R206 step 1). -/
def pickProbs (f : Frame) : List Nat :=
  if f.inf then f.recs.map (fun _ => fp32 ((FVal.fin false 1 0).div (.ofInt f.recs.length 0)))
  else f.recs.map (fun r => fp32 ((ofFp32 (expDiff r.y f.m)).div (ofFp32 f.s)))
def runningSums : Nat → List Nat → List Nat
  | _, [] => []
  | c, p :: ps =>
    let c' := fp32 ((ofFp32 c).add false (ofFp32 p))
    c' :: runningSums c' ps

/-- How many records are kept, and TRUNC (step 2); `p` is TOPP. -/
def keptCount (f : Frame) (k p : Nat) (cs : List Nat) : Nat × Bool :=
  if f.inf then (f.recs.length, false)
  else match cs.findIdx? (fun c => !(ofFp32 c).lt (ofFp32 p) && !(ofFp32 c).isNan) with
    | some i => (if p = 0x3F80_0000 then f.recs.length else i + 1, false)
    | none => (f.recs.length, decide (f.recs.length = k))

/-- The record with the largest key, the lower IX where two are equal (step 3). -/
def largestKey : List (FVal × Nat × Nat) → Option (Nat × Nat)
  | [] => none
  | x :: xs => some (xs.foldl (fun (b : FVal × Nat × Nat) (y : FVal × Nat × Nat) =>
      if b.1.lt y.1 || (!y.1.lt b.1 && decide (y.2.1 < b.2.1)) then y else b) x).2

/-- SPICK's result record (R206). -/
def Tile.pick (t : Tile) (d k : Nat) (f : Frame) : Nat :=
  if f.recs.isEmpty then 0xFFFF_FFFF + 2 ^ 112
  else
    let ps := pickProbs f
    let cs := runningSums 0 ps
    let kept := keptCount f k (bits d 160 32) cs
    let cands := (f.recs.take kept.1).zip (List.range kept.1)
    let key (c : Cand) : FVal :=
      let g := gumbel (glintWord (t.glintAt (bits d 298 3)
        (BitVec.ofNat 64 (bits d 256 42 * 2 ^ 22 + c.ix)) (bits d 320 32)) 0)
      if f.inf then g else (((ofFp32 c.y).add false g).round 1)
    let choice := if bit d 108 then (cands.head?.map (fun c => (c.1.ix, c.2)))
      else largestKey (cands.map (fun c => (key c.1, c.1.ix, c.2)))
    let ch := choice.getD (0, 0)
    ch.1 + ps.getD ch.2 0 * 2 ^ 32 + cs.getD (kept.1 - 1) 0 * 2 ^ 64 + kept.1 * 2 ^ 96 + ofBool kept.2 * 2 ^ 109
      + ofBool f.inf * 2 ^ 110 + ofBool f.nans * 2 ^ 111

/-! ### The three stages -/

/-- k of a descriptor (R202). -/
def sampleK (d : Nat) : Nat := bits d 96 12 + 1

/-- The bytes that stage `op` reads and writes. -/
def sampleIn (op d : Nat) : Nat × Nat :=
  (bits d 0 20,
    if op = 0x10 then bits d 64 32 * (fmtWidth (bits d 40 4) / 8)
    else if op = 0x11 then bits d 64 32 * frameBytes (sampleK d) else frameBytes (sampleK d))
def sampleOut (op d : Nat) : Nat × Nat := (bits d 20 20, if op = 0x12 then 32 else frameBytes (sampleK d))

/-- A positive finite FP32. -/
def positive32 (b : Nat) : Bool := decide (0 < b) && decide (b < plusInf)

/-- R202 and R209. -/
def sampleOk (op d : Nat) : Bool :=
  let z (lsb n : Nat) := decide (bits d lsb n = 0)
  let n := bits d 64 32
  z 44 20 && z 109 19 && z 214 42 && z 301 19 && z 352 160
    && (if op = 0x10 then
          (decide (bits d 40 4 = 1) || decide (bits d 40 4 = 2)) && decide (1 ≤ n) && decide (n ≤ 131072)
            && positive32 (bits d 128 32) && z 160 32 && decide (bits d 192 22 + n ≤ 2 ^ 22)
        else z 40 4 && z 128 32 && z 192 22
          && (if op = 0x11 then decide (1 ≤ n) && decide (n ≤ 64) && z 160 32
              else z 64 32 && positive32 (bits d 160 32) && decide (bits d 160 32 ≤ 0x3F80_0000)))
    && (if op = 0x12 then true else z 108 1 && z 256 45 && z 320 32)
    && inSpad (sampleIn op d) && inSpad (sampleOut op d) && !overlaps (sampleIn op d) (sampleOut op d)

/-- SLOC, SMRG, SPICK. -/
def State.sample (s : State) (t : Nat) (q : QInsn) : State × BitVec 16 :=
  let off := q.a.toNat
  if off % 64 ≠ 0 ∨ !inSpad (off, 64) then (s, Status.GLT_DESC)
  else
    let dr := (s.tile t).spadRead off 64
    if dr.2.1 ≠ 0 then (s.setTile t dr.1, dr.2.1)
    else
      let s := s.setTile t dr.1
      let d := ofBytes dr.2.2
      if !sampleOk q.op d then (s, Status.GLT_DESC)
      else
        let i := sampleIn q.op d
        let o := sampleOut q.op d
        let k := sampleK d
        let r := dr.1.spadRead i.1 i.2
        let s := s.setTile t r.1
        if r.2.1 ≠ 0 then (s.scramble t [o], r.2.1)
        else
          let out : List Byte :=
            if q.op = 0x10 then
              let f := bits d 40 4
              let w := ofBytes r.2.2
              let xs := (List.range (bits d 64 32)).map (fun n => bits w (fmtWidth f * n) (fmtWidth f))
              (localFrame f k (bits d 192 22) (bits d 128 32) xs).toBytes k
            else if q.op = 0x11 then
              let fs := (List.range (bits d 64 32)).map (fun n =>
                Frame.ofBytes k ((r.2.2.drop (n * frameBytes k)).take (frameBytes k)))
              (mergeFrames k fs).toBytes k
            else bytesOf (r.1.pick d k (Frame.ofBytes k r.2.2)) 32
          let w := s.writeAll t [(o.1, out)]
          if q.op = 0x12 ∧ w.2 = 0 then (w.1.onTile t (fun x => { x with picks := x.picks ++ [o.1] }), w.2) else w

/-- The cycles of a stage (R208). -/
def sampleCycles (op d : Nat) (counts : Nat) : Nat :=
  let k := sampleK d
  if op = 0x10 then 40 + 2 * ceilDiv (bits d 64 32 * (fmtWidth (bits d 40 4) / 8)) 128 + ceilDiv k 4
  else if op = 0x11 then 20 + ceilDiv counts 16 + ceilDiv k 16
  else 60 + ceilDiv counts 8

end Sys2Proof.Machine
end

