-- ==== Sys2Proof/Machine/VecQueue.lean ====
section
/-! DEFINITION. The vector queue: issue into it, chains, the start of its instructions in order (R80, R171, R175 to R177,
R190). -/
namespace Sys2Proof.Machine

/-! ### Occupancy of the lane unit (R172, R179, R200, R208) -/

/-- The FP32 and FP64 occupancy of the functions of R179. -/
def transOcc (op : Nat) : Nat × Nat :=
  match op with
  | 0x18 => (4, 16)
  | 0x19 => (4, 16)
  | 0x1A => (1, 0)
  | 0x1B => (1, 0)
  | 0x1C => (2, 16)
  | 0x1E => (2, 16)
  | 0x22 => (4, 0)
  | 0x23 => (4, 0)
  | 0x24 => (4, 0)
  | _ => (2, 0)

/-- The candidates of a stage's input frames, by their COUNT fields. -/
def Tile.frameCounts (t : Tile) (op d : Nat) : Nat :=
  let n := if op = 0x11 then bits d 64 32 else 1
  (List.range n).foldl (fun a i => a + ofBytes (readRun 0 t.spad (bits d 0 20 + i * frameBytes (sampleK d)) 4)) 0

/-- How many elements an instruction rounds stochastically (R196, R199): all of its results' where it rounds under RND 5. -/
def Tile.drawn (t : Tile) (q : QInsn) : Nat :=
  let f := fFMT q.w
  if q.cls ≠ 3 ∨ t.rndCode (fRND q.w) ≠ 5 ∨ f = 0xA then 0
  else if q.op = 0x10 then 8192 / max (fmtWidth f) (fmtWidth (fSUB q.w))
  else if q.op = 0x40 then
    let j := scaleJob (ofBytes (readRun 0 t.spad q.a.toNat 64)) f
    j.rows * j.cols
  else if q.op ≤ 5 ∨ q.op = 0x18 ∨ q.op = 0x19 then viewCount (fmtWidth f)
  else 0

/-- The cycles for which an instruction occupies the lane unit, of themselves. -/
def Tile.ownCycles (t : Tile) (q : QInsn) : Nat :=
  let f := fFMT q.w
  let wide := decide (f = 0)
  let half := decide (f = 2) || decide (f = 3)
  let desc (n : Nat) := ofBytes (readRun 0 t.spad q.a.toNat n)
  if q.cls = 0xA then
    match q.op with
    | 1 => 16
    | 4 => if half then 64 else 32
    | 5 => 16
    | 6 => 16
    | 2 => if half then 32 else 16
    | 3 => if half then 32 else 16
    | _ => sampleCycles q.op (desc 64) (t.frameCounts q.op (desc 64))
  else if q.op = 0x40 then (scaleJob (desc 64) f).cycles
  else if q.op = 0x41 then longAddCycles (bits (desc 32) 96 16) (bit (desc 32) 94)
  else if q.op = 0xF then 2
  else if 0x18 ≤ q.op ∧ q.op ≤ 0x24 then
    (if wide then (transOcc q.op).2 else if half then 2 * (transOcc q.op).1 else (transOcc q.op).1)
  else if wide then 2 else 1

/-- The cycles for which an instruction occupies the lane unit: at least those of its draws (R196). -/
def Tile.occupancy (t : Tile) (q : QInsn) : Nat := max (t.ownCycles q) (ceilDiv (t.drawn q) 32)

/-! ### One instruction -/

/-- The instruction's effect: the state, and the status it raises. -/
def State.runVector (s : State) (t : Nat) (q : QInsn) : State × BitVec 16 :=
  let x := s.tile t
  let on (y : Tile) : State × BitVec 16 := (s.setTile t y, 0)
  if q.cls = 0xA then
    if q.op = 5 then on (x.glintBernoulli q) else if q.op < 5 ∨ q.op = 6 then on (x.glintDraw q) else s.sample t q
  else
    match q.op with
    | 9 =>
      if fmtWidth (fFMT q.w) = 8 ∧ bcastB q.w = true then
        let d := s.draw 8
        (d.2.setTile t (x.vecMove q d.1.toNat), 0)
      else on (x.vecMove q 0)
    | 0xE => on (x.vecCompare q)
    | 0xF => on (x.vecTranspose q)
    | 0x10 => on (x.vecConvert q)
    | 0x30 => on (x.vecReduce q)
    | 0x31 => on (x.vecScan q)
    | 0x38 => s.vecCensus t q
    | 0x40 => s.vecScale t q
    | 0x41 => s.vecLongAdd t q
    | _ => on (x.vecElementwise q)

/-- The rest of a chain that has begun leaves the queue. -/
def Tile.endChain (t : Tile) : Tile :=
  if t.stages = 0 then t else { t with vq := (t.vq.dropWhile (fun q => !fEND q.w)).drop 1, stages := 0 }

/-- A computation at the head of the queue runs; a status ends its chain (R177). -/
def State.runStage (s : State) (t : Nat) (q : QInsn) : State :=
  let x := s.tile t
  let s := s.setTile t { x with vq := x.vq.drop 1, stages := if fEND q.w then 0 else x.stages + 1 }
  let o := (s.tile t).occupancy q
  let r := s.runVector t q
  if r.2 = 0 then r.1.onTile t (fun x => x.countFld ⟨0x158, 0, 48⟩ o)
  else (r.1.onTile t Tile.endChain).faultAt t r.2 q.pc

/-! ### The queue -/

/-- The instruction holds the port unit (R171). -/
def QInsn.usesPort (q : QInsn) : Bool :=
  decide (q.cls = 2) || (decide (q.cls = 3) && decide (0x38 ≤ q.op)) || (decide (q.cls = 0xA) && decide (0x10 ≤ q.op))

/-- The instruction may stand in a chain of more than one stage (R175, R200). -/
def QInsn.mayChain (q : QInsn) : Bool :=
  !((decide (q.cls = 3) && decide (0x40 ≤ q.op)) || (decide (q.cls = 0xA) && decide (0x10 ≤ q.op)))

/-- The v registers that an instruction reads or writes. -/
def QInsn.vregs (q : QInsn) : List Nat :=
  let d := fRD q.w
  let a := fRA q.w
  let b := if bcastB q.w then [] else [fRB q.w]
  if q.cls = 2 then [d]
  else if q.cls = 0xA then
    match q.op with
    | 5 => if bit (fSUB q.w) 3 then [] else [a]
    | 6 => [d, a]
    | _ => if q.op < 5 then [d] else []
  else
    match q.op with
    | 8 => [d, a]
    | 9 => d :: b
    | 0xE => a :: b
    | 0xF => [d, a]
    | 0x10 => [d, a]
    | 0x30 => [d, a]
    | 0x31 => [d, a] ++ (if bit (fSUB q.w) 2 then [fRB q.w] else [])
    | 0x38 => [a]
    | 0x40 => []
    | 0x41 => []
    | 4 => [d, a] ++ b ++ (if bcastC q.w then [] else [fRC q.w])
    | 5 => [d, a] ++ b ++ (if bcastC q.w then [] else [fRC q.w])
    | _ => if 0x19 ≤ q.op ∧ q.op ≠ 0x1A then [d, a] else [d, a] ++ b

/-- What stands at the head of the queue: an access, a whole chain of n stages, the first n stages of a chain that
breaks R177, or a chain whose last stage is not there yet. -/
inductive QHead where
  | access (q : QInsn)
  | chain (n : Nat)
  | broken (n : Nat)
  | waits

/-- The chain that starts at the head; `n` stages have been taken. -/
def chainAt (n : Nat) : List QInsn → QHead
  | [] => .waits
  | q :: qs =>
    if q.cls = 2 then .broken n
    else if fSTG q.w ≠ n ∨ (!q.mayChain && !(decide (n = 0) && fEND q.w)) = true then .broken (max n 1)
    else if fEND q.w then .chain (n + 1)
    else if n = 7 then .broken (n + 1)
    else chainAt (n + 1) qs

def queueHead : List QInsn → QHead
  | [] => .waits
  | q :: qs => if q.cls = 2 then .access q else chainAt 0 (q :: qs)

/-- Every register of the instruction is at rest, and the port unit is free where it uses it. -/
def Tile.canStart (t : Tile) (q : QInsn) : Bool :=
  q.vregs.all (fun r => !t.vbusy.any (fun e => decide (e.1 = r))) && !(q.usesPort && t.portHeld)

/-- One start at the head of the queue; none where nothing can start. Each stage of a chain starts on its own conditions. -/
def State.vecStep (s : State) (t : Nat) : Option State :=
  let x := s.tile t
  match x.vq with
  | [] => none
  | q :: _ =>
    let run := if x.canStart q then some (s.runStage t q) else none
    if x.stages ≠ 0 then run
    else match queueHead x.vq with
      | .waits => none
      | .access q =>
        if x.canStart q then
          let s := s.setTile t { x with vq := x.vq.drop 1 }
          some (if q.op = 3 then s.startVld t q else s.startVst t q)
        else none
      | .broken n => some ((s.setTile t { x with vq := x.vq.drop n }).faultAt t Status.INSN_FIELD q.pc)
      | .chain _ => run

/-- Starts in queue order, as long as something can start; `n` bounds them. -/
def State.vecSteps (t : Nat) : Nat → State → State
  | 0, s => s
  | n + 1, s => match s.vecStep t with
    | some s' => State.vecSteps t n s'
    | none => s

/-- The queue runs as far as it can; with DUTY 0 not at all (R519). -/
def State.drainVec (s : State) (t : Nat) : State := if s.lanesOn then State.vecSteps t (s.tile t).vq.length s else s

/-- A vector instruction as it enters the queue: the scalar registers it names are taken at issue (R81). -/
def vecInsn (x : Tile) (cls op : Nat) (w : BitVec 52) (pc : BitVec 20) : QInsn :=
  { cls := cls, op := op, w := w, pc := pc, a := x.getS (fRA w), b := x.getS (fRB w), c := x.getS (fRC w)
    ord := (x.vecs, x.mats) }

/-- A vector instruction enters the queue (R80). -/
def enqueueVec (t cls op : Nat) (w : BitVec 52) (pc : BitVec 20) (s : State) : State :=
  let x := s.tile t
  (s.setTile t { x with vq := x.vq ++ [vecInsn x cls op w pc], vecs := x.vecs + 1 }).drainVec t

/-- The issue of a vector instruction. -/
def issueVec (t cls op : Nat) (w : BitVec 52) (f : Form) (s : State) : Result :=
  issue t w { f with room := decide ((s.tile t).vq.length < 16) } (enqueueVec t cls op w) s

/-- The conditions under which a vector instruction runs as soon as it issues: it issues, nothing waits in the queue, the
lane unit works, its registers and its port are free, and, where it is no access, it is a chain of one stage. (In a state that
a run reaches, no stage has run of a chain that is no longer there.) -/
abbrev RunsAlone (t cls op : Nat) (w : BitVec 52) (f : Form) (s : State) : Prop :=
  Issues t w f s ∧ (s.tile t).vq = [] ∧ (s.tile t).stages = 0 ∧ s.lanesOn = true
    ∧ (s.tile t).canStart (vecInsn (s.tile t) cls op w (s.tile t).pc) = true ∧ (cls = 2 ∨ (fSTG w = 0 ∧ fEND w = true))

/-! ### Operand forms -/

/-- FMT and RND hold values of R87, FMT one that the entry lists. -/
def fmtIn (w : BitVec 52) (fs : List Nat) : Bool := fs.contains (fFMT w) && decide (fRND w ≤ 5)

abbrev uSTG : Nat × Nat := (16, 4)
abbrev uFMT : Nat × Nat := (24, 4)
abbrev uRND : Nat × Nat := (20, 4)
abbrev uSUB : Nat × Nat := (12, 4)

/-- VEC instructions: VD, VA, VB, VC as used, FMT, RND, STG, END, the low `sub` bits of SUB. -/
def formVec (w : BitVec 52) (used : List (Nat × Nat)) (regs : List Nat) (fs : List Nat) (legal : Bool := true) : Form :=
  { used := [uFMT, uRND, uSTG] ++ used, regs := regs, legal := fmtIn w fs && legal, vector := true }

/-- One source, VA. -/
def formV1 (w : BitVec 52) (fs : List Nat) (legal : Bool := true) : Form := formVec w [uRD, uRA] [] fs legal

/-- Two sources, VA and VB; SUB[0] broadcasts a scalar. -/
def formV2 (w : BitVec 52) (fs : List Nat) (legal : Bool := true) : Form :=
  formVec w [uRD, uRA, uRB, (12, 1)] (if bcastB w then [fRB w] else []) fs legal

/-- Three sources; SUB[1] broadcasts VC; `sub`: how many bits of SUB the entry uses. -/
def formV3 (w : BitVec 52) (sub : Nat) (fs : List Nat) : Form :=
  formVec w [uRD, uRA, uRB, uRC, (12, sub)]
    ((if bcastB w then [fRB w] else []) ++ (if bcastC w then [fRC w] else [])) fs

/-- A vector pass: VA names the scalar register of a descriptor, p0 with PNEG 0 (R184, R187, R200). -/
def formPass (w : BitVec 52) (used : List (Nat × Nat)) (legal : Bool) : Form :=
  { used := [uRA, uSTG] ++ used, regs := [fRA w], legal := legal && decide (predOf w = 0) && !pnegOf w, vector := true }

/-- The floating formats of the lanes, and with INT32. -/
def laneFloats : List Nat := [0, 1, 2, 3]
def laneAll : List Nat := [0, 1, 2, 3, 0xA]

/-- The functions other than VDIV and VSQRT take RND 0 or 1 (R179). -/
def formFn (w : BitVec 52) (fs : List Nat) : Form := formV1 w fs (decide (fRND w ≤ 1))

/-- VLD and VST (R91): LEN 4 to 8, TAGM below `tags`. -/
def formAccess (w : BitVec 52) (tags : Nat) : Form :=
  { used := [uRD, uRA, (36, 2), (32, 4), (0, 24)], regs := [fRA w]
    legal := decide (4 ≤ fLEN w) && decide (fLEN w ≤ 8) && decide (fTAGM w < tags) }

end Sys2Proof.Machine
end

