-- ==== Sys2Proof/Machine/Engine.lean ====
section
/-! DEFINITION. Parked tagged accesses served or timed out, and replies that arrive (R37, R51, R53). -/
namespace Sys2Proof.Machine

/-- Entry `i` of the wait table leaves it; whoever waits for its port or engine goes on. -/
def Tile.unpark (t : Tile) (i : Nat) (p : Parked) : Tile :=
  let x := { t with parked := t.parked.eraseIdx i }
  match p.user with
  | .vld vd _ _ => x.releaseV vd
  | .ast _ => { x with astWait := none }
  | _ => x

/-- The engines after an access has left the wait table. -/
def State.afterPark (s : State) (t : Nat) (p : Parked) : State :=
  match p.user with
  | .ast _ => ((s.continueList t).drainMat t).xqRun t
  | .dma _ => s
  | .xsend => s.xqRun t
  | _ => (s.drainVec t).xqRun t

/-- A parked consuming load gives way to a parked peeking load of one of its slots that can be served (R52). -/
def Tile.peekFirst (t : Tile) (p : Parked) : Bool :=
  decide (p.kind = .consume) && t.parked.any (fun r => decide (r.kind = .peek) && t.tagReady r.kind r.slot r.slots
    && decide (r.slot < p.slot + p.slots) && decide (p.slot < r.slot + r.slots))

/-- The XSEND at the head of the exchange queue ends, its source only partly consumed. -/
def State.endXsend (s : State) (t : Nat) (c : BitVec 16) : State :=
  s.onTile t (fun x => match x.xq with
    | [] => x
    | q :: qs => { x with xq := qs, xsend := none }.complete (fRD q.w) (c.setWidth 64))

/-- TAGGED_ACCESS_RECHECK: a parked access whose slots are now as it waits for is served (R51), a peek before a consume
(R52); the TAG event follows (R106). -/
def execTaggedAccessRecheck (t i : Nat) (s : State) : Result :=
  if s.tileCount ≤ t then .fault .noSuchUnit
  else
    let x := s.tile t
    match x.parked[i]? with
    | none => .next s
    | some p =>
      if !x.tagReady p.kind p.slot p.slots || x.peekFirst p then .next s
      else
        let s := s.setTile t ((x.unpark i p).post 3)
        let s := match p.user with
          | .vld vd pc _ => s.serveLoad t p.kind p.slot p.slots vd pc
          | .vst data pc _ => s.serveVst t p.slot p.slots data pc
          | .dma id => match (s.tile t).dma.find? (fun (o : DmaOp) => decide (o.id = id)) with
            | some o => (s.dmaServe t o.que).1
            | none => s
          | .xsend => s
          | .ast _ => s.onTile t (fun x => x.setTags p.slot 1 true)
        .next (s.afterPark t p)

/-- TAG_TIMEOUT: the access leaves the wait table and completes with TAG_TIMEOUT (R53); an item's list ends (R134). -/
def execTagTimeout (t i : Nat) (s : State) : Result :=
  if s.tileCount ≤ t then .fault .noSuchUnit
  else
    let x := s.tile t
    match x.parked[i]? with
    | none => .next s
    | some p =>
      let s := s.setTile t (((x.unpark i p).post 3).bumpFld TILE.TIMEOUTS)
      let s := match p.user with
        | .vld _ pc _ => s.faultAt t Status.TAG_TIMEOUT pc
        | .vst _ pc _ => s.faultAt t Status.TAG_TIMEOUT pc
        | .dma id => (s.dmaFail t id Status.TAG_TIMEOUT).1
        | .xsend => s.endXsend t Status.TAG_TIMEOUT
        | .ast pc => if x.running.isSome then s.failList t Status.TAG_TIMEOUT pc.toNat else s.faultAt t Status.TAG_TIMEOUT pc
      .next (s.afterPark t p)

/-- A reply that is not stale. Only a SWAIT's own answer ends its stall (R93); a load's status is recorded at the load, whose
destination bytes SPAD_UE leaves undefined (R190). -/
def State.applyReply (s : State) (t : Nat) (m : Msg) : State :=
  match m with
  | .reply _ rd v .swait => s.onTile t (fun x => { x.complete rd v with stall := if x.stall = .swait rd then .none else x.stall })
  | .reply _ rd v .sig => s.onTile t (fun x => { x.complete rd v with sigsOut := x.sigsOut - 1 })
  | .reply _ rd v .value => s.onTile t (fun x => x.complete rd v)
  | .load _ d pc c bs =>
    let s := s.onTile t (fun x => (if c = 0 then x.fillLoad d bs else x).releaseLoad d)
    if c = 0 then s
    else (if c = Status.SPAD_UE then s.loseLoad t d else s).faultReply t c pc
  | .grantPlaced rd _ => s.onTile t (fun x => { x.complete rd 0 with grantsOut := x.grantsOut - 1 })
  | _ => s

/-- The stamp that a reply carries back. -/
def replyStamp : Msg → Option Stamp
  | .reply st _ _ _ => some st
  | .load st _ _ _ _ => some st
  | .grantPlaced _ st => some st
  | _ => none

/-- REPLY_ARRIVAL: the first reply in the tile's mail is applied, or dropped and counted as stale (R37). -/
def execReplyArrival (t : Nat) (s : State) : Result :=
  if s.tileCount ≤ t then .fault .noSuchUnit
  else
    let x := s.tile t
    match takeFirst (fun m => (replyStamp m).isSome) x.mail with
    | none => .next s
    | some (m, rest) =>
      let x := { x with mail := rest }
      match replyStamp m with
      | none => .next s
      | some st =>
        if x.stale s.count st then .next (s.setTile t (x.bumpFld TILE.STALE_REPLIES))
        else .next ((((s.setTile t x).applyReply t m).drainVec t).xqRun t)

end Sys2Proof.Machine
end

