-- ==== Sys2Proof/Machine/Glint.lean ====
section
/-! DEFINITION. The GLT class (R200). -/
namespace Sys2Proof.Machine

/-- A draw: VB and VC name scalar registers, SUB[2:0] the stream slot; `va`: VA is used; `sub`: bits of SUB. -/
def formDraw (w : BitVec 52) (va : List (Nat × Nat)) (vas : List Nat) (sub : Nat) (fs : List Nat) (legal : Bool := true) :
    Form :=
  { used := [uRD, uRB, uRC, uFMT, uSTG, (12, sub)] ++ va, regs := [fRB w, fRC w] ++ vas
    legal := fs.contains (fFMT w) && legal, vector := true }

def execGraw (t : Nat) (w : BitVec 52) (s : State) : Result := issueVec t 0xA 1 w (formDraw w [] [] 3 [0xA]) s
def execGuni (t : Nat) (w : BitVec 52) (s : State) : Result := issueVec t 0xA 2 w (formDraw w [] [] 3 [1, 2, 3]) s
def execGuno (t : Nat) (w : BitVec 52) (s : State) : Result := issueVec t 0xA 3 w (formDraw w [] [] 3 [1, 2, 3]) s
def execGnorm (t : Nat) (w : BitVec 52) (s : State) : Result := issueVec t 0xA 4 w (formDraw w [] [] 3 [1, 2, 3]) s
/-- GBERN: VD names a predicate register; SUB[3] makes VA a scalar register. -/
def execGbern (t : Nat) (w : BitVec 52) (s : State) : Result :=
  issueVec t 0xA 5 w (formDraw w [uRA] (if bit (fSUB w) 3 then [fRA w] else []) 4 [1] (decide (fRD w < 8))) s
def execGgumb (t : Nat) (w : BitVec 52) (s : State) : Result := issueVec t 0xA 6 w (formDraw w [uRA] [] 3 [1]) s
def execSloc (t : Nat) (w : BitVec 52) (s : State) : Result := issueVec t 0xA 0x10 w (formPass w [] true) s
def execSmrg (t : Nat) (w : BitVec 52) (s : State) : Result := issueVec t 0xA 0x11 w (formPass w [] true) s
def execSpick (t : Nat) (w : BitVec 52) (s : State) : Result := issueVec t 0xA 0x12 w (formPass w [] true) s

end Sys2Proof.Machine
end

