-- ==== Sys2Proof/Machine/Grid.lean ====
section
/-! DEFINITION. The grid's commands: map changes, substitution, router failures, resets of cores and routers (R36 to R40,
R71 to R73, R234 to R246, R263). -/
namespace Sys2Proof.Machine

/-- MAP_CHANGE: the changes that wait take effect in one cycle on every router and engine (R236); none while the Beacon is lost
(R257). -/
def execMapChange (s : State) : Result := if s.fld BCN.STATE = 5 then .next s else .next s.changeMap

/-- TILE_SUBSTITUTE: at a superstep boundary a spare takes the place of the tile at (row, col); with no free spare nothing
takes place (R235). -/
def execTileSubstitute (row col : Nat) (s : State) : Result :=
  if 48 ≤ row ∨ 64 ≤ col then .fault .noSuchUnit
  else match s.tileAt row col, s.colAt row col with
    | some _, some c =>
      if !s.betweenPhases || decide (s.fld BCN.STATE = 5) then .next s
      else
        match s.moves.find? (fun m => m.row = row ∧ m.col = c) with
        | some m => .next { s.applyMove m with moves := s.moves.erase m }
        | none => match s.chooseSpare row col with
          | some q => .next (s.applyMove ⟨row, c, q⟩)
          | none => .next s
    | _, _ => .next s

/-- ROUTER_FAILURE (R239, R240, R242): a failed router is charged (R456). -/
def execRouterFailure (row col : Nat) (s : State) : Result :=
  if 48 ≤ row ∨ 64 ≤ col then .fault .noSuchUnit
  else if s.router row col ≠ .up then .next s
  else
    let u := routerUnit (row * 64 + col)
    let s := s.failRouter (row * 64 + col)
    .next ((s.setUnit u { s.unit u with state := max 2 (s.unit u).state }).charge u 0)

/-- ROUTER_BYPASS_SWITCH: the neighbours are on the bypass lanes (R239). -/
def execRouterBypassSwitch (row col : Nat) (s : State) : Result :=
  if 48 ≤ row ∨ 64 ≤ col then .fault .noSuchUnit
  else if s.router row col = .failed then .next { s with routers := Map.set .up s.routers (row * 64 + col) .bypassed }
  else .next s

/-- TILE_CORE_RESET (R36 to R38, R71, R72, R245), recorded (R485). -/
def execTileCoreReset (t : Nat) (s : State) : Result :=
  if s.tileCount ≤ t then .fault .noSuchUnit
  else
    let s := s.resetCore t
    .next (s.logGlow 0x0D 0 (coreUnit (s.physOf t)) ((s.tile t).fld TILE.CORE_EPOCH))

/-- TILE_CORE_READY (R39, R40, R72). A core that is not powered, alone or with its module (R33), does not become ready. -/
def execTileCoreReady (t : Nat) (s : State) : Result :=
  if s.tileCount ≤ t then .fault .noSuchUnit
  else
    let x := s.tile t
    if s.pwr.state ≠ .p0 ∨ x.fld TILE.CORE_READY = 1 ∨ x.fld TILE.CORE_PWR = 0 then .next s else .next (s.coreReady t)

/-- ROUTER_RESET (R36, R38, R246, R263), recorded. -/
def execRouterReset (row col : Nat) (s : State) : Result :=
  if 48 ≤ row ∨ 64 ≤ col then .fault .noSuchUnit
  else match s.tileAt row col with
    | none =>
      let s := s.resetSpareRouter (row * 64 + col)
      .next (s.logGlow 0x0D 0 (routerUnit (row * 64 + col)) (s.spare (row * 64 + col)).rtrEpoch)
    | some t =>
      let s := s.resetRouter t
      .next (s.logGlow 0x0D 0 (routerUnit (row * 64 + col)) ((s.tile t).fld TILE.RTR_EPOCH))

/-- ROUTER_READY (R39). -/
def execRouterReady (row col : Nat) (s : State) : Result :=
  if 48 ≤ row ∨ 64 ≤ col then .fault .noSuchUnit
  else if s.pwr.state ≠ .p0 then .next s
  else match s.tileAt row col with
    | none => .next (s.spareRouterReady (row * 64 + col))
    | some t => .next (s.onTile t (fun x => { x with rtrReady := true }))

end Sys2Proof.Machine
end

