-- ==== Sys2Proof/Machine/StepTxn.lean ====
section
/-! DEFINITION. The training step as its rows: open, vote, flip, late results, leases; VETO and GENRD (chapter 11). -/
namespace Sys2Proof.Machine

/-- VETO (R97, R319, R321): counted up to the vote tick of the open step. The reason is IMM32[15:0]; bits [31:16] are ignored
(DESIGN CHOICE, log 106: the spec gives them no meaning and no refusal). -/
def execVeto (t : Nat) (w : BitVec 52) (s : State) : Result :=
  issue t w { used := [uRD, uIMM32], regs := [fRD w] } (fun _ s =>
    match s.lh.step with
    | some st =>
      if !st.voted && decide (ahead st.vote s.count ≥ 0) then
        (s.addCause { bit := 7, status := Status.STEP_VETO, tile := t, reason := BitVec.ofNat 16 (fIMM32 w) }).putStatus t (fRD w) 0
      else s.putStatus t (fRD w) Status.VOTE_CLOSED
    | none => s.putStatus t (fRD w) Status.VOTE_CLOSED) s

/-- GENRD (R97): the lit generation, the shadow generation, the layout epoch. -/
def execGenrd (t : Nat) (w : BitVec 52) (s : State) : Result :=
  issue t w { used := [uRD, uIMM32], regs := [fRD w], legal := decide (fIMM32 w ≤ 2) } (fun _ s =>
    s.putS t (fRD w) (BitVec.ofNat 64 (match fIMM32 w with
      | 0 => s.fld HBM.LIT
      | 1 => s.fld HBM.SHADOW
      | _ => s.lh.lit.lepoch.toNat))) s

/-- The job's collective descriptors are armed and every trigger counter is zeroed (R378, R381). -/
def State.armColls (s : State) (j : Job) : State :=
  let s := [0, 1, 2, 3].foldl (fun (s : State) a =>
    (List.range 64).foldl (fun (s : State) k => s.wr (CE.COUNT a k).off 0) s) s
  let s : State := { s with collHeld := [] }
  (j.colls.zipIdx).foldl (fun (s : State) e =>
    let a := e.2 / 256
    let i := e.2 % 256
    let s := s.putCollDesc a i e.1
    if cdTrigN e.1 = 0 then s
    else (s.setFld (CE.ARMED a (cdTrig e.1)) i).setFld (CE.ARMED_VALID a (cdTrig e.1)) 1) s

/-- The step parameter block on every tile, its tag set (R313). -/
def State.writeBlocks (s : State) (j : Job) (shadow : Nat) : State :=
  let b := bytesOf (j.block s.lh.lit (s.fld HBM.LIT) shadow (s.fld HBM.ATTEMPT)) 64
  s.tileList.foldl (fun (s : State) t => s.onTile t (fun x => (x.spadWrite j.spbOff b).1.setTags (j.spbOff / 256) 1 true)) s

/-- A step opens at tick `o` (R296, R301, R309, R313, R440, R443). -/
def State.openStep (s : State) (j : Job) (o : BitVec 64) : State :=
  let eval := s.lh.evalDue
  let readOnly := eval || decide (j.kind ≠ 0)
  let s := if s.lh.sweepDue then s.sweepHalos else s
  let trails := j.trails
  let ok := s.canOpen (!readOnly) trails.length
  let base := s.tileList.foldl (fun (m : Map Word) t => Map.set 0 m t (BitVec.ofNat 64 ((s.tile t).fld TILE.SSTEP))) []
  let r : State × List (Nat × Nat) := if ok then (if readOnly then s else s.openShadow).placePins trails.length
    else (s.addCause { bit := 5, status := Status.GEN_NO_SLOT }, [])
  let s := r.1
  let shadow := if ok && !readOnly then s.fld HBM.SHADOW else s.fld HBM.LIT
  let snaps := (s.watchList j).foldl (fun (m : Map (List Nat)) w =>
    if wKind w.2 = 3 then m else Map.set [] m w.1 (recordCounts (s.censusAt w.2))) []
  let v := o + BitVec.ofNat 64 j.voteOff
  let st : OpenStep := {
    open_ := o, vote := v, flip := v + BitVec.ofNat 64 j.flipOff, readOnly := readOnly, eval := eval, noSlot := !ok
    pins := r.2, base := base, snaps := snaps }
  let leases := r.2.flatMap (fun p => trails.map (fun t => (⟨p.1, p.2, t, base⟩ : Lease)))
  let s := (s.armColls j).writeBlocks j shadow
  let s := { s with
    rel := { s.rel with digests := [], verdict := none, ownDigest := false }
    lh := { s.lh with step := some st, nextOpen := none, leases := s.lh.leases ++ leases } }
  let s := s.tileList.foldl (fun (s : State) t => s.onTile t (fun x => { x with picks := [] })) s
  s.startTiles

/-- STEP_OPEN: at its tick, on a module of a running job (R296, R310). -/
def execStepOpen (s : State) : Result :=
  match s.lh.nextOpen, s.job with
  | some o, some j =>
    if ahead o s.count > 0 ∨ s.lh.step.isSome ∨ s.fld BCN.STATE = 5 ∨ j.state ≠ .running ∨ s.lh.suspension.isSome then .next s
    else .next (s.openStep j o)
  | _, _ => .next s

/-- LEASE_RELEASE: every tile of the job has passed the superstep of a trailing reader's last read (R299, R302). -/
def execLeaseRelease (i : Nat) (s : State) : Result :=
  match s.lh.leases[i]? with
  | none => .next s
  | some l =>
    if s.tileList.all (fun t => decide ((Map.get 0 l.base t).toNat + l.last < (s.tile t).fld TILE.SSTEP)) then
      .next ({ s with lh := { s.lh with leases := s.lh.leases.eraseIdx i } }.unpin [(l.region, l.slot)])
    else .next s

/-- VOTE_TICK: the module's vote is formed and contributed to VOTE_TREE (R319). -/
def execVoteTick (s : State) : Result :=
  match s.lh.step, s.job with
  | some st, some j =>
    if st.voted ∨ ahead st.vote s.count > 0 ∨ s.fld BCN.STATE = 5 ∨ (s.lh.suspension.bind (·.agreed)) = some true then .next s
    else
      let s := s.formVote j st
      let v := match s.lh.step with
        | some x => x.word
        | none => 0
      .next (s.startTree j.voteTree 0 v st.vote st.flip j.level s.treeHeight s.treeDepth false)
  | _, _ => .next s

/-- FLIP: at F, with the result delivered (R331), behind what R261 places before it; none while the Beacon is lost (R257). -/
def execFlip (s : State) : Result := if s.fld BCN.STATE = 5 then .next s else .next (s.runDue 4).flipDue

/-- STEP_RESULT_LATE: a result that came after F is applied on arrival (R334). -/
def execStepResultLate (s : State) : Result :=
  match s.lh.step, s.job with
  | some st, some j =>
    if st.result.isNone ∨ ahead st.flip s.count ≥ 0 ∨ (s.lh.suspension.bind (·.agreed)) = some true then .next s
    else .next (s.applyFlip j st true)
  | _, _ => .next s

/-- The module takes no further part in its job (R31, R334): it is lost to it. -/
def State.outOfStep (s : State) : State :=
  let s := (s.abandonStep.report Status.MODULE_OUT_OF_STEP 0).loseMember s.self.toNat
  { s with lh := { s.lh with nextOpen := none } }

/-- MODULE_OUT_OF_STEP: no result by the next open (R334). -/
def execModuleOutOfStep (s : State) : Result :=
  match s.lh.step, s.job with
  | some st, some j =>
    if st.result.isSome ∨ ahead (st.flip + BitVec.ofNat 64 j.gap) s.count > 0 then .next s else .next s.outOfStep
  | _, _ => .next s

end Sys2Proof.Machine
end

