-- ==== Sys2Proof/Machine/LinkOps.lean ====
section
/-! DEFINITION. Bafen links: lanes, training, neighbours, wiring (R353 to R364), and what a packet from a link does
(R344 to R350). -/
namespace Sys2Proof.Machine

/-! ### Lanes (R340, R355, R356) -/

def State.lane (s : State) (p k : Nat) : Nat := bits (s.fld (BF.LSTATE p)) (2 * k) 2
def State.lanesIn (s : State) (p v : Nat) : List Nat := (List.range 12).filter (fun k => decide (s.lane p k = v))
def State.setLane (s : State) (p k v : Nat) : State := s.setFld (BF.LSTATE p) (putBits (s.fld (BF.LSTATE p)) (2 * k) 2 v)

/-- The lanes of a 12-lane mask. -/
def maskLanes (m : BitVec 12) : List Nat := (List.range 12).filter (fun k => m.getLsbD k)

/-- MAP: the lowest ten good lanes carry data where ten passed and no half width is asked for, else the lowest five; none
where fewer passed (R355). -/
def State.mapLanes (s : State) (p : Nat) (good : BitVec 12) : Option State :=
  let gs := maskLanes good
  let n := if 10 ≤ gs.length ∧ !(s.port p).halfWidth then 10 else 5
  if gs.length < n then none
  else
    let data := gs.take n
    let st (k : Nat) : Nat := if data.contains k then 0 else if !gs.contains k then 2 else if n = 10 then 1 else 3
    let s := (List.range 12).foldl (fun (s : State) k => s.setLane p k (st k)) s
    some ((s.setFld (BF.WIDTH p) n).setFld (BF.SPARES_USED p) (if n = 10 then (data.filter (fun k => decide (10 ≤ k))).length else 0))

/-! ### Neighbours (R359 to R361) -/

def idSerial (i : BitVec 256) : BitVec 64 := BitVec.ofNat 64 (bits i.toNat 0 64)
def idPort (i : BitVec 256) : Nat := bits i.toNat 64 3
def idCfg (i : BitVec 256) : Bool := bit i.toNat 67
def idCoord (i : BitVec 256) : Nat := bits i.toNat 68 24
def idShape (i : BitVec 256) : Nat := bits i.toNat 92 28
def idEpoch (i : BitVec 256) : BitVec 16 := BitVec.ofNat 16 (bits i.toNat 120 16)
def idLlver (i : BitVec 256) : Nat := bits i.toNat 136 8

/-- The identity packet that port `p` sends. -/
def State.identity (s : State) (p : Nat) : BitVec 256 :=
  BitVec.ofNat 256 ([(Config.serial.toNat, 0, 64), (p, 64, 3), (s.fld BF.CFG, 67, 1), (s.coord, 68, 24), (s.shape, 92, 28),
    (s.fld HIF.LH_EPOCH, 120, 16), (1, 136, 8)].foldl (fun w f => putBits w f.2.1 f.2.2 f.1) 0)

/-- The port at the far end of a right cable. -/
def farPort (p : Nat) : Nat := if p % 2 = 0 then p + 1 else p - 1

/-- R360: the link breaks the wiring rules; checked where both ends have CFG = 1. -/
def State.miswired (s : State) (p : Nat) (i : BitVec 256) : Bool :=
  decide (s.fld BF.CFG = 1) && idCfg i &&
    !(decide (idShape i = s.shape) && decide (axisSize s.shape (p / 2) ≠ 1) && decide (idPort i = farPort p)
      && decide (idCoord i = neighbourOf s.shape s.coord p))

/-- A link that breaks R360 is fenced. -/
def State.checkWiring (s : State) (p : Nat) : State :=
  if s.miswired p (s.port p).neighbour then (s.fencePort p 3).portEvent p 8 0 else s

/-- The event that the port's neighbour raises on ACTIVE (R361). -/
def State.meetNeighbour (s : State) (p : Nat) : State :=
  let q := s.port p
  let v := if !q.known then 2 else if idSerial q.neighbour ≠ q.serial then 3
    else if idEpoch q.neighbour ≠ q.lhEpoch then 4 else 1
  (s.setPort p { q with
    known := true, serial := idSerial q.neighbour, lhEpoch := idEpoch q.neighbour, left := false, farFenced := false }).portEvent p v 0

/-! ### Training and loss -/

/-- A fast retrain keeps the frames in the replay buffer (R355, R356). -/
def State.fastTrain (s : State) (p : Nat) : State :=
  (s.setPort p { s.port p with fast := true, resends := 0 }).setFld (BF.STATE p) 3

/-- A resend from ACK + 1, of every frame in the replay buffer; eight in a row without progress start a fast retrain (R343). -/
def State.resend (s : State) (p : Nat) : State :=
  let s := s.bumpFld (BF.REPLAYS p)
  let q := s.port p
  if q.resends = 7 then s.fastTrain p else s.setPort p { q with resends := q.resends + 1, again := q.replay }

/-- The link of port `p` is lost (R358, R361, R363, R456). -/
def State.loseLink (s : State) (p : Nat) : State :=
  let quiet := (s.port p).left
  let s := (s.resetPort p true).dropSource p
  let s := s.logGlow 0x0D 0 (portUnit p) (s.fld (BF.EPOCH p))
  if quiet then s else (s.portEvent p 5 Status.LINK_DOWN).charge (portUnit p) Status.LINK_DOWN

/-- FEC_FAIL rises by 1; 16 within 1 s are a fault of the port (R456). The entry holds the second and the count. -/
def State.fecFail (s : State) (p : Nat) : State :=
  let s := s.bumpFld (BF.FEC_FAIL p)
  let e := Map.get 0 s.rel.fecSince p
  let n := if e / 32 = s.utc then e % 32 + 1 else 1
  let s : State := { s with rel := { s.rel with fecSince := Map.set 0 s.rel.fecSince p (if 16 ≤ n then 0 else s.utc * 32 + n) } }
  if 16 ≤ n then s.charge (portUnit p) 0 else s

/-! ### Port control (R355, R363, R364) -/

/-- A placed job's torus map uses the port. -/
def State.portInUse (s : State) (p : Nat) : Bool :=
  let n := neighbourOf s.shape s.coord p
  s.lh.jobs.any (fun j => j.box.contains s.self.toNat && decide (n ≠ s.coord) && j.box.contains (moduleIndex s.shape n))

/-- A port has left: what it still has recorded is answered, its transmitters idle (R363). -/
def State.leavePort (s : State) (p : Nat) : State :=
  let s := (s.answerRecords p Status.LINK_DOWN).dropSource p
  let s := s.setPort p (s.port p).silent
  ((s.setFld (BF.STATE p) 11).failColls p Status.LINK_DOWN).loseChild p

/-- QUIESCE ← 1: refused with BF_BUSY for a port in use (R363). -/
def State.quiescePort (s : State) (p : Nat) : State × BitVec 16 :=
  if s.portInUse p then (s, Status.BF_BUSY)
  else
    let st := s.fld (BF.STATE p)
    let s := s.setFld (BF.QUIESCE p) 1
    (if st = 8 then s.setFld (BF.STATE p) 10 else if st < 8 then s.leavePort p else s, 0)

/-- QUIESCE ← 0: full training. -/
def State.unquiescePort (s : State) (p : Nat) : State :=
  let s := s.setFld (BF.QUIESCE p) 0
  if s.fld (BF.STATE p) = 10 ∨ s.fld (BF.STATE p) = 11 then s.trainPort p else s

/-- FENCE ← 1 by the host (R364). -/
def State.hostFence (s : State) (p : Nat) : State :=
  let s := s.setFld (BF.FENCE p) 1
  if s.fld (BF.STATE p) = 9 then s else s.fencePort p 1

/-- FENCE ← 0: only the party that fenced a port unfences it. -/
def State.hostUnfence (s : State) (p : Nat) : State :=
  let s := s.setFld (BF.FENCE p) 0
  if s.fld (BF.STATE p) = 9 ∧ s.fld (BF.FENCE_WHY p) = 1 then s.trainPort p else s

/-- ENABLE written: the port trains, or its transmitters idle. -/
def State.enablePort (s : State) (p : Nat) (on : Bool) : State :=
  let s := s.setFld (BF.ENABLE p) (ofBool on)
  let st := s.fld (BF.STATE p)
  if on then (if st = 0 then s.trainPort p else s)
  else if st = 9 then s
  else
    let s := s.answerRecords p Status.LINK_DOWN
    let s := (s.setPort p (s.port p).silent).dropSource p
    ((s.setFld (BF.STATE p) 0).failColls p Status.LINK_DOWN).loseChild p

/-- RETRAIN written: a fast retrain of a port in service. -/
def State.retrainPort (s : State) (p : Nat) : State := if s.fld (BF.STATE p) = 8 then s.fastTrain p else s

/-- BF_SELF written (R359, R360): refused with BF_BUSY while a job is placed here, with BF_CFG_VALUE outside the shape or, on a
board, against its slot (R537). -/
def State.writeSelf (s : State) (v : BitVec 64) : State × BitVec 16 :=
  let coord := bits v.toNat 0 24
  let shape := bits v.toNat 24 28
  let sizes := [0, 1, 2, 3].map (axisSize shape)
  if s.lh.jobs.any (fun j => j.box.contains s.self.toNat) then (s, Status.BF_BUSY)
  else if !([0, 1, 2, 3].all (fun a => decide (coordOf coord a < axisSize shape a))) ∨ 10240 < sizes.foldl (· * ·) 1
      ∨ (s.fld BCN.BOARD = 1 ∧ (axisSize shape 0 ≠ 8 ∨ coordOf coord 0 ≠ s.fld BCN.SLOT)) then
    (s, Status.BF_CFG_VALUE)
  else
    let s := s.wr BF.COORD.off (BitVec.ofNat 64 (bits v.toNat 0 53))
    ((List.range 8).foldl (fun (s : State) p =>
      let st := s.fld (BF.STATE p)
      if st = 8 then s.checkWiring p
      else if st = 9 ∧ s.fld (BF.FENCE_WHY p) = 3 ∧ !s.miswired p (s.port p).neighbour then s.trainPort p else s) s, 0)

/-! ### Frames (R342, R343, R347) -/

/-- ACK covers a SEQ, modulo 2^16. -/
def covered (ack seq : BitVec 16) : Bool := decide ((ack - seq).toNat < 2 ^ 15)

/-- An accepted frame's header: acknowledgements, credits, the count of the last edge (R252), a request to resend. -/
def State.takeFrame (s : State) (p : Nat) (h : BitVec 256) : State :=
  let n := h.toNat
  let q := s.port p
  let ack := BitVec.ofNat 16 (bits n 16 16)
  let open_ (f : LinkFrame) : Bool := !covered ack (f.header.extractLsb' 0 16)
  let key := bits n 33 3 * 2 + bits n 36 1
  let cred := bits n 37 12
  let s := s.setPort p { q with
    rxSeq := q.rxSeq + 1, nakSent := false, replay := q.replay.filter open_, again := q.again.filter open_, acked := ack
    resends := if ack = q.acked then q.resends else 0
    credits := Map.set 0 q.credits key (Map.get 0 q.credits key + cred)
    totals := Map.set 0 q.totals key (Map.get 0 q.totals key + BitVec.ofNat 16 cred) }
  let s := s.checkLow p (bits n 49 16)
  if bit n 32 then s.resend p else s

/-! ### Packets from a link -/

/-- The blocks of a payload that carries Halos: data first, Halos behind (log 14). -/
def payloadBlocks (bs : List Byte) : List (List Byte × BitVec 256) :=
  let k := bs.length / 4128
  (List.range k).map (fun i => ((bs.drop (4096 * i)).take 4096, BitVec.ofNat 256 (ofBytes ((bs.drop (4096 * k + 32 * i)).take 32))))

/-- Blocks that fail their CRC twice are poisoned with the port as ORIGIN (R288, R344). -/
def poisonBlocks (p : Nat) (bs : List Byte) : List Byte :=
  let xs := (payloadBlocks bs).map (fun e =>
    if haloMatches e.1 e.2 then e
    else (e.1, sealHalo e.1 (if haloPoison e.2 then e.2 else haloPut (haloPut e.2 96 1 1) 112 16 (0x2000 + p))))
  (xs.map (·.1)).flatten ++ (xs.map (fun e => bytesOf e.2.toNat 32)).flatten

/-- The stamp and the sender of a request from another module. -/
def Hdr.stamp (h : Hdr) : Stamp := ⟨h.srcTile, BitVec.ofNat 16 h.epoch, BitVec.ofNat 32 h.bcn⟩
def Hdr.sender (h : Hdr) : Sender := .away h.dirs (BitVec.ofNat 24 h.src) h.stamp (BitVec.ofNat 16 h.tag)

/-- A refusal of a request from another module. -/
def State.refuse (s : State) (h : Hdr) (c : BitVec 16) : State := s.answerTo h.sender h.dstTile c none

/-- A request for HBM put at the queue of the channel that serves it. -/
def State.queueHbm (s : State) (h : Hdr) (r : HbmReq) : State :=
  let blk := s.servedBlock h.halo (h.addr / 4096) r.gen.toNat
  if !s.stackReachable (s.place blk).1 then s.refuse h Status.ADDR_UNMAPPED
  else if !s.channelReady blk then s.refuse h Status.DOMAIN_RESET
  else s.enqueueHbm r false

/-- The request of a header for HBM. -/
def Hdr.hbmReq (h : Hdr) (n : Nat) (write : Option (List Byte)) : HbmReq :=
  { sender := h.sender, addr := BitVec.ofNat 48 h.addr, len := n, write := write, halo := h.halo
    gen := BitVec.ofNat 24 (h.wgen + h.fslot * 2 ^ 16), lepoch := BitVec.ofNat 8 h.lepoch, dst := none, pc := 0 }

/-- A request at unoccupied offsets of the register space reads 0 or writes nothing, and sets UNMAPPED (R16, R27). -/
def State.takeBare (s : State) (h : Hdr) (n : Nat) (off : Nat) (data : List Byte) : State :=
  if bareReg off n then
    let s := s.setFld HIF.UNMAPPED 1
    if data.isEmpty then s.answerTo h.sender h.dstTile 0 none
    else s.replyRead { h.hbmReq n none with halo := false } data
  else s.refuse h Status.ADDR_DENIED

/-- A write that has reached its target's module: into a tile's window, or to HBM (R60, R99, R279). -/
def State.takeWrite (s : State) (h : Hdr) (bs : List Byte) : State :=
  let toTile (s : State) (t first : Nat) (absolute : Bool) (sst : Option (BitVec 32)) : State :=
    if s.tileCount ≤ t then s.refuse h Status.ADDR_UNMAPPED
    else if (s.tile t).fld TILE.CORE_READY ≠ 1 then s.refuse h Status.DOMAIN_RESET
    else s.onTile t (fun x => { x with
      writes := x.writes ++ [⟨h.sender, h.win, BitVec.ofNat 16 h.wgen, first, absolute, bs, none, sst⟩] })
  if h.type = 8 then toTile s h.dstTile 0 false none
  else if h.vc = 2 then toTile s h.dstTile h.fslot false (some (BitVec.ofNat 32 h.sstep))
  else match s.region h.addr (if h.halo then bs.length / 4128 * 4096 else bs.length) with
    | .hbm _ => s.queueHbm h (h.hbmReq bs.length (some bs))
    | .spad t off => toTile s t (off / 256) true none
    | .unmapped => s.refuse h Status.ADDR_UNMAPPED
    | .reg off => s.takeBare h bs.length off []
    | .tcb _ _ => s.refuse h Status.ADDR_DENIED

/-- A read request; its payload holds the number of bytes (log 14). -/
def State.takeRead (s : State) (h : Hdr) (bs : List Byte) : State :=
  let n := ofBytes (bs.take 4)
  match s.region h.addr n with
  | .hbm _ => s.queueHbm h (h.hbmReq n none)
  | .spad t _ =>
    if (s.tile t).fld TILE.CORE_READY ≠ 1 then s.refuse h Status.DOMAIN_RESET
    else s.onTile t (fun x => { x with reads := x.reads ++ [⟨h.sender, BitVec.ofNat 48 h.addr, n, none, 0⟩] })
  | .unmapped => s.refuse h Status.ADDR_UNMAPPED
  | .reg off => s.takeBare h n off (List.replicate n 0)
  | .tcb _ _ => s.refuse h Status.ADDR_DENIED

/-- A semaphore operation from another module at its home's router (R93, R267). -/
def State.takeSem (s : State) (h : Hdr) (bs : List Byte) : State :=
  let o := SemOp.ofBytes bs
  let away := some (h.dirs, BitVec.ofNat 24 h.src, BitVec.ofNat 16 h.tag)
  let m : SemMsg := {
    module := BitVec.ofNat 14 (moduleIndex s.shape h.src), st := h.stamp, entry := o.1, op := o.2, rd := 0, away := away }
  let m : SemMsg := if bs.head? = some 6 then { m with module := s.self, op := .sig 1, rank := some (s.self, h.dstTile) } else m
  if s.tileCount ≤ h.dstTile then s.semAnswer m (Status.SEM_XLAT.setWidth 64)
  else if (s.tile h.dstTile).rtrReady then s.onTile h.dstTile (fun x => { x with semOps := x.semOps ++ [m] })
  else s.semAnswer m (Status.DOMAIN_RESET.setWidth 64)

/-- A grant from another module (R65, R550); a core in reset answers DOMAIN_RESET (R38). -/
def State.takeGrant (s : State) (h : Hdr) : State :=
  if s.tileCount ≤ h.dstTile then s.refuse h Status.ADDR_UNMAPPED
  else if (s.tile h.dstTile).fld TILE.CORE_READY ≠ 1 then s.refuse h Status.DOMAIN_RESET
  else s.send h.dstTile (.grant (BitVec.ofNat 14 (moduleIndex s.shape h.src)) h.srcTile h.win (BitVec.ofNat 16 h.wgen) h.fslot 0
    h.stamp (some (h.dirs, BitVec.ofNat 24 h.src, BitVec.ofNat 16 h.tag)))

/-- A completion entry from its 32 bytes (R401). -/
def entryOf (bs : List Byte) : Entry :=
  let v := ofBytes bs
  { ring := bits v 48 6, cid := BitVec.ofNat 16 (bits v 0 16), status := BitVec.ofNat 16 (bits v 16 16)
    event := bit v 54, interim := bit v 55, tag := BitVec.ofNat 64 (bits v 64 64), result := BitVec.ofNat 64 (bits v 128 64)
    module := BitVec.ofNat 14 (bits v 192 14), bcn := BitVec.ofNat 32 (bits v 208 32) }

/-- A relay packet (R418): a descriptor for this module, or an entry that a relayed module sends back, of which a descriptor takes
one final one (R402). -/
def State.takeRelay (s : State) (h : Hdr) (bs : List Byte) : State :=
  let s := s.answerTo h.sender 0 0 none
  if bs.length = 72 then
    { s with hif := { s.hif with relayIn := s.hif.relayIn ++
        [(BitVec.ofNat 24 h.src, ofBytes (bs.drop 64), BitVec.ofNat 512 (ofBytes (bs.take 64)))] } }
  else
    let e := entryOf bs
    let final := !e.interim && !e.event
    let asked := s.hif.relayed.any (fun r => decide (r.1 = e.ring) && decide (cCid r.2 = e.cid))
    if final && !asked then s
    else
    let kept := if !final then s.hif.relayed else s.hif.relayed.filter (fun r =>
      !(decide (r.1 = e.ring) && decide (cCid r.2 = e.cid)))
    { s with hif := { s.hif with relayed := kept, backlog := s.hif.backlog ++ [{ e with held := decide (s.fld (HIF.ENABLE e.ring) = 0) }] } }

/-- A reply for a tile of this module becomes the message that its record names. -/
def replyMsg (h : Hdr) (bs : List Byte) (home : BitVec 14) (r : Msg × Msg) : Msg :=
  if h.type = 4 then r.2.withStatus (BitVec.ofNat 16 h.status)
  else match r.1 with
    | .load st d pc _ _ => .load st d pc 0 bs
    | .reply st rd _ kind =>
      if h.type = 6 ∧ bs = [] then .semRelease (some home) h.srcTile h.win ⟨0, st, rd, 0, none⟩
      else .reply st rd (BitVec.ofNat 64 (ofBytes (bs.take 8))) kind
    | m => m

/-- A reply, acknowledgement, refusal or answer (R350). A write that another module refused with WIN_CLOSED clears the credit
entry for its target and window (R67). -/
def State.takeReply (s : State) (p : Nat) (h : Hdr) (bs : List Byte) : State :=
  let q := s.port p
  match takeFirst (fun r => decide (r.coord = h.dst) && decide (r.tile = h.dstTile) && decide (r.tag.toNat = h.tag)) q.records with
  | none => s.bumpFld (BF.ORPHANS p)
  | some (r, rest) =>
    let s := (s.setPort p (q.clear rest)).relayAnswered p r (decide (h.type = 3))
    if h.dst ≠ s.coord then
      match replyPort s.coord h.dst h.dirs with
      | some o => if s.portRefuses o = 0 then s.transmit o { h with sub := if o / 2 = p / 2 then h.sub else 0 } bs else s
      | none => s
    else match r.own with
      | some m =>
        let home : BitVec 14 := BitVec.ofNat 14 (moduleIndex s.shape h.src)
        let msg := replyMsg h bs home m
        let s := s.send h.dstTile msg
        match msg with
        | .answer _ target c _ =>
          if c = Status.WIN_CLOSED then s.send h.dstTile (.winClosed home target r.win) else s
        | _ => s
      | none => s

/-- A request (R348 to R350): delivered here, or forwarded with a record through its next port. -/
def State.takeRequest (s : State) (p : Nat) (h : Hdr) (bs : List Byte) : State :=
  if s.pwr.state = .s2 then s.refuse h Status.PWR_STATE
  else match requestPort s.shape s.coord h.dst with
  | some o =>
    if s.portRefuses o ≠ 0 then
      s.sendReply { type := 4, vc := 1, dst := h.src, src := s.coord, dirs := h.dirs, dstTile := h.srcTile, tag := h.tag
                    status := (s.portRefuses o).toNat, epoch := h.epoch, bcn := h.bcn } []
    else s.forward o ⟨h.src, h.srcTile, BitVec.ofNat 16 h.tag, h.dirs, none, h.stamp, h.win⟩ { h with sub := if o / 2 = p / 2 then h.sub else 0 } bs
  | none =>
    match h.type with
    | 1 => s.takeRead h bs
    | 5 => s.takeSem h bs
    | 9 => s.takeRelay h bs
    | 10 => s.takeGrant h
    | _ => s.takeWrite h bs

end Sys2Proof.Machine
end

