-- ==== Sys2Proof/Machine/HostOps.lean ====
section
/-! DEFINITION. The host interface: rings, descriptors and their refusals (R396 to R400), entries (R401 to R403), host copies
(R407), live operations (R409, R410), relay (R418). -/
namespace Sys2Proof.Machine

/-! ### Errors and register faults -/

/-- A BAR0 write raised HIF_CFG_VALUE (R17, R405). -/
def State.hifFault (s : State) : State := (s.setFld HIF.CFG_VALUE 1).event 3 0 0 Status.HIF_CFG_VALUE 0

/-- An access to an unoccupied offset (R16). -/
def State.unmapped (s : State) : State := s.setFld HIF.UNMAPPED 1

/-! ### Rings -/

def State.ring (s : State) (n : Nat) : Ring := Map.get {} s.hif.rings n
def State.setRing (s : State) (n : Nat) (r : Ring) : State := { s with hif := { s.hif with rings := Map.set {} s.hif.rings n r } }
def State.sqSize (s : State) (n : Nat) : Nat := 2 ^ s.fld (HIF.SQ_LOG2 n)
def State.cqSize (s : State) (n : Nat) : Nat := 2 ^ s.fld (HIF.CQ_LOG2 n)

/-- Descriptors that wait in a submission ring (R398). -/
def State.waiting (s : State) (n : Nat) : Nat := ((s.ring n).tail + s.sqSize n - s.fld (HIF.SQ_HEAD n)) % s.sqSize n

/-- A ring number that a command may carry: a ring, or the pseudo-ring of a gateway that relays here. -/
def State.ringKnown (s : State) (n : Nat) : Bool := decide (n < 64) || s.hif.gateways.any (fun e => decide (e.1 = n))

/-- The ring that the host wrote the descriptor into. -/
def State.hostRing (s : State) (n : Nat) : Nat := if n < relayRing then n else (Map.get (0, 0) s.hif.gateways n).2

/-- Entries that wait and whose ring becomes disabled wait for ring 0 (R395, R421). -/
def State.holdEntries (s : State) (n : Nat) : State :=
  { s with hif := { s.hif with backlog := s.hif.backlog.map (fun (e : Entry) =>
      if (if e.zero then 0 else e.ring) = n then { e with held := true, zero := false } else e) } }

/-- A write of HIF_RING_CFGn (R396): no other field changes while ENABLE is 1. -/
def State.writeRing (s : State) (n new mask : Nat) : State :=
  let off := (HIF.ENABLE n).off
  let was := s.fld (HIF.ENABLE n)
  let old := (s.rd off).toNat
  let r := s.writeMod off new mask
  let now := (r.1.rd off).toNat
  if was = 1 then
    if r.2 || decide (old / 2 ≠ now / 2) then s.hifFault
    else if now % 2 = 1 then s
    else ((r.1.setFld (HIF.RSTATE n) 0).holdEntries n)
  else
    let s := if r.2 then r.1.hifFault else r.1
    if now % 2 = 0 then s
    else
      let s := ((((s.setFld (HIF.SQ_HEAD n) 0).setFld (HIF.CQ_TAIL n) 0).setFld (HIF.CQ_PHASE n) 1).setFld (HIF.RSTATE n) 1)
      let s := s.setRing n { s.ring n with tail := 0, head := 0, coal := 0 }
      if n = 0 then
        { s with hif := { s.hif with backlog := s.hif.backlog.map (fun (e : Entry) =>
            if e.held then { e with held := false, zero := true } else e) } }
      else s

/-! ### Completion entries (R401, R403) -/

/-- The 32 bytes of an entry. -/
def State.entryBytes (s : State) (e : Entry) (phase : Nat) : List Byte :=
  bytesOf ([(e.cid.toNat, 0, 16), (e.status.toNat, 16, 16), (s.fld (HIF.SQ_HEAD e.ring), 32, 16), (e.ring, 48, 6),
    (ofBool e.event, 54, 1), (ofBool e.interim, 55, 1), (phase, 63, 1), (e.tag.toNat, 64, 64), (e.result.toNat, 128, 64),
    (e.module.toNat, 192, 14), (e.bcn.toNat, 208, 32)].foldl (fun w f => putBits w f.2.1 f.2.2 f.1) 0) 32

/-- The completion ring of an entry has room. -/
def State.entryFits (s : State) (e : Entry) : Bool :=
  let n := if e.zero then 0 else e.ring
  !e.held && decide (s.fld (HIF.ENABLE n) = 1) && decide (s.fld (HIF.RSTATE n) = 1)
    && decide ((s.fld (HIF.CQ_TAIL n) + 1) % s.cqSize n ≠ (s.ring n).head)

/-- The entry written at CQ_TAIL. -/
def State.writeEntry (s : State) (e : Entry) : State :=
  let n := if e.zero then 0 else e.ring
  let tail := s.fld (HIF.CQ_TAIL n)
  let s := s.hostWrite (s.fld (HIF.CQ_BASE n) * 4096 + 32 * tail) (s.entryBytes e (s.fld (HIF.CQ_PHASE n)))
  let next := (tail + 1) % s.cqSize n
  let s := s.setFld (HIF.CQ_TAIL n) next
  let s := if next = 0 then s.setFld (HIF.CQ_PHASE n) (1 - s.fld (HIF.CQ_PHASE n)) else s
  s.setRing n { s.ring n with coal := (s.ring n).coal + 1 }

/-! ### Descriptors (R399, R400, R406) -/

/-- The commands that are long, and those for ring 0 only. -/
def longOpc (o : Nat) : Bool := [0x10, 0x11, 0x20, 0x26, 0x27, 0x50].contains o
def adminOpc (o : Nat) : Bool := [0x03, 0x40, 0x50, 0x52].contains o

/-- The ARG fields of a command: lowest bit and width; none for an OPC that is not listed (R406 to R408 and the chapters
they name; of RESHARD the layout is the model's, log 36). -/
def argFields (o : Nat) : Option (List (Nat × Nat)) :=
  match o with
  | 0x00 => some []
  | 0x01 => some [(192, 64)]
  | 0x02 => some [(192, 48)]
  | 0x03 => some [(192, 48), (256, 64), (320, 64)]
  | 0x04 => some [(192, 64), (256, 8)]
  | 0x10 => some [(192, 64), (256, 48), (304, 40), (344, 1), (352, 24), (376, 8), (384, 6), (392, 16)]
  | 0x11 => some [(192, 64), (256, 48), (304, 40), (344, 1), (352, 24), (376, 8), (384, 6), (392, 16)]
  | 0x12 => some [(192, 64), (256, 64), (320, 64), (384, 40), (448, 64)]
  | 0x20 => some [(192, 64), (256, 32), (288, 64), (352, 64), (416, 64)]
  | 0x21 => some [(192, 64), (256, 1)]
  | 0x22 => some [(192, 64)]
  | 0x23 => some [(192, 64)]
  | 0x24 => some [(192, 64)]
  | 0x25 => some [(192, 64), (256, 64), (320, 16), (336, 16), (352, 8)]
  | 0x26 => some [(192, 64)]
  | 0x27 => some [(192, 64), (256, 64), (320, 64), (384, 2)]
  | 0x40 => some [(192, 2)]
  | 0x50 => some [(192, 64), (256, 32)]
  | 0x51 => some [(192, 64), (256, 256)]
  | 0x52 => some [(192, 1)]
  | 0x60 => some [(192, 64), (256, 64), (320, 16), (336, 1)]
  | _ => none

/-- The tags that are live on this host link: its own long operations and those relayed. -/
def State.liveTags (s : State) : List (BitVec 64) :=
  s.hif.ops.map (·.tag) ++ ((s.hif.relayQueue ++ s.hif.relayed).map (fun e => cTag e.2)).filter (fun t => decide (t ≠ 0))

/-- The refusals of R400, R408, R521, R523, and of a Lighthouse in reset (R39, R425); 0 where the command may start. -/
def State.hostRefuses (s : State) (ring : Nat) (d : BitVec 512) : BitVec 16 :=
  let o := cOpc d
  if s.fld HIF.READY = 0 ∧ o ≠ 0x50 then Status.HOST_NOT_READY
  else match argFields o with
    | none => Status.HIF_DESC
    | some fs =>
      if cArg d 11 5 ≠ 0 ∨ cArg d 47 17 ≠ 0 then Status.HIF_DESC
      else if fs.foldl (fun v f => putBits v f.1 f.2 0) (d.toNat / 2 ^ 192 * 2 ^ 192) ≠ 0 then Status.HIF_DESC
      else if longOpc o = decide (cTag d = 0) then Status.HIF_DESC
      else if adminOpc o ∧ s.hostRing ring ≠ 0 then Status.ADMIN_ONLY
      else if longOpc o ∧ s.liveTags.contains (cTag d) then Status.OP_TAG_BUSY
      else if longOpc o ∧ 4096 ≤ s.liveTags.length then Status.OPS_LIMIT
      else if o = 0x40 ∧ cArg d 192 2 = 1 then Status.HIF_DESC
      else if s.lh.inReset then Status.DOMAIN_RESET
      else if s.pwr.state = .s2 ∧ (!cVia d ∨ cModule d = s.self.toNat) ∧ [0x10, 0x11, 0x12, 0x20, 0x25, 0x26, 0x27].contains o then Status.PWR_STATE
      else 0

/-- A descriptor that does not start: its final status; no tag retires. -/
def State.refuseDesc (s : State) (ring : Nat) (d : BitVec 512) (c : BitVec 16) : State :=
  let v := s.draw 64
  v.2.postFor ring { ring := ring, cid := cCid d, status := c, tag := cTag d, result := v.1 }

/-- A descriptor has started: it has a place until its final entry, and a long one a live tag (R409). -/
def State.accept (s : State) (ring : Nat) (d : BitVec 512) (running : Bool) : State :=
  { s with hif := { s.hif with
      started := s.hif.started ++ [⟨ring, d, running⟩]
      ops := if longOpc (cOpc d) then s.hif.ops ++ [{ tag := cTag d, ring := ring, desc := d, state := if running then 1 else 0 }]
        else s.hif.ops } }

/-- Its command runs. -/
def State.goes (s : State) (ring : Nat) (d : BitVec 512) : State :=
  { s with
    hif := { s.hif with
      started := s.hif.started.map (fun (x : Started) => if x.ring = ring ∧ x.desc = d then { x with running := true } else x)
      ops := s.hif.ops.map (fun (o : Op) => if o.tag = cTag d ∧ o.desc = d ∧ o.state = 0 then { o with state := 1 } else o) }
    bcn := { s.bcn with schedule := s.bcn.schedule.filter (fun e => decide (e.ring ≠ ring ∨ e.desc ≠ d)) } }

/-- A descriptor with SCHED = 1 that its count has not reached, or that the host holds back while it waits. -/
def State.notYet (s : State) (d : BitVec 512) : Bool :=
  (cSched d && decide (ahead (cBcn d) s.count > 0))
    || s.hif.ops.any (fun o => decide (o.tag = cTag d) && decide (o.desc = d) && decide (o.state = 2))

/-- The body of a host command `opc`: a started descriptor of that command runs once its count has come; one that nothing
started is checked and started first. -/
def hostCmd (opc ring : Nat) (d : BitVec 512) (body : State → State) (s : State) : Result :=
  if !s.ringKnown ring || !s.awake || decide (cOpc d ≠ opc) then .next s
  else if s.hif.started.any (fun x => decide (x.ring = ring) && decide (x.desc = d) && !x.running) then
    if s.notYet d then .next s else .next (body (s.goes ring d))
  else if s.hif.started.any (fun x => decide (x.ring = ring) && decide (x.desc = d)) then .next s
  else
    let c := s.hostRefuses ring d
    if c ≠ 0 then .next (s.refuseDesc ring d c) else .next (body (s.accept ring d true))

/-! ### Host copies (R407, R549) -/

def cHaddr (d : BitVec 512) : Nat := cArg d 192 64
def cDaddr (d : BitVec 512) : Nat := cArg d 256 48
def cLen (d : BitVec 512) : Nat := cArg d 304 40
def cHalo (d : BitVec 512) : Bool := cArg d 344 1 = 1
def cTgen (d : BitVec 512) : Nat := cArg d 352 24
def cLepoch (d : BitVec 512) : Nat := cArg d 376 8
def cDwin (d : BitVec 512) : Nat := cArg d 384 6
def cDwgen (d : BitVec 512) : BitVec 16 := BitVec.ofNat 16 (cArg d 392 16)
def cIn (d : BitVec 512) : Bool := decide (cOpc d = 0x10)

/-- The refusal of a copy before anything moves (R16, R27, R99, R290, R294, R300). -/
def State.copyCheck (s : State) (d : BitVec 512) : BitVec 16 :=
  let n := cLen d
  if n = 0 then Status.HIF_DESC
  else match s.region (cDaddr d) n with
    | .hbm _ =>
      if cHalo d ∧ (cDaddr d % 4096 ≠ 0 ∨ n % 4096 ≠ 0) then Status.HALO_ALIGN
      else if !cHalo d ∧ s.touchesRegion (cDaddr d) n then Status.GEN_ADDR
      else if cHalo d ∧ !cIn d then
        (let c := (s.resolveRead (cDaddr d / 4096) (cTgen d)).1
         if c = Status.GEN_RETIRED ∨ c = Status.GEN_UNKNOWN then c else 0)
      else 0
    | r =>
      if cHalo d then Status.HIF_DESC
      else match r with
        | .spad _ off => if cIn d ∧ (off % 256 ≠ 0 ∨ n % 256 ≠ 0) then Status.HIF_DESC else 0
        | .reg off => if bareReg off n then 0 else Status.ADDR_DENIED
        | .tcb _ _ => Status.ADDR_DENIED
        | _ => Status.ADDR_UNMAPPED

/-- How much the next unit of a copy takes. -/
def State.copyUnitLen (s : State) (d : BitVec 512) (m : Nat) : Nat :=
  match s.region (cDaddr d) 1 with
  | .hbm _ => min (cLen d - m) (4096 - (cDaddr d + m) % 4096)
  | _ => min (cLen d - m) 4096

/-- A host write into a scratchpad window (R60, R99). -/
def State.hostToTile (s : State) (t off : Nat) (d : BitVec 512) (bs : List Byte) : State × BitVec 16 :=
  let x := s.tile t
  if x.fld TILE.CORE_READY ≠ 1 then (s, Status.DOMAIN_RESET)
  else
    let w := x.window (cDwin d)
    let k := bs.length / 256
    let f := if w.base ≤ off / 256 then some (off / 256 - w.base) else none
    let c := x.checkWrite w (cDwgen d) f k
    if c ≠ 0 then (s.setTile t (x.setWindow (cDwin d) { w with refused := BitVec.ofNat 16 (bump 16 w.refused.toNat) }), c)
    else
      let xs := w.landing f k
      (s.setTile t (((x.writeSlots xs bs).fillTags xs).setWindow (cDwin d) (w.advance k)), 0)

/-- One unit of a copy at `m` bytes from its start: the state, a status that ends the copy, whether it must wait. A write into a
scratchpad comes behind the writes that port 0 has accepted and behind what holds its window (R60, R233). -/
def State.copyUnit (s : State) (d : BitVec 512) (m : Nat) : State × BitVec 16 × Bool :=
  let n := s.copyUnitLen d m
  let a := cDaddr d + m
  let host := cHaddr d + m
  match s.region a n with
  | .hbm _ =>
    let blk := s.servedBlock (cHalo d) (a / 4096) (cTgen d)
    if s.stackAsleep blk then (s, 0, true)
    else if !s.stackReachable (s.place blk).1 then (s, Status.ADDR_UNMAPPED, false)
    else if !s.channelReady blk then (s, Status.DOMAIN_RESET, false)
    else
    let s := s.serveBefore blk
    if cIn d then
      let bs := s.hostRead host n
      if cHalo d then
        let r := s.writeBlock (a / 4096) bs (cTgen d) (cLepoch d) none
        (r.1, r.2, false)
      else (s.writePart a bs, 0, false)
    else
      let r := if cHalo d then s.readBlock (a / 4096) (cTgen d) (cLepoch d) else s.readPart a n
      if r.status ≠ 0 then (r.st, r.status, false)
      else if haloPoison r.halo then (r.st, Status.POISON_CONSUMED, false)
      else (r.st.hostWrite host r.data, 0, false)
  | .spad t off =>
    if cIn d then
      let x := s.tile t
      if !x.writes.isEmpty || !x.heldWrites.isEmpty || (x.window (cDwin d)).held.isSome then (s, 0, true)
      else
        let r := s.hostToTile t off d (s.hostRead host n)
        (r.1, r.2, false)
    else if (s.tile t).fld TILE.CORE_READY ≠ 1 then (s, Status.DOMAIN_RESET, false)
    else
      let r := (s.tile t).spadRead off n
      let s := s.setTile t r.1
      if r.2.1 ≠ 0 then (s, r.2.1, false) else (s.hostWrite host r.2.2, 0, false)
  | .reg _ =>
    let s := s.unmapped
    (if cIn d then s else s.hostWrite host (List.replicate n 0), 0, false)
  | .tcb _ _ => (s, Status.ADDR_DENIED, false)
  | .unmapped => (s, Status.ADDR_UNMAPPED, false)

/-- A live operation by its tag. -/
def State.op (s : State) (tag : BitVec 64) : Option Op := s.hif.ops.find? (fun o => o.tag = tag)
def State.setOp (s : State) (o : Op) : State :=
  { s with hif := { s.hif with ops := s.hif.ops.map (fun (x : Op) => if x.tag = o.tag then o else x) } }

/-- Up to `fuel` units of a copy: the state and a status that ended it. -/
def State.copyRun (s : State) (tag : BitVec 64) : Nat → State × BitVec 16
  | 0 => (s, 0)
  | fuel + 1 =>
    match s.op tag with
    | none => (s, 0)
    | some o =>
      if cLen o.desc ≤ o.moved then (s, 0)
      else
        let r := s.copyUnit o.desc o.moved
        if r.2.2 then (r.1, 0)
        else if r.2.1 ≠ 0 then (r.1, r.2.1)
        else (r.1.setOp { o with moved := o.moved + s.copyUnitLen o.desc o.moved }).copyRun tag fuel

/-- A copy ends with a status; RESULT holds the bytes moved. -/
def State.copyEnd (s : State) (tag : BitVec 64) (c : BitVec 16) : State :=
  match s.op tag with
  | none => s
  | some o => s.finish o.ring o.desc c (BitVec.ofNat 64 o.moved)

/-- A running copy that something stops has moved a number of its units that nothing states. -/
def State.copyPart (s : State) (tag : BitVec 64) : State × BitVec 16 :=
  match s.op tag with
  | none => (s, 0)
  | some o =>
    let units := (cLen o.desc - o.moved) / 4096 + 1
    let r := s.draw 64
    r.2.copyRun tag (r.1.toNat % (units + 1))

/-! ### The reset of the host interface (R395) -/

/-- The BAR0 registers at their reset values, but for HIF_SERIAL, HIF_STAT and the relay table. -/
def State.resetHif (s : State) : State :=
  let keep (off : Nat) : Bool := decide (0x100_0000 ≤ off) || decide (off = 8) || decide (off = 0x10)
    || (decide (0x2000 ≤ off) && decide (off < 0x2200))
  let copies := (s.hif.ops.filter (fun o => decide (o.state = 1) && (decide (cOpc o.desc = 0x10) || decide (cOpc o.desc = 0x11)))).map (·.tag)
  let s := copies.foldl (fun (s : State) t => (s.copyPart t).1.copyEnd t Status.HOST_DMA_ERROR) s
  let s : State := { s with
    regs := s.regs.filter (fun e => keep e.1)
    hif := { s.hif with
      rings := s.hif.rings.filterMap (fun e => if e.2.fetched = [] then none else some (e.1, { fetched := e.2.fetched : Ring }))
      backlog := s.hif.backlog.map (fun (e : Entry) => { e with held := true, zero := false })
      latency := 0, visit := 0 } }
  s

/-! ### Relay (R418) -/

/-- The relay entry that names a module. -/
def State.relayEntry (s : State) (m : Nat) : Option Nat :=
  if m = s.self.toNat then some 0
  else (List.range 64).find? (fun k => decide (k ≠ 0) && decide (s.fld (HIF.RVALID k) = 1) && decide (s.fld (HIF.RMODULE k) = m))

/-- The identity, epoch and stamp of a request of Lighthouse (R37). -/
def State.lhStamp (s : State) : Stamp := ⟨0xFFE, BitVec.ofNat 16 (s.fld HIF.LH_EPOCH), s.count.setWidth 32⟩

/-- A packet of TYPE 9 to another module; none where its first port does not take it. -/
def State.relayTo (s : State) (coord : Nat) (bs : List Byte) : Option State :=
  match requestPort s.shape s.coord coord with
  | none => none
  | some p =>
    if s.portRefuses p ≠ 0 then none
    else
      let q := s.port p
      let tag := q.nextTag
      let dirs := requestDirs s.shape s.coord coord
      let s := s.setPort p { q with nextTag := tag + 1 }
      let st := s.lhStamp
      some (s.forward p ⟨s.coord, 0xFFE, tag, dirs, none, st, 0⟩
        { type := 9, vc := 3, dst := coord, src := s.coord, dirs := dirs, srcTile := 0xFFE, tag := tag.toNat, len := bs.length
          epoch := st.epoch.toNat, bcn := st.low.toNat } bs)

/-- The pseudo-ring of a gateway and its ring. -/
def State.pseudoRing (s : State) (coord : BitVec 24) (ring : Nat) : Nat × State :=
  match s.hif.gateways.find? (fun e => decide (e.2 = (coord, ring))) with
  | some e => (e.1, s)
  | none =>
    let n := s.hif.gateways.foldl (fun m e => max m (e.1 + 1)) relayRing
    (n, { s with hif := { s.hif with gateways := Map.set (0, 0) s.hif.gateways n (coord, ring) } })

end Sys2Proof.Machine
end

