-- ==== Sys2Proof/Machine/Shake.lean ====
section
/-! DEFINITION. SHAKE256, which the spec names for digests (R463, R500 to R508) and does not define: the function of
FIPS 202 (PRESUMED, log 30). -/
namespace Sys2Proof.Machine

/-- The rotation of each of the 25 lanes, lane x + 5 y. -/
def keccakRotations : List Nat :=
  [0, 1, 62, 28, 27, 36, 44, 6, 55, 20, 3, 10, 43, 25, 39, 41, 45, 15, 21, 8, 18, 2, 61, 56, 14]

/-- The round constants. -/
def keccakConstants : List (BitVec 64) :=
  [0x0000000000000001, 0x0000000000008082, 0x800000000000808A, 0x8000000080008000, 0x000000000000808B, 0x0000000080000001,
   0x8000000080008081, 0x8000000000008009, 0x000000000000008A, 0x0000000000000088, 0x0000000080008009, 0x000000008000000A]
  ++ [0x000000008000808B, 0x800000000000008B, 0x8000000000008089, 0x8000000000008003, 0x8000000000008002, 0x8000000000000080,
   0x000000000000800A, 0x800000008000000A, 0x8000000080008081, 0x8000000000008080, 0x0000000080000001, 0x8000000080008008]

/-- One round. -/
def keccakRound (a : List (BitVec 64)) (rc : BitVec 64) : List (BitVec 64) :=
  let at_ (l : List (BitVec 64)) (x y : Nat) : BitVec 64 := l.getD (x % 5 + 5 * y) 0
  let c := (List.range 5).map (fun x => at_ a x 0 ^^^ at_ a x 1 ^^^ at_ a x 2 ^^^ at_ a x 3 ^^^ at_ a x 4)
  let d := (List.range 5).map (fun x => c.getD ((x + 4) % 5) 0 ^^^ (c.getD ((x + 1) % 5) 0).rotateLeft 1)
  let t := (List.range 25).map (fun i => (a.getD i 0 ^^^ d.getD (i % 5) 0).rotateLeft (keccakRotations.getD i 0))
  let b := (List.range 25).map (fun i => t.getD ((i % 5 + 3 * (i / 5)) % 5 + 5 * (i % 5)) 0)
  let e := (List.range 25).map (fun i =>
    at_ b (i % 5) (i / 5) ^^^ (~~~(at_ b (i % 5 + 1) (i / 5)) &&& at_ b (i % 5 + 2) (i / 5)))
  updateAt (· ^^^ rc) e 0

/-- Keccak-f[1600]. -/
def keccakF (a : List (BitVec 64)) : List (BitVec 64) := keccakConstants.foldl keccakRound a

/-- One block of 136 bytes absorbed. -/
def keccakAbsorb (a : List (BitVec 64)) (block : List Byte) : List (BitVec 64) :=
  keccakF ((List.range 25).map (fun i =>
    a.getD i 0 ^^^ (if i < 17 then BitVec.ofNat 64 (ofBytes ((block.drop (8 * i)).take 8)) else 0)))

/-- `n` further blocks of a padded message. -/
def keccakBlocks : Nat → List (BitVec 64) → List Byte → List (BitVec 64)
  | 0, a, _ => a
  | n + 1, a, bs => keccakBlocks n (keccakAbsorb a (bs.take 136)) (bs.drop 136)

/-- The first `n` ≤ 136 bytes of SHAKE256 over a message. -/
def shake256 (m : List Byte) (n : Nat) : List Byte :=
  let k := m.length / 136 + 1
  let pad := k * 136 - m.length
  let tail : List Byte := if pad = 1 then [0x9F] else (0x1F : Byte) :: (List.replicate (pad - 2) 0 ++ [0x80])
  (((keccakBlocks k (List.replicate 25 0) (m ++ tail)).map (fun w => bytesOf w.toNat 8)).flatten).take n

/-- The 256-bit and the 512-bit output, low byte first. -/
def shakeDigest (m : List Byte) : BitVec 256 := BitVec.ofNat 256 (ofBytes (shake256 m 32))
def shakeDigest512 (m : List Byte) : BitVec 512 := BitVec.ofNat 512 (ofBytes (shake256 m 64))

end Sys2Proof.Machine
end

