-- ==== Sys2Proof/Machine/NvmOps.lean ====
section
/-! DEFINITION. Persistent state and security: MRAM pages (R490 to R492), the counter journal (R495 to R497), settings (R493,
R494), the security state and its registers (R502, R509 to R511), firmware images (R500 to R504), attestation (R507, R508). -/
namespace Sys2Proof.Machine

/-! ### Pages (R490 to R492) -/

/-- A page cannot be read (R492). -/
def State.pageBad (s : State) (l : Nat) : Bool := Map.get false s.nl.badPages l

/-- The pages of copy A (`false`) or B of the security state, of the settings. -/
def secPages (b : Bool) : List Nat := if b then [14, 15] else [12, 13]
def settingPages (b : Bool) : List Nat := if b then [18, 19] else [16, 17]

/-- The unit of a row. -/
def unitAt (i : Nat) : Nat :=
  if i < 3072 then i
  else if i < 6144 then routerUnit (i - 3072)
  else if i < 6400 then 0x2000_0000 + (i - 6144)
  else if i < 6408 then portUnit (i - 6400)
  else if i < 6412 then pairUnit (i - 6408)
  else moduleUnit


/-! ### The security state -/

/-- A new security state is committed. -/
def State.commitSec (s : State) (x : SecState) : State :=
  { s with nl := s.nl.setSec x }.writePages (secPages (!s.nl.secCurrent))

/-- Neither copy can be read (R492). -/
def State.secLost (s : State) : Bool := (secPages false).any s.pageBad && (secPages true).any s.pageBad

/-- The security state is read: the valid copy with the higher number, rewritten over a bad one (R492). -/
def State.readSec (s : State) : State :=
  let bad (b : Bool) : Bool := (secPages b).any s.pageBad
  if bad false && bad true then s.report Status.NVM_UE 0
  else if !bad false && !bad true then { s with nl := { s.nl with secCurrent := decide (s.nl.secA.seq < s.nl.secB.seq) } }
  else
    let from_ := !bad true
    let x := if from_ then s.nl.secB else s.nl.secA
    ({ s with nl := { s.nl with secA := x, secB := x, secCurrent := from_ } }.writePages (secPages (!from_))).report Status.NVM_UE 0

/-! ### Counters, floor, calendar (R495 to R498) -/

/-- A lifetime counter rises. -/
def State.countLife (s : State) (n : Nat) : State := s.bumpFld (NVM.LIFE n)

/-- A journal commit: counters, count floor and calendar into the next page. `exact`: on an entry into S3 or Off by
request. -/
def State.commitJournal (s : State) (exact : Bool) : State :=
  let floor := if !s.bcn.holds then s.fld NVM.FLOOR
    else if exact then s.count.toNat else (s.count.toNat + 2 ^ 30) % 2 ^ 64
  let s := s.setFld NVM.FLOOR floor
  let n := s.nl.journalNext
  let page : JournalPage := {
    number := n + 1, life := (List.range 8).map (fun i => BitVec.ofNat 64 (s.fld (NVM.LIFE i)))
    floor := BitVec.ofNat 64 floor, utc := BitVec.ofNat 64 s.utc }
  { s with nl := { s.nl with journal := Map.set {} s.nl.journal (n % 64) page, journalNext := n + 1 } }.writePages [20 + n % 64]

/-- A counter whose rise is committed at once (R496). -/
def State.raiseLife (s : State) (n : Nat) : State := (s.countLife n).commitJournal false

/-- The newest readable page of the journal (R492). -/
def State.newestPage (s : State) : JournalPage :=
  s.nl.journal.foldl (fun (p : JournalPage) e => if !s.pageBad (20 + e.1) && decide (p.number < e.2.number) then e.2 else p) {}

/-- The live counters and the floor as the journal has them. -/
def State.loadJournal (s : State) : State :=
  let p := s.newestPage
  ((List.range 8).foldl (fun (s : State) i => s.setFld (NVM.LIFE i) (p.life.getD i 0).toNat) s).setFld NVM.FLOOR p.floor.toNat

/-- NVM_CAL_SET: a move back of more than 300 s needs presence (R498, R510). -/
def State.setCalendar (s : State) (v : BitVec 64) : State × BitVec 16 :=
  if v.toNat + 300 < s.utc ∧ !s.present then (s, Status.SEC_PRESENCE)
  else ((s.setFld NVM.CAL v.toNat).setFld NVM.CAL_VALID 1, 0)

/-! ### Settings (R461, R493, R494) -/

/-- The staged values. -/
def State.stagedWords (s : State) : Map Word := settingOffsets.foldl (fun m o => Map.set (modReset o) m o (s.staged o)) []

/-- The staged values set to the committed ones. -/
def State.unstage (s : State) : State := settingOffsets.foldl (fun (s : State) o => s.wr o (s.committed o)) s

/-- The settings are read: the valid copy with the higher number; with both bad, the factory values (R492, R493). -/
def State.readSettings (s : State) : State :=
  let bad (b : Bool) : Bool := (settingPages b).any s.pageBad
  let s : State := if bad false && bad true then
      { s with nl := { s.nl with copyA := {}, copyB := {}, current := false } }.report Status.NVM_UE 0
    else if !bad false && !bad true then
      { s with nl := { s.nl with current := decide (s.nl.copyA.seq < s.nl.copyB.seq) } }
    else
      let from_ := !bad true
      let x := if from_ then s.nl.copyB else s.nl.copyA
      ({ s with nl := { s.nl with copyA := x, copyB := x, current := from_ } }.writePages (settingPages (!from_))).report
        Status.NVM_UE 0
  s.unstage

/-- A write of NVM_REL_POLICY (R461): one that loosens the committed policy needs presence. -/
def State.writePolicy (s : State) (new mask : Nat) : State × BitVec 16 :=
  let off := nvmBase + 0x400
  let r := s.writeMod off new mask
  if loosens (s.committed off) (r.1.rd off) && !s.present then (s, Status.SEC_PRESENCE)
  else (r.1, if r.2 then Status.HIF_CFG_VALUE else 0)

/-- An interim entry of a command that is no live operation. -/
def State.interimFor (s : State) (ring : Nat) (d : BitVec 512) (c : BitVec 16) : State :=
  let v := s.draw 64
  v.2.postFor ring { ring := ring, cid := cCid d, status := c, interim := true, tag := cTag d, result := v.1 }

/-- An NVM_STORE starts: at once, or when the one that runs ends. -/
def State.startStore (s : State) (ring : Nat) (d : BitVec 512) : State :=
  if s.nl.storing.isSome then
    { s with nl := { s.nl with storesWait := s.nl.storesWait ++ [(ring, d)] } }.interimFor ring d Status.NVM_BUSY
  else if loosens (s.committed (nvmBase + 0x400)) (s.staged (nvmBase + 0x400)) && !s.present then
    s.finish ring d Status.SEC_PRESENCE none
  else { s with nl := { s.nl with storing := some (s.stagedWords, ring, d) } }

/-- The store that runs ends: its copy is current. The next one that waits starts. -/
def State.endStore (s : State) : State :=
  match s.nl.storing with
  | none => s
  | some (w, ring, d) =>
    let old := s.committed (nvmBase + 0x400)
    let x : Settings := ⟨s.nl.settings.seq + 1, w⟩
    let other := !s.nl.current
    let n := if other then { s.nl with copyB := x, current := true, storing := none }
      else { s.nl with copyA := x, current := false, storing := none }
    let s := ({ s with nl := n }.writePages (settingPages other)).countLife 4
    let new := s.committed (nvmBase + 0x400)
    let s := if new = old then s else s.logGlow 0x0E 0 moduleUnit new.toNat
    let s := s.finish ring d 0 (x.seq.setWidth 64)
    match s.nl.storesWait with
    | [] => s
    | (r, e) :: rest => { s with nl := { s.nl with storesWait := rest } }.startStore r e

/-! ### Presence, tamper, floor, return of a unit (R509 to R511) -/

/-- A press opens the window; in an open window it has no effect. -/
def State.press (s : State) : State :=
  if s.present then s else { s.countLife 5 with nl := { s.nl with presUntil := some (s.utc + 60) } }

def State.closeWindow (s : State) : State := { s with nl := { s.nl with presUntil := none } }

/-- TAMPER_CLR. -/
def State.clearTamper (s : State) : State × BitVec 16 :=
  if !s.present then (s, Status.SEC_PRESENCE)
  else if s.nl.sealOpen then (s, Status.SEC_TAMPER)
  else (if s.nl.sec.tamper then s.commitSec { s.nl.sec with tamper := false } else s, 0)

/-- SEC_FLOOR_SET. -/
def State.raiseFloor (s : State) (v : Nat) : State × BitVec 16 :=
  if v ≤ s.nl.sec.floor.toNat ∨ s.fld SEC.SVN < v then (s, Status.HIF_CFG_VALUE)
  else (s.commitSec { s.nl.sec with floor := BitVec.ofNat 32 v }, 0)

/-- A unit as it is in service: its core, router, channel or port is put back. -/
def State.serveUnit (s : State) (u : Nat) : State :=
  let i := u % 2 ^ 16
  match u / 2 ^ 28 with
  | 0 => if (s.tileAt (i / 64) (i % 64)).isNone then s.setSpare i { s.spare i with powered := true } else s
  | 1 => { s with routers := Map.set .up s.routers i .up }
  | 2 => s.setFld (HBM.FAILED (i / 16)) (s.fld (HBM.FAILED (i / 16)) &&& (2 ^ 16 - 1 - 2 ^ (i % 16)))
  | 3 => if s.fld (BF.STATE i) = 9 ∧ s.fld (BF.FENCE_WHY i) = 2 then s.trainPort i else s
  | 5 => { s with lh := { s.lh with unfit := s.lh.unfit.erase s.self.toNat } }
  | _ => s

/-- SEC_UNIT_RETURN (R510): RECENT is 0, a test is due at once. -/
def State.returnUnit (s : State) (u : Nat) : State × BitVec 16 :=
  if !s.present then (s, Status.SEC_PRESENCE)
  else if !isUnit u ∨ (s.unit u).state ≠ 3 then (s, Status.HIF_CFG_VALUE)
  else
    let s := s.setUnit u { s.unit u with state := 0, faults := [], testDue := s.utc, result := 0 }
    ((s.serveUnit u).logGlow 0x0F 0 u 0, 0)

/-- SEC_CTL: PRES_CLOSE, then TAMPER_CLR (in this order: DEDUCED from R512, log 32). -/
def State.writeSecCtl (s : State) (v : Nat) : State × BitVec 16 :=
  let s := if bit v 0 then s.closeWindow else s
  if bit v 1 then s.clearTamper else (s, 0)

/-- A sample of the seal loop: an opening is counted and sets TAMPER. -/
def State.sampleSeal (s : State) (open_ : Bool) : State :=
  let was := s.nl.sealOpen
  let s := { s with nl := { s.nl with sealOpen := open_ } }
  if open_ && !was then
    let s := if s.nl.sec.tamper then s else s.commitSec { s.nl.sec with tamper := true }
    s.raiseLife 6
  else s

/-! ### Firmware images (R500 to R504) -/

/-- Fields of an image's header. -/
def imgFld (h : List Byte) (lsb n : Nat) : Nat := bits (ofBytes (h.take 64)) lsb n
def imgRange (h : List Byte) (a n : Nat) : List Byte := (h.drop a).take n

/-- The checks of R502 in their order; 0 where the image passes. -/
def State.checkImage (s : State) (haddr len : Nat) : BitVec 16 :=
  if haddr % 4096 ≠ 0 ∨ 2101248 < len then Status.HIF_DESC
  else
    let h := s.hostRead haddr 4096
    let body := imgFld h 128 32
    let key := imgFld h 40 2
    let revoke := imgFld h 43 4
    let zeros (a b : Nat) : Bool := (imgRange h a (b + 1 - a)).all (fun x => decide (x = 0))
    let x := s.nl.sec
    if imgFld h 0 32 ≠ 0x07681A7E ∨ imgFld h 32 8 ≠ 1 ∨ imgFld h 47 17 ≠ 0 ∨ imgFld h 160 32 ≠ 0 ∨ !zeros 1857 2047
        ∨ !zeros 3328 4095 ∨ imgFld h 64 32 < imgFld h 96 32 ∨ len ≠ 4096 + body ∨ body = 0 ∨ 2097152 < body
        ∨ revoke.testBit key then Status.HIF_DESC
    else if x.revoked.getLsbD key ∨ shakeDigest (imgRange h 64 1793) ≠ Config.rootDigest key then Status.SEC_SIGNATURE
    else if !Config.falconVerifies (shakeDigest512 (imgRange h 64 1793)) (shakeDigest512 (h.take 2048)) (imgRange h 2048 1280)
      then Status.SEC_SIGNATURE
    else if imgFld h 64 32 < x.floor.toNat then Status.SEC_ROLLBACK
    else if imgFld h 42 1 = 1 ∧ x.tamper then Status.SEC_TAMPER
    else if (shakeDigest (s.hostRead (haddr + 4096) body)).toNat ≠ imgFld h 256 256 then Status.SEC_SIGNATURE
    else 0

/-- An image that passed, as it waits for its acceptance. -/
def State.takeImage (s : State) (ring : Nat) (d : BitVec 512) (haddr : Nat) : Image :=
  let h := s.hostRead haddr 4096
  { ring := ring, desc := d, svn := BitVec.ofNat 32 (imgFld h 64 32), minSvn := BitVec.ofNat 32 (imgFld h 96 32)
    keyIdx := BitVec.ofNat 2 (imgFld h 40 2), revoke := BitVec.ofNat 4 (imgFld h 43 4)
    version := BitVec.ofNat 64 (imgFld h 192 64), measure := shakeDigest (h.take 2048)
    body := s.hostRead (haddr + 4096) (imgFld h 128 32) }

/-! ### Attestation (R505 to R508) -/

/-- The committed settings area. -/
def State.settingBytes (s : State) : List Byte :=
  settingOffsets.foldl (fun bs o =>
    let a := o - (nvmBase + 0x400)
    bs.take a ++ bytesOf (s.committed o).toNat 8 ++ bs.drop (a + 8)) (List.replicate 1024 0)

/-- The body of the report. -/
def State.attestBody (s : State) (nonce : Nat) : List Byte :=
  let x := s.nl.sec
  let fields : List (Nat × Nat × Nat) :=
    [(1, 0, 8), (0x768, 16, 16), (1, 32, 8), (Config.serial.toNat, 64, 64), (nonce, 128, 256),
     ((List.range 4).foldl (fun v k => v + s.fld (SEC.FW_DIGEST k) * 2 ^ (64 * k)) 0, 384, 256), (s.fld SEC.SVN, 640, 32),
     (x.floor.toNat, 672, 32), (s.fld SEC.KEY_IDX, 704, 2), (x.revoked.toNat, 706, 4), (ofBool x.tamper, 710, 1),
     (ofBool s.nl.sealOpen, 711, 1), (ofBool s.present, 712, 1), (s.fld NVM.CAL_VALID, 713, 1)]
    ++ [(s.nl.settings.seq.toNat, 768, 32), ((shakeDigest s.settingBytes).toNat, 800, 256), (s.utc, 1056, 64),
     (if s.bcn.holds then s.count.toNat else 0, 1120, 64), (s.rel.nextSeq.toNat, 1184, 64),
     ((s.rel.units.filter (fun e => decide (e.2.state = 3))).length, 1248, 16),
     ((List.range 8).foldl (fun v i => v + s.fld (NVM.LIFE i) * 2 ^ (64 * i)) 0, 1280, 512)]
  bytesOf (fields.foldl (fun w f => putBits w f.2.1 f.2.2 f.1) 0) 512

/-- `n` bytes of a list, zero beyond its end. -/
def padTo (bs : List Byte) (n : Nat) : List Byte := bs.take n ++ List.replicate (n - bs.length) 0

/-- The 8 KiB report. -/
def State.attestReport (s : State) (nonce : Nat) : List Byte :=
  let signed := s.attestBody nonce ++ padTo (Config.identityKey.take 1793) 2048 ++ padTo (Config.certificate.take 1280) 1280
  signed ++ padTo (Config.falconSign Config.serial (shake256 signed 64)) 1280 ++ List.replicate 3072 0

end Sys2Proof.Machine
end

