-- ==== Sys2Proof/Machine/JobCheck.lean ====
section
/-! DEFINITION. What the authority checks of a JOB_PLACE: the box (R430), the campaign descriptor (R431 to R434, R312, R323,
R381, R468, R479), a context (R451, R452); the choice of a box (R435 to R437). -/
namespace Sys2Proof.Machine

/-! ### The campaign descriptor -/

/-- The ARG of JOB_PLACE (R431). -/
def pHaddr (d : BitVec 512) : Nat := cArg d 192 64
def pLen (d : BitVec 512) : Nat := cArg d 256 32
def pCrc (d : BitVec 512) : Nat := cArg d 288 64
def pCtx (d : BitVec 512) : Nat := cArg d 352 64
def pCtxLen (d : BitVec 512) : Nat := cArg d 416 64

/-- A section of `n` bytes at a section offset lies within the descriptor. -/
def sectionOk (c : List Byte) (off n : Nat) : Bool :=
  n = 0 || (decide (off % 64 = 0) && decide (512 ≤ off) && decide (off + n ≤ campFld c 32 32))

/-- The reserved fields of the header and of its step control block. -/
def campReserved : List (Nat × Nat) :=
  [(15, 17), (180, 12), (218, 6), (496, 16), (560, 16), (656, 16), (736, 32), (2552, 8), (2880, 1216),
   (1024 + 76, 4), (1024 + 241, 15), (1024 + 283, 5), (1024 + 640, 384)]

/-- Limits of the header's counts and fields (R432), with DEFER_D in days (R479). -/
def campLimits (c : List Byte) (len deferD : Nat) : Bool :=
  let f := campFld c
  decide (f 0 8 = 1) && decide (f 8 2 ≠ 3) && decide (f 11 2 ≠ 3) && campReserved.all (fun r => decide (f r.1 r.2 = 0))
    && decide (f 32 32 = len) && decide (1 ≤ f 192 16) && decide (f 192 16 ≤ 720) && decide (f 208 10 ≤ 720)
    && decide (f 208 10 ≤ 24 * deferD) && decide (1 ≤ f 416 32) && decide (f 416 32 ≤ 64) && decide (f 480 16 ≤ 1024)
    && decide (f 544 16 ≤ 1024) && decide (f 640 16 ≤ 255) && decide (1 ≤ f 704 32) && decide (f 704 32 ≤ 4096)
    && decide (2 ≤ f 2544 8) && decide (f 2816 64 % 4096 = 0)

/-- The sections lie within the descriptor. -/
def campSections (c : List Byte) : Bool :=
  let f := campFld c
  sectionOk c (f 384 32) (32 * f 416 32) && sectionOk c (f 448 32) (32 * f 480 16) && sectionOk c (f 512 32) (64 * f 544 16)
    && sectionOk c (f 576 32) 2048 && sectionOk c (f 608 32) (8 * f 640 16) && sectionOk c (f 672 32) (16 * f 704 32)

/-- The image entries, and their coverage of `tiles` logical tiles for each USE that the job runs (R433). -/
def campImages (c : List Byte) (tiles : Nat) : Bool :=
  let es := (List.range (campFld c 416 32)).map (fun i => campNum c (campFld c 384 32 + 32 * i) 32)
  let kind := campFld c 8 2
  let uses := if kind = 1 then [1] else if kind = 0 ∧ campFld c 352 32 ≠ 0 then [0, 1] else [0]
  es.all (fun e => decide (1 ≤ bits e 64 20) && decide (bits e 64 20 ≤ 0xA_0000) && decide (bits e 84 20 % 8 = 0)
      && decide (bits e 104 12 ≤ bits e 116 12) && decide (bits e 128 2 ≤ 1) && decide (bits e 130 126 = 0))
    && uses.all (fun u => (List.range tiles).all (fun t =>
      decide ((es.filter (fun e => decide (bits e 128 2 = u) && decide (bits e 104 12 ≤ t) && decide (t ≤ bits e 116 12))).length = 1)))

/-- The version regions: their fields, their place within 720 GiB, none over another (R294). -/
def regionsOk (rs : List Nat) : Bool :=
  let lo (r : Nat) := bits r 0 28
  let hi (r : Nat) := bits r 0 28 + bits r 56 2 * bits r 32 24
  rs.all (fun r => decide (2 ≤ bits r 56 2) && decide (1 ≤ bits r 32 24) && decide (hi r ≤ 720 * 2 ^ 18) && decide (bits r 28 4 = 0)
      && decide (bits r 58 6 = 0) && decide (bits r 123 5 = 0) && decide (bits r 152 104 = 0))
    && (rs.zipIdx).all (fun x => (rs.drop (x.2 + 1)).all (fun y => decide (hi x.1 ≤ lo y) || decide (hi y ≤ lo x.1)))

/-- No new region lies over one that is in use (R294, R388). -/
def State.clearOfRegions (s : State) (rs : List Nat) : Bool :=
  rs.all (fun r => s.vregs.all (fun n =>
    let lo := s.fld (HBM.BASE_BLK n)
    let hi := lo + s.fld (HBM.SLOTS n) * s.fld (HBM.LEN_BLK n)
    decide (bits r 0 28 + bits r 56 2 * bits r 32 24 ≤ lo) || decide (hi ≤ bits r 0 28)))

def campRegions (c : List Byte) : Bool :=
  regionsOk ((List.range (campFld c 480 16)).map (fun i => campNum c (campFld c 448 32 + 32 * i) 32))

/-- Trailing readers and the learning-rate schedule (R432). -/
def campTables (c : List Byte) : Bool :=
  let steps := (List.range (campFld c 704 32)).map (fun i => campNum c (campFld c 672 32 + 16 * i) 8)
  (List.range (campFld c 640 16)).all (fun i => decide (campNum c (campFld c 608 32 + 8 * i + 4) 4 = 0))
    && (steps.zip (steps.drop 1)).all (fun p => decide (p.1 < p.2))

/-- The watch entries (R323). -/
def watchOk (tiles w : Nat) : Bool :=
  let th := wThresh w
  let pos := (FVal.fin false 0 0).lt th
  let unit := pos && !(one64.lt th)
  let finite := match th with | .fin _ _ _ => true | _ => false
  decide (wTile w < tiles) && decide (bits w 37 27 = 0) && decide (bits w 117 11 = 0)
    && (match wKind w with
      | 0 => decide (wOff w % 128 = 0) && decide (wOff w + 128 ≤ spadSize)
      | 3 => decide (wOff w % 256 = 0) && decide (wOff w + 256 ≤ spadSize) && pos && finite && decide (1 ≤ bits w 112 5)
          && decide (bits w 112 5 ≤ 16)
      | _ => decide (wOff w % 128 = 0) && decide (wOff w + 128 ≤ spadSize) && unit && finite)

/-- The step control block (R311, R312) but for SCHED_RANGE; the watch entries stand at WATCH_PTR of the Lighthouse SRAM with the
campaign in its place (R323, R427). -/
def campScb (l : Lighthouse) (c : List Byte) (tiles : Nat) : Bool :=
  let f (lsb n : Nat) := campFld c (1024 + lsb) n
  let ini := f32 (f 128 32)
  let lo := f32 (f 160 32)
  let hi := f32 (f 192 32)
  let finite := match ini with | .fin _ _ _ => true | _ => false
  let n := f 276 7
  let ptr := f 288 32
  decide (1 ≤ f 0 32) && decide (f 0 32 < 2 ^ 31) && decide (1 ≤ f 68 8) && decide (1 ≤ f 80 16) && finite
    && (FVal.fin false 0 0).lt ini && !(ini.lt lo) && !(hi.lt ini) && decide (f 256 20 % 256 = 0)
    && decide (f 256 20 + 256 ≤ spadSize) && decide (n ≤ 64)
    && (n = 0 || decide (ptr + 16 * n ≤ 0x80_0000))
    && (List.range n).all (fun i =>
      watchOk tiles (ofBytes ((List.range 16).map (fun k => l.sramAt c (ptr + 16 * i + k)))))

/-! ### Collective descriptors (R370, R371, R374, R379, R381) -/

def isPow2 (n : Nat) : Bool := [1, 2, 4, 8, 16, 32, 64].contains n

/-- One descriptor, of an axis of extent `n`. -/
def collOk (d : BitVec 512) (n : Nat) : Bool :=
  let op := cdOp d
  let len := cdLen d
  let unit := if cdReduces d && decide (cdFmt d = 2) then 12288 else if cdHalo d then 4096 else 256
  let out := if op = 0 then len / n else if op = 1 ∨ op = 3 then (n - 1) * cdStride d + len else len
  decide (bits d.toNat 227 13 = 0) && decide (bits d.toNat 368 144 = 0) && decide (op ≤ 4)
    && (if op = 0 ∨ op = 2 then decide (cdFmt d ≤ 2) else decide (cdFmt d = 3)) && decide (1 ≤ len)
    && decide (len % (n * unit) = 0) && (decide (cdSrc d + len ≤ cdDst d) || decide (cdDst d + out ≤ cdSrc d))
    && (!cdNextEn d || decide (cdNext d < 256))

/-- The chain that a descriptor starts breaks R374: at levels A and B an FP32 or BF16 reduction on several axes whose axes but
the last do not all have a size that is a power of two. -/
def chainBad (cs : List (BitVec 512)) (ext : Nat → Nat) (repro : Nat) : Nat → Nat → Bool
  | 0, _ => false
  | fuel + 1, k =>
    let d := cs.getD k 0
    if !cdNextEn d then false
    else
      let m := cdNaxis d * 256 + cdNext d
      let e := cs.getD m 0
      decide (cs.length ≤ m) || decide (cdTrigN e ≠ 0)
        || (decide (repro ≠ 2) && cdReduces d && decide (cdFmt d ≠ 2) && decide (cdNaxis d ≠ k / 256) && cdReduces e
            && !isPow2 (ext (k / 256)))
        || chainBad cs ext repro fuel m

/-- Collective descriptors for a job of extents `shape`. -/
def collsOk (cs : List (BitVec 512)) (shape repro : Nat) : Bool :=
  let ext (a : Nat) := axisSize shape a
  (cs.zipIdx).all (fun e => e.1 = 0 || (decide (e.2 / 256 < 4) && collOk e.1 (ext (e.2 / 256))
    && !chainBad cs ext repro 16 e.2))

/-- Every collective descriptor of a campaign. -/
def campColls (c : List Byte) : Bool :=
  collsOk ((List.range (campFld c 544 16)).map (fun i => BitVec.ofNat 512 (campNum c (campFld c 512 32 + 64 * i) 64)))
    (campFld c 128 28) (campFld c 11 2)

/-! ### Boxes (R430, R437, R445) -/

/-- The healthy modules of the machine. -/
def State.healthy (s : State) : List Nat := (List.range s.machineSize).filter (fun m => !s.lh.unfit.contains m)

/-- The extents and the origin keep R430 on this machine. -/
def State.boxLegal (s : State) (shape origin : Nat) : Bool :=
  [0, 1, 2, 3].all (fun a =>
    let e := axisSize shape a
    let n := axisSize s.shape a
    if e = n ∧ e ≠ 1 then decide (coordOf origin a = 0) else decide (e = 1) && decide (coordOf origin a < n))

/-- The members of a box, by module index. -/
def State.boxAt (s : State) (shape origin : Nat) : List Nat :=
  (List.range s.machineSize).filter (fun m =>
    let x := moduleCoord s.shape m
    [0, 1, 2, 3].all (fun a => decide (axisSize shape a ≠ 1) || decide (coordOf x a = coordOf origin a)))

/-- The boxes that a job may take, in the order of their lowest module: its own, or after a recovery any. -/
def State.boxesFor (s : State) (j : Job) : List (List Nat) :=
  let shape := campFld j.camp 128 28
  if j.fresh then [s.boxAt shape (campFld j.camp 156 24)]
  else (((List.range s.machineSize).map (fun m => s.boxAt shape (moduleCoord s.shape m))).eraseDups)

/-- The job holds its box's modules, or has them reserved. -/
def Job.holds (j : Job) (m : Nat) : Bool := j.box.contains m && j.priority.isNone && decide (j.state ≠ .ended)

/-- MEM_GIB of the jobs that have data on a module. -/
def State.memOn (s : State) (m : Nat) : Nat := (s.lh.jobs.filter (fun j => j.box.contains m)).foldl (fun n j => n + j.memGib) 0

/-- A channel of the module is lost: failed, and not copied to a spare in service (R282). -/
def State.channelGone (s : State) : Bool :=
  (List.range 16).any (fun k => (List.range 15).any (fun ch =>
    let f := s.fld (HBM.FAILED k)
    f.testBit ch && (f.testBit 15 || (decide ((s.stack k).copying ≠ some ch)
      && (decide (s.fld (HBM.SPARE_USED k) = 0) || decide (s.fld (HBM.SPARE_FOR k) ≠ ch)))))) 

/-- The module has no synchronised count, and accepts no placement (R262). -/
def State.unsynchronised (s : State) : Bool := s.fld BCN.STATE = 0 || !s.bcn.holds

/-- A port has reached ACTIVE and its neighbour has passed R360. -/
def State.met (s : State) (p : Nat) : Bool := (s.port p).known && !decide (s.fld (BF.STATE p) = 9 ∧ s.fld (BF.FENCE_WHY p) = 3)

/-- A port that the module's coordinate requires has not (R362). -/
def State.arriving (s : State) : Bool := (List.range 8).any (fun p => decide (axisSize s.shape (p / 2) ≠ 1) && !s.met p)

/-- Module `m` lies behind ports of this one, none of which has met it (R362). -/
def State.unmet (s : State) (m : Nat) : Bool :=
  let ps := (List.range 8).filter (fun p => decide (axisSize s.shape (p / 2) ≠ 1) && decide (moduleIndex s.shape (neighbourOf s.shape s.coord p) = m))
  !ps.isEmpty && !ps.any s.met

/-- The module takes no placement: it is unsynchronised (R262), still arriving (R362), excluded (R459, R467), hot (R529), permanently eclipsed, without a lockstep pair or a
gateway (R426, R459), with a second row retired (R242), with a channel lost (R282). -/
def State.outOfService (s : State) : Bool :=
  s.unsynchronised || s.arriving || s.rel.excluded || s.pwr.hot || decide ((s.unit moduleUnit).state = 3) || decide (s.pairsLeft = 0)
    || decide (2 ≤ s.lh.gatewaysDown.length) || decide (2 ≤ s.retired.length) || s.channelGone

/-- A module can take a placement, as far as this one knows. -/
def State.fit (s : State) (m : Nat) : Bool :=
  !s.lh.unfit.contains m && !s.lh.asleep.contains m && !s.unmet m && !(decide (m = s.self.toNat) && s.outOfService)

/-- A free box: every module healthy, not in S2 (R523) and held by no job, with MEM_GIB free; a box that holds suspended data of
the job itself counts that once. -/
def State.boxFree (s : State) (j : Job) (box : List Nat) : Bool :=
  box.all (fun m => s.fit m && !s.lh.jobs.any (fun k => decide (k.id ≠ j.id) && k.holds m)
    && decide (s.memOn m - (if j.box.contains m then j.memGib else 0) + j.memGib ≤ 720))

/-- The jobs that a latency-critical job would displace from a box. -/
def State.displaced (s : State) (j : Job) (box : List Nat) : List Job :=
  s.lh.jobs.filter (fun k => decide (k.id ≠ j.id) && box.any k.holds)

/-- GiB that a displaced job spills for another on a module (R449). -/
def spillGib (j k : Job) : Nat := j.memGib + k.memGib - 720

/-- A box that a latency-critical job may take from best-effort jobs (R435, R437). -/
def State.boxTakable (s : State) (j : Job) (box : List Nat) : Bool :=
  let ks := s.displaced j box
  box.all s.fit
    && ks.all (fun k => k.bestEffort && (decide (spillGib j k = 0) || decide (spillGib j k * 2 ^ 30 ≤ campFld k.camp 2432 64)))

/-- The box with the least spill, the lowest origin first (R437). -/
def State.bestTakable (s : State) (j : Job) : Option (List Nat) :=
  let cost (box : List Nat) : Nat := (s.displaced j box).foldl (fun n k => n + spillGib j k) 0
  ((s.boxesFor j).filter (fun b => s.boxTakable j b)).foldl (fun best b =>
    match best with
    | none => some b
    | some x => if cost b < cost x then some b else best) none

/-! ### Refusals (R434, R452) -/

/-- The header of a context in host memory (R451). -/
def State.ctxHeader (s : State) (haddr : Nat) : Nat := ofBytes (s.hostRead haddr 64)

/-- The rows of this module's grid (R242). -/
def State.rows (s : State) : Nat := s.tileCount / 60

/-- A context that cannot be restored; 0 where it can. -/
def State.ctxCheck (s : State) (haddr : Nat) (box : List Nat) : BitVec 16 :=
  let h := s.ctxHeader haddr
  let rows := bits h 32 8
  if bits h 0 8 ≠ 1 then Status.CTX_VERSION
  else if bits h 8 1 = 0 ∧ bits h 16 16 ≠ 256 then Status.CTX_LANES
  else if bits h 40 8 ≠ 60 ∨ (rows ≠ 47 ∧ rows ≠ 48) ∨ (box.contains s.self.toNat ∧ rows ≠ s.rows) then Status.REFUSED_CAPACITY
  else 0

/-- The refusals of a JOB_PLACE in the order of R431 and R434; 0 where the job is accepted. -/
def State.placeCheck (s : State) (ring : Nat) (d : BitVec 512) : BitVec 16 :=
  if pHaddr d % 4096 ≠ 0 ∨ pLen d < 512 ∨ 1966080 < pLen d then Status.STEP_CONFIG
  else
    let c := s.hostRead (pHaddr d) (pLen d)
    let f := campFld c
    let shape := f 128 28
    let box := s.boxAt shape (f 156 24)
    let n := s.tileCount
    if (crc64 c).toNat ≠ pCrc d then Status.HIF_DESC
    else if !campLimits c (pLen d) (s.policy NVM.DEFER_D) || !campSections c then Status.STEP_CONFIG
    else if !campImages c n || !campRegions c || !campTables c || !campScb s.lh c n then Status.STEP_CONFIG
    else if f 14 1 = 1 ∧ axisSize shape 3 % 2 = 1 then Status.STEP_CONFIG
    else if f (1024 + 48) 16 = 0 ∨ f (1024 + 32) 16 < 2 * (boxHeight s.shape box + 1) * f (1024 + 68) 8 then Status.SCHED_RANGE
    else if !campColls c then Status.COLL_DESC
    else if !s.boxLegal shape (f 156 24) ∨ s.healthy.length < box.length then Status.REFUSED_CAPACITY
    else if f 10 1 = 0 ∧ s.fld (HIF.CLASS (s.hostRing ring)) = 1 then Status.RING_CLASS
    else if pCtx d ≠ 0 then s.ctxCheck (pCtx d) box
    else 0

end Sys2Proof.Machine
end

