-- ==== Sys2Proof/Machine/JobRun.lean ====
section
/-! DEFINITION. A job on its module and in its authority's table: placement (R439), suspension, resumption and switching (R447
to R449), checkpoints (R442, R445), contexts (R450 to R452), the queue (R435, R436). -/
namespace Sys2Proof.Machine

/-- The job of an identifier. -/
def State.jobOf (s : State) (id : BitVec 64) : Option Job := s.lh.jobs.find? (fun j => j.id = id)

/-! ### Checkpoints and step states in host memory (R442; their layout is the model's, log 33) -/

/-- A step state as bytes. -/
def StepState.bytes (x : StepState) : List Byte :=
  let head := [(x.step.toNat, 0, 64), (x.cursor.toNat, 64, 64), (x.lepoch.toNat, 384, 8), (x.commits.toNat, 448, 64),
    (x.ls.toNat, 512, 32), (x.lsRun.toNat, 544, 16), (x.skipRun.toNat, 560, 16), (x.skipped.toNat, 576, 64)]
  let draws := (x.draw.zipIdx).map (fun e => (e.1.toNat, 128 + 32 * e.2, 32))
  let stats := x.watches.flatMap (fun e =>
    [(ofBool e.2.used, 1024 + 192 * e.1, 1), (e.2.mu.toNat, 1088 + 192 * e.1, 64), (e.2.s2.toNat, 1152 + 192 * e.1, 64)])
  bytesOf ((head ++ draws ++ stats).foldl (fun w f => putBits w f.2.1 f.2.2 f.1) 0) 1664

/-- The step state that bytes spell. -/
def stepStateOf (bs : List Byte) : StepState :=
  let v := ofBytes bs
  let g (n lsb w : Nat) : BitVec n := BitVec.ofNat n (bits v lsb w)
  { step := g 64 0 64, cursor := g 64 64 64, draw := (List.range 8).map (fun i => g 32 (128 + 32 * i) 32), lepoch := g 8 384 8
    commits := g 64 448 64, ls := g 32 512 32, lsRun := g 16 544 16, skipRun := g 16 560 16, skipped := g 64 576 64
    watches := (List.range 64).foldl (fun m i =>
      Map.set {} m i ⟨bits v (1024 + 192 * i) 1 = 1, g 64 (1088 + 192 * i) 64, g 64 (1152 + 192 * i) 64⟩) [] }

/-- Where a job's checkpoint buffer lies: A at 0, B at 1. -/
def Job.ckptAddr (j : Job) (buf : Nat) : Nat := campFld j.camp (2048 + 64 * buf) 64

/-- The blocks of a slot. -/
def State.slotBlocks (s : State) (n k : Nat) : List Nat :=
  (List.range (s.fld (HBM.LEN_BLK n))).map (fun b => s.fld (HBM.BASE_BLK n) + k * s.fld (HBM.LEN_BLK n) + b)

/-- Where the blocks of region `n` lie in a buffer, after its header and the step state. -/
def State.ckptOffset (s : State) (n : Nat) : Nat :=
  (s.vregs.filter (fun m => decide (m < n))).foldl (fun o m => o + 4128 * s.fld (HBM.LEN_BLK m)) 1728

/-- The lit slots copied into a buffer block by block, each read as R285 and R282 say: the state, and whether a poisoned block
was met, of which and after which nothing is written (R292). -/
def State.copySlots (s : State) (at_ : Nat) (pins : List (Nat × Nat)) : State × Bool :=
  pins.foldl (fun (r : State × Bool) p =>
    ((r.1.slotBlocks p.1 p.2).zipIdx).foldl (fun (r : State × Bool) b =>
      if r.2 then r
      else
        let x := (r.1.serveBefore b.1).readPart (b.1 * 4096) 4096
        if haloPoison x.halo then (x.st, true)
        else (x.st.hostWrite (at_ + x.st.ckptOffset p.1 + 4128 * b.2) (x.data ++ bytesOf x.halo.toNat 32), false)) r) (s, false)

/-- The header of a buffer: STEP, GEN, LEPOCH, the valid mark. -/
def ckptHeader (step : BitVec 64) (gen : BitVec 24) (lepoch : BitVec 8) : List Byte :=
  bytesOf (step.toNat + gen.toNat * 2 ^ 64 + lepoch.toNat * 2 ^ 88 + 2 ^ 96) 64

/-- The last completed checkpoint comes back: its generation is lit, in slot 0 of every region. -/
def State.restoreCkpt (s : State) (j : Job) (buf : Nat) : State :=
  let at_ := j.ckptAddr buf
  let h := ofBytes (s.hostRead at_ 64)
  let gen := bits h 64 24
  let x := stepStateOf (s.hostRead (at_ + 64) 1664)
  let s := s.vregs.foldl (fun (s : State) n =>
    let s := (((s.setFld (HBM.GEN n 0) gen).setFld (HBM.FREE n) 6).setFld (HBM.LEPOCH n) (bits h 88 8))
    ((s.slotBlocks n 0).zipIdx).foldl (fun (s : State) b =>
      let a := at_ + s.ckptOffset n + 4128 * b.2
      s.storeBlock b.1 (s.hostRead a 4096) (BitVec.ofNat 256 (ofBytes (s.hostRead (a + 4096) 32)))) s) s
  let s := s.setFld HBM.LIT gen
  { s with lh := { s.lh with copy0 := x, sel := 0 } }

/-! ### What a job has on the module -/

/-- Registers that belong to the module's job: HBM_GEN, the regions, the sync trees, the collective engines. -/
def jobReg (off : Nat) : Bool :=
  decide (off = hbmBase 0 + 0x8_0008) || (decide (hbmBase 0 + 0x9_0000 ≤ off) && decide (off < hbmBase 0 + 0x9_8000))
    || (decide (bcnBase + 0x100 ≤ off) && decide (off < bcnBase + 0x200))
    || (decide (bfBase 0 ≤ off) && decide (off < bfBase 8) && decide (0x1000 ≤ off % 0x10_0000)
      && decide (off % 0x10_0000 < 0x2_4000))

/-- The context of the module's job at a stop. -/
def State.context (s : State) (u : Suspension) : Context :=
  let l := s.lh
  { job := u.job, tiles := s.tiles, step := l.step, stopped := u.stoppedAt.getD s.count, stop := u.stop
    regs := s.regs.filter (fun e => jobReg e.1), hbm := s.hbm, halo := s.halo, copies := [l.copy0, l.copy1, l.copy2]
    sel := l.sel, leases := l.leases, openings := l.openings, sweepDue := l.sweepDue, startAtHalt := l.startAtHalt
    reload := l.reload, uses := l.uses, batches := l.batches, staged := l.staged, evalDue := l.evalDue, evalAt := l.evalAt
    reshard := l.reshard, ckptDone := l.ckptDone, nextBuffer := l.nextBuffer, noTestUntil := l.noTestUntil
    causes := s.causes, digests := s.rel.digests, ownDigest := s.rel.ownDigest, verdict := s.rel.verdict
    noMajority := s.rel.noMajority, mirrorCrc := s.rel.mirrorCrc, mirrorDone := s.rel.mirrorDone
    mirrorOwn := s.rel.mirrorOwn, mirrorPeer := s.rel.mirrorPeer, colls := s.colls, collOut := s.collOut
    collHeld := s.collHeld }

/-- A job's tile in place of the one that is here, as it was held (R448 to R451): its contents, its queues, its control block and
its router's entries; the windows as R72 says; the domain's own epoch and reset, and what waits at port 0, stay. -/
def Tile.swapIn (now saved : Tile) : Tile :=
  { saved with
    regs := Map.set (tileReset 0x40) (saved.regs.filter (fun e => decide (e.1 ≠ 0x40))) 0x40 (now.rd 0x40)
    wins := (now.restore saved).wins, phase := none, mail := now.mail, semOps := now.semOps, writes := now.writes
    reads := now.reads, heldWrites := now.heldWrites, resetAt := now.resetAt, rtrResetAt := now.rtrResetAt
    rtrReady := now.rtrReady }

/-- A job's registers in place of those that are here. -/
def State.swapRegs (s : State) (regs : Map Word) : State :=
  let s : State := { s with regs := s.regs.filter (fun e => !jobReg e.1) }
  regs.foldl (fun (s : State) e => s.wr e.1 e.2) s

/-- A context comes back onto the module (R448, R449). -/
def State.swapInJob (s : State) (c : Context) : State :=
  let s := s.swapRegs c.regs
  let s := s.tileList.foldl (fun (s : State) t => s.onTile t (fun x => x.swapIn (Map.get {} c.tiles t))) s
  { s with
    hbm := c.hbm, halo := c.halo, causes := c.causes, colls := c.colls, collOut := c.collOut, collHeld := c.collHeld
    rel := { s.rel with
      digests := c.digests, ownDigest := c.ownDigest, verdict := c.verdict, noMajority := c.noMajority
      mirrorCrc := c.mirrorCrc, mirrorDone := c.mirrorDone, mirrorOwn := c.mirrorOwn, mirrorPeer := c.mirrorPeer }
    lh := { s.lh with
      cur := some c.job, copy0 := c.copies.getD 0 {}, copy1 := c.copies.getD 1 {}, copy2 := c.copies.getD 2 {}, sel := c.sel
      leases := c.leases, openings := c.openings, sweepDue := c.sweepDue, startAtHalt := c.startAtHalt, reload := c.reload
      uses := c.uses, batches := c.batches, staged := c.staged, evalDue := c.evalDue, evalAt := c.evalAt, reshard := c.reshard
      ckptDone := c.ckptDone, nextBuffer := c.nextBuffer, noTestUntil := c.noTestUntil } }

/-! ### Placement (R439) -/

/-- The tile's control block as Lighthouse writes it for a job. -/
def Job.setUpTile (j : Job) (x : Tile) : Tile :=
  let x := (x.setFld TILE.NUM_REPRO j.repro).setFld TILE.GLT_KEY (campFld j.camp 64 64)
  let x := (List.range 8).foldl (fun (x : Tile) m => x.setFld (TILE.glintStream m) (campFld j.camp (2560 + 32 * m) 32)) x
  (List.range 256).foldl (fun (x : Tile) n => x.setFld (TILE.semXlat n) (campNum j.camp (campFld j.camp 576 32 + 8 * n) 8)) x

/-- The version regions of a job. -/
def State.setUpRegions (s : State) (j : Job) : State :=
  (List.range j.regions).foldl (fun (s : State) n =>
    let r := campNum j.camp (campFld j.camp 448 32 + 32 * n) 32
    (List.range 4).foldl (fun (s : State) k => s.wr (HBM.vreg n + 8 * k) (BitVec.ofNat 64 (bits r (64 * k) 64))) s) s

/-- The sync trees of the torus map over a job's box. -/
def State.setUpTrees (s : State) (box : List Nat) : State :=
  let root := moduleCoord s.shape (boxRoot box)
  let parent := (toRoot s.shape root s.coord).getD 15
  let kids := (childPorts s.shape root s.coord box).foldl (fun v p => v + 2 ^ p) 0
  (List.range 16).foldl (fun (s : State) m =>
    (((s.wr (BCN.PARENT m).off 0xF).setFld (BCN.PARENT m) parent).setFld (BCN.CHILDREN m) kids).setFld (BCN.VALID m) 1) s

/-- The step state of a fresh start. -/
def Job.firstState (j : Job) : StepState := { ls := BitVec.ofNat 32 (j.scb 128 32) }

/-- The context in host memory that a JOB_PLACE restores, where this module wrote it. -/
def State.contextAt (s : State) (haddr len : Nat) : Option Context :=
  (s.lh.written.find? (fun e => decide (e.1.length ≤ len) && decide (s.hostRead haddr e.1.length = e.1))).map (·.2)

/-- The tiles whose test would be forced within the job's no-test window are tested in place first (R479). -/
def State.testEarly (s : State) (j : Job) : State :=
  let due := (s.tileList.map s.physOf).filter (fun u =>
    decide ((s.unit u).state = 0) && (Map.get none s.rel.testing u).isNone
      && decide ((s.unit u).testDue + 86400 * s.policy NVM.DEFER_D ≤ s.utc + 3600 * campFld j.camp 208 10))
  { s with rel := { s.rel with testing := due.foldl (fun m u => Map.set none m u (some false)) s.rel.testing } }

/-- A member takes a job: its cores reset, its images wait for them, everything that R439 writes is written; a restored context
runs at the reproducibility level of its new configuration (R144, R162). -/
def State.prepare (s : State) (j : Job) : State :=
  let s := { s with lh := { s.lh with cur := none } }.freeModule
  let s := { s with lh := { s.lh with cur := some j.id } }
  let s := s.tileList.foldl (fun (s : State) t => (s.resetCore t).onTile t (fun x => { j.setUpTile x with sems := [], credits := [] })) s
  let s := { s with lh := { s.lh with reload := s.tileList, noTestUntil := 0 } }.testEarly j
  let s := ((s.wr HBM.LIT.off 0).setUpRegions j).setUpTrees j.box
  let s := { s with lh := { s.lh with copy0 := j.firstState, copy1 := {}, copy2 := {}, sel := 0, nextBuffer := 0, evalAt := 0 } }
  let s : State := match j.done, j.ctx with
    | some (buf, step), _ =>
      let s := s.restoreCkpt j buf
      { s with lh := { s.lh with ckptDone := some (buf, step), nextBuffer := 1 - buf } }
    | none, some (haddr, len) =>
      match s.contextAt haddr.toNat len with
      | some c =>
        let s := s.swapInJob { c with job := j.id }
        let s := s.tileList.foldl (fun (s : State) t => s.onTile t (fun x => x.setFld TILE.NUM_REPRO j.repro)) s
        { s with lh := { s.lh with reload := [], contexts := s.lh.contexts ++ [{ c with job := j.id }] } }
      | none =>
        { s with lh := { s.lh with copy0 := { j.firstState with step := BitVec.ofNat 64 (bits (s.ctxHeader haddr.toNat) 128 64) } } }
    | none, none => s
  s.writeDraws s.lh.lit

/-- The authority places a job on a box: every member is told, this one begins. -/
def State.startPlacing (s : State) (j : Job) (box : List Nat) : State :=
  let j := { j with box := box, state := .placing, ready := [], lost := [], wrote := [], priority := none }
  let s := (s.setJob j).opState j.tag 1
  let d := match s.hif.ops.find? (fun o => decide (o.tag = j.tag)) with
    | some o => o.desc
    | none => 0
  let s := s.tellMembers box (bytesOf (1 + j.id.toNat * 2 ^ 8 + moduleCoord s.shape (boxRoot box) * 2 ^ 72) 12 ++ bytesOf d.toNat 64
    ++ bytesOf j.voteK 2)
  if box.contains s.self.toNat then s.prepare j else s

/-! ### Suspension (R447) and resumption (R448) -/

/-- The stop superstep: the lowest that no tile has started, plus 1. -/
def State.stopSuperstep (s : State) : Word :=
  BitVec.ofNat 64 (s.tileList.foldl (fun m t =>
    let x := s.tile t
    max m (x.fld TILE.SSTEP + ofBool x.phase.isSome)) 0 + 1)

/-- A suspension of the module's job begins. -/
def State.startSuspend (s : State) (j : Job) (why ring : Nat) (cid : BitVec 16) (d : BitVec 512) (portable : Bool) : State :=
  let u : Suspension := {
    job := j.id, stop := s.stopSuperstep, why := why, ring := ring, cid := cid, desc := d, portable := portable }
  let s := { s with lh := { s.lh with suspension := some u } }
  s.tellMembers j.box (bytesOf (2 + j.id.toNat * 2 ^ 8 + u.stop.toNat * 2 ^ 72) 17)

/-- Lighthouse holds the tile for the stop (R447; a tile whose stream has halted starts no superstep, log 34). -/
def Suspension.holds (u : Suspension) (x : Tile) : Bool :=
  let quiet := x.dma.isEmpty && x.lists.isEmpty && x.running.isNone && x.astWait.isNone && x.phase.isNone
  let waits := match x.xq with
    | q :: _ => decide (q.op = 0x01) && decide (u.stop.toNat ≤ x.fld TILE.SSTEP)
    | [] => false
  quiet && (waits || x.halted) && (!u.portable || (x.vq.isEmpty && x.mq.isEmpty))

def State.allHeld (s : State) (u : Suspension) : Bool := s.tileList.all (fun t => u.holds (s.tile t))

/-- The job is stopped on this module: with its step open, once the hold reduction has said so, or with none (R447). -/
def State.stopped (s : State) (u : Suspension) : Bool :=
  s.allHeld u && (match s.lh.step with
    | some _ => decide (u.agreed = some true)
    | none => true)

/-- Every member is held: the authority schedules the hold reduction, where its result can come before V. -/
def State.scheduleHold (s : State) (u : Suspension) (j : Job) : State :=
  if !(s.authority && j.box.all (fun m => u.held.contains m) && decide (u.tc = none) && decide (u.agreed = none)) then s
  else match s.lh.step with
    | none => s
    | some st =>
      let tc := s.count + 64
      let tr := tc + BitVec.ofNat 64 j.flipOff
      if !st.voted && decide (0 ≤ (st.vote - tr).toInt) && decide (s.fld (BCN.BUSY j.voteTree) = 0) then
        let s := { s with lh := { s.lh with suspension := some { u with tc := some (tc, tr) } } }
        let s := s.startTree j.voteTree 0 1 tc tr j.level s.treeHeight s.treeDepth false
        (j.box.filter (fun m => decide (m ≠ s.self.toNat))).foldl (fun (s : State) m => s.controlTo m .held (bytesOf tc.toNat 8)) s
      else { s with lh := { s.lh with suspension := some { u with agreed := some false } } }

/-- Module `m` reports every tile of the suspending job held: this module tells the authority, the authority counts (R447). -/
def State.tilesHeld (s : State) (m : Nat) : State :=
  match s.lh.suspension, s.job with
  | some u, some j =>
    let self := decide (m = s.self.toNat)
    if (self && !s.allHeld u) || !j.box.contains m || (!self && !s.authority) then s
    else
      let u := { u with held := m :: u.held.erase m }
      let s := { s with lh := { s.lh with suspension := some u } }
      if s.authority then s.scheduleHold u j else s.controlTo (s.fld BCN.MASTER) .held (bytesOf m 2)
  | _, _ => s

/-- A member joins the hold reduction that its authority scheduled. -/
def State.joinHold (s : State) (tc : BitVec 64) : State :=
  match s.lh.suspension, s.job with
  | some u, some j =>
    let tr := tc + BitVec.ofNat 64 j.flipOff
    let s := { s with lh := { s.lh with suspension := some { u with tc := some (tc, tr) } } }
    s.startTree j.voteTree 0 (if s.allHeld u then 1 else 0) tc tr j.level s.treeHeight s.treeDepth false
  | _, _ => s

/-- Every held XSTART is released. -/
def State.releaseStarts (s : State) (r0 : Option (BitVec 64)) : State :=
  s.tileList.foldl (fun (s : State) t =>
    let s := s.onTile t (fun x => match x.xq, r0 with
      | q :: qs, some r => if q.op = 0x01 then { x with xq := { q with b := r } :: qs } else x
      | _, _ => x)
    s.xqRun t) s

/-- SKIP_RUN of the lit step state is 0 (R446). -/
def State.clearSkip (s : State) : State :=
  { s with lh := s.lh.setCopy s.lh.sel.toNat { s.lh.lit with skipRun := 0 } }

/-- The module's share of a resumption at R0: its context where another job took the module, the step with the ticks that it
had left, every held XSTART at R0; with no step open the next open is R0. Its no-test window starts with its first open
(R479). -/
def State.resumeHere (s : State) (j : Job) (r0 : BitVec 64) : State :=
  let c := s.lh.contexts.find? (fun c => decide (c.job = j.id))
  let s := match c with
    | some x => if s.lh.cur = some j.id then s else s.swapInJob x
    | none => s
  let s := { s with lh := { s.lh with
    suspension := none, contexts := s.lh.contexts.filter (fun c => decide (c.job ≠ j.id)), cur := some j.id
    noTestUntil := if s.lh.noTestUntil = 0 then s.utc + 3600 * campFld j.camp 208 10 else s.lh.noTestUntil } }
  let s := if s.lh.lit.skipRun.toNat = j.scb 80 16 then s.clearSkip else s
  match c.bind (fun x => x.step.map (fun st => (x, st))) with
  | some (x, st) =>
    let v := r0 + (st.vote - x.stopped)
    let s := { s with lh := { s.lh with step := some { st with vote := v, flip := v + BitVec.ofNat 64 j.flipOff } } }
    s.releaseStarts (some r0)
  | none => { s with lh := { s.lh with nextOpen := some r0 } }.releaseStarts none

/-- The authority resumes a job: 1,024 ticks ahead, as R439 sets a first open (R0 is the model's choice, log 35). -/
def State.resumeJob (s : State) (j : Job) : State :=
  let r0 := s.count + 1024
  let j := { j with state := .running, host := false, priority := none }
  let s := ((s.setJob j).opState j.tag 1).interim j.tag 0 j.id
  let s := s.tellMembers j.box (bytesOf (r0.toNat * 2 ^ 8) 9)
  if j.box.contains s.self.toNat then s.resumeHere j r0 else s

/-- Module `m` reports ready for the job that is being placed on it: this module tells the authority; once every member has
reported, the authority sets the first open, and the job runs (R435, R439) unless the host holds it. -/
def State.memberReady (s : State) (m : Nat) : State :=
  let self := decide (m = s.self.toNat)
  let up := s.tileList.all (fun t =>
    (decide ((s.tile t).fld TILE.CORE_PWR = 0) || decide ((s.tile t).fld TILE.CORE_READY = 1))
      && (Map.get none s.rel.testing (s.physOf t)).isNone)
  match s.lh.jobs.find? (fun j => decide (j.state = .placing) && j.box.contains m) with
  | none => s
  | some j =>
    if (self && !up) || (!self && !s.authority) then s
    else if !s.authority then s.controlTo (s.fld BCN.MASTER) .placement (bytesOf (4 + m * 2 ^ 8) 9)
    else
      let j := { j with ready := m :: j.ready.erase m }
      if !j.box.all (fun x => j.ready.contains x) then s.setJob j
      else
        let j := { j with state := .running }
        let s := s.setJob j
        if j.host then s
        else
          let r0 := s.count + 1024
          let s := (s.opState j.tag 1).interim j.tag 0 j.id
          let s := s.tellMembers j.box (bytesOf (r0.toNat * 2 ^ 8) 9)
          if j.box.contains s.self.toNat then s.resumeHere j r0 else s

/-! ### The queue (R435, R436) -/

/-- The order of the queue: latency-critical first, then by count of receipt, then by identifier. -/
def Job.before (a b : Job) : Bool :=
  if a.bestEffort ≠ b.bestEffort then b.bestEffort
  else if a.received ≠ b.received then a.received.ult b.received else a.id.ult b.id

def insertJob (j : Job) : List Job → List Job
  | [] => [j]
  | x :: xs => if j.before x then j :: x :: xs else x :: insertJob j xs

/-- The queued jobs in order. -/
def State.queue (s : State) : List Job :=
  (s.lh.jobs.filter (fun j => decide (j.state = .queued) && j.box.isEmpty)).foldr insertJob []

/-- A job whose position has fallen posts QUEUED. -/
def State.reportQueue (s : State) : State :=
  (s.queue.zipIdx).foldl (fun (s : State) e =>
    match e.1.reported with
    | some p => if e.2 < p then (s.interim e.1.tag Status.QUEUED (BitVec.ofNat 64 e.2)).setJob { e.1 with reported := some e.2 } else s
    | none => s) s

/-- A job that holds this module gives way to another: its suspension begins (R435); one that the host has suspended stands
still, its context saved. -/
def State.displace (s : State) (k : Job) (by_ : BitVec 64) : State :=
  if s.lh.cur = some k.id && s.lh.contexts.any (fun c => decide (c.job = k.id)) then
    let s := ((s.setJob { k with priority := some by_, heldAt := s.count.toNat }).opState k.tag 4).interim k.tag Status.SUSP_PRIORITY by_
    { s with lh := { s.lh with cur := none } }.freeModule
  else if s.lh.cur = some k.id then
    match s.lh.suspension with
    | some _ => s
    | none => s.startSuspend k 1 0 0 (BitVec.ofNat 512 by_.toNat) false
  else
    let s := s.tellMembers k.box (bytesOf (2 + k.id.toNat * 2 ^ 8) 17)
    ((s.setJob { k with priority := some by_, heldAt := s.count.toNat }).opState k.tag 3).interim k.tag Status.SUSP_PRIORITY by_

/-- A job with reserved modules is placed once they are free. -/
def State.placeReserved (s : State) (j : Job) : State := if s.boxFree j j.box then s.startPlacing j j.box else s

/-- An accepted job is placed, placed by displacement or queued (R435); its first entry carries its identifier (R429). -/
def State.admitJob (s : State) (j : Job) : State :=
  match (s.boxesFor j).find? (fun b => s.boxFree j b) with
  | some b => s.startPlacing j b
  | none =>
    match (if j.bestEffort then none else s.bestTakable j) with
    | some b =>
      let ks := s.displaced j b
      let j := { j with box := b }
      let s := (s.setJob j).opState j.tag 0
      let s := ks.foldl (fun (s : State) k => s.displace k j.id) s
      s.placeReserved j
    | none =>
      let s := (s.interim j.tag Status.QUEUED j.id).opState j.tag 0
      let pos := ((s.queue.zipIdx).find? (fun e => decide (e.1.id = j.id))).map (·.2)
      s.setJob { j with reported := pos }

/-- What may run next (R436): of each class the jobs that gave way to priority, then the queued ones. -/
def State.candidates (s : State) : List Job :=
  let held := s.lh.jobs.filter (fun j => j.priority.isSome && !j.host && decide (j.state ≠ .ended))
  let first := held.foldr (fun j l => (l.takeWhile (fun x => decide (x.heldAt < j.heldAt))) ++ [j]
    ++ l.dropWhile (fun x => decide (x.heldAt < j.heldAt))) []
  let reserved := s.lh.jobs.filter (fun j => decide (j.state = .queued) && !j.box.isEmpty)
  let q := s.queue.filter (fun j => !j.host)
  reserved ++ first.filter (fun j => !j.bestEffort) ++ q.filter (fun j => !j.bestEffort) ++ first.filter (·.bestEffort)
    ++ q.filter (·.bestEffort)

/-- The first of them that has a box takes it. -/
def State.dequeue (s : State) : State :=
  let try_ (s : State) (j : Job) : Option State :=
    if !j.box.isEmpty then
      if !s.boxFree j j.box then none
      else if j.priority.isSome then some (s.resumeJob j) else some (s.startPlacing j j.box)
    else ((s.boxesFor j).find? (fun b => s.boxFree j b)).map (fun b => s.startPlacing j b)
  match s.candidates.findSome? (try_ s) with
  | some s' => s'.reportQueue
  | none => s.reportQueue

/-! ### The end of a stop (R411, R413, R435, R447 to R450) -/

/-- The context saved, in place of an earlier one; it holds the open step. The stop is over. -/
def State.keepContext (s : State) (u : Suspension) : State :=
  { s with lh := { s.lh with
      contexts := s.lh.contexts.filter (fun c => decide (c.job ≠ u.job)) ++ [s.context u], step := none, suspension := none } }

/-- The module is left by a job that another displaced: what it spills lies in its host area (R449). -/
def State.leave (s : State) (j : Job) (by_ : BitVec 64) : State :=
  let gib := match s.jobOf by_ with
    | some k => spillGib k j
    | none => 0
  let s : State := if gib = 0 then s
    else
      let r := s.drawBytes (gib * 2 ^ 30)
      r.2.hostWrite (campFld j.camp 2368 64) r.1
  { s with lh := { s.lh with cur := none } }.freeModule

/-- The bytes of a context (R451): its header, and a body whose layout the spec does not give. -/
def State.ctxBytes (s : State) (j : Job) (u : Suspension) : List Byte × State :=
  let origin := moduleCoord s.shape (boxRoot j.box)
  let rank := [0, 1, 2, 3].foldl (fun v a => v + (coordOf s.coord a - coordOf origin a) * 2 ^ (6 * a)) 0
  let h := [(1, 0, 8), (ofBool u.portable, 8, 1), (256, 16, 16), (s.rows, 32, 8), (60, 40, 8), (j.id.toNat, 64, 64),
    (s.lh.lit.step.toNat, 128, 64), (u.stop.toNat, 192, 64), (rank, 256, 24)].foldl (fun w f => putBits w f.2.1 f.2.2 f.1) 0
  let n := s.draw 40
  let b := n.2.drawBytes n.1.toNat
  (bytesOf h 64 ++ b.1, b.2)

/-- A job stopped for priority leaves the module (R435). -/
def State.giveWay (s : State) (j : Job) (by_ : BitVec 64) : State :=
  let s := ((s.setJob { j with priority := some by_, heldAt := s.count.toNat }).opState j.tag (if j.host then 4 else 3)).interim
    j.tag Status.SUSP_PRIORITY by_
  s.leave j by_

/-- CTX_SAVE writes a stopped job's context, unless it was cancelled; the job runs on unless STOP is set (R450). -/
def State.writeContext (s : State) (j : Job) (u : Suspension) (c : Context) : State :=
  let live := s.hif.started.any (fun x => decide (x.ring = u.ring) && decide (x.desc = u.desc))
  let b := s.ctxBytes j u
  let s := b.2
  let fits := live && decide (b.1.length ≤ cArg u.desc 320 64)
  let s := if fits then
      { s.hostWrite (cArg u.desc 256 64) b.1 with lh := { s.lh with written := s.lh.written ++ [(b.1, c)] } } else s
  let s := s.finish u.ring u.desc (if fits then 0 else Status.STEP_CONFIG) none
  if fits ∧ cArg u.desc 385 1 = 1 then (s.setJob { j with host := true }).opState j.tag 2
  else if j.host then s else s.resumeJob j

/-- A job that the host cancels ends, on every member (R413); the CANCELs that waited complete, the later ones without a
target. -/
def State.cancelJob (s : State) (j : Job) (cs : List (Nat × BitVec 512)) : State :=
  let s := s.tellMembers j.box (bytesOf (3 + j.id.toNat * 2 ^ 8) 9)
  let s := (if s.lh.cur = some j.id then s.abandonStep else s).closeJob j Status.OP_CANCELLED none
  (cs.zipIdx).foldl (fun (s : State) c =>
    s.finish c.1.1 c.1.2 (if c.2 = 0 then 0 else Status.OP_TAG_UNKNOWN) none) s

/-- A displacing job is placed once its modules are left. -/
def State.placeNext (s : State) (id : BitVec 64) : State :=
  match s.jobOf id with
  | some k => s.placeReserved k
  | none => s.dequeue

/-- What a stop was for: 0 a host's SUSPEND, 1 priority, 2 a context save, 3 a forced test, 5 the authority of another
module. -/
def State.stopFor (s : State) (u : Suspension) (j : Job) : State :=
  match u.why with
  | 0 =>
    let time := s.draw 64
    let s := time.2.keepContext u
    let s := ((s.setJob { j with host := true }).opState j.tag 2).interim j.tag Status.SUSP_HOST none
    s.finish u.ring u.desc 0 time.1
  | 1 => ((s.keepContext u).giveWay j (BitVec.ofNat 64 u.desc.toNat)).placeNext (BitVec.ofNat 64 u.desc.toNat)
  | 2 => (s.keepContext u).writeContext j u (s.context u)
  | 3 =>
    let s := (s.keepContext u).interim j.tag Status.TEST_DEFERRED (BitVec.ofNat 64 u.desc.toNat)
    { s with rel := { s.rel with
        testing := Map.set none s.rel.testing u.desc.toNat (some false), deferred := Map.set 0 s.rel.deferred u.desc.toNat 0 } }
  | _ => s.keepContext u

/-- The save of a stopped job ends (R449): what follows is what the stop was for. A CANCEL (4, or one that came after another
reason) ends the job; before a priority suspension it comes first (R421). -/
def State.switchDone (s : State) (u : Suspension) (j : Job) : State :=
  let drop (s : State) : State := { s with lh := { s.lh with suspension := none } }
  if u.why = 4 then (drop s).cancelJob j ((u.ring, u.desc) :: u.cancels)
  else if u.cancels = [] then s.stopFor u j
  else if u.why = 1 then ((drop s).cancelJob j u.cancels).placeNext (BitVec.ofNat 64 u.desc.toNat)
  else if u.why = 0 ∨ u.why = 2 then
    let s := s.stopFor u j
    match s.jobOf u.job with
    | some k => s.cancelJob k u.cancels
    | none => s
  else (drop s).cancelJob j u.cancels

/-! ### A checkpoint that every member has written (R442) -/

/-- The checkpoint that this module has written is complete: every command that asked for it completes, the campaign ends with its
last one (R446), and a test that waited for it is forced (R478). -/
def State.ckptOver (s : State) (id : BitVec 64) : State :=
  match s.job, s.lh.ckptWait with
  | some j, some c =>
    if j.id ≠ id then s
    else
      let s := { s with lh := { s.lh with ckptWait := none, ckptDone := some (c.buffer, c.step) } }
      let j := { j with done := some (c.buffer, c.step) }
      let s := s.setJob j
      let s := c.asked.foldl (fun (s : State) a => s.finish a.1 a.2 0 c.step) s
      if c.last then s.closeJob j 0 c.step
      else match s.rel.forced with
        | u :: rest =>
          if s.lh.suspension.isSome then s
          else
            let s := { s with rel := { s.rel with forced := rest } }
            if (s.chooseSpare (u / 64) (u % 64)).isSome then s else s.startSuspend j 3 0 0 (BitVec.ofNat 512 u) false
        | [] => s
  | _, _ => s

/-- The authority learns that member `m` has written its header; with the last of them the checkpoint is complete, and the
submitting ring is told (R442). -/
def State.headerWritten (s : State) (id : BitVec 64) (m buffer : Nat) (step : BitVec 64) (last : Bool) : State :=
  match s.jobOf id with
  | none => s
  | some j =>
    if !s.authority || !j.box.contains m then s
    else
      let w := m :: j.wrote.erase m
      if !j.box.all w.contains then s.setJob { j with wrote := w }
      else
        let j := { j with wrote := [], done := some (buffer, step) }
        let s := s.tellMembers j.box (bytesOf (10 + id.toNat * 2 ^ 8) 9)
        let s := (s.setJob j).interim j.tag 0 step
        let s := s.ckptOver id
        if last && !j.box.contains s.self.toNat then s.closeJob j 0 step else s

/-! ### Control packets of a placement at a member (log 14) -/

/-- A member takes a placement that its authority sent: the campaign as its own host holds it (R431). -/
def State.takePlacement (s : State) (id : BitVec 64) (origin : Nat) (d : BitVec 512) (k : Nat) : State :=
  let c := s.hostRead (pHaddr d) (pLen d)
  if (crc64 c).toNat ≠ pCrc d ∨ s.unsynchronised = true ∨ s.arriving = true then s
  else
    let j : Job := {
      id := id, tag := 0, named := cTag d, voteK := k, ring := 0, cid := cCid d, camp := c, received := s.count, state := .placing
      ctx := if pCtx d = 0 then none else some (BitVec.ofNat 64 (pCtx d), pCtxLen d)
      box := s.boxAt (campFld c 128 28) origin }
    { s with lh := { s.lh with jobs := s.lh.jobs.filter (fun (x : Job) => decide (x.id ≠ id)) ++ [j] } }.prepare j

/-- A control packet of kind 11. -/
def State.takeJobControl (s : State) (bs : List Byte) : State :=
  let v := ofBytes bs
  let id := BitVec.ofNat 64 (bits v 8 64)
  match bits v 0 8 with
  | 0 => match s.job with
    | some j =>
      let j := { j with state := .running }
      (s.setJob j).resumeHere j id
    | none => s
  | 1 => s.takePlacement id (bits v 72 24) (BitVec.ofNat 512 (bits v 96 512)) (bits v 608 16)
  | 2 =>
    if s.lh.cur = some id ∧ s.lh.suspension.isNone then
      let stop := if bs.length < 17 then s.stopSuperstep else BitVec.ofNat 64 (bits v 72 64)
      { s with lh := { s.lh with suspension := some { job := id, stop := stop, why := 5, ring := 0, cid := 0 } } }
    else s
  | 3 => match s.jobOf id with
    | some j => s.abandonStep.closeJob j Status.OP_CANCELLED none
    | none => s
  | 4 => s.memberReady id.toNat
  | 5 => { s with lh := { s.lh with asleep := id.toNat :: s.lh.asleep.erase id.toNat } }
  | 6 => { s with lh := { s.lh with asleep := s.lh.asleep.erase id.toNat } }
  | 7 => match s.jobOf id with
    | some j => if s.authority then s.setFirstOpen j else s
    | none => s
  | 8 => s.openAt id (BitVec.ofNat 64 (bits v 72 64))
  | 9 => s.headerWritten id (bits v 72 16) (bits v 88 8) (BitVec.ofNat 64 (bits v 104 64)) (bit v 96)
  | 10 => s.ckptOver id
  | _ => s

/-! ### Checkpoints (R442) -/

/-- A checkpoint starts: the lit slots are pinned; a pin that would pass 65,535 is refused with GEN_PIN_LIMIT (R301), and so are
the commands that asked for it. -/
def State.startCkpt (s : State) (j : Job) : State :=
  let lit := s.lh.lit
  let pins := s.vregs.filterMap (fun n => (s.litSlot n).map (fun k => (n, k)))
  if pins.any (fun p => decide (65535 ≤ s.fld (HBM.PIN p.1 p.2))) then
    let s := s.lh.ckptAsked.foldl (fun (s : State) a => s.finish a.1 a.2 Status.GEN_PIN_LIMIT none) s
    { s with lh := { s.lh with ckptDue := false, ckptAsked := [] } }.report Status.GEN_PIN_LIMIT 0
  else
  let s := pins.foldl (fun (s : State) p => s.setPin p.1 p.2 (s.fld (HBM.PIN p.1 p.2) + 1)) s
  let steps := campFld j.camp 256 64
  let c : Checkpoint := {
    buffer := s.lh.nextBuffer, pins := pins, step := lit.step, gen := BitVec.ofNat 24 (s.fld HBM.LIT), lepoch := lit.lepoch
    asked := s.lh.ckptAsked, last := decide (steps ≠ 0) && decide (steps ≤ lit.commits.toNat) }
  { s with lh := { s.lh with ckpt := some c, ckptDue := false, ckptAsked := [] } }.hostWrite (j.ckptAddr c.buffer + 64) lit.bytes

/-- A checkpoint that is due starts (R261, R442), after the events that R261 places before it; none while the Beacon is lost
(R257). -/
def State.ckptStarts (s : State) : State :=
  let s := s.runDue 5
  match s.job with
  | none => s
  | some j => if s.lh.ckptDue && s.lh.ckpt.isNone && s.lh.ckptWait.isNone && decide (s.fld BCN.STATE ≠ 5) then s.startCkpt j else s

/-- This module's share of a checkpoint ends: the slots are copied and the header written, which the authority learns (R442). One
that met poison ends the job, at its next flip or, with none to come, at once. -/
def State.endCkpt (s : State) (j : Job) (c : Checkpoint) : State :=
  let at_ := j.ckptAddr c.buffer
  let r := s.copySlots at_ c.pins
  let s := (r.1).unpin c.pins
  let s := { s with lh := { s.lh with ckpt := none } }
  if r.2 then
    let s := c.asked.foldl (fun (s : State) a => s.finish a.1 a.2 Status.OP_CANCELLED none) s
    if s.lh.step.isSome ∨ s.lh.nextOpen.isSome then s.endJob Status.POISON_CONSUMED else s.closeJob j Status.POISON_CONSUMED none
  else
    let s := s.hostWrite at_ (ckptHeader c.step c.gen c.lepoch)
    let s := { s with lh := { s.lh with nextBuffer := 1 - c.buffer, ckptWait := some c } }
    if s.authority then s.headerWritten j.id s.self.toNat c.buffer c.step c.last
    else s.controlTo (s.fld BCN.MASTER) .placement
      (bytesOf (9 + j.id.toNat * 2 ^ 8 + s.self.toNat * 2 ^ 72 + c.buffer * 2 ^ 88 + ofBool c.last * 2 ^ 96 + c.step.toNat * 2 ^ 104) 21)

/-! ### Recovery (R445) -/

/-- A lost module is back: with none missing every member restores the last completed checkpoint, or begins afresh where
there is none; a Mirror job waits for its rebuild (R471). -/
def State.returnMember (s : State) (j : Job) (m : Nat) : State :=
  let j := { j with lost := j.lost.erase m }
  let s := ({ s with lh := { s.lh with unfit := s.lh.unfit.erase m } }).setJob j
  if j.lost ≠ [] ∨ (!s.authority ∧ !j.mirror) then s
  else if j.mirror then { s with lh := { s.lh with rebuild := some m } }
  else
    let s := if s.lh.cur = some j.id then s.abandonStep else s
    s.startPlacing j j.box

/-- A job that waited in vain for a module: it leaves its box and queues at the head of its class, to restore its last
checkpoint on any box. -/
def State.requeue (s : State) (j : Job) : State :=
  let s := if s.lh.cur = some j.id then s.abandonStep.freeModule else s
  let j := { j with state := .queued, box := [], lost := [], ready := [], received := 0, fresh := false }
  let s := (s.setJob j).opState j.tag 0
  let pos := ((s.queue.zipIdx).find? (fun e => decide (e.1.id = j.id))).map (·.2)
  (s.setJob { j with reported := pos }).interim j.tag Status.QUEUED (BitVec.ofNat 64 (pos.getD 0))

end Sys2Proof.Machine
end

