-- ==== Sys2Proof/Machine/HostIf.lean ====
section
/-! DEFINITION. The rows of the host interface: doorbells, resets, rings, fetch, start, completion, relay (chapter 14). -/
namespace Sys2Proof.Machine

/-! ### Doorbells (R397) -/

/-- An ignored doorbell. -/
def State.badDoorbell (s : State) (n : Nat) : State := (s.setFld HIF.DOORBELL_RANGE 1).setFld HIF.LAST_RING n

/-- SQ_TAIL_DOORBELL. -/
def execSqTailDoorbell (ring : Nat) (value : BitVec 32) (s : State) : Result :=
  if 64 ≤ ring then .fault .noSuchUnit
  else if !s.awake then .next s
  else
    let v := value.toNat
    if s.fld (HIF.ENABLE ring) = 0 ∨ s.sqSize ring ≤ v ∨ 2 ^ 16 ≤ v then .next (s.badDoorbell ring)
    else .next (s.setRing ring { s.ring ring with tail := v })

/-- CQ_HEAD_DOORBELL: HEAD may not pass the completion tail. -/
def execCqHeadDoorbell (ring : Nat) (value : BitVec 32) (s : State) : Result :=
  if 64 ≤ ring then .fault .noSuchUnit
  else if !s.awake then .next s
  else
    let v := value.toNat
    let n := s.cqSize ring
    let old := (s.ring ring).head
    if s.fld (HIF.ENABLE ring) = 0 ∨ n ≤ v ∨ 2 ^ 16 ≤ v
      ∨ (s.fld (HIF.CQ_TAIL ring) + n - old) % n < (v + n - old) % n then .next (s.badDoorbell ring)
    else .next (s.setRing ring { s.ring ring with head := v })

/-! ### Resets (R395) -/

/-- HIF_RESET. -/
def execHifReset (s : State) : Result :=
  if !s.awake then .next s
  else .next s.resetHif
/-- CONVENTIONAL_RESET: by HIF_PERST_N, which is low from now on (R543). -/
def execConventionalReset (s : State) : Result :=
  let s := if s.awake then s.resetHif else s
  .next { s with pwr := { s.pwr with perst := true } }
/-- FUNCTION_LEVEL_RESET. -/
def execFunctionLevelReset (s : State) : Result :=
  if !s.awake then .next s
  else .next s.resetHif

/-! ### Rings (R396) -/

/-- RING_ENABLE: a write of HIF_RING_CFGn with ENABLE = 1. -/
def execRingEnable (ring : Nat) (value : BitVec 64) (s : State) : Result :=
  if 64 ≤ ring then .fault .noSuchUnit
  else if !s.awake then .next s
  else .next (s.writeRing ring (putBits value.toNat 0 1 1) (2 ^ 64 - 1))

/-- RING_DISABLE: a write of HIF_RING_CFGn with ENABLE = 0. -/
def execRingDisable (ring : Nat) (value : BitVec 64) (s : State) : Result :=
  if 64 ≤ ring then .fault .noSuchUnit
  else if !s.awake then .next s
  else .next (s.writeRing ring (putBits value.toNat 0 1 0) (2 ^ 64 - 1))

/-! ### Relay entries (R418, R420) -/

/-- A relayed command whose module entry `k` names. -/
def State.relayLive (s : State) (k : Nat) : List (Nat × BitVec 512) :=
  (s.hif.relayQueue ++ s.hif.relayed).filter (fun e => decide (cModule e.2 = s.fld (HIF.RMODULE k)))

/-- A write of a relay entry. -/
def State.writeRelay (s : State) (k new mask : Nat) : State :=
  let off := (HIF.RMODULE k).off
  let r := (s.writeMod off new mask).1
  let m := r.fld (HIF.RMODULE k)
  let valid := r.fld (HIF.RVALID k) = 1
  let sizes := [0, 1, 2, 3].foldl (fun n a => n * axisSize s.shape a) 1
  let twice := (List.range 64).any (fun j => decide (j ≠ k) && (decide (j = 0) && decide (s.self.toNat = m)
    || decide (j ≠ 0) && decide (s.fld (HIF.RVALID j) = 1) && decide (s.fld (HIF.RMODULE j) = m)))
  if k = 0 then s
  else if (valid ∧ (sizes ≤ m ∨ twice)) ∨ (s.fld (HIF.RVALID k) = 1 ∧ s.relayLive k ≠ []) then s.hifFault
  else
    let dst := moduleCoord s.shape m
    let up := match requestPort s.shape s.coord dst with
      | some p => decide (s.portRefuses p = 0)
      | none => true
    let s := (r.setFld (HIF.HOPS k) (if valid then depthOf s.shape dst maxHops s.coord else 0)).setFld (HIF.REACHABLE k)
      (ofBool (decide valid && up))
    s.setFld HIF.RELAY_ACTIVE (ofBool ((List.range 64).any (fun j => decide (j ≠ 0) && decide (s.fld (HIF.RVALID j) = 1))))

/-- RELAY_TABLE_WRITE. -/
def execRelayTableWrite (k : Nat) (value : BitVec 64) (s : State) : Result :=
  if 64 ≤ k then .fault .noSuchUnit
  else if !s.awake then .next s
  else .next (s.writeRelay k value.toNat (2 ^ 64 - 1))

/-- UNMAPPED_ACCESS: an unoccupied offset reads 0 and takes no write (R16). -/
def execUnmappedAccess (offset : Nat) (_isWrite : Bool) (s : State) : Result :=
  if !s.awake then .next s
  else if (modFields (canonical offset)).isSome then .next s else .next s.unmapped

/-! ### Fetch (R403, R415) -/

/-- A ring that may be fetched and has descriptors waiting. -/
def State.fetchable (s : State) (n : Nat) : Bool :=
  decide (s.fld (HIF.ENABLE n) = 1) && decide (s.fld (HIF.RSTATE n) = 1) && decide (0 < s.waiting n)
    && !s.hif.backlog.any (fun e => decide ((if e.zero then 0 else e.ring) = n))

def State.latencyRing (s : State) (n : Nat) : Bool := decide (n = 0) || decide (s.fld (HIF.CLASS n) = 0)

/-- Descriptors fetched through this link without a written final entry (R403). -/
def State.outstanding (s : State) : Nat :=
  s.hif.rings.foldl (fun n e => n + e.2.fetched.length) 0 + s.hif.started.length + s.hif.relayQueue.length
    + s.hif.relayed.length + (s.hif.backlog.filter (fun e => !e.interim && !e.event)).length

/-- The best-effort ring of weighted round-robin: `v` with what is left of its share, else the next with a full share. -/
def State.pickBest (s : State) : Nat → Nat → Nat → Option (Nat × Nat)
  | 0, _, _ => none
  | fuel + 1, v, share =>
    if !s.latencyRing v && s.fetchable v && decide (0 < share) then some (v, share)
    else
      let w := (v + 1) % 64
      s.pickBest fuel w (s.fld (HIF.WEIGHT w))

/-- The ring that arbitration chooses, and how many descriptors it may give. -/
def State.pickRing (s : State) : Option (Nat × Nat) :=
  match ((List.range 64).map (fun i => (s.hif.latency + i) % 64)).find? (fun n => s.latencyRing n && s.fetchable n) with
  | some n => some (n, 8)
  | none => s.pickBest 130 s.hif.visit (s.ring s.hif.visit).share

/-- FETCH_BURST: up to 8 descriptors of one ring are read as they stand in host memory. -/
def execFetchBurst (s : State) : Result :=
  if !s.awake then .next s
  else if 8192 ≤ s.outstanding then .next (if (List.range 64).any s.fetchable then s.setFld HIF.FETCH_HELD 1 else s)
  else match s.pickRing with
    | none => .next s
    | some (n, share) =>
      let head := s.fld (HIF.SQ_HEAD n)
      let k := min (min 8 share) (min (s.waiting n) (8192 - s.outstanding))
      let ds := (List.range k).map (fun i =>
        BitVec.ofNat 512 (ofBytes (s.hostRead (s.fld (HIF.SQ_BASE n) * 4096 + 64 * ((head + i) % s.sqSize n)) 64)))
      let total := s.fld (HIF.FETCHED n) + k
      let s := (s.setFld (HIF.SQ_HEAD n) ((head + k) % s.sqSize n)).setFld (HIF.FETCHED n) total
      let s := if 2 ^ 48 ≤ total then s.setFld (HIF.FET_OVF n) 1 else s
      let s := s.setFld (HIF.WAIT_US n) 0
      let r := s.ring n
      let lat := s.latencyRing n
      let s := s.setRing n { r with fetched := r.fetched ++ ds, share := if lat then r.share else share - k }
      .next { s with hif := { s.hif with
        latency := if lat then (n + 1) % 64 else s.hif.latency, visit := if lat then s.hif.visit else n } }

/-! ### Start (R399, R400, R418) -/

/-- A descriptor starts here: now, or as a Lighthouse event at its count (R260). -/
def State.startHere (s : State) (ring : Nat) (d : BitVec 512) : State :=
  if !cSched d then s.accept ring d false
  else if s.fld BCN.STATE = 5 then s.refuseDesc ring d Status.BCN_LOST
  else if tooFar (cBcn d) s.count then s.refuseDesc ring d Status.SCHED_RANGE
  else if 256 ≤ s.pendingEvents then s.refuseDesc ring d Status.SCHED_FULL
  else if ahead (cBcn d) s.count ≤ 0 then s.refuseDesc ring d Status.SCHED_PAST
  else
    let s := s.accept ring d false
    { s with bcn := { s.bcn with schedule := s.bcn.schedule ++ [⟨cBcn d, ring, d⟩] } }

/-- DESCRIPTOR_START: the first fetched descriptor of a ring is checked and started; one with FENCE waits for every earlier
one. -/
def execDescriptorStart (ring : Nat) (s : State) : Result :=
  if !s.ringKnown ring || !s.awake then .next s
  else match (s.ring ring).fetched with
    | [] => .next s
    | d :: rest =>
      if cFence d && (s.hif.started.any (fun x => decide (x.ring = ring))
          || (s.hif.relayQueue ++ s.hif.relayed).any (fun x => decide (x.1 = ring))) then .next s
      else
        let s := s.setRing ring { s.ring ring with fetched := rest }
        let c := s.hostRefuses ring d
        if c ≠ 0 then .next (s.refuseDesc ring d c)
        else if cVia d && decide (cModule d ≠ s.self.toNat) then
          match s.relayEntry (cModule d) with
          | none => .next (s.refuseDesc ring d Status.RELAY_UNKNOWN)
          | some k =>
            if s.fld (HIF.REACHABLE k) = 0 then .next (s.refuseDesc ring d Status.RELAY_LOST)
            else .next { s with hif := { s.hif with relayQueue := s.hif.relayQueue ++ [(ring, d)] } }
        else .next (s.startHere ring d)

/-! ### Completion (R403, R404, R398) -/

/-- COMPLETION_WRITE: the oldest entry whose ring has room is written. -/
def execCompletionWrite (s : State) : Result :=
  if !s.awake then .next s
  else match takeFirst s.entryFits s.hif.backlog with
  | none => .next s
  | some (e, rest) => .next ({ s with hif := { s.hif with backlog := rest } }.writeEntry e)

/-- A vector fires, or stays pending while its mask is set. -/
def State.fireVector (s : State) (v : Nat) : State :=
  if s.fld (HIF.MSIX_MASK v) = 1 then s.setFld (HIF.PBA v) 1
  else (s.hostWrite (s.fld (HIF.MSIX_ADDR v)) (bytesOf (s.fld (HIF.MSIX_DATA v)) 4)).setFld (HIF.PBA v) 0

/-- MSIX_INTERRUPT: after COAL_N entries, or COAL_US after the first. -/
def execMsixInterrupt (ring : Nat) (s : State) : Result :=
  if 64 ≤ ring then .fault .noSuchUnit
  else if !s.awake then .next s
  else
    let n := (s.ring ring).coal
    let k := s.fld (HIF.COAL_N ring)
    if k = 0 ∨ n = 0 ∨ (n < k ∧ s.fld (HIF.COAL_US ring) = 0) then .next s
    else .next ((s.setRing ring { s.ring ring with coal := 0 }).fireVector (s.fld (HIF.VECTOR ring)))

/-- HOST_MEMORY_ERROR: the ring stops (R398). -/
def execHostMemoryError (ring : Nat) (s : State) : Result :=
  if 64 ≤ ring then .fault .noSuchUnit
  else if !s.awake then .next s
  else if s.fld (HIF.RSTATE ring) ≠ 1 then .next s
  else
    let s := (((s.setFld (HIF.RSTATE ring) 2).setFld HIF.RING_STOPPED 1).setFld HIF.HOST_DMA 1).setFld HIF.LAST_RING ring
    .next (s.event 2 0 0 Status.HOST_DMA_ERROR ring)

/-! ### Relay (R418, R420) -/

/-- RELAY_FORWARD: the gateway sends the next relayed descriptor; a relayed module takes up the next one that came, and sends
the next entry that it keeps until the gateway acknowledges it. -/
def execRelayForward (s : State) : Result :=
  if !s.awake then .next s
  else
    let s := match s.hif.relayQueue with
      | [] => s
      | (ring, d) :: rest =>
        match s.relayTo (moduleCoord s.shape (cModule d)) (bytesOf d.toNat 64 ++ bytesOf ring 8) with
        | some s' => { s' with hif := { s'.hif with relayQueue := rest, relayed := s'.hif.relayed ++ [(ring, d)] } }
        | none => s
    let s := match s.hif.relayIn with
      | [] => s
      | (coord, ring, d) :: rest =>
        let p := s.pseudoRing coord ring
        let s := { p.2 with hif := { p.2.hif with relayIn := rest } }
        s.setRing p.1 { s.ring p.1 with fetched := (s.ring p.1).fetched ++ [d] }
    match s.hif.relayKeep, s.hif.relaySent with
    | (coord, e) :: _, none =>
      match s.relayTo coord.toNat (s.entryBytes e 0), requestPort s.shape s.coord coord.toNat with
      | some s', some p => .next { s' with hif := { s'.hif with relaySent := some (p, (s.port p).nextTag) } }
      | _, _ => .next s
    | _, _ => .next s

/-- RELAY_PATH_LOSS. -/
def execRelayPathLoss (k : Nat) (s : State) : Result :=
  if 64 ≤ k then .fault .noSuchUnit
  else if !s.awake then .next s
  else if k = 0 ∨ s.fld (HIF.RVALID k) = 0 ∨ s.fld (HIF.REACHABLE k) = 0 then .next s
  else
    let live := (s.relayLive k).filter (fun e => longOpc (cOpc e.2))
    let s := (s.setFld (HIF.REACHABLE k) 0).event 5 1 0 Status.RELAY_LOST 0
    .next (live.foldl (fun (s : State) e =>
      let v := s.draw 64
      v.2.post {
        ring := e.1, cid := cCid e.2, status := Status.RELAY_LOST, interim := true, tag := cTag e.2, result := v.1
        module := BitVec.ofNat 14 (cModule e.2) }) s)

/-- RELAY_PATH_REGAIN: the entries that the module kept follow in its packets. -/
def execRelayPathRegain (k : Nat) (s : State) : Result :=
  if 64 ≤ k then .fault .noSuchUnit
  else if !s.awake then .next s
  else if k = 0 ∨ s.fld (HIF.RVALID k) = 0 ∨ s.fld (HIF.REACHABLE k) = 1 then .next s
  else .next ((s.setFld (HIF.REACHABLE k) 1).event 5 2 0 0 0)

/-! ### Waits (R417) and the idle cycle -/

/-- A µs of arithmetic cycles ends with the next one. -/
def State.microEnds (s : State) : Bool := decide ((s.cycle + 1) % 940 = 0)

/-- A ring that has descriptors waiting has waited another µs; MAX_US keeps the longest wait (R417). -/
def State.waitMicro (s : State) (n : Nat) : State :=
  if s.fld (HIF.ENABLE n) = 1 ∧ 0 < s.waiting n then
    let s := s.bumpFld (HIF.WAIT_US n)
    s.setFld (HIF.MAX_US n) (max (s.fld (HIF.MAX_US n)) (s.fld (HIF.WAIT_US n)))
  else s

/-- Every ring of a module in service counts its wait. -/
def State.tickMicro (s : State) : State :=
  if s.awake && s.microEnds then (List.range 64).foldl State.waitMicro s else s

/-- One arithmetic cycle with no command: the model's cycle count, BCN_SUBTICK and, each µs, the waits of the rings, each second,
the calendar move on, the ports send (DESIGN CHOICE, log 4). -/
def idle (s : State) : State := { s.tickSecond.tickMicro.subtick.sendFrames with cycle := s.cycle + 1 }

end Sys2Proof.Machine
end

