-- ==== Sys2Proof/Machine/RegOps.lean ====
section
/-! DEFINITION. A write of a module register with its actions and its refusals (R14 to R17, R408). -/
namespace Sys2Proof.Machine

/-- Whether a write's bits set bit `i` of a register. -/
def sets (new mask i : Nat) : Bool := bit (new &&& mask) i

/-- The HIF_ block (R395, R396, R404, R418): a refused value is a register fault. -/
def State.writeHif (s : State) (c new mask : Nat) : State :=
  if 0x1000 ≤ c ∧ c < 0x2000 ∧ c % 64 = 0x10 then s.writeRing ((c - 0x1000) / 64) new mask
  else if 0x2000 ≤ c ∧ c < 0x2200 then s.writeRelay ((c - 0x2000) / 8) new mask
  else
    let r := s.writeMod c new mask
    let s := if r.2 then r.1.hifFault else r.1
    if c = 0x18 ∧ sets new mask 1 then s.resetHif
    else if 0x3000 ≤ c ∧ c < 0x3400 ∧ c % 16 = 8 then
      (let v := (c - 0x3000) / 16
       if s.fld (HIF.MSIX_MASK v) = 0 ∧ s.fld (HIF.PBA v) = 1 then s.fireVector v else s)
    else s

/-- What HBM holds is not stated after LOCAL_UNITS changes (R278): every byte and Halo that something wrote is a free
value. -/
def State.scrambleHbm (s : State) : State :=
  let a := s.draw 64
  { a.2 with
    hbm := s.hbm.filterMap (fun e =>
      let v := BitVec.ofNat 8 (Config.freeNat (a.1.toNat + 2 * e.1))
      if v = 0 then none else some (e.1, v))
    halo := s.halo.filterMap (fun e =>
      let v := BitVec.ofNat 256 (Config.freeNat (a.1.toNat + 2 * e.1 + 1))
      if v = bareHalo then none else some (e.1, v)) }

/-- HBM_CFG (R278): LOCAL_UNITS changes only while no job is placed. -/
def State.writeHbmCfg (s : State) (c new mask : Nat) : State × BitVec 16 :=
  let old := s.fld HBM.LOCAL_UNITS
  let r := s.writeMod c new mask
  if r.1.fld HBM.LOCAL_UNITS = old then (r.1, if r.2 then Status.HBM_CFG_VALUE else 0)
  else if s.anyPlaced then (r.1.setFld HBM.LOCAL_UNITS old, Status.HBM_CFG_VALUE)
  else (r.1.scrambleHbm, if r.2 then Status.HBM_CFG_VALUE else 0)

/-- BF_PORT_CTL (R355, R363, R364). -/
def State.writePortCtl (s : State) (p new mask : Nat) : State × BitVec 16 :=
  let was := s.fld (BF.ENABLE p)
  let on := bit mask 0 && decide (bits new 0 1 ≠ was)
  let s := if on then s.enablePort p (bit new 0) else s
  let s := if bit mask 1 && decide (bits new 1 1 ≠ s.fld (BF.FENCE p)) then
      (if bit new 1 then s.hostFence p else s.hostUnfence p) else s
  let r : State × BitVec 16 := if bit mask 2 && decide (bits new 2 1 ≠ s.fld (BF.QUIESCE p)) then
      (if bit new 2 then s.quiescePort p else (s.unquiescePort p, 0)) else (s, 0)
  (if sets new mask 3 then r.1.retrainPort p else r.1, r.2)

/-- BCN_CFG (R249): a change of TICK_NS is the master's to schedule, and none is made while a job is placed. -/
def State.writeBcnCfg (s : State) (c new mask : Nat) : State × BitVec 16 :=
  let old := s.fld BCN.TICK_NS
  let r := s.writeMod c new mask
  let now := r.1.fld BCN.TICK_NS
  let st := if r.2 then Status.BCN_CFG_VALUE else 0
  if now = old then (r.1, st)
  else
    let s' := r.1.setFld BCN.TICK_NS old
    if s.anyPlaced then (s', Status.BCN_BUSY) else (s'.askTick now, st)

/-- NVM_ and SEC_ registers with actions (R461, R498, R509 to R511). -/
def State.writeNvm (s : State) (c new mask : Nat) : State × BitVec 16 :=
  let v := new &&& mask
  if c = nvmBase + 0x400 then s.writePolicy new mask
  else if c = nvmBase + 0x210 then s.setCalendar (BitVec.ofNat 64 v)
  else if c = secBase + 0x40 then s.writeSecCtl v
  else if c = secBase + 0x48 then s.raiseFloor (bits v 0 32)
  else if c = secBase + 0x50 then s.returnUnit (bits v 0 32)
  else
    let r := s.writeMod c new mask
    (r.1, if r.2 then Status.HIF_CFG_VALUE else 0)

/-- A masked write of the module register at `off`: the state, and the status that a refused value raises. -/
def State.writeReg (s : State) (off new mask : Nat) : State × BitVec 16 :=
  let c := canonical off
  if (modFields c).isNone then (s.unmapped, 0)
  else if c < 0x100_0000 then (s.writeHif c new mask, 0)
  else if c = hbmBase 0 + 0x8_0000 then s.writeHbmCfg c new mask
  else if bfBase 0 ≤ c ∧ c < bfBase 8 ∧ c % 0x10_0000 = 8 then s.writePortCtl ((c - bfBase 0) / 0x10_0000) new mask
  else if c = bfBase 0 + 0x8_0000 then
    s.writeSelf (BitVec.ofNat 64 ((s.rd c).toNat &&& (2 ^ 64 - 1 - mask) ||| (new &&& mask)))
  else if c = bcnBase + 0x10 then s.writeBcnCfg c new mask
  else if nvmBase ≤ c then s.writeNvm c new mask
  else
    let r := s.writeMod c new mask
    (r.1, if r.2 then cfgStatus c else 0)

end Sys2Proof.Machine
end

