-- ==== Sys2Proof/Machine/Nvm.lean ====
section
/-! DEFINITION. The rows of persistent state and security (chapter 17): journal, policy, calendar, presence, seal, boot. -/
namespace Sys2Proof.Machine

/-- Nightlight has its supply: the module is not Off (R33). -/
def State.supplied (s : State) : Bool := decide (s.pwr.state ≠ .off)

/-- JOURNAL_COMMIT: the commit of every 60 s (R496, R497). -/
def execJournalCommit (s : State) : Result := if s.supplied then .next (s.commitJournal false) else .next s

/-- NVM_REL_POLICY_WRITE (R461). -/
def execNvmRelPolicyWrite (value : BitVec 64) (s : State) : Result :=
  if s.awake then .next (raised (s.writePolicy value.toNat (2 ^ 64 - 1))) else .next s

/-- NVM_CAL_SET (R498, R510). -/
def execNvmCalSet (value : BitVec 64) (s : State) : Result :=
  if s.awake then .next (raised (s.setCalendar value)) else .next s

/-- PRES_PRESS (R509). -/
def execPresPress (s : State) : Result := if s.supplied then .next s.press else .next s

/-- PRES_WINDOW_EXPIRE: the 60 s of R509 have passed. -/
def execPresWindowExpire (s : State) : Result := .next s.closeWindow

/-- PRES_CLOSE: SEC_CTL[PRES_CLOSE] written with 1 (R509). -/
def execPresClose (s : State) : Result := if s.awake then .next (raised (s.writeSecCtl 1)) else .next s

/-- TAMPER_CLR: SEC_CTL[TAMPER_CLR] written with 1 (R511). -/
def execTamperClr (s : State) : Result := if s.awake then .next (raised (s.writeSecCtl 2)) else .next s

/-- SEC_FLOOR_SET (R511). -/
def execSecFloorSet (value : BitVec 32) (s : State) : Result :=
  if s.awake then .next (raised (s.raiseFloor value.toNat)) else .next s

/-- SEC_UNIT_RETURN (R510). -/
def execSecUnitReturn (value : BitVec 32) (s : State) : Result :=
  if s.awake then .next (raised (s.returnUnit value.toNat)) else .next s

/-- SEAL_SAMPLE: by Nightlight, or by the latch on VBAT while the module is unpowered (R511). -/
def execSealSample (isOpen : Bool) (s : State) : Result :=
  if s.supplied then .next (s.sampleSeal isOpen)
  else .next { s with nl := { s.nl with latched := s.nl.latched || isOpen } }

/-- The host port trains to a rate and a width of R392 that the other end allows (free), in FLIT mode at 64 GT/s (R391). -/
def State.trainHost (s : State) : State :=
  let a := s.draw 2
  let b := a.2.draw 1
  let gen := 4 + a.1.toNat % 3
  ((b.2.setFld HIF.LINK_GEN gen).setFld HIF.LINK_WIDTH (if b.1 = 0 then 8 else 16)).setFld HIF.FLIT (ofBool (decide (gen = 6)))

/-- The module waits for its firmware: PWR_FAULT_N is released (R535). -/
def State.bootWait (s : State) : State :=
  let s := s.trainHost.setFld HIF.BOOT_WAIT 1
  { s with pwr := { s.pwr with faultPin := false } }

/-- The boot ROM (R499, R543): the host port waits for the release of HIF_PERST_N. -/
def State.bootRom (s : State) : State :=
  let s := s.readSec
  if s.pwr.perst then s.setFld HIF.BOOT_WAIT 0 else s.bootWait

/-- BOOT_ROM: on a module with its core rail on and no firmware running. -/
def execBootRom (s : State) : Result :=
  if s.pwr.state = .p0 ∧ s.fld HIF.READY = 0 then .next s.bootRom else .next s

end Sys2Proof.Machine
end

