-- ==== Sys2Proof/Machine/LhOps.lean ====
section
/-! DEFINITION. Lighthouse's reset (R425) and its firmware's start (R460, R503), operations by their tag (R409 to R414), the
start of tiles that an open left waiting (R440, R441). -/
namespace Sys2Proof.Machine

/-! ### The reset (R425) -/

/-- Commands of this host link that a reset of Lighthouse completes (R39, R420, R425): every short one but `keep`, and the
loads and context saves, whose work it loses (log 38). -/
def lostAtReset (keep : Option (Nat × BitVec 512)) (x : Nat × BitVec 512) : Bool :=
  decide (keep ≠ some x) && (!longOpc (cOpc x.2) || decide (cOpc x.2 = 0x27) || decide (cOpc x.2 = 0x50))

/-- Relayed commands in flight. -/
def State.dropRelayed (s : State) : State :=
  let gone (x : Nat × BitVec 512) : Bool := !longOpc (cOpc x.2)
  let xs := (s.hif.relayQueue ++ s.hif.relayed).filter gone
  let s := { s with hif := { s.hif with
    relayQueue := s.hif.relayQueue.filter (fun x => !gone x), relayed := s.hif.relayed.filter (fun x => !gone x) } }
  xs.foldl (fun (s : State) x => s.refuseDesc x.1 x.2 Status.DOMAIN_RESET) s

/-- Every open reduction is lost with the event schedule. -/
def State.clearTrees (s : State) : State :=
  (List.range 16).foldl (fun (s : State) m => (s.setTree m none).setFld (BCN.BUSY m) 0) s

/-- What Lighthouse holds after its reset: the firmware; of its jobs the records that it takes back from the authority. -/
def Lighthouse.afterReset (l : Lighthouse) : Lighthouse :=
  { firmware := l.firmware, sram := l.sram.filter (fun e => decide (e.1 < 0x20_0000)), inReset := true, jobs := l.jobs, lastId := l.lastId, cur := l.cur, unfit := l.unfit
    contexts := l.contexts, written := l.written, ckptDone := l.ckptDone, nextBuffer := l.nextBuffer
    ckptAsked := l.ckptAsked ++ (l.ckpt.toList ++ l.ckptWait.toList).flatMap (·.asked)
    noTestUntil := l.noTestUntil, rebuild := l.rebuild, asleep := l.asleep, gatewaysDown := l.gatewaysDown, reload := l.reload, uses := l.uses }

/-- A Lighthouse reset (R36, R425). -/
def State.lighthouseReset (s : State) (keep : Option (Nat × BitVec 512)) : State :=
  let s := if s.lh.cur.isSome then s.outOfStep else s
  let s : State := match s.lh.ckpt with
    | some c => s.unpin c.pins
    | none => s
  let s := s.unpin (s.lh.leases.map (fun l => (l.region, l.slot)))
  let s : State := match s.lh.reshard with
    | some r => r.regions.foldl (fun (s : State) n => s.setFld (HBM.SLOTS n) 0) s
    | none => s
  let lost := (s.hif.started.map (fun x => (x.ring, x.desc))).filter (lostAtReset keep)
  let s := lost.foldl (fun (s : State) x => s.finish x.1 x.2 Status.DOMAIN_RESET none) s
  let s := s.dropRelayed.clearTrees
  let epoch := (s.fld HIF.LH_EPOCH + 1) % 2 ^ 16
  let s : State := { s.setFld HIF.LH_EPOCH epoch with
    causes := [], jobFault := none
    bcn := { s.bcn with schedule := [], pendingTick := none }
    rel := { s.rel with digests := [], ownDigest := false, verdict := none }
    nl := { s.nl with storesWait := [], images := s.nl.images.filter (fun i => decide (keep = some (i.ring, i.desc))) }
    pwr := { s.pwr with entering := none, wakeAsked := [] }
    lh := { s.lh.afterReset with resetAt := s.count } }
  s.logGlow 0x0D 0 moduleUnit epoch

/-- Lighthouse runs again (R425). -/
def State.lighthouseReady (s : State) : State :=
  { s with lh := { s.lh with inReset := false } }.event 4 0 0 0 (s.fld HIF.LH_EPOCH)

/-! ### Firmware (R460, R503) -/

/-- Every tile core in service with its stream stopped. -/
def State.releaseTiles (s : State) : State :=
  s.tileList.foldl (fun (s : State) t => s.onTile t (fun x =>
    { (x.setFld TILE.CORE_PWR 1).setFld TILE.CORE_READY 1 with halted := true, ended := true, haltReported := true })) s

/-- Every HBM channel in service. -/
def State.releaseChannels (s : State) : State :=
  (List.range 256).foldl (fun (s : State) c => s.setFld (HBM.CH_READY (c / 16) (c % 16)) 1) s

/-- An event that the last power state left for the boot to record and, but for a loss of the input, to report (R515, R517, R529);
R485 gives its record neither KIND nor DETAIL. -/
def State.bootEvent (s : State) (c : BitVec 16) : State :=
  let k := s.draw 8
  let d := k.2.draw 64
  let s := d.2.logGlow k.1.toNat c moduleUnit d.1.toNat
  if c = Status.PWR_INPUT then s else s.event 7 0 0 c 0

/-- The firmware starts for the first time after a boot: the settings in force, the units in service. -/
def State.firstBoot (s : State) : State :=
  let def_ := (s.committed (nvmBase + 0x408)).toNat
  let s := ((s.setFld BCN.CAND (bits def_ 0 1)).setFld BCN.PRIO (bits def_ 1 8)).setFld BCN.HOLD_MS (bits def_ 9 8)
  let s := s.releaseTiles.releaseChannels
  let s := ((s.rel.units.filter (fun e => decide (e.2.state = 3))).map (·.1)).foldl (fun (s : State) u => s.eclipse u true) s
  let s := s.pwr.bootEvents.foldl State.bootEvent s
  { s.setFld PWR.NL_BROWNOUT 0 with pwr := { s.pwr with bootEvents := [] } }

/-- The image that has been accepted runs. -/
def State.runImage (s : State) (i : Image) : State :=
  let s := (List.range 4).foldl (fun (s : State) k => s.setFld (SEC.FW_DIGEST k) (bits i.measure.toNat (64 * k) 64)) s
  let s := (s.setFld SEC.SVN i.svn.toNat).setFld SEC.KEY_IDX i.keyIdx.toNat
  let s := { s with nl := { s.nl with version := i.version }, lh := { s.lh with firmware := i.body } }.raiseLife 2
  (s.setFld HIF.READY 1).setFld HIF.BOOT_WAIT 0

/-! ### Operations by their tag (R409) -/

/-- Two rings of one host link: both of this module's port, or pseudo-rings of one gateway. -/
def State.sameLink (s : State) (a b : Nat) : Bool :=
  if a < relayRing ∨ b < relayRing then decide (a < relayRing) && decide (b < relayRing)
  else decide ((Map.get (0, 0) s.hif.gateways a).1 = (Map.get (0, 0) s.hif.gateways b).1)

/-- A live operation of the link that a ring belongs to. -/
def State.opFor (s : State) (ring : Nat) (tag : BitVec 64) : Option Op :=
  s.hif.ops.find? (fun o => decide (o.tag = tag) && s.sameLink o.ring ring)

/-- The module that executes an operation which this link relayed: the one it names, or the authority. -/
def State.awayFor (s : State) (ring : Nat) (tag : BitVec 64) : Option Nat :=
  ((s.hif.relayQueue ++ s.hif.relayed).find? (fun e => decide (tag ≠ 0) && decide (cTag e.2 = tag) && s.sameLink e.1 ring)).map (fun e =>
    if cVia e.2 ∧ cModule e.2 ≠ s.self.toNat then cModule e.2 else s.fld BCN.MASTER)

/-- A started descriptor waits, and may be tried again. -/
def State.holdBack (s : State) (ring : Nat) (d : BitVec 512) : State :=
  { s with hif := { s.hif with
      started := s.hif.started.map (fun (x : Started) => if x.ring = ring ∧ x.desc = d then { x with running := false } else x)
      ops := s.hif.ops.map (fun (o : Op) => if o.tag = cTag d ∧ o.desc = d then { o with state := 0 } else o) } }

/-- A started descriptor goes on to another module; it stays here where the path does not take it. -/
def State.passOn (s : State) (m ring : Nat) (d : BitVec 512) : State :=
  match s.relayTo (moduleCoord s.shape m) (bytesOf d.toNat 64 ++ bytesOf ring 8) with
  | some s' => { s' with hif := { s'.hif with
      started := s'.hif.started.filter (fun x => !(decide (x.ring = ring) && decide (x.desc = d)))
      ops := if cTag d = 0 then s'.hif.ops else s'.hif.ops.filter (fun o => decide (o.tag ≠ cTag d))
      relayed := s'.hif.relayed ++ [(ring, d)] } }
  | none => s.holdBack ring d

end Sys2Proof.Machine
end

