-- ==== Sys2Proof/Machine/TagOps.lean ====
section
/-! DEFINITION. What the host commands that name an operation or a job do (R409 to R414, R441, R442, R450, R388, R521). -/
namespace Sys2Proof.Machine

/-- The short command answers. -/
def State.fin (s : State) (ring : Nat) (d : BitVec 512) (c : BitVec 16) : State := s.finish ring d c none

def isCopy (d : BitVec 512) : Bool := decide (cOpc d = 0x10) || decide (cOpc d = 0x11)

/-- The target of a command that names one: an operation of this link here, one relayed elsewhere (where the command goes
too), or none. -/
def State.onTarget (s : State) (ring : Nat) (d : BitVec 512) (body : Op → State) : State :=
  let tag := BitVec.ofNat 64 (cArg d 192 64)
  match s.opFor ring tag, s.awayFor ring tag with
  | some o, _ => body o
  | none, some m => s.passOn m ring d
  | none, none => s.fin ring d Status.OP_TAG_UNKNOWN

/-- The job of an operation that its authority holds here. -/
def State.jobTagged (s : State) (tag : BitVec 64) : Option Job := s.lh.jobs.find? (fun j => j.tag = tag)

/-- The module's job, by the op tag of its JOB_PLACE. -/
def State.jobNamed (s : State) (tag : BitVec 64) : Option Job :=
  match s.job with
  | some j => if j.named = tag then some j else none
  | none => none

/-- The job has a stop on this module that nothing else is doing. -/
def State.canStop (s : State) (j : Job) : Bool :=
  decide (s.lh.cur = some j.id) && decide (j.state = .running) && s.lh.suspension.isNone
    && !s.lh.contexts.any (fun c => decide (c.job = j.id))

/-- The job stands still under the host's hold: its context saved, or with no step open. -/
def State.standsStill (s : State) (j : Job) : Bool :=
  s.lh.contexts.any (fun c => decide (c.job = j.id)) || (j.host && s.lh.step.isNone && s.lh.suspension.isNone)

/-! ### SUSPEND (R411) -/

/-- The host's hold on a job. -/
def State.suspendJob (s : State) (ring : Nat) (d : BitVec 512) (o : Op) (j : Job) : State :=
  if o.state = 3 then ((s.setJob { j with host := true }).opState j.tag 4).fin ring d 0
  else if s.canStop j then s.startSuspend j 0 ring (cCid d) d (decide (cArg d 256 1 = 1))
  else
    let s := if decide (j.state = .running) && decide (s.lh.cur ≠ some j.id) then
        s.tellMembers j.box (bytesOf (2 + j.id.toNat * 2 ^ 8) 9) else s
    (((s.setJob { j with host := true }).opState j.tag 2).interim j.tag Status.SUSP_HOST none).fin ring d 0

/-- The host's hold on a copy, after the 4 KiB it is moving. -/
def State.suspendCopy (s : State) (ring : Nat) (d : BitVec 512) (o : Op) : State :=
  let r := if o.state = 1 then s.copyPart o.tag else (s, 0)
  if r.2 ≠ 0 then (r.1.copyEnd o.tag r.2).fin ring d Status.OP_TAG_UNKNOWN
  else ((r.1.opState o.tag 2).interim o.tag Status.SUSP_HOST none).fin ring d 0

/-- SUSPEND. -/
def State.suspendOp (s : State) (ring : Nat) (d : BitVec 512) : State :=
  s.onTarget ring d (fun o =>
    if !isCopy o.desc && decide (cOpc o.desc ≠ 0x20) then s.fin ring d Status.OP_FIXED
    else if o.state = 2 ∨ o.state = 4 then s.fin ring d Status.OP_STATE
    else if isCopy o.desc then s.suspendCopy ring d o
    else match s.jobTagged o.tag with
      | some j => s.suspendJob ring d o j
      | none => ((s.opState o.tag 2).interim o.tag Status.SUSP_HOST none).fin ring d 0)

/-! ### RESUME (R412, R446) -/

/-- The host's hold leaves a job. -/
def State.releaseJob (s : State) (j : Job) : State :=
  let k := { j with host := false }
  let s := s.setJob k
  match j.state with
  | .running => if s.standsStill j || decide (s.lh.cur ≠ some j.id) then s.resumeJob k
      else (s.opState j.tag 1).interim j.tag 0 none
  | .queued => s.opState j.tag 0
  | _ => (s.opState j.tag 1).interim j.tag 0 none

/-- RESUME. -/
def State.resumeOp (s : State) (ring : Nat) (d : BitVec 512) : State :=
  s.onTarget ring d (fun o =>
    if o.state ≠ 2 ∧ o.state ≠ 4 then s.fin ring d Status.OP_STATE
    else if isCopy o.desc then
      let run := s.hif.started.any (fun x => decide (x.ring = o.ring) && decide (x.desc = o.desc) && x.running)
      ((s.opState o.tag (if run then 1 else 0)).interim o.tag 0 none).fin ring d 0
    else match s.jobTagged o.tag with
      | some j =>
        (if o.state = 4 then (s.setJob { j with host := false }).opState j.tag 3 else s.releaseJob j).fin ring d 0
      | none => (s.opState o.tag 0).fin ring d 0)

/-! ### CANCEL (R413) -/

/-- A running job ends at its next superstep boundary, any other at once. -/
def State.cancelPlaced (s : State) (ring : Nat) (d : BitVec 512) (j : Job) : State :=
  if s.canStop j && !j.host then s.startSuspend j 4 ring (cCid d) d false
  else if s.lh.cur = some j.id then
    match s.lh.suspension with
    | some u => { s with lh := { s.lh with suspension := some { u with cancels := u.cancels ++ [(ring, d)] } } }
    | none => s.cancelJob j [(ring, d)]
  else s.cancelJob j [(ring, d)]

/-- A checkpoint command asks no longer. -/
def State.dropAsked (s : State) (d : BitVec 512) : State :=
  let rest (l : List (Nat × BitVec 512)) := l.filter (fun a => decide (a.2 ≠ d))
  { s with lh := { s.lh with
      ckptAsked := rest s.lh.ckptAsked
      ckpt := s.lh.ckpt.map (fun c => { c with asked := rest c.asked })
      ckptWait := s.lh.ckptWait.map (fun c => { c with asked := rest c.asked }) } }

/-- CANCEL. -/
def State.cancelOp (s : State) (ring : Nat) (d : BitVec 512) : State :=
  s.onTarget ring d (fun o =>
    if cOpc o.desc = 0x50 then s.fin ring d Status.OP_FIXED
    else if isCopy o.desc then
      let r := if o.state = 1 then s.copyPart o.tag else (s, 0)
      if r.2 ≠ 0 then (r.1.copyEnd o.tag r.2).fin ring d Status.OP_TAG_UNKNOWN
      else (r.1.copyEnd o.tag Status.OP_CANCELLED).fin ring d 0
    else if cOpc o.desc = 0x20 then
      match s.jobTagged o.tag with
      | some j => s.cancelPlaced ring d j
      | none => (s.finish o.ring o.desc Status.OP_CANCELLED none).fin ring d 0
    else ((s.dropAsked o.desc).finish o.ring o.desc Status.OP_CANCELLED none).fin ring d 0)

/-! ### OP_QUERY (R414) -/

/-- STATE, LAST and POSITION of an operation; of one that waits in no queue nothing states a position. -/
def State.queryOp (s : State) (ring : Nat) (d : BitVec 512) : State :=
  s.onTarget ring d (fun o =>
    let r := s.draw 32
    let pos := if o.state ≠ 0 then 0
      else match (s.queue.zipIdx).find? (fun e => decide (e.1.tag = o.tag)) with
        | some e => e.2
        | none => r.1.toNat
    r.2.finish ring d 0 (some (BitVec.ofNat 64 (o.state + o.last.toNat * 2 ^ 16 + pos % 2 ^ 32 * 2 ^ 32))))

/-! ### Batches (R441) -/

/-- Bytes into HBM with no Halo, block by block. -/
def State.writeSpan (s : State) (a : Nat) (bs : List Byte) : State :=
  let n := (a % 4096 + bs.length + 4095) / 4096
  (List.range n).foldl (fun (s : State) i =>
    let lo := if i = 0 then 0 else 4096 * i - a % 4096
    let hi := min bs.length (4096 * (i + 1) - a % 4096)
    s.writePart (a + lo) ((bs.drop lo).take (hi - lo))) s

/-- BATCH_POST: a batch of the module's job waits for its slot, up to 256 of them; a further one is held back. -/
def State.postBatch (s : State) (ring : Nat) (d : BitVec 512) : State :=
  match s.jobNamed (BitVec.ofNat 64 (cArg d 192 64)) with
  | none => s.fin ring d Status.OP_TAG_UNKNOWN
  | some j =>
    let len := cArg d 384 40
    let out := cArg d 448 64
    if len = 0 ∨ campFld j.camp 2816 64 < len ∨ (j.kind ≠ 2 ∧ out ≠ 0) then s.fin ring d Status.HIF_DESC
    else if 256 ≤ (s.lh.batches.filter (fun b => decide (b.job = j.id))).length then s.holdBack ring d
    else { s with lh := { s.lh with batches := s.lh.batches ++ [{
      ring := ring, desc := d, job := j.id, index := BitVec.ofNat 64 (cArg d 320 64), addr := BitVec.ofNat 64 (cArg d 256 64)
      len := len, out := BitVec.ofNat 64 out }] } }

/-- Tiles that an open left waiting start once nothing holds them and their streams have halted (R440, R441). -/
def State.startHeld (s : State) (ts : List Nat) : State :=
  match s.job, s.lh.step with
  | some j, some _ =>
    if s.stagedAll j && !s.lh.sweepDue then
      ts.foldl (fun (s : State) t =>
        let x := s.tile t
        if s.lh.startAtHalt.contains t && x.halted && x.ended && decide (x.fld TILE.CORE_READY = 1) then
          { s with lh := { s.lh with startAtHalt := s.lh.startAtHalt.erase t } }.startTile j s.use t
        else s) s
    else s
  | _, _ => s

/-- The slot of a batch is in range: CURSOR to CURSOR + STAGE_N - 1. -/
def State.slotInRange (s : State) (j : Job) (index : BitVec 64) : Bool :=
  decide ((index - s.lh.lit.cursor).toNat < j.stageN)

/-- A batch is copied to its slot, and its BATCH_POST completes. A staging area that breaks R26 or R294 refuses it. -/
def State.stageBatch (s : State) (j : Job) (b : Batch) : State :=
  let s := { s with lh := { s.lh with batches := s.lh.batches.erase b } }
  let slot := b.index.toNat % j.stageN
  let a := campFld j.camp 2496 48 + slot * campFld j.camp 2816 64
  match s.region a b.len with
  | .hbm _ =>
    if s.touchesRegion a b.len then s.fin b.ring b.desc Status.GEN_ADDR
    else
      let s := s.writeSpan a (s.hostRead b.addr.toNat b.len)
      let s := { s with lh := { s.lh with staged := Map.set none s.lh.staged slot (some b) } }
      (s.fin b.ring b.desc 0).startHeld s.tileList
  | .unmapped => s.fin b.ring b.desc Status.ADDR_UNMAPPED
  | _ => s.fin b.ring b.desc Status.ADDR_DENIED

/-! ### Jobs (R428, R434, R435, R388, R442, R450) -/

/-- JOB_PLACE: decided by the authority, here or on the master. -/
def State.placeJob (s : State) (ring : Nat) (d : BitVec 512) : State :=
  if !s.authority then s.passOn (s.fld BCN.MASTER) ring d
  else
    let c := s.placeCheck ring d
    if c ≠ 0 then s.fin ring d c
    else
      let id := s.lh.lastId + 1
      let j : Job := {
        id := id, voteK := s.policy NVM.K, tag := cTag d, named := cTag d, ring := ring, cid := cCid d, camp := s.hostRead (pHaddr d) (pLen d)
        ctx := if pCtx d = 0 then none else some (BitVec.ofNat 64 (pCtx d), pCtxLen d), received := s.count, state := .queued }
      { s with lh := { s.lh with jobs := s.lh.jobs ++ [j], lastId := id } }.admitJob j

/-- RESHARD (its ARG and the layout of what it names are the model's, log 36): the new regions take unused entries, and the
re-shard is pending. -/
def State.stageReshard (s : State) (ring : Nat) (d : BitVec 512) : State :=
  match s.jobNamed (BitVec.ofNat 64 (cArg d 192 64)) with
  | none => s.fin ring d Status.OP_TAG_UNKNOWN
  | some j =>
    let at_ := cArg d 256 64
    let nr := cArg d 320 16
    let nc := cArg d 336 16
    let rs := (List.range nr).map (fun i => ofBytes (s.hostRead (at_ + 32 * i) 32))
    let cs := (List.range nc).map (fun i => BitVec.ofNat 512 (ofBytes (s.hostRead (at_ + 32 * nr + 64 * i) 64)))
    let free := (List.range 1024).filter (fun n => decide (s.fld (HBM.SLOTS n) = 0))
    if free.length < nr ∨ 1024 < nc ∨ !regionsOk rs ∨ !s.clearOfRegions rs then s.fin ring d Status.STEP_CONFIG
    else if !collsOk cs (campFld j.camp 128 28) j.repro then s.fin ring d Status.COLL_DESC
    else
      let ns := free.take nr
      let s := (ns.zip rs).foldl (fun (s : State) e =>
        (List.range 4).foldl (fun (s : State) k => s.wr (HBM.vreg e.1 + 8 * k) (BitVec.ofNat 64 (bits e.2 (64 * k) 64))) s) s
      { s with lh := { s.lh with reshard := some ⟨BitVec.ofNat 8 (cArg d 352 8), ns, cs⟩ } }.fin ring d 0

/-- CHECKPOINT: at the next commit. -/
def State.askCkpt (s : State) (ring : Nat) (d : BitVec 512) : State :=
  match s.jobNamed (BitVec.ofNat 64 (cArg d 192 64)) with
  | none => s.fin ring d Status.OP_TAG_UNKNOWN
  | some _ => { s with lh := { s.lh with ckptAsked := s.lh.ckptAsked ++ [(ring, d)] } }

/-- CTX_SAVE: the job stops, or stands still already; a job that neither runs nor stands still has no context to save (its
status is the model's, log 39). -/
def State.saveContext (s : State) (ring : Nat) (d : BitVec 512) : State :=
  match s.jobNamed (BitVec.ofNat 64 (cArg d 192 64)) with
  | none => s.fin ring d Status.OP_TAG_UNKNOWN
  | some j =>
    let portable := decide (cArg d 384 1 = 1)
    if cArg d 256 64 % 4096 ≠ 0 then s.fin ring d Status.HIF_DESC
    else if s.canStop j && !j.host then s.startSuspend j 2 ring (cCid d) d portable
    else match s.lh.contexts.find? (fun c => decide (c.job = j.id)) with
      | some c => s.writeContext j { job := j.id, stop := c.stop, why := 2, ring := ring, cid := cCid d, desc := d, portable := portable } c
      | none => s.fin ring d Status.OP_STATE

/-! ### PWR_REQ (R521) -/

/-- A job on the module is running, recovering or being placed. -/
def State.jobActive (s : State) : Bool :=
  match s.job with
  | some j => !(decide (j.state = .running) && s.standsStill j)
  | none => false

/-- The live tile state of suspended jobs does not fit in HBM: 3 GiB stay for it (DESIGN CHOICE, log 40). -/
def State.noRoom (s : State) : Bool :=
  !s.lh.contexts.isEmpty && decide (717 < s.memOn s.self.toNat)

/-- PWR_REQ. -/
def State.askPower (s : State) (ring : Nat) (d : BitVec 512) : State :=
  let target := cArg d 192 2
  let now := s.pwr.state
  if target = 0 then
    if now = .s2 then { s with pwr := { s.pwr with wake := true, wakeAsked := s.pwr.wakeAsked ++ [(ring, d)] } }
    else s.fin ring d 0
  else if target = 2 ∧ now = .s2 then s.fin ring d 0
  else if s.jobActive then s.fin ring d Status.PWR_STATE
  else if target = 3 ∧ s.lh.jobs.any (fun j => j.box.contains s.self.toNat) then s.fin ring d Status.PWR_STATE
  else if target = 2 ∧ s.noRoom then s.fin ring d Status.PWR_NO_SAVE
  else if s.pwr.entering.isSome then s.holdBack ring d
  else { s.setFld PWR.NEXT target with pwr := { s.pwr with entering := some (target, some (ring, d)) } }

end Sys2Proof.Machine
end

