-- ==== Sys2Proof/Machine/HostCmd.lean ====
section
/-! DEFINITION. The rows of the host's commands (R406 to R414), register writes, firmware loads and what completes them
(chapters 14 to 18). -/
namespace Sys2Proof.Machine

/-! ### Registers (R14, R16, R393, R408) -/

/-- REGISTER_WRITE: 64 bits, or in the HIF_ block 32 bits, aligned; other sizes are accesses to an unoccupied offset. In the
Lighthouse SRAM the bytes are written, by Lighthouse (R26). -/
def execRegisterWrite (offset size : Nat) (value : BitVec 64) (s : State) : Result :=
  if !s.awake then .next s
  else if sramBase ≤ offset ∧ offset + size ≤ sramBase + 0x80_0000 ∧ size ≤ 8 then
    .next (s.sramWrite (offset - sramBase) (bytesOf value.toNat size))
  else if size = 8 ∧ offset % 8 = 0 then .next (raised (s.writeReg offset value.toNat (2 ^ 64 - 1)))
  else if size = 4 ∧ offset % 4 = 0 ∧ offset < hbmBase 0 then
    if offset % 8 = 0 then .next (raised (s.writeReg offset (value.toNat % 2 ^ 32) (2 ^ 32 - 1)))
    else .next (raised (s.writeReg (offset - 4) (value.toNat % 2 ^ 32 * 2 ^ 32) (2 ^ 64 - 2 ^ 32)))
  else .next s.unmapped

/-- NOP. -/
def execNopCmd (ring : Nat) (desc : BitVec 512) (s : State) : Result :=
  hostCmd 0x00 ring desc (fun s => s.fin ring desc 0) s

/-- The identity page: HIF_ID, HIF_SERIAL, BF_SELF, the relay table, the firmware version, the identity digest, in this order
(its layout is the model's, log 37). -/
def State.identityPage (s : State) : List Byte :=
  let w (off : Nat) : List Byte := bytesOf (s.readMod off).toNat 8
  padTo (w 0 ++ w 8 ++ w (bfBase 0 + 0x8_0000) ++ (List.range 64).flatMap (fun k => w (0x2000 + 8 * k))
    ++ bytesOf s.nl.version.toNat 8 ++ bytesOf (shakeDigest Config.identityKey).toNat 32) 4096

/-- IDENTIFY. -/
def execIdentify (ring : Nat) (desc : BitVec 512) (s : State) : Result :=
  hostCmd 0x01 ring desc (fun s =>
    if cArg desc 192 64 % 4096 ≠ 0 then s.fin ring desc Status.HIF_DESC
    else (s.hostWrite (cArg desc 192 64) s.identityPage).fin ring desc 0) s

/-- The offset that the ADDR of REG_READ or REG_WRITE names, or the refusal. -/
def regAddr (d : BitVec 512) : Nat × BitVec 16 :=
  let a := cArg d 192 48
  let off := a - 0x2000_0000_0000
  if a % 8 ≠ 0 then (0, Status.HIF_DESC)
  else if a < 0x2000_0000_0000 ∨ off < hbmBase 0 ∨ 0x2C0_0000 ≤ off then (0, Status.ADDR_DENIED)
  else (off, 0)

/-- REG_READ. -/
def execRegRead (ring : Nat) (desc : BitVec 512) (s : State) : Result :=
  hostCmd 0x02 ring desc (fun s =>
    let a := regAddr desc
    if a.2 ≠ 0 then s.fin ring desc a.2
    else
      let s := if (modFields (canonical a.1)).isNone then s.unmapped else s
      s.finish ring desc 0 (some (s.readMod a.1))) s

/-- REG_WRITE. -/
def execRegWrite (ring : Nat) (desc : BitVec 512) (s : State) : Result :=
  hostCmd 0x03 ring desc (fun s =>
    let a := regAddr desc
    if a.2 ≠ 0 then s.fin ring desc a.2
    else
      let r := s.writeReg a.1 (cArg desc 256 64) (cArg desc 320 64)
      r.1.finish ring desc r.2 (some (r.1.readMod a.1))) s

/-- STEP_RECORDS: the newest records, oldest first (the order is the model's, log 37). -/
def execStepRecords (ring : Nat) (desc : BitVec 512) (s : State) : Result :=
  hostCmd 0x04 ring desc (fun s =>
    let n := if cArg desc 256 8 = 0 then 256 else cArg desc 256 8
    let rs := s.lh.records.drop (s.lh.records.length - n)
    if cArg desc 192 64 % 4096 ≠ 0 then s.fin ring desc Status.HIF_DESC
    else (s.hostWrite (cArg desc 192 64) (rs.flatMap (fun r => bytesOf r.toNat 64))).fin ring desc 0) s

/-! ### Copies (R407) -/

/-- A copy that R27, R99, R290, R294 or R300 refuses before it moves anything ends at once. -/
def State.startCopy (s : State) (desc : BitVec 512) : State :=
  let c := s.copyCheck desc
  if c ≠ 0 then s.copyEnd (cTag desc) c else s

/-- COPY_IN: it runs until COPY_COMPLETE. -/
def execCopyIn (ring : Nat) (desc : BitVec 512) (s : State) : Result :=
  hostCmd 0x10 ring desc (fun s => s.startCopy desc) s

/-- COPY_OUT. -/
def execCopyOut (ring : Nat) (desc : BitVec 512) (s : State) : Result :=
  hostCmd 0x11 ring desc (fun s => s.startCopy desc) s

/-- COPY_COMPLETE: the units that are left have moved, or one was refused (R549). -/
def execCopyComplete (tag : BitVec 64) (s : State) : Result :=
  match s.op tag with
  | none => .next s
  | some o =>
    if !s.awake || !isCopy o.desc || decide (o.state ≠ 1) then .next s
    else
      let r := s.copyRun tag (cLen o.desc / 4096 + 2)
      let finished : Bool := match r.1.op tag with
        | some x => decide (cLen x.desc ≤ x.moved)
        | none => false
      if r.2 ≠ 0 ∨ finished = true then .next (r.1.copyEnd tag r.2) else .next r.1

/-! ### Batches (R441) -/

/-- BATCH_POST. -/
def execBatchPost (ring : Nat) (desc : BitVec 512) (s : State) : Result :=
  hostCmd 0x12 ring desc (fun s => s.postBatch ring desc) s

/-- BATCH_STAGED: of the batches of that INDEX which wait, the first. -/
def execBatchStaged (index : BitVec 64) (s : State) : Result :=
  match s.job with
  | none => .next s
  | some j =>
    match s.lh.batches.find? (fun b => decide (b.index = index) && decide (b.job = j.id)) with
    | none => .next s
    | some b => if s.slotInRange j index then .next (s.stageBatch j b) else .next s

/-! ### Jobs and operations (R409 to R414, R434, R442, R450) -/

/-- JOB_PLACE. -/
def execJobPlace (ring : Nat) (desc : BitVec 512) (s : State) : Result :=
  hostCmd 0x20 ring desc (fun s => s.placeJob ring desc) s

/-- SUSPEND. -/
def execSuspend (ring : Nat) (desc : BitVec 512) (s : State) : Result :=
  hostCmd 0x21 ring desc (fun s => s.suspendOp ring desc) s

/-- RESUME. -/
def execResume (ring : Nat) (desc : BitVec 512) (s : State) : Result :=
  hostCmd 0x22 ring desc (fun s => s.resumeOp ring desc) s

/-- CANCEL. -/
def execCancel (ring : Nat) (desc : BitVec 512) (s : State) : Result :=
  hostCmd 0x23 ring desc (fun s => s.cancelOp ring desc) s

/-- OP_QUERY. -/
def execOpQuery (ring : Nat) (desc : BitVec 512) (s : State) : Result :=
  hostCmd 0x24 ring desc (fun s => s.queryOp ring desc) s

/-- RESHARD. -/
def execReshard (ring : Nat) (desc : BitVec 512) (s : State) : Result :=
  hostCmd 0x25 ring desc (fun s => s.stageReshard ring desc) s

/-- CHECKPOINT. -/
def execCheckpoint (ring : Nat) (desc : BitVec 512) (s : State) : Result :=
  hostCmd 0x26 ring desc (fun s => s.askCkpt ring desc) s

/-- CTX_SAVE. -/
def execCtxSave (ring : Nat) (desc : BitVec 512) (s : State) : Result :=
  hostCmd 0x27 ring desc (fun s => s.saveContext ring desc) s

/-- PWR_REQ. -/
def execPwrReq (ring : Nat) (desc : BitVec 512) (s : State) : Result :=
  hostCmd 0x40 ring desc (fun s => s.askPower ring desc) s

/-! ### Firmware, attestation, settings, the log (R487, R494, R501 to R507) -/

/-- FW_LOAD: an image that passes R502 waits for its acceptance; with no readable security state there is none (R492). -/
def execFwLoad (ring : Nat) (desc : BitVec 512) (s : State) : Result :=
  hostCmd 0x50 ring desc (fun s =>
    let haddr := cArg desc 192 64
    if s.secLost then s.fin ring desc Status.NVM_UE
    else
      let c := s.checkImage haddr (cArg desc 256 32)
      if c ≠ 0 then s.fin ring desc c
      else { s with nl := { s.nl with images := s.nl.images ++ [s.takeImage ring desc haddr] } }) s

/-- The security state that an image's acceptance commits, if it changes (R503). -/
def State.imageSec (s : State) (i : Image) : Option SecState :=
  let x := s.nl.sec
  if x.floor.ult i.minSvn ∨ i.revoke &&& ~~~x.revoked ≠ 0 then
    some { x with floor := if x.floor.ult i.minSvn then i.minSvn else x.floor, revoked := x.revoked ||| i.revoke }
  else none

/-- FW_IMAGE_ACCEPT: the oldest image that passed is accepted (R503, R504); its commit waits for a running NVM_STORE (R512). -/
def execFwImageAccept (s : State) : Result :=
  match s.nl.images with
  | [] => .next s
  | i :: rest =>
    if s.pwr.state ≠ .p0 ∧ s.pwr.state ≠ .s2 then .next s
    else if s.nl.storing.isSome ∧ (s.imageSec i).isSome then
      if i.busy then .next s
      else .next ({ s with nl := { s.nl with images := { i with busy := true } :: rest } }.interimFor i.ring i.desc Status.NVM_BUSY)
    else
      let s := match s.imageSec i with
        | some x => s.commitSec x
        | none => s
      let s := { s with nl := { s.nl with images := rest } }
      let s := if s.fld HIF.READY = 1 then (s.lighthouseReset (some (i.ring, i.desc))).lighthouseReady else s.firstBoot
      .next ((s.runImage i).finish i.ring i.desc 0 (some (i.svn.setWidth 64)))

/-- ATTEST (R507, R508); with a page of the factory record or of the key store unreadable no report is written (R492). -/
def execAttest (ring : Nat) (desc : BitVec 512) (s : State) : Result :=
  hostCmd 0x51 ring desc (fun s =>
    if cArg desc 192 64 % 4096 ≠ 0 then s.fin ring desc Status.HIF_DESC
    else if (List.range 12).any s.pageBad then s.fin ring desc Status.NVM_UE
    else (s.hostWrite (cArg desc 192 64) (s.attestReport (cArg desc 256 256))).finish ring desc 0 (some 8192)) s

/-- NVM_STORE (R494). -/
def execNvmStore (ring : Nat) (desc : BitVec 512) (s : State) : Result :=
  hostCmd 0x52 ring desc (fun s =>
    if cArg desc 192 1 = 1 then s.unstage.fin ring desc 0 else s.startStore ring desc) s

/-- NVM_STORE_DONE (R494). -/
def execNvmStoreDone (s : State) : Result := if s.supplied then .next s.endStore else .next s

/-- An entry of the unit table (R486); a tile core in service that no logical tile maps to is a spare. -/
def State.unitBytes (s : State) (u : Nat) : List Byte :=
  let e := s.unit u
  let spare := decide (u < 3072) && decide (e.state = 0) && (s.colAt (u / 64) (u % 64)).isNone
  bytesOf ([(u, 0, 32), (if spare then 1 else e.state, 32, 2), (s.recent u, 36, 4), (e.faults.getD 0 0, 40, 40),
    (e.faults.getD 1 0, 80, 40), (e.faults.getD 2 0, 120, 40), (e.testDue, 160, 40), (e.testLast, 200, 40),
    (e.result, 240, 4)].foldl (fun w f => putBits w f.2.1 f.2.2 f.1) 0) 32

/-- AFTERGLOW_READ (R487): the unit table, or records. -/
def State.readGlow (s : State) (ring : Nat) (d : BitVec 512) : State :=
  let haddr := cArg d 192 64
  let n := cArg d 320 16
  if haddr % 4096 ≠ 0 then s.fin ring d Status.HIF_DESC
  else if cArg d 336 1 = 1 then
    (s.hostWrite haddr ((List.range 6413).flatMap (fun i => s.unitBytes (unitAt i)))).finish ring d 0 (some 6413)
  else if n = 0 ∨ 4096 < n then s.fin ring d Status.HIF_DESC
  else
    let rs := ((s.rel.log ++ s.rel.fresh).filter (fun r => decide (cArg d 256 64 ≤ bits r.toNat 0 64))).take n
    (s.hostWrite haddr (rs.flatMap (fun r => bytesOf r.toNat 64))).finish ring d 0
      (rs.getLast?.map (fun r => BitVec.ofNat 64 (bits r.toNat 0 64 + 1)))

/-- AFTERGLOW_READ. -/
def execAfterglowRead (ring : Nat) (desc : BitVec 512) (s : State) : Result :=
  hostCmd 0x60 ring desc (fun s => s.readGlow ring desc) s

end Sys2Proof.Machine
end

