-- ==== Sys2Proof/Machine/Jobs.lean ====
section
/-! DEFINITION. The rows of jobs and Lighthouse (chapter 15). -/
namespace Sys2Proof.Machine

/-- Lighthouse runs: the module is awake, and Lighthouse is in no reset (R425). -/
def State.lhRuns (s : State) : Bool := s.awake && !s.lh.inReset

/-- JOB_DEQUEUE: at the authority (R435, R436). -/
def execJobDequeue (s : State) : Result := if s.lhRuns && s.authority then .next s.dequeue else .next s

/-- MEMBER_READY (R439). -/
def execMemberReady (module : Nat) (s : State) : Result := if s.lhRuns then .next (s.memberReady module) else .next s

/-- PLACEMENT_TIMEOUT: the members of the job being placed that have not reported within 10 s are lost (R439, R445). -/
def execPlacementTimeout (s : State) : Result :=
  match s.lh.jobs.find? (fun j => decide (j.state = .placing)) with
  | none => .next s
  | some j =>
    if s.lhRuns && s.authority then
      .next ((j.box.filter (fun m => !j.ready.contains m)).foldl (fun (s : State) m => s.loseMember m) s)
    else .next s

/-- TILE_START_AT_HALT (R440, R441). -/
def execTileStartAtHalt (t : Nat) (s : State) : Result :=
  if s.tileCount ≤ t then .fault .noSuchUnit
  else if s.lhRuns then .next (s.startHeld [t]) else .next s

/-- CHECKPOINT_START (R261, R442). -/
def execCheckpointStart (s : State) : Result := .next s.ckptStarts

/-- CHECKPOINT_DONE (R442, R446, R478). -/
def execCheckpointDone (s : State) : Result :=
  match s.job, s.lh.ckpt with
  | some j, some c => .next (s.endCkpt j c)
  | _, _ => .next s

/-- MEMBER_LOST (R445). -/
def execMemberLost (module : Nat) (s : State) : Result :=
  if s.lh.jobs.any (fun j => j.box.contains module) then .next (s.loseMember module) else .next s

/-- RECOVERY_TIMEOUT (R445): of the first job that recovers. -/
def execRecoveryTimeout (s : State) : Result :=
  match s.lh.jobs.find? (fun j => decide (j.state = .recovering)) with
  | none => .next s
  | some j => if s.lhRuns && s.authority then .next (s.requeue j) else .next s

/-- TILES_HELD (R447). -/
def execTilesHeld (module : Nat) (s : State) : Result := if s.lhRuns then .next (s.tilesHeld module) else .next s

/-- LIGHTHOUSE_RESET (R36, R425). -/
def execLighthouseReset (s : State) : Result := if s.awake then .next (s.lighthouseReset none) else .next s

/-- LIGHTHOUSE_READY: 5 ms later (R425, R405). -/
def execLighthouseReady (s : State) : Result := if s.awake && s.lh.inReset then .next s.lighthouseReady else .next s

/-- GATEWAY_FAILURE (R426). -/
def execGatewayFailure (g : Nat) (s : State) : Result :=
  if 2 ≤ g then .fault .noSuchUnit else .next (s.failGateway g)

/-- AUTHORITY_CHANGE (R428): the module follows the new master; one that is not the authority keeps the jobs that it is a
member of or submitted; the new authority counts on from the highest identifier that it has seen. -/
def execAuthorityChange (master : Nat) (s : State) : Result :=
  if 2 ^ 14 ≤ master then .fault .noSuchUnit
  else
    let s := s.setFld BCN.MASTER master
    let mine (j : Job) : Bool := j.box.contains s.self.toNat || (decide (j.tag ≠ 0) && s.hif.ops.any (fun o => decide (o.tag = j.tag)))
    let jobs := if master = s.self.toNat then s.lh.jobs else s.lh.jobs.filter mine
    let top := jobs.foldl (fun (m : BitVec 64) j => if m.ult j.id then j.id else m) s.lh.lastId
    .next { s with lh := { s.lh with jobs := jobs, lastId := top } }

/-- JOB_SWITCH_DONE: the job has stopped on this module, and its save has ended (R447, R449). -/
def execJobSwitchDone (s : State) : Result :=
  match s.lh.suspension, s.job with
  | some u, some j => if u.job = j.id ∧ s.stopped u then .next (s.switchDone u j) else .next s
  | _, _ => .next s

/-- MEMBER_RETURN: within REC_WAIT_MS (R445); a member that is not the authority takes note. -/
def execMemberReturn (module : Nat) (s : State) : Result :=
  match s.lh.jobs.find? (fun j => decide (j.state = .recovering) && j.lost.contains module) with
  | none => .next s
  | some j => .next (s.returnMember j module)

end Sys2Proof.Machine
end

