-- ==== Sys2Proof/Machine/RelOps.lean ====
section
/-! DEFINITION. In-field tests (R473 to R480), replica votes on sentinels (R462 to R467), the rebuild of a Mirror module
(R471). -/
namespace Sys2Proof.Machine

/-! ### In-field tests -/

/-- The test that runs on a unit: whether it is the retest of R476. -/
def State.underTest (s : State) (u : Nat) : Option Bool := Map.get none s.rel.testing u
def State.setTest (s : State) (u : Nat) (r : Option Bool) : State :=
  { s with rel := { s.rel with testing := Map.set none s.rel.testing u r } }

/-- The logical tile at physical index `u` that the module's job holds. -/
def State.heldTile (s : State) (u : Nat) : Option Nat := if s.lh.cur.isSome then s.tileAt (u / 64) (u % 64) else none

/-- A test of physical tile `u` is due, and none runs (R473). -/
def State.isDue (s : State) (u : Nat) : Bool :=
  decide ((s.unit u).state = 0) && (s.underTest u).isNone && decide ((s.unit u).testDue ≤ s.utc)

/-- The module's job is within its no-test window (R479). -/
def State.noTest (s : State) : Bool := decide (s.utc < s.lh.noTestUntil)

/-- A test in place starts. A tile that no job holds loses its contents to the march of R475. -/
def State.startTest (s : State) (u : Nat) : State :=
  let s := if s.lh.cur.isSome then s else match s.tileAt (u / 64) (u % 64) with
    | some t => s.loseContents t
    | none => s
  let s := s.setTest u (some false)
  { s with rel := { s.rel with deferred := Map.set 0 s.rel.deferred u 0, forced := s.rel.forced.erase u } }

/-- When a deferred test fell due; 0 for one that is not deferred. -/
def State.deferredFrom (s : State) (u : Nat) : Nat := Map.get 0 s.rel.deferred u

/-- A test is deferred, and that is recorded once (R477, R485). -/
def State.deferTest (s : State) (u : Nat) : State :=
  if s.deferredFrom u ≠ 0 then s
  else
    let due := (s.unit u).testDue
    let s := { s with rel := { s.rel with deferred := Map.set 0 s.rel.deferred u (max 1 due) } }
    s.logGlow 6 Status.TEST_DEFERRED u ((s.utc - due) / 86400)

/-- A due test of a tile that a job holds: the tile's logical position moves onto a spare and the physical tile is tested, or
the test is deferred (R474, R477, R479). -/
def State.moveForTest (s : State) (u : Nat) : State :=
  let r := u / 64
  let p := u % 64
  match s.colAt r p, (if s.noTest then none else s.chooseSpare r p) with
  | some c, some q => (s.applyMove ⟨r, c, q⟩).startTest u
  | _, _ => s.deferTest u

/-- A test falls due (R473, R477, R479): in place for a spare or an idle tile; for a tile that a job holds the move waits for
a superstep boundary. -/
def State.testFallsDue (s : State) (u : Nat) : State :=
  if (s.heldTile u).isNone then s.startTest u
  else if s.noTest || (s.chooseSpare (u / 64) (u % 64)).isNone then s.deferTest u
  else s

/-- A deferred test that has reached DEFER_D days (R478). -/
def State.overdue (s : State) (u : Nat) : Bool :=
  decide (s.deferredFrom u ≠ 0) && decide (s.deferredFrom u + 86400 * s.policy NVM.DEFER_D ≤ s.utc)

/-- The module was excluded (R459, R467): once no tile is left to pass, it is fit again. -/
def State.proved (s : State) (u : Nat) : State :=
  let rest := s.rel.proving.erase u
  let s := { s with rel := { s.rel with proving := rest } }
  if s.rel.excluded && rest.isEmpty then
    let m := s.unit moduleUnit
    let s := if m.state = 2 then s.setUnit moduleUnit { m with state := 0 } else s
    { s with rel := { s.rel with excluded := false }, lh := { s.lh with unfit := s.lh.unfit.erase s.self.toNat } }
  else s

/-- A job that stands still for a forced test runs on (R478); how long it was held is a free value. -/
def State.endForced (s : State) (u : Nat) : State :=
  match s.job with
  | some j =>
    if s.lh.contexts.any (fun c => decide (c.job = j.id)) && !j.host && j.priority.isNone && s.lh.suspension.isNone
        && decide (j.state = .running) then
      let k := s.draw 64
      (k.2.logGlow 7 0 u k.1.toNat).resumeJob j
    else s
  | none => s

/-- A test ends (R476, R488). `ms` is the test's time. -/
def State.endTest (s : State) (u ms : Nat) (retest pass : Bool) : State :=
  if pass then
    let s := if retest then s.charge u Status.TEST_FAILED else s
    if (s.unit u).state = 3 then s
    else
      let s := s.setTest u none
      let e := s.unit u
      let s := s.setUnit u { e with
        testLast := s.utc, result := if retest then 2 else 1
        testDue := if u < 3072 then s.utc + 86400 * s.policy NVM.TEST_D else e.testDue }
      s.logGlow 4 0 u ms
  else
    let s := s.logGlow 5 Status.TEST_FAILED u (if retest then 2 else 1)
    if retest then
      let e := s.unit u
      let s := s.setUnit u { e with faults := (s.utc :: e.faults).take 3, testLast := s.utc }
      s.makePermanent u 2 Status.TEST_FAILED
    else s.setTest u (some true)

/-- A Mirror test of a tile ends (R470): where it and its partner both pass, each is charged one fault; how the partner's test
ended is a free value here (log 41). -/
def State.endMirrorTest (s : State) (u : Nat) (retest pass : Bool) : State :=
  if !s.rel.mirrorTests.contains u || (!retest && !pass) then s
  else
    let s := { s with rel := { s.rel with mirrorTests := s.rel.mirrorTests.filter (fun x => decide (x ≠ u)) } }
    if retest then s
    else
      let p := s.draw 1
      if p.1 = 1 then p.2.charge u Status.MIRROR_MISMATCH else p.2

/-- A tile's test ends with what follows from it. -/
def State.endTileTest (s : State) (u : Nat) (retest pass : Bool) : State :=
  let s := (s.endTest u 180 retest pass).endMirrorTest u retest pass
  if !pass && !retest then s else (s.proved u).endForced u

/-! ### Replica votes -/

/-- The members of the job in this module's D ring, and their leader (R464). -/
def State.replicas (s : State) : List Nat :=
  s.box.filter (fun m => decide (bits (moduleCoord s.shape m) 0 18 = bits s.coord 0 18))
def State.leader (s : State) : Nat := s.replicas.foldl min s.self.toNat

/-- The blocks that the module hashes in a sentinel step, in order: at most 64 MiB (R462, R463). -/
def State.sentinelBlocks (s : State) : List Nat :=
  let ranges := s.tileList.flatMap (fun t => (List.range 4).filterMap (fun k =>
    let x := s.tile t
    let a := x.fld (TILE.SENT_BLK k)
    let n := x.fld (TILE.SENT_NBLK k)
    if x.fld (TILE.SENT_VALID k) = 1 ∧ 1 ≤ n ∧ a + n ≤ 720 * 2 ^ 18 ∧ !s.touchesRegion (a * 4096) (n * 4096) then some (a, n)
    else none))
  (ranges.flatMap (fun r => (List.range r.2).map (r.1 + ·))).take 16384

/-- The module's digest; none is a no-range notice. -/
def State.sentinelDigest (s : State) : Option (BitVec 256) :=
  match s.sentinelBlocks with
  | [] => none
  | bs => some (shakeDigest (bs.flatMap s.blockData))

/-- Every tile has passed its SSTEP of the step (R463). -/
def State.sentinelFinal (s : State) (st : OpenStep) : Bool :=
  s.tileList.all (fun t => decide ((Map.get 0 st.base t).toNat + (s.tile t).fld TILE.SENT_SSTEP ≤ (s.tile t).fld TILE.SSTEP))

/-- The leader takes a member's digest, in time. -/
def State.takeDigest (s : State) (m : Nat) (d : Option (BitVec 256)) : State :=
  if s.rel.verdict.isSome || !s.replicas.contains m || s.rel.digests.any (fun e => decide (e.1 = m)) then s
  else { s with rel := { s.rel with digests := s.rel.digests ++ [(m, d)] } }

/-- The bytes of a digest or of a no-range notice (log 14). -/
def digestBytes (m : Nat) (d : Option (BitVec 256)) : List Byte :=
  bytesOf m 2 ++ bytesOf (ofBool d.isSome) 1 ++ bytesOf (d.getD 0).toNat 32

/-- A member hashes its ranges and sends its leader the digest (R463, R464). -/
def State.sendDigest (s : State) : State :=
  let d := s.sentinelDigest
  let s := { s with rel := { s.rel with ownDigest := true } }
  if s.leader = s.self.toNat then s.takeDigest s.self.toNat d
  else s.controlTo s.leader .digest (digestBytes s.self.toNat d)

/-- The outcome of each member (R464, R465): 0 REPLICA_OK kept, 1 minority, 2 absent, 3 no majority. -/
def verdicts (group : List Nat) (got : List (Nat × Option (BitVec 256))) : List (Nat × Nat) :=
  let said (m : Nat) : Option (Option (BitVec 256)) := (got.find? (fun e => decide (e.1 = m))).map (·.2)
  let voting := group.filter (fun m => decide (said m ≠ some none))
  let held := voting.filterMap (fun m => (said m).bind id)
  let major := held.find? (fun d => decide (voting.length < 2 * (held.filter (fun e => decide (e = d))).length))
  group.map (fun m => (m, match said m, major with
    | some none, _ => 0
    | _, none => 3
    | none, some _ => 2
    | some (some d), some x => if d = x then 0 else 1))

/-- A member applies its outcome to its vote (R465, R467): only the first of a step counts. -/
def State.takeVerdict (s : State) (outcome : Nat) : State :=
  match s.lh.step with
  | none => s
  | some st =>
    if st.voted || !s.sentinel || s.rel.verdict.isSome || decide (4 ≤ outcome) then s
    else
      let s := { s with rel := { s.rel with verdict := some outcome } }
      if outcome = 0 then s
      else
        let s := (s.addCause { bit := 8, status := Status.REPLICA_MINORITY }).logGlow 8 Status.REPLICA_MINORITY moduleUnit (outcome - 1)
        if outcome ≠ 1 then s
        else
          let s := s.charge moduleUnit Status.REPLICA_MINORITY
          if (s.unit moduleUnit).state < 2 then s.eclipse moduleUnit false else s

/-- The leader forms the verdict at V - LEAD_BT and sends every member its outcome (R464). -/
def State.formVerdict (s : State) : State :=
  let all := verdicts s.replicas s.rel.digests
  let s := (all.filter (fun e => decide (e.1 ≠ s.self.toNat))).foldl (fun (s : State) e =>
    s.controlTo e.1 .verdict (bytesOf e.2 1)) s
  match all.find? (fun e => decide (e.1 = s.self.toNat)) with
  | some e => s.takeVerdict e.2
  | none => s

/-! ### Mirror mode (R469, R470) -/

/-- A digest record comes from the partner as a control packet (log 14). -/
def State.takeMirrorBytes (s : State) (bs : List Byte) : State :=
  let v := ofBytes bs
  let n := (bs.length - 12) / 10
  let tiles := (List.range n).map (fun i => (bits v (96 + 80 * i) 16, BitVec.ofNat 64 (bits v (112 + 80 * i) 64)))
  if s.mirrored then s.takeMirror (bits v 0 32) (BitVec.ofNat 64 (bits v 32 64)) tiles else s

/-! ### The rebuild of a Mirror module (R471) -/

/-- The returned module takes the lit slots and the lit step state of its partner: every value of them is free here. -/
def State.rebuildFrom (s : State) (j : Job) : State :=
  let s := s.prepare { j with done := none, ctx := none }
  let x := s.drawBytes 1664
  let g := x.2.draw 24
  let s := g.2
  let s := { s with lh := { s.lh with copy0 := stepStateOf x.1, sel := 0 } }
  let s := s.vregs.foldl (fun (s : State) n =>
    let e := s.draw 8
    let s := (((e.2.setFld (HBM.GEN n 0) g.1.toNat).setFld (HBM.FREE n) 6).setFld (HBM.LEPOCH n) e.1.toNat)
    (s.slotBlocks n 0).foldl (fun (s : State) b =>
      let d := s.drawBytes 4096
      let h := d.2.draw 256
      h.2.storeBlock b d.1 h.1) s) s
  let s := s.setFld HBM.LIT g.1.toNat
  s.writeDraws s.lh.lit

/-- The rebuild has ended, between steps: the job runs on from its lit state. -/
def State.rebuilt (s : State) (j : Job) (m : Nat) : State :=
  let s := { s with lh := { s.lh with rebuild := none } }
  let s := if m = s.self.toNat then s.rebuildFrom j else s
  let s := s.setJob { j with state := .running }
  if s.authority then
    let r0 := s.count + 1024
    let s := s.tellMembers j.box (bytesOf (r0.toNat * 2 ^ 8) 9)
    if j.box.contains s.self.toNat then s.resumeHere j r0 else s
  else s

end Sys2Proof.Machine
end

