-- ==== Sys2Proof/Machine/TokenOps.lean ====
section
/-! DEFINITION. The BCN pins of a board: the drive token, words and sync frames (R536 to R539). -/
namespace Sys2Proof.Machine

/-- The module of a slot of this board: the same coordinate but for t. -/
def State.slotModule (s : State) (slot : Nat) : Nat := moduleIndex s.shape (putBits s.coord 0 6 slot)

/-- The module is on a board and locked to the master, or is the master (R538). -/
def State.mayDrive (s : State) : Bool :=
  decide (s.fld BCN.BOARD = 1) && (decide (s.fld BCN.STATE = 1) || decide (s.fld BCN.STATE = 2))

/-- The module takes the token and drives from the edge of count `n` on. -/
def State.takeToken (s : State) (n : BitVec 64) : State :=
  if s.mayDrive && decide (s.fld BCN.TOKEN = 0) then
    { s.setFld BCN.TOKEN 1 with pins := { s.pins with driveFrom := some n, stopDriving := none } }
  else s

/-- The module stops driving after the edge of count `n`, and holds no token. -/
def State.stopDrive (s : State) (n : BitVec 64) : State :=
  { s.setFld BCN.TOKEN 0 with pins := { s.pins with stopDriving := some n, driveFrom := none } }

/-- The token goes to the module of another slot: this module drives up to the next edge, and says so (log 14). -/
def State.passToken (s : State) (slot : Nat) : State :=
  let n := s.count + 1
  (s.stopDrive n).controlTo (s.slotModule slot) .token (bytesOf n.toNat 8)

/-- The CRC-8 of a word or a sync frame holds (R538; its bytes low first, log 42). -/
def busCrcOk (word : BitVec 96) (sync : Bool) : Bool :=
  let n := if sync then 11 else 3
  decide (crc8 0 (bytesOf word.toNat n) = bits word.toNat (8 * n) 8)

/-- A driver reads back what is on the bus: another slot's word or a broken one is a collision, and the higher slot stops at the
next edge. Of a broken one nothing says which slot the other has. -/
def State.readBack (s : State) (word : BitVec 96) (sync : Bool) : State :=
  let ok := busCrcOk word sync
  let slot := s.fld BCN.SLOT
  let drv := bits word.toNat (if sync then 80 else 16) 3
  if ok && decide (drv = slot) then s
  else
    let s := s.bumpFld BCN.COLLISIONS
    let b := s.draw 1
    if ok then (if drv < slot then s.stopDrive (s.count + 1) else s)
    else if b.1 = 1 then b.2.stopDrive (s.count + 1) else b.2

/-- A receiver takes a word: its low count bits are those of the edge. -/
def State.takeWord (s : State) (word : BitVec 96) : Result :=
  let low := bits word.toNat 0 16
  if !s.bcn.holds then .next s
  else execSyncFrame 8 (BitVec.ofNat 64 (putBits s.count.toNat 0 16 low)) (BitVec.ofNat 16 (s.fld BCN.TERM)) (bit word.toNat 19) s

end Sys2Proof.Machine
end

