-- ==== Sys2Proof/Machine/Links.lean ====
section
/-! DEFINITION. The rows of the Bafen links (chapter 12). -/
namespace Sys2Proof.Machine

/-- FRAME_RECEIVE: a codeword and its frame, accepted in SEQ order or answered with NAK (R341 to R343). -/
def execFrameReceive (port : Nat) (header : BitVec 256) (decodes fcrcOk corrected : Bool) (s : State) : Result :=
  if 8 ≤ port then .fault .noSuchUnit
  else if s.fld (BF.STATE port) ≠ 8 ∧ s.fld (BF.STATE port) ≠ 10 then .next s
  else
    let s := if !decodes then s.fecFail port else if corrected then s.bumpFld (BF.FEC_CORR port) else s
    let q := s.port port
    let seq := BitVec.ofNat 16 (bits header.toNat 0 16)
    if !decodes || !fcrcOk then .next (s.setPort port q.nak)
    else if seq = q.rxSeq then .next (s.takeFrame port header)
    else if (q.rxSeq - seq).toNat < 2 ^ 15 then .next s
    else .next (s.setPort port q.nak)

/-- REPLAY_TIMEOUT: 2 µs without ACK progress (R343). -/
def execReplayTimeout (port : Nat) (s : State) : Result :=
  if 8 ≤ port then .fault .noSuchUnit
  else if s.fld (BF.STATE port) ≠ 8 ∨ (s.port port).replay = [] then .next s
  else .next (s.resend port)

/-- CREDIT_AUDIT: a total that disagrees with the credits received resets the port (R347). -/
def execCreditAudit (port : Nat) (totals : List (Nat × BitVec 16)) (s : State) : Result :=
  if 8 ≤ port then .fault .noSuchUnit
  else if s.fld (BF.STATE port) ≠ 8 then .next s
  else if totals.all (fun e => decide (Map.get 0 (s.port port).totals e.1 = e.2)) then .next s
  else
    let s := s.resetPort port false
    .next ((s.logGlow 0x0D 0 (portUnit port) (s.fld (BF.EPOCH port))).portEvent port 0x0B 0)

/-- A control packet of VC 0 from the neighbour on port `p`, or passed on to the module it is for. -/
def State.takeControl (s : State) (p : Nat) (h : Hdr) (bs : List Byte) : Result :=
  let v := ofBytes bs.tail
  let kind := match bs with
    | b :: _ => b.toNat
    | [] => 0
  let own := decide (h.dst = s.coord)
  let pass : State := match requestPort s.shape s.coord h.dst with
    | some o => if s.fld (BF.STATE o) = 8 then s.transmit o h bs else s
    | none => s
  let tree := bits v 0 8
  let absent : Option Nat := if bits v 88 16 = 0 then none else some (bits v 88 16 - 1)
  match kind with
  | 2 => execSyncFrame p (BitVec.ofNat 64 (bits v 0 64)) (BitVec.ofNat 16 (bits v 64 16)) (bit v 80) s
  | 3 => execElectionAdvertisement (BitVec.ofNat 16 (bits v 0 16)) (BitVec.ofNat 8 (bits v 16 8)) (BitVec.ofNat 14 (bits v 24 14))
      (BitVec.ofNat 64 (bits v 40 64)) s
  | 4 => execTreeContribution tree p (BitVec.ofNat 64 (bits v 8 64)) (bits v 72 16) absent s
  | 5 =>
    let s := (s.children tree).foldl (fun (s : State) k => s.control k .result bs.tail) s
    execTreeResult tree (BitVec.ofNat 64 (bits v 8 64)) (bits v 72 16) absent s
  | 6 =>
    let q := s.port p
    .next (if q.swap.isSome then s else s.setPort p { q with swap := some (BitVec.ofNat 12 (bits v 0 12), BitVec.ofNat 16 (bits v 16 16)) })
  | 7 => .next ((s.setPort p { s.port p with left := true }).portEvent p 6 0)
  | 8 => .next (((s.setPort p { s.port p with farFenced := true }).dropSource p).portEvent p 7 0)
  | 9 => execCreditAudit p ((List.range 10).map (fun k => (k, BitVec.ofNat 16 (bits v (16 * k) 16)))) s
  | 11 => if own then .next (s.takeJobControl bs.tail) else .next pass
  | 12 =>
    let d : Option (BitVec 256) := if bits v 16 8 = 1 then some (BitVec.ofNat 256 (bits v 24 256)) else none
    if own then .next (s.takeDigest (bits v 0 16) d) else .next pass
  | 13 => if own then .next (s.takeVerdict (bits v 0 8)) else .next pass
  | 14 => if own then .next (s.takeMirrorBytes bs.tail) else .next pass
  | 15 => if own ∧ bs.length = 9 then .next (s.joinHold (BitVec.ofNat 64 (bits v 0 64))) else if own then .next (s.tilesHeld (bits v 0 16)) else .next pass
  | 16 => if own then .next (s.takeToken (BitVec.ofNat 64 (bits v 0 64) + 1)) else .next pass
  | 18 => if own then .next (s.takeTick v) else .next pass
  | 17 => .next (s.collResend p (bits v 0 8) (bits v 8 16) (bits v 24 48))
  | _ => if own || decide (h.dst = 0) then .next s else .next pass

/-- PACKET_ARRIVAL: a packet leaves a receiving port (R344, R345, R348 to R350). A header whose HCRC fails counts as a failed
frame; a block that fails its Halo CRC is asked for once again. -/
def execPacketArrival (port : Nat) (header : BitVec 384) (payload : List (BitVec 8)) (s : State) : Result :=
  if 8 ≤ port then .fault .noSuchUnit
  else if s.fld (BF.STATE port) ≠ 8 ∧ s.fld (BF.STATE port) ≠ 10 then .next s
  else
    let q := s.port port
    let h := Hdr.decode header
    let bad := h.halo && decide (h.type ≠ 7) && (payloadBlocks payload).any (fun e => !haloMatches e.1 e.2)
    if !hcrcOk header then .next (s.setPort port q.nak)
    else if bad && !q.recheck then
      let fails := (payloadBlocks payload).filter (fun e => !haloMatches e.1 e.2)
      .next (fails.foldl (fun (s : State) _ => s.logGlow 0x0A Status.HALO_CRC (portUnit port) (0x2000 + port))
        (s.setPort port { q.nak with recheck := true }))
    else
      let fails := if bad then (payloadBlocks payload).filter (fun e => !haloMatches e.1 e.2) else []
      let s := fails.foldl (fun (s : State) _ => s.bumpFld (BF.HALO_FAILS port)) s
      let bs := if bad then poisonBlocks port payload else payload
      let s := if h.halo then s.setPort port { s.port port with recheck := false } else s
      let s := s.setPort port ((s.port port).freed ⟨header, payload⟩)
      match h.type with
      | 2 => .next (s.takeReply port h bs)
      | 3 => .next (s.takeReply port h bs)
      | 4 => .next (s.takeReply port h bs)
      | 6 => .next (s.takeReply port h bs)
      | 7 =>
        let n := bs.length - 8
        if s.pwr.state = .s2 then .next s
        else .next (s.collContribution (port / 2) header (bs.take n) (BitVec.ofNat 64 (ofBytes (bs.drop n))))
      | 10 => if h.vc = 0 then s.takeControl port h bs else .next (s.takeRequest port h bs)
      | _ => if 10 < h.type then .next s else .next (s.takeRequest port h bs)

/-- DELAY_PROBE: BF_DELAY is half the round trip less the turnaround, averaged over the last 16 probes (R353); both are in
units of 0.125 ns. -/
def execDelayProbe (port roundTrip turnaround : Nat) (s : State) : Result :=
  if 8 ≤ port then .fault .noSuchUnit
  else if s.fld (BF.STATE port) ≠ 8 then .next s
  else
    let q := s.port port
    let ps := (((roundTrip - turnaround) / 2 - 1440) :: q.probes).take 16
    .next ((s.setPort port { q with probes := ps }).setFld (BF.DELAY port) (ps.foldl (· + ·) 0 / ps.length))

/-- LANE_ERROR_WINDOW: bad lanes are spared at an agreed SEQ, or the port narrows to half width (R356, R361, R456). -/
def execLaneErrorWindow (port : Nat) (bad : BitVec 12) (seq : BitVec 16) (s : State) : Result :=
  if 8 ≤ port then .fault .noSuchUnit
  else if s.fld (BF.STATE port) ≠ 8 then .next s
  else
    let hit := (maskLanes bad).filter (fun k => decide (s.lane port k = 0))
    let good := (List.range 12).filter (fun k => decide (s.lane port k ≠ 2) && !hit.contains k)
    if hit = [] ∨ (s.port port).swap.isSome then .next s
    else if hit.length ≤ (s.lanesIn port 1).length then
      let m := BitVec.ofNat 12 (hit.foldl (fun v k => v + 2 ^ k) 0)
      let s := s.control port .laneSwap (bytesOf (m.toNat + seq.toNat * 2 ^ 16) 4)
      .next (s.setPort port { s.port port with swap := some (m, seq) })
    else if 5 ≤ good.length then
      let s := hit.foldl (fun (s : State) k => s.setLane port k 2) s
      let s := (s.setPort port { s.port port with halfWidth := true }).fastTrain port
      .next ((s.portEvent port 9 0).charge (portUnit port) 0)
    else .next s

/-- LANE_SWAP: at the agreed SEQ spares take the place of the failed lanes (R356). -/
def execLaneSwap (port : Nat) (s : State) : Result :=
  if 8 ≤ port then .fault .noSuchUnit
  else match (s.port port).swap with
    | none => .next s
    | some (m, _) =>
      let out := maskLanes m
      let in_ := (s.lanesIn port 1).take out.length
      let s := out.foldl (fun (s : State) k => s.setLane port k 2) s
      let s := in_.foldl (fun (s : State) k => s.setLane port k 0) s
      let s := s.setFld (BF.SPARES_USED port) (s.fld (BF.SPARES_USED port) + out.length)
      .next ((s.setPort port { s.port port with swap := none }).portEvent port 0x0A 0)

/-- TRAINING_STATE_DONE: the port moves on to its next training state (R354, R355, R359 to R361); one whose QUIESCE is set then
quiesces (R363). After a fast retrain the frames in the replay buffer are sent again (R356). -/
def execTrainingStateDone (port : Nat) (good : BitVec 12) (delay : BitVec 16) (s : State) : Result :=
  if 8 ≤ port then .fault .noSuchUnit
  else
    let q := s.port port
    let dest (s : State) (v : Nat) : Result := .next (s.setFld (BF.STATE port) v)
    match s.fld (BF.STATE port) with
    | 1 => if 5 ≤ (maskLanes good).length then dest s (if q.fast then 3 else 2) else .next s
    | 2 => dest s 3
    | 3 =>
      match s.mapLanes port good with
      | some s => dest s 4
      | none => dest (s.setPort port { q with fast := false }) 1
    | 4 => dest s 5
    | 5 =>
      let s := s.setFld (BF.DELAY port) delay.toNat
      if 800 < delay.toNat then dest ((s.setPort port { q with fast := false }).portEvent port 0x0C Status.BF_RANGE) 1
      else
        let pay := BitVec.ofNat 8 Control.identity.code :: bytesOf (s.identity port).toNat 32
        let s := s.setPort port { q with identOk := false }
        dest (s.transmit port { type := 10, vc := 0, dst := 0, src := s.coord, len := pay.length } pay) 6
    | 6 => if q.identOk then dest s 7 else .next s
    | 7 =>
      let keep := q.fast && !q.credits.isEmpty
      let s := if keep then s else s.setPort port { q with
        credits := firstCredits, totals := [], owed := [], returned := [], replay := [], again := [], stream := [], txSeq := 0
        acked := 0xFFFF, rxSeq := 0, nakSent := false, nakDue := false }
      let q := s.port port
      let s := (s.setPort port { q with fast := false, resends := 0, again := q.replay }).setFld (BF.STATE port) 8
      let s := (s.meetNeighbour port).checkWiring port
      .next (if s.fld (BF.QUIESCE port) = 1 ∧ s.fld (BF.STATE port) = 8 then s.setFld (BF.STATE port) 10 else s)
    | _ => .next s

/-- TRAINING_STATE_TIMEOUT: a state exceeds its limit (R355). -/
def execTrainingStateTimeout (port : Nat) (s : State) : Result :=
  if 8 ≤ port then .fault .noSuchUnit
  else if 2 ≤ s.fld (BF.STATE port) ∧ s.fld (BF.STATE port) ≤ 7 then
    .next ((s.setPort port { s.port port with fast := false }).setFld (BF.STATE port) 1)
  else .next s

/-- DETECT_RETRY: electrical presence on at least 5 lanes (R355). -/
def execDetectRetry (port : Nat) (present : BitVec 12) (s : State) : Result :=
  if 8 ≤ port then .fault .noSuchUnit
  else if !s.awake ∨ s.fld (BF.ENABLE port) = 0 ∨ 1 < s.fld (BF.STATE port) then .next s
  else .next (s.setFld (BF.STATE port) (if 5 ≤ (maskLanes present).length then 2 else 1))

/-- IDENTITY_PACKET: stored; another LLVER fails IDENT (R359), broken wiring fences the port (R360). -/
def execIdentityPacket (port : Nat) (ident : BitVec 256) (s : State) : Result :=
  if 8 ≤ port then .fault .noSuchUnit
  else
    let st := s.fld (BF.STATE port)
    if st ≠ 6 ∧ st ≠ 8 then .next s
    else
      let s := s.setPort port { s.port port with neighbour := ident, identOk := decide (idLlver ident = 1) }
      if idLlver ident ≠ 1 then .next (s.setFld (BF.STATE port) 1)
      else if s.miswired port ident then .next (s.checkWiring port)
      else if st = 8 then .next (s.meetNeighbour port) else .next s

/-- LINK_LOSS (R358). -/
def execLinkLoss (port : Nat) (s : State) : Result :=
  if 8 ≤ port then .fault .noSuchUnit
  else if s.fld (BF.STATE port) ≠ 8 ∧ s.fld (BF.STATE port) ≠ 10 then .next s
  else .next (s.loseLink port)

/-- PORT_RESET (R357): recorded as a domain reset. -/
def execPortReset (port : Nat) (s : State) : Result :=
  if 8 ≤ port then .fault .noSuchUnit
  else if !s.awake then .next s
  else
    let s := s.resetPort port false
    .next (s.logGlow 0x0D 0 (portUnit port) (s.fld (BF.EPOCH port)))

/-- PORT_READY: a link that is not up by then is in DETECT (R357). -/
def execPortReady (port : Nat) (s : State) : Result :=
  if 8 ≤ port then .fault .noSuchUnit
  else if !(s.port port).inReset then .next s
  else
    let s := s.setPort port { s.port port with inReset := false }
    .next (if s.fld (BF.ENABLE port) = 1 ∧ s.fld (BF.STATE port) < 8 then s.setFld (BF.STATE port) 1 else s)

/-- LEAVE_NOTICE (R363). -/
def execLeaveNotice (port : Nat) (s : State) : Result :=
  if 8 ≤ port then .fault .noSuchUnit
  else if s.fld (BF.STATE port) ≠ 8 then .next s
  else .next ((s.setPort port { s.port port with left := true }).portEvent port 6 0)

/-- FENCE_NOTICE (R364): the port gives no more Beacon edges. -/
def execFenceNotice (port : Nat) (s : State) : Result :=
  if 8 ≤ port then .fault .noSuchUnit
  else if s.fld (BF.STATE port) ≠ 8 then .next s
  else .next (((s.setPort port { s.port port with farFenced := true }).dropSource port).portEvent port 7 0)

/-- PORT_QUIESCE (R363). -/
def execPortQuiesce (port : Nat) (s : State) : Result :=
  if 8 ≤ port then .fault .noSuchUnit
  else if !s.awake then .next s else .next (raised (s.quiescePort port))

/-- QUIESCE_DRAIN_END: what is still recorded is answered, a leave notice goes out, the transmitters idle (R363). -/
def execQuiesceDrainEnd (port : Nat) (s : State) : Result :=
  if 8 ≤ port then .fault .noSuchUnit
  else if s.fld (BF.STATE port) ≠ 10 then .next s
  else
    let pay := [BitVec.ofNat 8 Control.leave.code]
    .next ((s.leavePort port).transmit port { type := 10, vc := 0, dst := 0, src := s.coord, len := 1 } pay)

/-- PORT_UNQUIESCE (R363). -/
def execPortUnquiesce (port : Nat) (s : State) : Result :=
  if 8 ≤ port then .fault .noSuchUnit
  else if !s.awake then .next s else .next (s.unquiescePort port)

/-- PORT_FENCE (R364). -/
def execPortFence (port : Nat) (s : State) : Result :=
  if 8 ≤ port then .fault .noSuchUnit
  else if !s.awake then .next s else .next (s.hostFence port)

/-- PORT_UNFENCE (R364). -/
def execPortUnfence (port : Nat) (s : State) : Result :=
  if 8 ≤ port then .fault .noSuchUnit
  else if !s.awake then .next s else .next (s.hostUnfence port)

/-- PORT_RETRAIN (R355). -/
def execPortRetrain (port : Nat) (s : State) : Result :=
  if 8 ≤ port then .fault .noSuchUnit
  else if !s.awake then .next s else .next (s.retrainPort port)

/-- PORT_ENABLE (R355). -/
def execPortEnable (port : Nat) (enable : Bool) (s : State) : Result :=
  if 8 ≤ port then .fault .noSuchUnit
  else if !s.awake then .next s else .next (s.enablePort port enable)

/-- BF_SELF_WRITE (R359, R360). -/
def execBfSelfWrite (value : BitVec 64) (s : State) : Result :=
  if !s.awake then .next s else .next (raised (s.writeSelf value))

end Sys2Proof.Machine
end

