-- ==== Sys2Proof/Machine/Matrix.lean ====
section
/-! DEFINITION. The MAT class and the events of work lists (R121, R128 to R134). -/
namespace Sys2Proof.Machine

def execMma (t : Nat) (w : BitVec 52) (s : State) : Result := issueMat t 1 w [xRA w, xRB w, xRK w] s
def execAzero (t : Nat) (w : BitVec 52) (s : State) : Result := issueMat t 8 w [] s
def execAld (t : Nat) (w : BitVec 52) (s : State) : Result := issueMat t 9 w [xRA w, xRK w] s
def execAst (t : Nat) (w : BitVec 52) (s : State) : Result := issueMat t 0xA w [xRA w, xRK w] s
def execMrun (t : Nat) (w : BitVec 52) (s : State) : Result := issueMat t 0x10 w [xRA w, xRB w] s

/-- A waiting MRUN posts its list once there is room; with it, whatever else the queue's head allows, and the XSTART that waited for it (R212). -/
def execMrunPost (t : Nat) (s : State) : Result :=
  if s.tileCount ≤ t then .fault .noSuchUnit else .next ((s.drainMat t).xqRun t)

/-- Posted lists whose ready slot is seen full become ready (R130). -/
def execWorkListReady (t : Nat) (s : State) : Result :=
  if s.tileCount ≤ t then .fault .noSuchUnit
  else .next (s.onTile t (fun x => { x with lists := x.lists.map (fun l => { l with ready := l.ready || x.full l.slot }) }))

/-- The picker starts a list when none runs and no direct instruction waits (R131). -/
def execListStart (t : Nat) (s : State) : Result :=
  if s.tileCount ≤ t then .fault .noSuchUnit
  else
    let x := s.tile t
    let direct := match x.mq with
      | [] => false
      | q :: _ => decide (q.op ≠ 0x10)
    if !s.lanesOn || x.running.isSome || x.astWait.isSome || direct || decide (x.fld TILE.CORE_READY = 0) then .next s
    else match x.pickList with
      | none => .next s
      | some (l, rest) =>
        let x := { x with lists := rest, running := some ⟨l, 0, false⟩, lastBackward := l.backward }
        .next ((s.setTile t (if l.consume then x.setTags l.slot 1 false else x)).continueList t)

/-- AHEAD after a list of the given kind has ended (R132); past its 4 bits the spec gives no value. -/
def State.aheadAfter (s : State) (t : Nat) (l : WorkList) : State :=
  let a := (s.tile t).fld TILE.AHEAD
  if !l.last then s
  else if l.backward then s.onTile t (fun x => x.setFld TILE.AHEAD (a - 1))
  else if a < 15 then s.onTile t (fun x => x.setFld TILE.AHEAD (a + 1))
  else
    let d := s.draw 4
    d.2.onTile t (fun x => x.setFld TILE.AHEAD d.1.toNat)

/-- The last item of the running list has ended; an XSTART that waited for the lists goes on (R133). -/
def execListEnd (t : Nat) (s : State) : Result :=
  if s.tileCount ≤ t then .fault .noSuchUnit
  else match (s.tile t).running with
    | some r =>
      if r.done && (s.tile t).astWait.isNone then
        .next ((((s.aheadAfter t r.list).onTile t (fun x => { x with running := none })).drainMat t).xqRun t)
      else .next s
    | none => .next s

/-- The tile timeout of the `i`-th posted list expires while it waits for its slot (R130). -/
def execListTimeout (t i : Nat) (s : State) : Result :=
  if s.tileCount ≤ t then .fault .noSuchUnit
  else match (s.tile t).lists[i]? with
    | some l =>
      if l.ready then .next s
      else .next ((((s.onTile t (fun x => { x with lists := x.lists.eraseIdx i })).record t Status.TAG_TIMEOUT l.pc).drainMat t).xqRun t)
    | none => .next s

end Sys2Proof.Machine
end

