-- ==== Sys2Proof/Machine/Mem.lean ====
section
/-! DEFINITION. The scalar instructions of the MEM class (R91, R92). -/
namespace Sys2Proof.Machine

/-- LD and ST: TAGM 0, LEN 0 to 3. -/
def formMem (w : BitVec 52) : Form :=
  { used := [uRD, uRA, (32, 4), (0, 24)], regs := [fRD w, fRA w], legal := decide (fLEN w < 4) }

def execLd (t : Nat) (w : BitVec 52) (s : State) : Result :=
  issue t w (formMem w) (fun pc s =>
    s.plainLoad t pc (memAddr ((s.tile t).getS (fRA w)) w) (lenBytes (fLEN w)) (.scalar (fRD w)) 0) s

def execSt (t : Nat) (w : BitVec 52) (s : State) : Result :=
  issue t w (formMem w) (fun pc s =>
    let x := s.tile t
    s.plainStore t pc (memAddr (x.getS (fRA w)) w) (bytesOf (x.getS (fRD w)).toNat (lenBytes (fLEN w))) false) s

end Sys2Proof.Machine
end

