-- ==== Sys2Proof/Machine/PowerOps.lean ====
section
/-! DEFINITION. Power: module reset (R544), stops of the rails (R515, R529, R544), the ways into and out of S2, S3 and Off (R521
to R526, R543). -/
namespace Sys2Proof.Machine

/-- Registers held in the Nightlight island: the NVM_ block, PWR_MODE, PWR_WAKE_AT, PWR_WAKE_UTC, PWR_NL_STAT (R493 to R498,
R524, R544). -/
def islandReg (off : Nat) : Bool :=
  (decide (nvmBase ≤ off) && decide (off < secBase)) || (decide (pwrBase + 0x10 ≤ off) && decide (off < pwrBase + 0x30))

/-- What a boot leaves of the fault history: what NVM holds; an eclipse until boot has ended, an exclusion has not (R460,
R467). -/
def Reliability.afterReset (r : Reliability) : Reliability :=
  { units := r.units.foldl (fun m e =>
      Map.set {} m e.1 (if e.2.state = 2 ∧ e.1 ≠ moduleUnit then { e.2 with state := 0 } else e.2)) []
    log := r.log, nextSeq := r.nextSeq, excluded := r.excluded, proving := r.proving }

/-- Module reset: every domain but the Nightlight island (R544). The straps stay latched, and what Nightlight and the regulation
stage know of the input, of a shutdown and of the pins stays. -/
def State.moduleReset (s : State) : State :=
  let p := s.pwr
  let z : State := {
    pending := s.pending, cycle := s.cycle, free := s.free, nextKey := s.nextKey
    regs := s.regs.filter (fun e => islandReg e.1), hif := { mem := s.hif.mem }, rel := s.rel.afterReset
    nl := { s.nl with storing := none, storesWait := [], images := [], version := 0 }
    pwr := {
      input := p.input, range := p.range, wake := p.wake, shutdown := p.shutdown, faultPin := p.faultPin
      islandTemp := p.islandTemp, current := p.current, bootEvents := p.bootEvents, refStable := p.refStable, perst := p.perst
      rst := p.rst, vbatOk := p.vbatOk, cold := p.cold }
    pins := { slot := s.pins.slot, board := s.pins.board, smbStatus := s.pins.smbStatus, smbReply := s.pins.smbReply } }
  (z.setFld BCN.SLOT (s.fld BCN.SLOT)).setFld BCN.BOARD (s.fld BCN.BOARD)

/-- Bits of STATUS_WORD (R545) set. -/
def State.smbSet (s : State) (v : BitVec 16) : State := { s with pins := { s.pins with smbStatus := s.pins.smbStatus ||| v } }

/-- Every rail but Nightlight's is off: the module is in S3, its regulator in low-power mode (R515, R516, R529, R544). What the
island's own sensor reads is free until a sample comes. -/
def State.stopRails (s : State) : State :=
  let s := (s.moduleReset.setFld PWR.LOWPOWER 1).setFld HIF.BOOT_WAIT 0
  let t := s.draw 8
  let s := t.2.smbSet 0x4000
  { s with pwr := { s.pwr with state := .s3, islandTemp := t.1.toNat } }

/-- An event for the next boot to record (R515, R517, R529). -/
def State.atBoot (s : State) (c : BitVec 16) : State :=
  { s with pwr := { s.pwr with bootEvents := if s.pwr.bootEvents.contains c then s.pwr.bootEvents else s.pwr.bootEvents ++ [c] } }

/-- The open step loses POWER_OK (R515, R528); a fault after its vote counts in the next one (R321). -/
def State.losePower (s : State) (c : BitVec 16) : State := s.addCause { bit := 9, status := c }

/-- The engines of every tile go on where DUTY is no longer 0 (R519). -/
def State.redrain (s : State) : State := s.tileList.foldl (fun (s : State) t => ((s.drainVec t).drainMat t).xqRun t) s

/-! ### Waking (R525, R526) -/

/-- A wake event: in S2, in S3, or while one of them is entered (R525); none while the island is not below 60 °C after a shutdown
(R529). -/
def State.wakeUp (s : State) : State :=
  if !s.pwr.shutdown && (decide (s.pwr.state = .s2) || decide (s.pwr.state = .s3) || s.pwr.entering.isSome) then
    { s with pwr := { s.pwr with wake := true } }
  else s

/-- One that PWR_MODE[WAKE_EN] enables. -/
def State.wakeIf (s : State) (source : Nat) : State := if (s.fld PWR.WAKE_EN).testBit source then s.wakeUp else s

/-- The count at which the event of BCN_COUNT comes has been reached, in S2 or while it is entered (R525). -/
def State.countAlarm (s : State) : Bool :=
  decide (s.pwr.state ≠ .s3) && decide (s.fld PWR.NEXT = 0 ∨ s.fld PWR.NEXT = 2) && decide (s.fld BCN.COUNT = s.fld PWR.WAKE_AT)

/-- A boot: module reset, the straps latched (R537), the defaults after Off (R524), the boot ROM (R499). -/
def State.boot (s : State) : State :=
  let cold := s.pwr.cold
  let s := s.moduleReset
  let s := { s with pwr := { s.pwr with state := .p0, cold := false, wake := false } }
  let s := (s.setFld BCN.SLOT s.pins.slot.toNat).setFld BCN.BOARD (ofBool s.pins.board)
  let s := (s.setFld PWR.NEXT 0).setFld PWR.LOWPOWER 0
  let def_ := (s.committed (nvmBase + 0x440)).toNat
  let s := if cold then (s.setFld PWR.CAP_W (bits def_ 0 12)).setFld PWR.WAKE_EN (bits def_ 12 4) else s
  (s.raiseLife 1).bootRom

/-- The return from S2: core rail, mesh and HBM are back, the tiles have their contexts (R34, R526), the authority knows. -/
def State.wakeS2 (s : State) : State :=
  let ctx := s.job.bind (fun j => s.lh.contexts.find? (fun c => decide (c.job = j.id)))
  let s := s.tileList.foldl (fun (s : State) t => s.onTile t (fun x =>
    let y := match ctx with
      | some c => x.swapIn (Map.get {} c.tiles t)
      | none => x
    let y := if (s.unit (coreUnit (s.physOf t))).state < 2 then (y.setFld TILE.CORE_PWR 1).setFld TILE.CORE_READY 1 else y
    { y with rtrReady := true })) s
  let s := s.spareUnits.foldl State.spareRouterReady s
  let asked := s.pwr.wakeAsked
  let s : State := { s.setFld PWR.NEXT 0 with pwr := { s.pwr with state := .p0, wake := false, wakeAsked := [] } }
  let s := if s.authority then { s with lh := { s.lh with asleep := s.lh.asleep.erase s.self.toNat } }
    else s.controlTo (s.fld BCN.MASTER) .placement (bytesOf (6 + s.self.toNat * 2 ^ 8) 9)
  if asked.isEmpty then s.event 7 0 0 0 0 else asked.foldl (fun (s : State) a => s.fin a.1 a.2 0) s

/-! ### Entering S2 and S3 (R521, R522) -/

/-- Lighthouse can execute WAIT on every pair: it runs, with no job active and no copy moving, and for S3 with no job placed on
the module. -/
def State.mayEnter (s : State) : Bool :=
  decide (s.pwr.state = .p0) && decide (s.fld PWR.NEXT ≠ 0) && !s.lh.inReset && !s.jobActive
    && !s.hif.ops.any (fun o => isCopy o.desc && decide (o.state = 1))
    && (decide (s.fld PWR.NEXT ≠ 3) || !s.lh.jobs.any (fun j => j.box.contains s.self.toNat))

/-- The authority learns that the module is not free. -/
def State.tellAsleep (s : State) : State :=
  if s.authority then { s with lh := { s.lh with asleep := s.self.toNat :: s.lh.asleep.erase s.self.toNat } }
  else s.controlTo (s.fld BCN.MASTER) .placement (bytesOf (5 + s.self.toNat * 2 ^ 8) 9)

/-- The request that led here completes. -/
def State.entered (s : State) : State :=
  let r := s.pwr.entering.bind (·.2)
  let s := { s with pwr := { s.pwr with entering := none } }
  match r with
  | some (ring, d) => s.fin ring d 0
  | none => s

/-- Entries that fit are written before the host port goes off. -/
def State.drainEntries : Nat → State → State
  | 0, s => s
  | n + 1, s =>
    match takeFirst s.entryFits s.hif.backlog with
    | some (e, rest) => State.drainEntries n ({ s with hif := { s.hif with backlog := rest } }.writeEntry e)
    | none => s

/-- The module's job has its live context saved (R34), if a stop has not saved it already. -/
def State.saveLive (s : State) : State :=
  match s.job with
  | none => s
  | some j =>
    if s.lh.contexts.any (fun c => decide (c.job = j.id)) then s
    else s.keepContext { job := j.id, stop := s.stopSuperstep, why := 5, ring := 0, cid := 0 }

/-- Entry into S2: the live contexts are saved (R34), the mesh and the core rail go off. -/
def State.enterS2 (s : State) : State :=
  let s := s.tellAsleep.saveLive
  let s := (s.tileList.foldl (fun (s : State) t =>
    ((s.resetCore t).resetRouter t).onTile t (fun x => x.setFld TILE.CORE_PWR 0)) s).resetSpares
  let s := { s with pwr := { s.pwr with state := .s2 } }
  s.entered

/-- Entry into S3: leave notices, a journal commit with the exact count, the final entry, then the rails (R363, R497). -/
def State.enterS3 (s : State) : State :=
  let s := (List.range 8).foldl (fun (s : State) p => s.control p .leave []) s.tellAsleep
  let s := (s.commitJournal true).entered
  (State.drainEntries s.hif.backlog.length s).stopRails

/-! ### Off (R518, R524, R491, R493, R496, R498, R511) -/

/-- The 48 V input is gone: Nightlight loses its supply, the calendar and the seal latch run on VBAT. -/
def State.goOff (s : State) : State :=
  let c := s.rd NVM.CAL.off
  let v := s.fld NVM.CAL_VALID
  let ev := s.pwr.bootEvents
  let s := s.moduleReset
  let s : State := { s with
    regs := [], nl := { s.nl with sealOpen := false, latched := false, presUntil := none }
    pwr := { state := .off, bootEvents := ev, perst := s.pwr.perst, rst := s.pwr.rst, refStable := false }
    pins := { slot := s.pins.slot, board := s.pins.board } }
  (s.wr NVM.CAL.off c).setFld NVM.CAL_VALID v

/-- The Afterglow pages that cannot be read (R492): the records of a ring page are lost, the units of a page of the table are due
for a test. -/
def State.readHistory (s : State) : State :=
  let tables := (List.range 51).filter (fun i => s.pageBad (596 + i))
  let bad := !tables.isEmpty || (List.range 512).any (fun i => s.pageBad (84 + i))
  let kept := s.rel.log.filter (fun r => !s.pageBad (recordPage (bits r.toNat 0 64)))
  let us := (tables.flatMap (fun i => (List.range 128).map (fun k => 128 * i + k))).filter (fun i => decide (i < 6413))
  let s := us.foldl (fun (s : State) i => s.setUnit (unitAt i) { s.unit (unitAt i) with testDue := s.utc })
    { s with rel := { s.rel with log := kept } }
  if bad then s.report Status.NVM_UE 0 else s

/-- The input is back: Nightlight reads its pages, the straps are sampled, the module wakes. A calendar whose VBAT fell below
2.5 V starts from the newest journal commit, and every tile's test is due. -/
def State.comeUp (s : State) (slot : BitVec 3) (board vbatOk : Bool) : State :=
  let s := s.loadJournal.readSettings
  let s := s.setFld NVM.VBAT_LOW (ofBool (!vbatOk))
  let s := if vbatOk then s
    else
      let s := (s.setFld NVM.CAL s.newestPage.utc.toNat).setFld NVM.CAL_VALID 0
      (List.range 3072).foldl (fun (s : State) u => s.setUnit u { s.unit u with testDue := s.utc }) s
  let s := s.readHistory
  let s := if s.nl.latched then
      let s := { s with nl := { s.nl with latched := false } }
      let s := if s.nl.sec.tamper then s else s.commitSec { s.nl.sec with tamper := true }
      s.raiseLife 6
    else s
  { s with
    pwr := { s.pwr with state := .s3, wake := true, cold := true, vbatOk := vbatOk }
    pins := { s.pins with slot := slot, board := board } }

/-! ### PLLs (R528) -/

/-- A PLL of the module: kind 3 has one for each stack, kind 4 one for each port, the others one each. -/
def isPll (pll unit : Nat) : Bool :=
  match pll with
  | 3 => decide (unit < 16)
  | 4 => decide (unit < 8)
  | _ => decide (pll < 5) && decide (unit = 0)

/-- A PLL loses lock. -/
def State.losePll (s : State) (pll unit : Nat) : State :=
  let s := { s with pwr := { s.pwr with unlocked := (pll, unit) :: s.pwr.unlocked.erase (pll, unit) } }
  match pll with
  | 0 => (s.losePower Status.PWR_INPUT).event 7 0 0 Status.PWR_INPUT 0
  | 1 =>
    let st := s.fld BCN.STATE
    if st = 1 ∨ st = 2 then
      let s := { s with pwr := { s.pwr with locked := some (st, s.fld BCN.SRC) } }
      (s.setFld BCN.STATE 3).setFld BCN.SRC 15
    else s
  | 2 => s.lighthouseReset none
  | 3 => ((List.range 16).filter (fun ch => !(s.fld (HBM.FAILED unit)).testBit ch)).foldl (fun (s : State) ch =>
      let s := s.resetChannel unit ch
      s.logGlow 0x0D 0 (channelUnit unit ch) (s.fld (HBM.CH_EPOCH unit ch))) s
  | _ =>
    let s := s.resetPort unit false
    s.logGlow 0x0D 0 (portUnit unit) (s.fld (BF.EPOCH unit))

/-- A PLL has lock again: of the arithmetic PLL every core and router resets, of the timing PLL the holdover ends. -/
def State.gainPll (s : State) (pll unit : Nat) : State :=
  let s := { s with pwr := { s.pwr with unlocked := s.pwr.unlocked.erase (pll, unit) } }
  match pll with
  | 0 =>
    let s := (s.tileList.foldl (fun (s : State) t => (s.resetCore t).resetRouter t) s).resetSpares
    if s.lh.cur.isSome then { s with lh := { s.lh with reload := s.tileList } } else s
  | 1 =>
    match s.pwr.locked with
    | some (st, src) =>
      let s := { s with pwr := { s.pwr with locked := none } }
      if s.fld BCN.STATE = 3 then (s.setFld BCN.STATE st).setFld BCN.SRC src else s
    | none => s
  | _ => s

/-! ### Duties (R519, R520, R529) -/

/-- The cap controller, once every millisecond. -/
def State.capStep (s : State) (mean mean100 : Nat) : State :=
  let w := s.fld PWR.CAP_W
  let old := s.pwr.cap
  let new := if w < mean then max 1 (old - 1) else if 100 * mean < 95 * w then min 16 (old + 1) else old
  let one := if new = 1 ∧ old = 1 then s.pwr.oneFor + 1 else 0
  let s : State := { s.setFld PWR.POWER_W (min mean 4095) with pwr := { s.pwr with cap := new, oneFor := one } }
  let s := if old = 16 ∧ new < 16 then (s.bumpFld PWR.CAP_ENTRIES).event 7 0 0 Status.PWR_CAPPED 0 else s
  if new = 1 ∧ 100 ≤ one ∧ 102 * w < 100 * mean100 ∧ s.fld PWR.CAP_UNMET = 0 then
    (s.setFld PWR.CAP_UNMET 1).event 7 1 0 Status.PWR_CAPPED 0
  else s

/-- The thermal duty below 105 °C, at a sample every 100 µs: it rises every 1,000 samples below 95 °C, it falls every 100 from 98
°C on. -/
def State.thermStep (s : State) (tj : Nat) : State :=
  let p := s.pwr
  let band := if tj < 95 then 0 else if tj < 98 then 1 else 2
  let tempo := if band = p.band then p.tempo + 1 else 0
  let s := if band = 2 ∧ p.band ≠ 2 then
      ((s.bumpFld PWR.THROTTLES).event 7 0 0 Status.THERM_THROTTLE 0).smbSet 4 else s
  let therm := if band = 0 ∧ 1000 ≤ tempo then min 16 (p.therm + 1)
    else if band = 2 ∧ 100 ≤ tempo then max 1 (p.therm - 1) else p.therm
  let tempo := if (band = 0 ∧ 1000 ≤ tempo) ∨ (band = 2 ∧ 100 ≤ tempo) then 0 else tempo
  { s with pwr := { s.pwr with therm := therm, band := band, tempo := tempo } }

/-- 105 °C: the engines stop. -/
def State.thermStop (s : State) : State :=
  let s := { s with pwr := { s.pwr with therm := 0, stopped := true, band := 2, tempo := 0 } }
  ((s.bumpFld PWR.STOPS).event 7 0 0 Status.THERM_THROTTLE 0).smbSet 4

/-- 115 °C: Nightlight stops the rails. -/
def State.thermShutdown (s : State) : State :=
  let s := ((s.raiseLife 7).stopRails.atBoot Status.THERM_SHUTDOWN).smbSet 4
  { s with pwr := { s.pwr with shutdown := true, faultPin := true } }

/-- A reading of TJ. -/
def State.takeTj (s : State) (tj : Nat) : State :=
  let s := s.setFld PWR.TJ (min tj 255)
  if 115 ≤ tj then s.thermShutdown
  else if s.pwr.stopped then
    if 102 ≤ tj then s
    else
      let s := { s with pwr := { s.pwr with stopped := false, therm := 1 } }
      (s.thermStep tj).redrain
  else if 105 ≤ tj then s.thermStop
  else s.thermStep tj

/-- VIN is within 40 to 60 V, in units of 0.1 V (R514). -/
def vinOk (vin : Nat) : Bool := decide (400 ≤ vin) && decide (vin ≤ 600)

/-- A measurement of the input (R514, R515): a step that an input fault overlapped loses POWER_OK even when the fault has
ended. In S3 the power comes from Nightlight's own monitor (R545). -/
def State.takeVin (s : State) (vin power : Nat) : State :=
  let s := s.setFld PWR.VIN (min vin 1023)
  let s := { s with pwr := { s.pwr with current := if vin = 0 then 0 else power * 10000 / vin } }
  let s := if s.awake then s else s.setFld PWR.POWER_W (min power 4095)
  if vinOk vin then
    let s := if s.pwr.range then s.losePower Status.PWR_INPUT else s
    { s with pwr := { s.pwr with range := false, input := 16 } }
  else s

/-- VIN has been out of range for 1 ms. -/
def State.inputFault (s : State) : State :=
  if s.pwr.range then s
  else
    let s := { s with pwr := { s.pwr with range := true, input := 8 } }
    ((s.losePower Status.PWR_INPUT).event 7 0 0 Status.PWR_INPUT 0).smbSet 0x2000

/-- VIN has collapsed. -/
def State.collapse (s : State) : State :=
  let s := if s.awake then
      let s := s.stopRails
      { s with pwr := { s.pwr with faultPin := true } }
    else s
  (s.atBoot Status.PWR_INPUT).smbSet 0x2000

/-- A brown-out of the Nightlight regulator (R517): the island resets, and its registers with it but for the calendar and the
counters (log 43). -/
def State.brownOut (s : State) : State :=
  let s := s.bumpFld PWR.BROWNOUTS
  let s := { s with regs := s.regs.filter (fun e => !(decide (pwrBase + 0x10 ≤ e.1) && decide (e.1 < pwrBase + 0x30))) }
  let s := s.readSettings.setFld PWR.NL_BROWNOUT 1
  { s with nl := { s.nl with storing := none, presUntil := none } }.atBoot Status.PWR_BROWNOUT

end Sys2Proof.Machine
end

