-- ==== Sys2Proof/Machine/Pins.lean ====
section
/-! DEFINITION. The rows of the connector: the BCN pins (R538), the management bus (R545), boundary scan (R546). -/
namespace Sys2Proof.Machine

/-! ### The drive token (R538) -/

/-- BCN_TOKEN_PASS: to the module of `slot`. -/
def execBcnTokenPass (slot : BitVec 3) (s : State) : Result :=
  if !s.awake || decide (s.fld BCN.BOARD = 0) then .next s
  else if slot.toNat = s.fld BCN.SLOT then .next (s.takeToken (s.count + 2))
  else if s.fld BCN.TOKEN = 1 then .next (s.passToken slot.toNat)
  else .next s

/-- BCN_TOKEN_TAKEOVER: after three due instants without an edge on the pins. -/
def execBcnTokenTakeover (s : State) : Result := if s.awake then .next (s.takeToken (s.count + 1)) else .next s

/-- BCN_WORD_RECEIVE: a driver reads its own word back, any other module of the board takes it; a broken one is a missed edge. -/
def execBcnWordReceive (word : BitVec 96) (sync : Bool) (s : State) : Result :=
  if !s.awake || decide (s.fld BCN.BOARD = 0) then .next s
  else if s.fld BCN.DRIVING = 1 then .next (s.readBack word sync)
  else if !busCrcOk word sync then .next (s.bumpFld BCN.MISSED_EDGES)
  else if sync then
    execSyncFrame 8 (BitVec.ofNat 64 (bits word.toNat 0 64)) (BitVec.ofNat 16 (bits word.toNat 64 16)) (bit word.toNat 83) s
  else s.takeWord word

/-! ### The management bus (R545) -/

/-- The answer of a read command: its bytes, low first, behind them the packet error code where the reader asked for one. -/
def State.smbAnswer (s : State) (code : BitVec 8) (bs : List Byte) (pec : Option Bool) : State :=
  let addr : Byte := BitVec.ofNat 8 (2 * (0x40 + s.fld BCN.SLOT))
  let all := match pec with
    | some _ => bs ++ [BitVec.ofNat 8 (crc8 0 ([addr, code, addr + 1] ++ bs))]
    | none => bs
  { s with pins := { s.pins with smbReply := all } }

/-- A read command, served in every state but Off. -/
def smbRead (code : BitVec 8) (bs : List Byte) (pec : Option Bool) (s : State) : Result :=
  if s.supplied then .next (s.smbAnswer code bs pec) else .next s

/-- A value in LINEAR11. -/
def linearBytes (milli : Nat) : List Byte := bytesOf (Config.linear11 milli).toNat 2

/-- CLEAR_FAULTS: with a failed packet error check it is ignored and sets CML. -/
def execClearFaults (pec : Option Bool) (s : State) : Result :=
  if !s.supplied then .next s
  else if pec = some false then .next (s.smbSet 2)
  else .next { s with pins := { s.pins with smbStatus := 0 } }

/-- STATUS_WORD. -/
def execStatusWord (pec : Option Bool) (s : State) : Result := smbRead 0x79 (bytesOf s.pins.smbStatus.toNat 2) pec s

/-- READ_VIN. -/
def execReadVin (pec : Option Bool) (s : State) : Result := smbRead 0x88 (linearBytes (100 * s.fld PWR.VIN)) pec s

/-- READ_IIN. -/
def execReadIin (pec : Option Bool) (s : State) : Result := smbRead 0x89 (linearBytes s.pwr.current) pec s

/-- READ_TEMPERATURE_1: TJ, in S3 the island's own sensor. -/
def execReadTemperature1 (pec : Option Bool) (s : State) : Result :=
  smbRead 0x8D (linearBytes (1000 * (if s.pwr.state = .s3 then s.pwr.islandTemp else s.fld PWR.TJ))) pec s

/-- READ_PIN. -/
def execReadPin (pec : Option Bool) (s : State) : Result := smbRead 0x97 (linearBytes (1000 * s.fld PWR.POWER_W)) pec s

/-- PMBUS_REVISION. -/
def execPmbusRevision (pec : Option Bool) (s : State) : Result := smbRead 0x98 [0x33] pec s

/-- MFR_WAKE: with a packet error check that holds and data 0x57 a wake event (R525), else ignored with CML set. -/
def execMfrWake (data : BitVec 8) (pec : Option Bool) (s : State) : Result :=
  if !s.supplied then .next s
  else if pec = some true ∧ data = 0x57 then .next (s.wakeIf 2)
  else .next (s.smbSet 2)

/-- MFR_STATE. -/
def execMfrState (pec : Option Bool) (s : State) : Result :=
  smbRead 0xD1 (bytesOf (if s.pwr.state = .p0 ∧ s.fld HIF.BOOT_WAIT = 1 then 5 else s.powerState.code) 1) pec s

/-- MFR_SERIAL: a block read, its byte count first. -/
def execMfrSerial (pec : Option Bool) (s : State) : Result := smbRead 0xD2 (8 :: bytesOf Config.serial.toNat 8) pec s

/-! ### Boundary scan (R546) -/

/-- The test access port works while the core rail is on. -/
def scan (body : State → State) (s : State) : Result := if s.pwr.state = .p0 then .next (body s) else .next s

/-- BYPASS: one bit, 0. -/
def State.bypass (s : State) : State := { s with pins := { s.pins with tap := 0xF, scanned := 0 } }

/-- An instruction only while READY is 0; else it acts as BYPASS. -/
def State.scanUnready (s : State) (body : State → State) : State := if s.fld HIF.READY = 0 then body s else s.bypass

/-- EXTEST: the pins take the boundary register; what the pins carry is scanned out (a free value: the register's order is not
stated). -/
def execExtest (pins : BitVec 64) (s : State) : Result :=
  scan (fun (s : State) => s.scanUnready (fun (s : State) =>
    let v := s.draw 64
    { v.2 with pins := { v.2.pins with tap := 0, boundary := pins, scanned := v.1 } })) s

/-- SAMPLE/PRELOAD. -/
def execSamplePreload (pins : BitVec 64) (s : State) : Result :=
  scan (fun (s : State) =>
    let v := s.draw 64
    { v.2 with pins := { v.2.pins with tap := 1, boundary := pins, scanned := v.1 } }) s

/-- IDCODE. -/
def execIdcode (s : State) : Result :=
  scan (fun (s : State) => { s with pins := { s.pins with tap := 2, scanned := 0x10768B47 } }) s

/-- CLAMP: the pins hold the boundary register, the bypass bit is scanned. -/
def execClamp (pins : BitVec 64) (s : State) : Result :=
  scan (fun (s : State) => s.scanUnready (fun (s : State) =>
    { s with pins := { s.pins with tap := 3, boundary := pins, scanned := 0 } })) s

/-- HIGHZ: the output pins are off, the bypass bit is scanned. -/
def execHighz (pins : BitVec 64) (s : State) : Result :=
  scan (fun (s : State) => s.scanUnready (fun (s : State) =>
    { s with pins := { s.pins with tap := 4, boundary := pins, scanned := 0 } })) s

/-- BYPASS. -/
def execBypass (s : State) : Result := scan State.bypass s

end Sys2Proof.Machine
end

