-- ==== Sys2Proof/Machine/Power.lean ====
section
/-! DEFINITION. The rows of power, clocks and thermal limits (chapter 18). VIN is given in units of 0.1 V, power in W, TJ in °C. -/
namespace Sys2Proof.Machine

/-- POWER_UP: from Off (R526, R537, R543). The boot ends with WAKE_COMPLETE. -/
def execPowerUp (slot : BitVec 3) (board vbatOk : Bool) (s : State) : Result :=
  if s.pwr.state = .off then .next (s.comeUp slot board vbatOk) else .next s

/-- REF_CLK_STABLE (R543). -/
def execRefClkStable (s : State) : Result := .next { s with pwr := { s.pwr with refStable := true } }

/-- VIN_SAMPLE (R514, R515). -/
def execVinSample (vin power : Nat) (s : State) : Result := if s.supplied then .next (s.takeVin vin power) else .next s

/-- INPUT_RANGE_FAULT (R515). -/
def execInputRangeFault (vin : Nat) (s : State) : Result := if s.awake && !vinOk vin then .next s.inputFault else .next s

/-- INPUT_COLLAPSE (R515). -/
def execInputCollapse (vin : Nat) (s : State) : Result :=
  if s.supplied && (decide (vin < 370) || decide (630 < vin)) then .next s.collapse else .next s

/-- BROWNOUT (R517). -/
def execBrownout (s : State) : Result :=
  if s.pwr.state = .s3 ∧ s.fld PWR.LOWPOWER = 1 then .next s.brownOut else .next s

/-- CAP_CONTROL (R520). -/
def execCapControl (mean mean100 : Nat) (s : State) : Result := if s.awake then .next (s.capStep mean mean100) else .next s

/-- TJ_SAMPLE (R529). In S3 the reading is that of the island's own sensor (R545; DESIGN CHOICE, log 44). -/
def execTjSample (tj : Nat) (s : State) : Result :=
  if s.awake then .next (s.takeTj tj)
  else if s.supplied then
    .next { s with pwr := { s.pwr with islandTemp := tj, shutdown := s.pwr.shutdown && decide (60 ≤ tj) } }
  else .next s

/-- HBM_LEVEL3_TIMEOUT (R529, R445). -/
def execHbmLevel3Timeout (stack : Nat) (s : State) : Result :=
  if 16 ≤ stack then .fault .noSuchUnit
  else if s.awake && decide (s.fld (HBM.TLEVEL stack) = 3) then
    let s := s.loseMember s.self.toNat
    .next { s with pwr := { s.pwr with hot := true } }
  else .next s

/-- POWER_ENTRY (R521, R522), behind the other events of its count (R261); none while the Beacon is lost (R257). -/
def execPowerEntry (s : State) : Result :=
  let s := s.runDue 5
  if !s.mayEnter ∨ s.fld BCN.STATE = 5 then .next s
  else if s.fld PWR.NEXT = 3 then .next s.enterS3 else .next s.enterS2

/-- WAKE_N (R525). -/
def execWakeN (s : State) : Result := .next (s.wakeIf 1)

/-- WAKE_AT_COUNT (R525). -/
def execWakeAtCount (s : State) : Result := if s.countAlarm then .next (s.wakeIf 0) else .next s

/-- WAKE_AT_UTC (R525). -/
def execWakeAtUtc (s : State) : Result :=
  if s.fld PWR.WAKE_UTC ≠ 0 ∧ s.utc = s.fld PWR.WAKE_UTC then .next (s.wakeIf 3) else .next s

/-- WAKE_COMPLETE (R526, R543, R544): a boot waits for REF_CLK and for the release of PWR_RST_N. -/
def execWakeComplete (s : State) : Result :=
  if !s.pwr.wake then .next s
  else if s.pwr.state = .s2 then .next s.wakeS2
  else if s.pwr.state = .s3 ∧ s.pwr.refStable ∧ !s.pwr.rst then .next s.boot
  else .next s

/-- PLL_LOCK_LOSS (R528). -/
def execPllLockLoss (pll unit : Nat) (s : State) : Result :=
  if !isPll pll unit then .fault .noSuchUnit
  else if s.awake && (decide (s.pwr.state = .p0) || (decide (pll ≠ 0) && decide (pll ≠ 3))) then .next (s.losePll pll unit)
  else .next s

/-- PLL_RELOCK (R528). -/
def execPllRelock (pll unit : Nat) (s : State) : Result :=
  if !isPll pll unit then .fault .noSuchUnit
  else if s.awake && s.pwr.unlocked.contains (pll, unit) then .next (s.gainPll pll unit) else .next s

/-- PWR_RST_N (R544, R547). -/
def execPwrRstN (s : State) : Result :=
  if !s.supplied then .next s
  else
    let s := if s.awake then s.stopRails else s
    .next { s with pwr := { s.pwr with rst := true, wake := false } }

/-- PWR_RST_RELEASE (R544). -/
def execPwrRstRelease (s : State) : Result :=
  if s.pwr.rst then .next { s with pwr := { s.pwr with rst := false } }.wakeUp else .next s

/-- INPUT_REMOVAL (R518, R533): of a live input it is a loss of input. -/
def execInputRemoval (s : State) : Result := if s.supplied then .next s.collapse.goOff else .next s

/-- HIF_PERST_N_RELEASE (R543): the host port trains; a boot that waited for it goes on. -/
def execHifPerstNRelease (s : State) : Result :=
  if !s.pwr.perst then .next s
  else
    let s := { s with pwr := { s.pwr with perst := false } }
    if !s.awake then .next s
    else if s.fld HIF.READY = 0 ∧ s.fld HIF.BOOT_WAIT = 0 then .next s.bootWait
    else .next s.trainHost

end Sys2Proof.Machine
end

