-- ==== Sys2Proof/Machine/Reliab.lean ====
section
/-! DEFINITION. The rows of tests, votes, Mirror mode and the Afterglow log (chapter 16). Tiles are named by their physical row and
column. -/
namespace Sys2Proof.Machine

/-- LOCKSTEP_DISAGREE: the pair is charged and eclipsed (R456, R459, R460). -/
def execLockstepDisagree (pair : Nat) (s : State) : Result :=
  if 4 ≤ pair then .fault .noSuchUnit
  else if !s.awake || decide (2 ≤ (s.unit (pairUnit pair)).state) then .next s
  else
    let s := s.charge (pairUnit pair) 0
    .next (if (s.unit (pairUnit pair)).state < 2 then s.eclipse (pairUnit pair) false else s)

/-- TEST_DUE (R473, R477, R479); the events that R261 places before test starts have run. -/
def execTestDue (row col : Nat) (s : State) : Result :=
  if 48 ≤ row ∨ 64 ≤ col then .fault .noSuchUnit
  else
    let s := s.ckptStarts
    if s.awake && s.isDue (row * 64 + col) then .next (s.testFallsDue (row * 64 + col)) else .next s

/-- TEST_MOVE: at a superstep boundary (R236, R474, R477); none while the Beacon is lost (R257). -/
def execTestMove (row col : Nat) (s : State) : Result :=
  if 48 ≤ row ∨ 64 ≤ col then .fault .noSuchUnit
  else
    let s := s.ckptStarts
    match s.heldTile (row * 64 + col) with
    | none => .next s
    | some _ =>
      if !s.awake || !s.isDue (row * 64 + col) || !s.betweenPhases || decide (s.fld BCN.STATE = 5) then .next s
      else .next (s.moveForTest (row * 64 + col))

/-- TILE_TEST_RESULT (R456, R457, R470, R476, R478). -/
def execTileTestResult (row col : Nat) (pass : Bool) (s : State) : Result :=
  if 48 ≤ row ∨ 64 ≤ col then .fault .noSuchUnit
  else match s.underTest (row * 64 + col) with
    | some retest => if s.awake then .next (s.endTileTest (row * 64 + col) retest pass) else .next s
    | none => .next s

/-- TEST_FORCED: a test deferred for DEFER_D days waits for the job's next checkpoint; a tile that no job holds is tested at once
(R478). A free spare takes the tile instead (R488). -/
def execTestForced (row col : Nat) (s : State) : Result :=
  if 48 ≤ row ∨ 64 ≤ col then .fault .noSuchUnit
  else
    let u := row * 64 + col
    let s := s.ckptStarts
    if !s.awake || !s.isDue u || !s.overdue u || s.rel.forced.contains u then .next s
    else if (s.heldTile u).isNone then .next (s.startTest u)
    else if (s.chooseSpare row col).isSome then .next s
    else .next { s with rel := { s.rel with forced := s.rel.forced ++ [u] } }

/-- LINK_CHANNEL_TEST: the test of an HBM channel or a Bafen port ends, with no job placed (R456, R476, R480); its time is a
free value. -/
def execLinkChannelTest (unit : BitVec 32) (pass : Bool) (s : State) : Result :=
  let u := unit.toNat
  if !isUnit u then .fault .noSuchUnit
  else if !s.awake || s.lh.cur.isSome || !(u / 2 ^ 28 == 2 || u / 2 ^ 28 == 3) || decide (2 ≤ (s.unit u).state) then .next s
  else
    let ms := s.draw 64
    .next (ms.2.endTest u ms.1.toNat ((s.underTest u).getD false) pass)

/-- SENTINEL_DIGEST (R462 to R464). -/
def execSentinelDigest (s : State) : Result :=
  match s.lh.step with
  | none => .next s
  | some st =>
    if s.awake && !st.voted && s.sentinel && !s.rel.ownDigest && s.sentinelFinal st then .next s.sendDigest else .next s

/-- DIGEST_RECEIVE (R464). -/
def execDigestReceive (member : Nat) (digest : Option (BitVec 256)) (s : State) : Result :=
  if s.awake && s.sentinel && decide (s.leader = s.self.toNat) then .next (s.takeDigest member digest) else .next s

/-- REPLICA_VERDICT: by the leader, at V - LEAD_BT (R461, R464). -/
def execReplicaVerdict (s : State) : Result :=
  match s.lh.step with
  | none => .next s
  | some st =>
    let at_ := st.vote - BitVec.ofNat 64 (s.policy NVM.LEAD_BT)
    if s.awake && !st.voted && s.sentinel && decide (s.leader = s.self.toNat) && s.rel.verdict.isNone
        && decide (ahead at_ s.count ≤ 0) then .next s.formVerdict
    else .next s

/-- VERDICT_RECEIVE (R465). -/
def execVerdictReceive (outcome : Nat) (s : State) : Result := if s.awake then .next (s.takeVerdict outcome) else .next s

/-- MIRROR_RECORD (R469, R470). -/
def execMirrorRecord (sstep : BitVec 32) (digest : BitVec 64) (tiles : List (Nat × BitVec 64)) (s : State) : Result :=
  if s.awake && s.mirrored then .next (s.takeMirror sstep.toNat digest tiles) else .next s

/-- MIRROR_REBUILD (R471): between steps. -/
def execMirrorRebuild (s : State) : Result :=
  match s.lh.rebuild with
  | none => .next s
  | some m =>
    match s.lh.jobs.find? (fun j => j.mirror && decide (j.state = .recovering) && j.lost.isEmpty && j.box.contains m) with
    | some j => if s.awake && s.lh.step.isNone then .next (s.rebuilt j m) else .next s
    | none => .next s

/-- The unit's domain is in reset (R36, R482). -/
def State.domainInReset (s : State) (u : Nat) : Bool :=
  let i := u % 2 ^ 16
  match u / 2 ^ 28 with
  | 0 => match s.tileAt (i / 64) (i % 64) with
    | some t => decide ((s.tile t).fld TILE.CORE_READY = 0) && decide ((s.tile t).fld TILE.CORE_PWR = 1)
    | none => false
  | 1 => match s.tileAt (i / 64) (i % 64) with
    | some t => !(s.tile t).rtrReady
    | none => !(s.spare i).rtrReady
  | 2 => decide (s.fld (HBM.CH_READY (i / 16) (i % 16)) = 0)
  | 3 => (s.port i).inReset
  | _ => s.lh.inReset

/-- DOMAIN_NOT_READY (R482, R457). -/
def execDomainNotReady (unit : BitVec 32) (s : State) : Result :=
  if !isUnit unit.toNat then .fault .noSuchUnit
  else if s.awake && s.domainInReset unit.toNat then .next (s.makePermanent unit.toNat 3 0) else .next s

/-- AFTERGLOW_COMMIT (R483). -/
def execAfterglowCommit (s : State) : Result := if s.awake then .next s.commitGlow else .next s

end Sys2Proof.Machine
end

