-- ==== Sys2Proof/Machine/Sync.lean ====
section
/-! DEFINITION. The SYNC class and what happens at a semaphore's home (R93 to R96, R263 to R267). -/
namespace Sys2Proof.Machine

/-! ### Format S (R86) -/
def fCNTR (w : BitVec 52) : Bool := bit w.toNat 32
def fAFTER (w : BitVec 52) : Nat := bits w.toNat 28 4
def fIMM16 (w : BitVec 52) : Nat := bits w.toNat 0 16

/-- SIG and SDEC: the count in IMM16 (which must not be 0), or in RB (R93); SIG also uses AFTER. -/
def formCount (w : BitVec 52) (after : Bool) : Form :=
  { used := [uRD, uRA, (32, 1)] ++ (if fCNTR w then [uRB] else [(0, 16)]) ++ (if after then [(28, 4)] else [])
    regs := [fRD w, fRA w] ++ (if fCNTR w then [fRB w] else [])
    legal := fCNTR w || decide (fIMM16 w ≠ 0) }

/-- SWAIT, FLARE and SREAD use RD and RA. -/
def formSem (w : BitVec 52) : Form := { used := [uRD, uRA], regs := [fRD w, fRA w] }

/-- The count of SIG and SDEC. -/
def Tile.semCount (x : Tile) (w : BitVec 52) : Nat :=
  if fCNTR w then (x.getS (fRB w)).toNat % 2 ^ 16 else fIMM16 w

/-- The virtual identifier RA[31:0]. -/
def Tile.semId (x : Tile) (w : BitVec 52) : Nat := (x.getS (fRA w)).toNat % 2 ^ 32

/-- SIG: translated, then held behind its DMA queues or behind an earlier held SIG, or sent (R93, R95, R265). -/
def execSig (t : Nat) (w : BitVec 52) (s : State) : Result :=
  issue t w (formCount w true) (fun pc s =>
    let x := s.tile t
    let n := x.semCount w
    if n = 0 then s.faultAt t Status.INSN_FIELD pc
    else match s.semTarget t (x.semId w) true with
      | none => s.putStatus t (fRD w) Status.SEM_XLAT
      | some ref =>
        let named := (fAFTER w).testBit
        let waits := (x.dma.filter (fun o => named o.que)).map (·.id)
        let fails := (x.dmaFails.filter (fun f => named f.1)).map (·.2)
        let h : HeldSig := ⟨ref, .sig n, fRD w, waits, fails⟩
        let s := s.setTile t { x.hold (fRD w) with sigsOut := x.sigsOut + 1 }
        s.sigDrain t (x.sigs ++ [h])) s

def execSwait (t : Nat) (w : BitVec 52) (s : State) : Result :=
  issue t w (formSem w) (fun _ s =>
    let x := s.tile t
    match s.semTarget t (x.semId w) false with
    | none => s.putStatus t (fRD w) Status.SEM_XLAT
    | some ref =>
      if ref.isEngine then s.putStatus t (fRD w) Status.SEM_XLAT else
      let s := s.setTile t { x with stall := .swait (fRD w) }
      s.semIssue t ref (.swait (x.fld TILE.TIMEOUT_EXP)) (fRD w)) s

/-- An operation whose answer fills RD while issue goes on. -/
def semAsk (op : SemOp) (t : Nat) (w : BitVec 52) (s : State) : State :=
  let x := s.tile t
  match s.semTarget t (x.semId w) false with
  | none => s.putStatus t (fRD w) Status.SEM_XLAT
  | some ref =>
    if ref.isEngine && decide (op ≠ .sread) then s.putStatus t (fRD w) Status.SEM_XLAT
    else (s.setTile t (x.hold (fRD w))).semIssue t ref op (fRD w)

def execSdec (t : Nat) (w : BitVec 52) (s : State) : Result :=
  issue t w (formCount w false) (fun pc s =>
    let n := (s.tile t).semCount w
    if n = 0 then s.faultAt t Status.INSN_FIELD pc else semAsk (.sdec n) t w s) s

def execFlare (t : Nat) (w : BitVec 52) (s : State) : Result :=
  issue t w (formSem w) (fun _ s => semAsk .flare t w s) s

def execSread (t : Nat) (w : BitVec 52) (s : State) : Result :=
  issue t w (formSem w) (fun _ s => semAsk .sread t w s) s

/-! ### FENCE (R96) -/

/-- Every earlier instruction of the named groups has completed. -/
def Tile.drained (t : Tile) (g : BitVec 16) : Bool :=
  (!g.getLsbD 0 || (t.vq.isEmpty && t.vbusy.isEmpty && !portHeldAny t))
  && (!g.getLsbD 1 || (t.mq.isEmpty && t.lists.isEmpty && t.running.isNone && t.astWait.isNone))
  && (!g.getLsbD 2 || t.dma.isEmpty)
  && (!g.getLsbD 3 || (t.xq.isEmpty && t.mcasts.isEmpty && t.phase.isNone && decide (t.grantsOut = 0)
      && t.wins.all (fun e => decide (e.2.st ≠ .closing))))
  && (!g.getLsbD 5 || (t.heldSigs.isEmpty && decide (t.sigsOut = 0)))
where
  /-- a parked access of the vector engine -/
  portHeldAny (t : Tile) : Bool := t.parked.any (fun p => decide (p.port = 3))

/-- The fence is passed; IFETCH discards the instruction buffer. -/
def Tile.passFence (t : Tile) (g : BitVec 16) : Tile :=
  { t with stall := .none, ibuf := if g.getLsbD 4 then [] else t.ibuf }

def formFence (w : BitVec 52) : Form :=
  { used := [(0, 16)], regs := [], legal := decide (fIMM16 w ≠ 0) && decide (fIMM16 w < 64) }

def execFence (t : Nat) (w : BitVec 52) (s : State) : Result :=
  issue t w (formFence w) (fun _ s => s.onTile t (fun x =>
    let g : BitVec 16 := w.setWidth 16
    if x.drained g then x.passFence g else { x with stall := .fence g })) s

/-- FENCE_COMPLETE: the groups have drained and issue resumes. -/
def execFenceComplete (t : Nat) (s : State) : Result :=
  if s.tileCount ≤ t then .fault .noSuchUnit
  else
    let x := s.tile t
    match x.stall with
    | .fence g => .next (if x.drained g then s.setTile t (x.passFence g) else s)
    | _ => .next s

/-! ### At the home -/

/-- The operations that one cycle brings to a home, in the order of R94. A router in reset answers each of them with
DOMAIN_RESET (R274). -/
def State.homeCycle (s : State) (t : Nat) (ms : List SemMsg) : State :=
  let x := s.tile t
  let b := semBatch [] ms
  let s := s.setTile t { x with semOps := b.2 }
  if x.rtrReady then (b.1.foldl (fun l m => semInsert m l) []).foldl (fun s m => s.semApply t m) s
  else b.1.foldl (fun s m => s.semAnswer m (Status.DOMAIN_RESET.setWidth 64)) s

/-- SEM_OP_AT_HOME: one cycle's operations are applied. -/
def execSemOpAtHome (t : Nat) (s : State) : Result :=
  if s.tileCount ≤ t then .fault .noSuchUnit else .next (s.homeCycle t (s.tile t).semOps)

/-- A release goes back to its home in another module (R267): the packet of a semaphore operation with a code of its own
(DESIGN CHOICE, log 14). -/
def State.sendReturned (s : State) (t : Nat) (hmod : BitVec 14) (home entry : Nat) : State :=
  s.sendRequest t { type := 5, vc := 3, dst := moduleCoord s.shape hmod.toNat, src := 0, dstTile := home }
    (returnedBytes entry) (.reply (s.stamp t) 0 0 .value) (.reply (s.stamp t) 0 0 .value)

/-- SEM_RELEASE_DELIVERY: the first release in the mail of the waiter's tile completes its SWAIT, or goes back to the home
when the core's epoch has changed since (R267). -/
def execSemReleaseDelivery (t : Nat) (s : State) : Result :=
  if s.tileCount ≤ t then .fault .noSuchUnit
  else
    let x := s.tile t
    match takeFirst (fun m => match m with | .semRelease _ _ _ _ => true | _ => false) x.mail with
    | some (.semRelease away home entry wt, rest) =>
      let x := { x with mail := rest }
      if wt.st.epoch.toNat = x.fld TILE.CORE_EPOCH ∧ x.fld TILE.CORE_READY = 1 then
        .next (s.setTile t (match x.stall with
          | .swait _ => { x.putS wt.rd 0 with stall := .none }
          | _ => x))
      else match away with
        | none => .next ((s.setTile t x).send home (.semReturned entry))
        | some m => .next ((s.setTile t x).sendReturned t m home entry)
    | _ => .next s

/-- RETURNED_RELEASE: the home applies it as a SIG of count 1 of its own, with the other operations of the cycle (R94,
R267). -/
def execReturnedRelease (t : Nat) (s : State) : Result :=
  if s.tileCount ≤ t then .fault .noSuchUnit
  else
    let x := s.tile t
    match takeFirst (fun m => match m with | .semReturned _ => true | _ => false) x.mail with
    | some (.semReturned entry, rest) =>
      .next ((s.setTile t { x with mail := rest }).homeCycle t (⟨s.self, s.stamp t, entry, .sig 1, 0, none, true, none⟩ :: x.semOps))
    | _ => .next s

/-- SEM_TIMEOUT: the timeout of waiter `i` of an entry expires, and it leaves the queue (R93). -/
def execSemTimeout (t entry i : Nat) (s : State) : Result :=
  if s.tileCount ≤ t ∨ 64 ≤ entry then .fault .noSuchUnit
  else
    let e := s.sem t entry
    match e.waiters[i]? with
    | none => .next s
    | some w =>
      .next ((s.setSem t entry { e with waiters := e.waiters.eraseIdx i }).semAnswer
        ⟨w.module, w.st, entry, .swait w.exp, w.rd, w.away, false, none⟩ (Status.SEM_TIMEOUT.setWidth 64))

/-- SIG_BUFFER_RELEASE: the SIGs at the head of the buffer whose DMA operations have ended leave it (R95). -/
def execSigBufferRelease (t : Nat) (s : State) : Result :=
  if s.tileCount ≤ t then .fault .noSuchUnit else .next (s.sigDrain t (s.tile t).sigs)

end Sys2Proof.Machine
end

