-- ==== Sys2Proof/Machine/Txn.lean ====
section
/-! DEFINITION. The TXN class but VETO and GENRD, and what reaches a transaction's targets (R97, R232, R233, R548). -/
namespace Sys2Proof.Machine

def formTxopen (w : BitVec 52) : Form := { used := [uRD], regs := [fRD w] }
def formHandle (w : BitVec 52) : Form := { used := [uRD, uIMM32], regs := [fRD w] }

/-- The lowest free handle opens; RD[17:16] is the handle. -/
def execTxopen (t : Nat) (w : BitVec 52) (s : State) : Result :=
  issue t w (formTxopen w) (fun _ s =>
    match [0, 1, 2, 3].find? (fun h => (s.tile t).txn h = {}) with
    | none => s.putStatus t (fRD w) Status.TXN_LIMIT
    | some h =>
      let r := s.key
      (r.2.onTile t (fun x => x.setTxn h { st := .opened, key := r.1 })).putS t (fRD w) (BitVec.ofNat 64 (h * 2 ^ 16))) s

/-- Accepted on an open or a cancelled handle; a cancelled one completes with its status and index. -/
def execTxrel (t : Nat) (w : BitVec 52) (s : State) : Result :=
  issue t w (formHandle w) (fun _ s =>
    let h := fIMM32 w
    let y := (s.tile t).txn h
    if 4 ≤ h ∨ y.canRd ≠ none then s.putStatus t (fRD w) Status.TXN_STATE
    else match y.st with
      | .opened =>
        (s.onTile t (fun x => (x.hold (fRD w)).setTxn h { y with st := .releasing, relRd := some (fRD w) })).txnSettle1 t h
      | .cancelled => s.onTile t (fun x => (x.setTxn h {}).txnDone (fRD w) (relResult y.status y.index))
      | _ => s.putStatus t (fRD w) Status.TXN_STATE) s

/-- Accepted on an open, releasing or cancelled handle. -/
def execTxcan (t : Nat) (w : BitVec 52) (s : State) : Result :=
  issue t w (formHandle w) (fun _ s =>
    let h := fIMM32 w
    let y := (s.tile t).txn h
    if 4 ≤ h ∨ y.canRd ≠ none ∨ y.st = .free then s.putStatus t (fRD w) Status.TXN_STATE
    else (s.onTile t (fun x =>
      (x.hold (fRD w)).setTxn h { y with st := .cancelled, canRd := some (fRD w) })).txnSettle1 t h) s

/-- TXN_TIMEOUT: handle `h`'s timeout expires (R548). The index is the lowest target not acknowledged, or 0xFFF. -/
def execTxnTimeout (t h : Nat) (s : State) : Result :=
  if s.tileCount ≤ t ∨ 4 ≤ h then .fault .noSuchUnit
  else
    let y := (s.tile t).txn h
    if y.canRd ≠ none then .next s
    else .next (s.txnCancel t h Status.MCAST_TIMEOUT
      (BitVec.ofNat 12 (y.open_.foldl (fun m u => min m u) 0xFFF)))

/-- TXN_RELEASE_ARRIVAL: the first release in the target's mail. -/
def execTxnReleaseArrival (t : Nat) (s : State) : Result :=
  if s.tileCount ≤ t then .fault .noSuchUnit
  else
    let x := s.tile t
    match takeFirst (fun m => match m with | .txnRelease _ _ => true | _ => false) x.mail with
    | some (.txnRelease o k, rest) => .next (s.setTile t ({ x with mail := rest }.applyRelease (o, k)))
    | _ => .next s

/-- DARK_COPY_DROP: the first drop in the target's mail. -/
def execDarkCopyDrop (t : Nat) (s : State) : Result :=
  if s.tileCount ≤ t then .fault .noSuchUnit
  else
    let x := s.tile t
    match takeFirst (fun m => match m with | .drop _ _ => true | _ => false) x.mail with
    | some (.drop o k, rest) => .next ((s.setTile t ({ x with mail := rest }.applyDrop (o, k))).dropArrived o k)
    | _ => .next s

end Sys2Proof.Machine
end

