-- ==== Sys2Proof/Machine/Vector.lean ====
section
/-! DEFINITION. VLD, VST and the VEC class (R91, R174, R179). -/
namespace Sys2Proof.Machine

def execVld (t : Nat) (w : BitVec 52) (s : State) : Result := issueVec t 2 3 w (formAccess w 3) s
def execVst (t : Nat) (w : BitVec 52) (s : State) : Result := issueVec t 2 4 w (formAccess w 2) s

def execVadd (t : Nat) (w : BitVec 52) (s : State) : Result := issueVec t 3 1 w (formV2 w laneAll) s
def execVsub (t : Nat) (w : BitVec 52) (s : State) : Result := issueVec t 3 2 w (formV2 w laneAll) s
def execVmul (t : Nat) (w : BitVec 52) (s : State) : Result := issueVec t 3 3 w (formV2 w laneAll) s
def execVfma (t : Nat) (w : BitVec 52) (s : State) : Result := issueVec t 3 4 w (formV3 w 4 laneFloats) s
def execVlerp (t : Nat) (w : BitVec 52) (s : State) : Result := issueVec t 3 5 w (formV3 w 2 laneFloats) s
def execVmin (t : Nat) (w : BitVec 52) (s : State) : Result := issueVec t 3 6 w (formV2 w laneAll) s
def execVmax (t : Nat) (w : BitVec 52) (s : State) : Result := issueVec t 3 7 w (formV2 w laneAll) s
def execVabs (t : Nat) (w : BitVec 52) (s : State) : Result := issueVec t 3 8 w (formV1 w laneAll) s
/-- VMOV: d ← b; VA is not used. -/
def execVmov (t : Nat) (w : BitVec 52) (s : State) : Result :=
  issueVec t 3 9 w (formVec w [uRD, uRB, (12, 1)] (if bcastB w then [fRB w] else []) [0, 1, 2, 3, 4, 5, 9, 0xA]) s
def execVand (t : Nat) (w : BitVec 52) (s : State) : Result := issueVec t 3 0xA w (formV2 w [0xA]) s
def execVor (t : Nat) (w : BitVec 52) (s : State) : Result := issueVec t 3 0xB w (formV2 w [0xA]) s
def execVxor (t : Nat) (w : BitVec 52) (s : State) : Result := issueVec t 3 0xC w (formV2 w [0xA]) s
/-- VCMP: VD names a predicate register, VC[2:0] a condition 0 to 6. -/
def execVcmp (t : Nat) (w : BitVec 52) (s : State) : Result :=
  issueVec t 3 0xE w (formVec w [uRD, uRA, uRB, uRC, (12, 1)] (if bcastB w then [fRB w] else []) [0, 1, 0xA]
    (decide (fRD w < 8) && decide (fRC w < 7))) s
def execVtrn (t : Nat) (w : BitVec 52) (s : State) : Result := issueVec t 3 0xF w (formV1 w [1, 0xA]) s

/-- The formats VCVT converts between (R178). -/
def convertible : List Nat := [0, 1, 2, 3, 4, 5, 9, 0xA]

/-- VCVT: SUB is the target, VB the part, below the number of narrow elements in a wide one. -/
def execVcvt (t : Nat) (w : BitVec 52) (s : State) : Result :=
  let a := fmtWidth (fFMT w)
  let b := fmtWidth (fSUB w)
  issueVec t 3 0x10 w (formVec w [uRD, uRA, uRB, uSUB] [] convertible
    (convertible.contains (fSUB w) && decide (fRB w < 16) && decide (fRB w * min a b < max a b))) s

def execVdiv (t : Nat) (w : BitVec 52) (s : State) : Result := issueVec t 3 0x18 w (formV2 w laneFloats) s
def execVsqrt (t : Nat) (w : BitVec 52) (s : State) : Result := issueVec t 3 0x19 w (formV1 w laneFloats) s
def execVrsqrt (t : Nat) (w : BitVec 52) (s : State) : Result :=
  issueVec t 3 0x1A w (formV2 w [1, 2, 3] (decide (fRND w ≤ 1))) s
def execVrcp (t : Nat) (w : BitVec 52) (s : State) : Result := issueVec t 3 0x1B w (formFn w [1, 2, 3]) s
def execVexp (t : Nat) (w : BitVec 52) (s : State) : Result := issueVec t 3 0x1C w (formFn w laneFloats) s
def execVexp2 (t : Nat) (w : BitVec 52) (s : State) : Result := issueVec t 3 0x1D w (formFn w [1, 2, 3]) s
def execVlog (t : Nat) (w : BitVec 52) (s : State) : Result := issueVec t 3 0x1E w (formFn w laneFloats) s
def execVlog2 (t : Nat) (w : BitVec 52) (s : State) : Result := issueVec t 3 0x1F w (formFn w [1, 2, 3]) s
def execVtanh (t : Nat) (w : BitVec 52) (s : State) : Result := issueVec t 3 0x20 w (formFn w [1, 2, 3]) s
def execVlgst (t : Nat) (w : BitVec 52) (s : State) : Result := issueVec t 3 0x21 w (formFn w [1, 2, 3]) s
def execVerf (t : Nat) (w : BitVec 52) (s : State) : Result := issueVec t 3 0x22 w (formFn w [1, 2, 3]) s
def execVsin (t : Nat) (w : BitVec 52) (s : State) : Result := issueVec t 3 0x23 w (formFn w [1, 2, 3]) s
def execVcos (t : Nat) (w : BitVec 52) (s : State) : Result := issueVec t 3 0x24 w (formFn w [1, 2, 3]) s

/-- VC is 0, or names a predicate with VC[3] = 1 (R181, R182). -/
def partOk (w : BitVec 52) : Bool := decide (fRC w = 0) || (usesVC w && decide (fRC w < 16))

def execVred (t : Nat) (w : BitVec 52) (s : State) : Result :=
  issueVec t 3 0x30 w (formVec w [uRD, uRA, uRC, (12, 3)] [] [0, 1, 0xA] (partOk w)) s
/-- VSCAN: CARRY with EXCL is forbidden; VB is used with CARRY. -/
def execVscan (t : Nat) (w : BitVec 52) (s : State) : Result :=
  issueVec t 3 0x31 w (formVec w ([uRD, uRA, uRC, (12, 3)] ++ (if bit (fSUB w) 2 then [uRB] else [])) [] [0, 1, 0xA]
    (partOk w && !(bit (fSUB w) 1 && bit (fSUB w) 2))) s
/-- VCENS: VB names the scalar register of the record's offset; SUB[0] replaces the record. -/
def execVcens (t : Nat) (w : BitVec 52) (s : State) : Result :=
  issueVec t 3 0x38 w (formVec w [uRA, uRB, (12, 1)] [fRB w] [0, 1, 2, 3, 4, 5, 9]) s
def execVscale (t : Nat) (w : BitVec 52) (s : State) : Result :=
  issueVec t 3 0x40 w (formPass w [uFMT, uRND] (fmtIn w [1, 2])) s
def execVladd (t : Nat) (w : BitVec 52) (s : State) : Result := issueVec t 3 0x41 w (formPass w [] true) s

end Sys2Proof.Machine
end

