-- ==== Sys2Proof/Machine/Xch.lean ====
section
/-! DEFINITION. The XCH class, windows, credits, remote writes and reads, compiled phases (chapters 02 and 08). -/
namespace Sys2Proof.Machine

/-- An XCH instruction enters the exchange queue with the values its register fields name and, where it has them (`sync`), the
semaphore of its SYNCM and the transaction of its TX as they are at issue (R95, R548); the queue then runs. -/
def enqueueXch (op : Nat) (a b c : Nat) (sync : Bool) (t : Nat) (w : BitVec 52) (pc : BitVec 20) (s : State) : State :=
  let x := s.tile t
  let q : QInsn := {
    cls := 6, op := op, w := w, pc := pc, a := x.getS a, b := x.getS b, c := x.getS c, ord := (x.vecs, x.mats)
    txn := if sync && fTX w then some (x.named (fTXH w)) else none
    sem := if sync then (s.syncTarget t w).getD none else none }
  let s := s.setTile t { x.hold (fRD w) with xq := x.xq ++ [q] }
  s.xqRun t

/-- Room in the exchange queue (R80). -/
def Tile.xroom (t : Tile) : Bool := decide (t.xq.length < 16)

def formXstart (x : Tile) (w : BitVec 52) : Form :=
  { used := [uRD, uRA, uRB, (32, 1)] ++ usedSyncTx w, regs := [fRD w, fRA w, fRB w] ++ regsSync w
    legal := fSCHED w && decide (fSYNCM w ≠ 3), room := x.xroom }
def formXsend (x : Tile) (w : BitVec 52) : Form :=
  { used := [uRD, uRA] ++ usedSyncTx w, regs := [fRD w, fRA w] ++ regsSync w, legal := decide (fSYNCM w ≠ 3)
    room := x.xroom }

/-- XSTART: SYNCM is translated at issue; the rest waits for its turn in the queue (R212, R213). -/
def execXstart (t : Nat) (w : BitVec 52) (s : State) : Result :=
  issue t w (formXstart (s.tile t) w) (fun pc s =>
    if s.syncTarget t w = some none then s.putStatus t (fRD w) Status.SEM_XLAT
    else enqueueXch 0x01 (fRA w) (fRB w) (fRCd w) true t w pc s) s

/-- XSEND: RA follows the limits of R98 (R101). -/
def execXsend (t : Nat) (w : BitVec 52) (s : State) : Result :=
  issue t w (formXsend (s.tile t) w) (fun pc s =>
    if !descOffOk ((s.tile t).getS (fRA w)) then s.faultAt t Status.INSN_FIELD pc
    else if s.syncTarget t w = some none then s.putStatus t (fRD w) Status.SEM_XLAT
    else enqueueXch 0x03 (fRA w) 0 (fRCd w) true t w pc s) s

/-- XWAIT: RD takes the phase status when the phase ends; with no phase, the status of the last one that ended. -/
def execXwait (t : Nat) (w : BitVec 52) (s : State) : Result :=
  issue t w { used := [uRD], regs := [fRD w] } (fun _ s =>
    s.onTile t (fun x => { x with stall := .xwait (fRD w) }.xwaitSettle)) s

def formWopen (x : Tile) (w : BitVec 52) : Form :=
  { used := [uRD, uRA, uRB, uIMM12], regs := [fRD w, fRA w, fRB w], legal := decide (fIMM12 w < 128), room := x.xroom }
def formWclose (x : Tile) (w : BitVec 52) : Form :=
  { used := [uRD, uIMM12], regs := [fRD w], legal := decide (fIMM12 w < 64), room := x.xroom }
def formWgrant (x : Tile) (w : BitVec 52) : Form :=
  { used := [uRD, uRA, uRB, uIMM12], regs := [fRD w, fRA w, fRB w], legal := decide (fIMM12 w < 64), room := x.xroom }

def execWopen (t : Nat) (w : BitVec 52) (s : State) : Result :=
  issue t w (formWopen (s.tile t) w) (fun pc s => enqueueXch 0x10 (fRA w) (fRB w) 0 false t w pc s) s
def execWclose (t : Nat) (w : BitVec 52) (s : State) : Result :=
  issue t w (formWclose (s.tile t) w) (fun pc s => enqueueXch 0x11 0 0 0 false t w pc s) s
/-- WGRANT: bits of RA outside its two fields must be 0 (R90). -/
def execWgrant (t : Nat) (w : BitVec 52) (s : State) : Result :=
  issue t w (formWgrant (s.tile t) w) (fun pc s =>
    let a := ((s.tile t).getS (fRA w)).toNat
    if bits a 12 4 ≠ 0 ∨ bits a 30 34 ≠ 0 then s.faultAt t Status.INSN_FIELD pc
    else enqueueXch 0x12 (fRA w) (fRB w) 0 false t w pc s) s

/-! ### At a window's tile -/

/-- The receive count that a compiled write adds to (R215): the state, and whether it adds to none. A write that comes before its
phase has started waits to be counted then. -/
def State.countReceive (s : State) (t : Nat) (stamp : BitVec 32) (k : Nat) : State × Bool :=
  let x := s.tile t
  let now : BitVec 64 := x.rd TILE.SSTEP.off
  let at_ := extend stamp now
  if at_ = now then
    match x.phase.filter (fun p => p.started) with
    | some p =>
      if p.nrecv < x.recv0 + k then (s, true) else (s.setTile t { x with recv0 := x.recv0 + k }, false)
    | none => (s.setTile t { x with early := x.early ++ [k] }, false)
  else if at_ = now + 1 then (s.setTile t { x with recv1 := x.recv1 ++ [k] }, false)
  else (s, true)

/-- A compiled write of `k` slots adds to its receive count; one that adds to none is reported with EXCH_PROGRAM (R215, R218). -/
def State.countWrite (s : State) (t : Nat) (w : RemoteWrite) (k : Nat) : State :=
  match w.sstep with
  | none => s
  | some st =>
    let r := s.countReceive t st k
    if r.2 then r.1.reportPhase t Status.EXCH_PROGRAM none else r.1

/-- A write that another write's hold on its queue window keeps waiting (R233): any but the check of the window's state. -/
def Window.holds (d : Window) (w : RemoteWrite) : Bool :=
  d.queue && d.held.isSome && decide (d.st = .opened) && decide (w.gen = d.gen)

/-- The sender of a write clears its credit entry for a window that has refused it with WIN_CLOSED (R67). -/
def State.tellClosed (s : State) (t : Nat) (w : RemoteWrite) : State :=
  match w.sender with
  | .dma st _ => s.send st.tile (.winClosed s.self t w.win)
  | .record st _ _ => s.send st.tile (.winClosed s.self t w.win)
  | .message st _ => s.send st.tile (.winClosed s.self t w.win)
  | .mcast st _ => s.send st.tile (.winClosed s.self t w.win)
  | _ => s

/-- A write that tile `t` refuses with `c`, or lands: window, tags or dark bits (R60, R61, R232, R233). -/
def State.landWrite (s : State) (t : Nat) (w : RemoteWrite) (c : BitVec 16) (f : Option Nat) (k : Nat) : State :=
  let x := s.tile t
  let d := x.window w.win
  if c ≠ 0 then s.setTile t (x.setWindow w.win { d with refused := BitVec.ofNat 16 (bump 16 d.refused.toNat) })
  else
    let xs := d.landing f k
    let y := x.writeSlots xs w.data
    s.setTile t (match w.dark with
      | none => (y.fillTags xs).setWindow w.win (d.advance k)
      | some key => (y.setDark xs (some key)).setWindow w.win (if d.queue then { d with held := some key } else d))

/-- REMOTE_WRITE_CHECK: the write at the head of port 0 is checked and lands whole, or is refused (R60, R61, R232,
R233). A copy of a transaction that is over is dropped (R548). A dark compiled copy is counted as it lands, a dropped one as it
comes: neither sets tags in that cycle (DESIGN CHOICE, log 104). -/
def execRemoteWriteCheck (t : Nat) (s : State) : Result :=
  if s.tileCount ≤ t then .fault .noSuchUnit
  else
    let x := s.tile t
    match x.writes with
    | [] => .next s
    | w :: rest =>
      let d := x.window w.win
      let k := (w.data.length + 255) / 256
      let s' := s.setTile t { x with writes := rest }
      if x.fld TILE.CORE_READY ≠ 1 then .next (s'.answerTo w.sender t Status.DOMAIN_RESET w.dark)
      else if w.dark.any (fun key => !s.darkLive key) then .next ((s'.countWrite t w k).answerTo w.sender t 0 none)
      else if d.holds w then
        (if x.heldWrites.length < 8 then
          .next (s.setTile t { x with writes := rest, heldWrites := x.heldWrites ++ [w] })
        else .next s)
      else
        let f := if w.absolute then (if d.base ≤ w.first then some (w.first - d.base) else none) else some w.first
        let c := x.checkWrite d w.gen f k
        let s := s'.landWrite t w c f k
        let s := match w.sstep with
          | none => s
          | some _ =>
            (if c = 0 then s else (s.onTile t (fun x => x.bumpFld TILE.OVERRUNS)).reportPhase t c none).countWrite t w k
        let s := s.answerTo w.sender t c w.dark
        .next ((if c = Status.WIN_CLOSED then s.tellClosed t w else s).chargeSpad t c)

/-- REMOTE_READ: the read request at the head of the queue is served from the scratchpad (R43). -/
def execRemoteRead (t : Nat) (s : State) : Result :=
  if s.tileCount ≤ t then .fault .noSuchUnit
  else
    let x := s.tile t
    match x.reads with
    | [] => .next s
    | r :: rest =>
      let x := { x with reads := rest }
      let v := if x.fld TILE.CORE_READY = 1 then x.spadRead (r.addr.toNat % 0x10_0000) r.len
        else (x, Status.DOMAIN_RESET, [])
      let s := (s.setTile t v.1).chargeSpad t v.2.1
      match r.sender, r.dst with
      | .message st _, some d => .next (s.send st.tile (.load st d r.pc v.2.1 v.2.2))
      | .away dirs coord st tag, _ =>
        .next (s.sendReply {
          type := if v.2.1 = 0 then 2 else 4, vc := 1, dst := coord.toNat, src := s.coord, dirs := dirs, dstTile := st.tile
          srcTile := t, tag := tag.toNat, status := v.2.1.toNat, len := v.2.2.length, epoch := st.epoch.toNat
          bcn := st.low.toNat } v.2.2)
      | _, _ => .next s

/-- QUEUE_TAIL_ADVANCE: the tail passes its slot (R62). -/
def execQueueTailAdvance (t win : Nat) (s : State) : Result :=
  if s.tileCount ≤ t ∨ 64 ≤ win then .fault .noSuchUnit
  else
    let x := s.tile t
    let d := x.window win
    let slot := d.base + d.tail
    if d.queue && decide (0 < d.occupied) && !x.full slot && !x.isDark slot then
      .next (s.setTile t (x.setWindow win { d with tail := (d.tail + 1) % d.len, occupied := d.occupied - 1 }))
    else .next s

/-- WCLOSE_COMPLETE: a closing window is closed; the WCLOSE that closed it completes (R69). -/
def execWcloseComplete (t win : Nat) (s : State) : Result :=
  if s.tileCount ≤ t ∨ 64 ≤ win then .fault .noSuchUnit
  else
    let x := s.tile t
    let d := x.window win
    if d.st ≠ .closing then .next s
    else
      let x := x.setWindow win { d with st := .closed }
      match x.closing with
      | some (v, rd) =>
        if v = win then .next ((s.setTile t { x.complete rd 0 with closing := none }).xqRun t)
        else .next (s.setTile t x)
      | none => .next (s.setTile t x)

/-! ### Credits -/

/-- What a grant does to a credit table (R66): none where it is returned. -/
def grantTable (cs : List Credit) (m : BitVec 14) (tile win : Nat) (g : BitVec 16) (k : Nat) : Option (List Credit) :=
  if cs.any (fun c => c.is m tile win) then
    some (cs.map (fun c => if c.is m tile win then
      (if c.gen = g then { c with count := c.count + k } else { c with gen := g, count := k }) else c))
  else if cs.length < 64 then some (cs ++ [⟨m, tile, win, g, k⟩])
  else none

/-- GRANT_MESSAGE: the first grant in the sender's mail fills its credit table, or is returned (R66); a core in reset answers it
with DOMAIN_RESET (R38). -/
def execGrantMessage (t : Nat) (s : State) : Result :=
  if s.tileCount ≤ t then .fault .noSuchUnit
  else
    let x := s.tile t
    match takeFirst Msg.isGrant x.mail with
    | some (.grant m target win g k rd st away, rest) =>
      let s := s.setTile t { x with mail := rest }
      if x.fld TILE.CORE_READY ≠ 1 then .next (s.answerGrant st away Status.DOMAIN_RESET (.grantBack win g k rd st Status.DOMAIN_RESET))
      else match grantTable x.credits m target win g k with
      | some cs =>
        let s := s.onTile t (fun x => { x with credits := cs })
        .next ((s.answerGrant st away 0 (.grantPlaced rd st)).xqRun t)
      | none =>
        let c := Status.CREDIT_TABLE_FULL
        .next (s.answerGrant st away c (.grantBack win g k rd st c))
    | _ => .next s

/-- GRANT_RETURN: POOL gets the credits back and the WGRANT completes with CREDIT_TABLE_FULL (R66), or with the status that
refused it (DESIGN CHOICE, log 103). A grant of an older generation has no credits to give back (R70). -/
def execGrantReturn (t : Nat) (s : State) : Result :=
  if s.tileCount ≤ t then .fault .noSuchUnit
  else
    let x := s.tile t
    match takeFirst (fun m => match m with | .grantBack _ _ _ _ _ _ => true | _ => false) x.mail with
    | some (.grantBack win g k rd st c, rest) =>
      let x := { x with mail := rest }
      if x.stale s.count st then .next (s.setTile t (x.bumpFld TILE.STALE_REPLIES))
      else
        let d := x.window win
        let x := if d.gen = g then x.setWindow win { d with granted := d.granted - k } else x
        .next (s.setTile t { x.complete rd (c.setWidth 64) with grantsOut := x.grantsOut - 1 })
    | _ => .next s

/-- WIN_CLOSED_REFUSAL: the credit entry for that target and window is cleared (R67). -/
def execWinClosedRefusal (t : Nat) (s : State) : Result :=
  if s.tileCount ≤ t then .fault .noSuchUnit
  else
    let x := s.tile t
    match takeFirst (fun m => match m with | .winClosed _ _ _ => true | _ => false) x.mail with
    | some (.winClosed module target win, rest) =>
      .next (s.setTile t { x with
        mail := rest, credits := x.credits.filter (fun c => !c.is module target win) })
    | _ => .next s

/-- CREDIT_TIMEOUT: a unicast XSEND that waits for credit at the head of the queue ends, sending nothing (R64). -/
def execCreditTimeout (t : Nat) (s : State) : Result :=
  if s.tileCount ≤ t then .fault .noSuchUnit
  else
    let x := s.tile t
    match x.xq with
    | q :: rest =>
      if q.op = 0x03 ∧ x.creditWait = true then
        let x := ({ x with xq := rest, creditWait := false }.complete (fRD q.w) (Status.CREDIT_TIMEOUT.setWidth 64)).bumpFld
          TILE.TIMEOUTS
        .next ((s.setTile t (x.post 3)).xqRun t)
      else .next s
    | [] => .next s

/-- MCAST_BRANCH_RESUME: stalled branches that now have credit leave (R231). -/
def execMcastBranchResume (t id : Nat) (s : State) : Result :=
  if s.tileCount ≤ t then .fault .noSuchUnit
  else match (s.tile t).mcasts.find? (fun m => m.key = id) with
    | none => .next s
    | some m => .next ((s.resumeBranches t id true m.stalled).xqRun t)

/-- MCAST_TIMEOUT: the multicast is cancelled; the index is the lowest target that has not acknowledged (R231). -/
def execMcastTimeout (t id : Nat) (s : State) : Result :=
  if s.tileCount ≤ t then .fault .noSuchUnit
  else match (s.tile t).mcasts.find? (fun m => m.key = id && m.multi) with
    | none => .next s
    | some m =>
      let late := (m.stalled ++ m.sent).foldl (fun i u => min i u.1) 0xFFF
      .next (((s.onTile t (fun x => x.bumpFld TILE.MC_TIMEOUTS)).mcCancel t m Status.MCAST_TIMEOUT late).xqRun t)

/-! ### Compiled phases -/

/-- The receive count after the writes that came early have been tested one by one: those that would take it above NRECV add
nothing (R215), and how many they are. -/
def takeEarly (nrecv : Nat) : Nat → List Nat → Nat × Nat
  | n, [] => (n, 0)
  | n, k :: ks =>
    if nrecv < n + k then
      let r := takeEarly nrecv n ks
      (r.1, r.2 + 1)
    else takeEarly nrecv (n + k) ks

/-- PHASE_START: an accepted phase starts once the count has reached its start count (R213). Each write carried forward that
would exceed NRECV is reported (R215, R218). -/
def execPhaseStart (t : Nat) (s : State) : Result :=
  if s.tileCount ≤ t then .fault .noSuchUnit
  else
    let x := s.tile t
    match x.phase with
    | none => .next s
    | some p =>
      if p.started || decide (ahead p.start s.count > 0) || decide (x.fld TILE.CORE_READY = 0)
        || decide (s.fld BCN.STATE = 5) then .next s
      else
        let n := takeEarly p.nrecv x.recv0 x.early
        let x := { x with phase := some { p with started := true, startCycle := s.cycle }, recv0 := n.1, early := [] }
        let s := s.setTile t (x.setFld TILE.LATE_START (ofBool p.late))
        .next ((List.range n.2).foldl (fun s _ => s.reportPhase t Status.EXCH_PROGRAM none) s)

/-- Record `i` of a program. -/
def Tile.record' (t : Tile) (p : Phase) (i : Nat) : Nat := ofBytes (readRun 0 t.spad (p.prog + 64 + 32 * i) 32)

/-- The record that is served next: the lowest ISSUE, then the lowest number (R222). -/
def Tile.nextRecord (t : Tile) (p : Phase) : Option Nat :=
  ((List.range p.nsend).filter (fun i => !p.issued.contains i)).foldl (fun best i =>
    match best with
    | none => some i
    | some b => if bits (t.record' p i) 32 32 < bits (t.record' p b) 32 32 then some i else some b) none

/-- The targets of a record: target, window, generation, first slot; or the status that ends it (R220, R221). -/
def State.recordTargets (s : State) (t r : Nat) : BitVec 16 × List (Nat × Nat × Nat × Nat) :=
  let form := bits r 70 2
  let src := bits r 0 20
  let len := (bits r 64 5 + 1) * 256
  let tgt := bits r 128 12
  let remote := bit r 154
  let same : Nat × Nat × Nat := (bits r 72 6, bits r 80 16, bits r 96 12)
  let resv := bits r 20 12 ≠ 0 || bits r 78 2 ≠ 0 || bits r 108 20 ≠ 0 || bits r 155 5 ≠ 0 || bits r 186 70 ≠ 0
  let badSrc := src % 64 ≠ 0 || spadSize < src + len
  if resv || form = 3 then (Status.MCAST_FORM, [])
  else if form = 0 then
    if bits r 160 26 ≠ 0 || (!remote && bits r 140 14 ≠ 0) then (Status.MCAST_FORM, [])
    else if badSrc || (!remote && s.tileCount ≤ tgt) then (Status.EXCH_PROGRAM, [])
    else (0, [(tgt, same)])
  else if form = 1 then
    let r0 := bits r 160 6
    let r1 := bits r 166 6
    let c0 := bits r 172 6
    let c1 := bits r 178 6
    if bits r 128 27 ≠ 0 || bits r 184 2 ≠ 0 || r1 < r0 || c1 < c0 || 47 < r1 || 59 < c1 then (Status.MCAST_FORM, [])
    else if badSrc || s.tileCount ≤ r1 * 60 + c1 then (Status.EXCH_PROGRAM, [])
    else
      (0, (((List.range (r1 + 1 - r0)).flatMap (fun i => (List.range (c1 + 1 - c0)).map (fun j =>
        (r0 + i) * 60 + c0 + j))).filter (fun u => decide (u ≠ t))).map (fun u => (u, same)))
  else
    let off := bits r 160 20
    let n := bits r 180 6 + 1
    if bits r 72 36 ≠ 0 || bits r 128 27 ≠ 0 then (Status.MCAST_FORM, [])
    else if badSrc || off % 64 ≠ 0 || spadSize < off + 8 * n then (Status.EXCH_PROGRAM, [])
    else
      let l := (s.tile t).spadRead off (8 * n)
      let es := listEntries l.2.2 n
      if l.2.1 ≠ 0 then (l.2.1, [])
      else if es.any (fun e => e.2.2.2.2) || es.any (fun e => e.1 = t) || (es.map (·.1)).eraseDups.length ≠ es.length then
        (Status.MCAST_FORM, [])
      else if es.any (fun e => s.tileCount ≤ e.1) then (Status.EXCH_PROGRAM, [])
      else (0, es.map (fun e => (e.1, e.2.1, e.2.2.1, e.2.2.2.1)))

/-- A record is answered once no copy of it is out; its status counts for the phase. -/
def State.recordAnswered (s : State) (t i : Nat) (c : BitVec 16) : State :=
  let s := s.onTile t (fun x => { x with phase := x.phase.map (fun p =>
    if p.waiting.any (fun e => e.1 = i) then p else { p with answered := p.answered ++ [i] }) })
  s.phaseStatus t c (some i)

/-- SEND_RECORD_ISSUE: the next record is checked and its copies leave (R221, R222, R229); copies of a multicast are never
dark (R229). -/
def execSendRecordIssue (t : Nat) (s : State) : Result :=
  if s.tileCount ≤ t then .fault .noSuchUnit
  else
    let x := s.tile t
    match x.phase with
    | none => .next s
    | some p =>
      match (if p.started then x.nextRecord p else none) with
      | none => .next s
      | some i =>
        let all := decide (p.issued.length + 1 = p.nsend)
        let s := s.setTile t { x with phase := some { p with issued := p.issued ++ [i] } }
        let rec' := x.spadRead (p.prog + 64 + 32 * i) 32
        let r := ofBytes rec'.2.2
        let e := if rec'.2.1 ≠ 0 then (rec'.2.1, []) else s.recordTargets t r
        let data := x.spadRead (bits r 0 20) ((bits r 64 5 + 1) * 256)
        let c := if e.1 ≠ 0 then e.1 else data.2.1
        let s := (s.onTile t (fun x => { data.1 with phase := x.phase })).chargeSpad t c
        let st := s.stamp t
        let sst := x.rd TILE.SSTEP.off
        let s := if c ≠ 0 then s.recordAnswered t i c
          else
            let dark := if bits r 70 2 = 0 then darkKey t p.txn else none
            let remote := bits r 70 2 = 0 && bit r 154
            let s := s.onTile t (fun x => { x with phase := x.phase.map (fun p =>
              { p with waiting := p.waiting ++ e.2.map (fun u => (i, u.1)) }) })
            let s := if e.2 = [] then s.recordAnswered t i 0 else s
            e.2.foldl (fun s u =>
              let dest : Sender := .record st sst i
              let s := s.foldMirror t
                (Config.windowAddress (if remote then bits r 140 14 else s.self.toNat) u.1 u.2.1 u.2.2.2).toNat data.2.2
              if remote then
                s.sendRequest t { type := 0, vc := 2, dst := moduleCoord s.shape (bits r 140 14), src := 0,
                                  dstTile := u.1, win := u.2.1, wgen := u.2.2.1, fslot := u.2.2.2 } data.2.2
                  (.answer dest u.1 0 none) (.answer dest u.1 0 none)
              else
                let s := if dark.isSome then s.txnSent t p.txn u.1 else s
                s.postWrite u.1 ⟨dest, u.2.1, BitVec.ofNat 16 u.2.2.1, u.2.2.2, false, data.2.2, dark,
                  some (sst.setWidth 32)⟩ t) s
        let s := if all && decide (p.syncm = 2) && decide (c = 0) && p.first.isNone then s.signal t p.sem else s
        .next (s.txnSettle t)

/-- EXCH_ACK_ARRIVAL: the first answer to a compiled or dynamic write in the sender's mail. -/
def execExchAckArrival (t : Nat) (s : State) : Result :=
  if s.tileCount ≤ t then .fault .noSuchUnit
  else
    let x := s.tile t
    let mine (m : Msg) : Bool := match m with
      | .answer (.record _ _ _) _ _ _ => true
      | .answer (.message _ _) _ _ _ => true
      | .answer (.mcast _ _) _ _ _ => true
      | _ => false
    let stale (st : Stamp) : Bool := x.stale s.count st
    let drop (s : State) : Result := .next (s.onTile t (fun x => x.bumpFld TILE.STALE_REPLIES))
    match takeFirst mine x.mail with
    | some (.answer dest target c dark, rest) =>
      let s := s.setTile t { x with mail := rest }
      match dest with
      | .record st sst i =>
        if stale st then drop s
        else
          let s := s.txnAnswer t dark target c
          if sst ≠ x.rd TILE.SSTEP.off then .next (s.txnSettle t)
          else
            let s := s.onTile t (fun x => { x with phase := x.phase.map (fun p =>
              { p with waiting := p.waiting.erase (i, target) }) })
            .next ((s.recordAnswered t i c).txnSettle t)
      | .message st k =>
        if stale st then drop s
        else
          let s := s.txnAnswer t dark target c
          match (s.tile t).mcasts.find? (fun m => m.key = k) with
          | none => .next (s.txnSettle t)
          | some m =>
            if c ≠ 0 then .next (((s.mcDone t { m with rd := m.rd } c 0).txnSettle t).xqRun t)
            else
              let s := s.onTile t (fun x => x.onMcast k (fun m => { m with sent := m.sent.drop 1 }))
              .next (((s.mcSettle t k).txnSettle t).xqRun t)
      | .mcast st k =>
        if stale st then drop s
        else
          match (s.tile t).mcasts.find? (fun m => m.key = k) with
          | none => .next ((s.txnAnswer t dark target c).txnSettle t)
          | some m =>
            if c ≠ 0 then .next (((s.mcCancel t m c target).txnSettle t).xqRun t)
            else
              let s := (s.txnAnswer t dark target 0).onTile t (fun x => x.onMcast k (fun m =>
                { m with
                  sent := m.sent.filter (fun u => decide (u.1 ≠ target))
                  acked := m.acked ++ m.sent.filter (fun u => decide (u.1 = target)) }))
              .next (((s.mcSettle t k).txnSettle t).xqRun t)
      | _ => .next s
    | _ => .next s

/-- The three conditions of R215. A dynamic multicast with TX = 0 in flight has no handle, and does not hold the phase: R215
names handles only, where R30 names any tile-scope transaction (DESIGN CHOICE, log 105). -/
def Tile.phaseOver (t : Tile) (p : Phase) : Bool :=
  p.started && decide (p.answered.length = p.nsend) && decide (t.recv0 = p.nrecv)
    && [0, 1, 2, 3].all (fun h => (t.txn h).st ≠ .opened && (t.txn h).st ≠ .releasing)

/-- PHASE_END: the phase ends when R215 holds, late when it started late or ends after END (R216). -/
def execPhaseEnd (t : Nat) (s : State) : Result :=
  if s.tileCount ≤ t then .fault .noSuchUnit
  else match (s.tile t).phase with
    | none => .next s
    | some p =>
      if !(s.tile t).phaseOver p then .next s
      else
        let c := match p.first with
          | some c => c
          | none => if p.late ∨ p.end_ < s.cycle - p.startCycle then Status.EXCH_LATE else 0
        .next (s.endPhase t p c)

/-- PHASE_GRACE_EXPIRY: a phase still running at END + grace ends with EXCH_INCOMPLETE, or with its earlier status; its
windows close (R216, R217). A handle still open then stays open, against R30: R216 ends the phase all the same (DESIGN CHOICE,
log 105). -/
def execPhaseGraceExpiry (t : Nat) (s : State) : Result :=
  if s.tileCount ≤ t then .fault .noSuchUnit
  else match (s.tile t).phase with
    | none => .next s
    | some p =>
      if !p.started ∨ (s.tile t).phaseOver p then .next s
      else
        let c := p.first.getD Status.EXCH_INCOMPLETE
        let s := s.reportPhase t Status.EXCH_INCOMPLETE none
        let s := s.onTile t (fun x => x.wins.foldl (fun x e =>
          if e.2.st = .opened ∧ e.2.queue = false then x.beginClose e.1 else x) x)
        .next (s.endPhase t p c)

end Sys2Proof.Machine
end

