-- ==== Sys2Proof/Machine/Dispatch.lean ====
section
/-! DEFINITION. One arm for each command: the direct call of its meaning. -/
namespace Sys2Proof.Machine

def exec (i : Instr) (s : State) : Host.Outcome State Fault Refusal :=
  match i with
  | .add t w => Sys2Proof.Machine.execAdd t w s
  | .sub t w => Sys2Proof.Machine.execSub t w s
  | .mul t w => Sys2Proof.Machine.execMul t w s
  | .mulh t w => Sys2Proof.Machine.execMulh t w s
  | .and t w => Sys2Proof.Machine.execAnd t w s
  | .or t w => Sys2Proof.Machine.execOr t w s
  | .xor t w => Sys2Proof.Machine.execXor t w s
  | .shl t w => Sys2Proof.Machine.execShl t w s
  | .shr t w => Sys2Proof.Machine.execShr t w s
  | .sra t w => Sys2Proof.Machine.execSra t w s
  | .cmp t w => Sys2Proof.Machine.execCmp t w s
  | .addi t w => Sys2Proof.Machine.execAddi t w s
  | .movi t w => Sys2Proof.Machine.execMovi t w s
  | .movhi t w => Sys2Proof.Machine.execMovhi t w s
  | .br t w => Sys2Proof.Machine.execBr t w s
  | .bri t w => Sys2Proof.Machine.execBri t w s
  | .call t w => Sys2Proof.Machine.execCall t w s
  | .ret t w => Sys2Proof.Machine.execRet t w s
  | .ld t w => Sys2Proof.Machine.execLd t w s
  | .st t w => Sys2Proof.Machine.execSt t w s
  | .vld t w => Sys2Proof.Machine.execVld t w s
  | .vst t w => Sys2Proof.Machine.execVst t w s
  | .dmast t w => Sys2Proof.Machine.execDmast t w s
  | .dmawt t w => Sys2Proof.Machine.execDmawt t w s
  | .dmacan t w => Sys2Proof.Machine.execDmacan t w s
  | .xstart t w => Sys2Proof.Machine.execXstart t w s
  | .xwait t w => Sys2Proof.Machine.execXwait t w s
  | .xsend t w => Sys2Proof.Machine.execXsend t w s
  | .wopen t w => Sys2Proof.Machine.execWopen t w s
  | .wclose t w => Sys2Proof.Machine.execWclose t w s
  | .wgrant t w => Sys2Proof.Machine.execWgrant t w s
  | .sig t w => Sys2Proof.Machine.execSig t w s
  | .swait t w => Sys2Proof.Machine.execSwait t w s
  | .sdec t w => Sys2Proof.Machine.execSdec t w s
  | .flare t w => Sys2Proof.Machine.execFlare t w s
  | .sread t w => Sys2Proof.Machine.execSread t w s
  | .fence t w => Sys2Proof.Machine.execFence t w s
  | .txopen t w => Sys2Proof.Machine.execTxopen t w s
  | .txrel t w => Sys2Proof.Machine.execTxrel t w s
  | .txcan t w => Sys2Proof.Machine.execTxcan t w s
  | .veto t w => Sys2Proof.Machine.execVeto t w s
  | .genrd t w => Sys2Proof.Machine.execGenrd t w s
  | .nop t w => Sys2Proof.Machine.execNop t w s
  | .wait t w => Sys2Proof.Machine.execWait t w s
  | .bcnrd t w => Sys2Proof.Machine.execBcnrd t w s
  | .halt t w => Sys2Proof.Machine.execHalt t w s
  | .illegalOp t word => Sys2Proof.Machine.execIllegalOp t word s
  | .instructionFetch t => Sys2Proof.Machine.execInstructionFetch t s
  | .waitWake t => Sys2Proof.Machine.execWaitWake t s
  | .haltReport t => Sys2Proof.Machine.execHaltReport t s
  | .fenceComplete t => Sys2Proof.Machine.execFenceComplete t s
  | .mma t w => Sys2Proof.Machine.execMma t w s
  | .azero t w => Sys2Proof.Machine.execAzero t w s
  | .ald t w => Sys2Proof.Machine.execAld t w s
  | .ast t w => Sys2Proof.Machine.execAst t w s
  | .mrun t w => Sys2Proof.Machine.execMrun t w s
  | .mrunPost t => Sys2Proof.Machine.execMrunPost t s
  | .workListReady t => Sys2Proof.Machine.execWorkListReady t s
  | .listStart t => Sys2Proof.Machine.execListStart t s
  | .listEnd t => Sys2Proof.Machine.execListEnd t s
  | .listTimeout t idx => Sys2Proof.Machine.execListTimeout t idx s
  | .vadd t w => Sys2Proof.Machine.execVadd t w s
  | .vsub t w => Sys2Proof.Machine.execVsub t w s
  | .vmul t w => Sys2Proof.Machine.execVmul t w s
  | .vfma t w => Sys2Proof.Machine.execVfma t w s
  | .vlerp t w => Sys2Proof.Machine.execVlerp t w s
  | .vmin t w => Sys2Proof.Machine.execVmin t w s
  | .vmax t w => Sys2Proof.Machine.execVmax t w s
  | .vabs t w => Sys2Proof.Machine.execVabs t w s
  | .vmov t w => Sys2Proof.Machine.execVmov t w s
  | .vand t w => Sys2Proof.Machine.execVand t w s
  | .vor t w => Sys2Proof.Machine.execVor t w s
  | .vxor t w => Sys2Proof.Machine.execVxor t w s
  | .vcmp t w => Sys2Proof.Machine.execVcmp t w s
  | .vtrn t w => Sys2Proof.Machine.execVtrn t w s
  | .vcvt t w => Sys2Proof.Machine.execVcvt t w s
  | .vdiv t w => Sys2Proof.Machine.execVdiv t w s
  | .vsqrt t w => Sys2Proof.Machine.execVsqrt t w s
  | .vrsqrt t w => Sys2Proof.Machine.execVrsqrt t w s
  | .vrcp t w => Sys2Proof.Machine.execVrcp t w s
  | .vexp t w => Sys2Proof.Machine.execVexp t w s
  | .vexp2 t w => Sys2Proof.Machine.execVexp2 t w s
  | .vlog t w => Sys2Proof.Machine.execVlog t w s
  | .vlog2 t w => Sys2Proof.Machine.execVlog2 t w s
  | .vtanh t w => Sys2Proof.Machine.execVtanh t w s
  | .vlgst t w => Sys2Proof.Machine.execVlgst t w s
  | .verf t w => Sys2Proof.Machine.execVerf t w s
  | .vsin t w => Sys2Proof.Machine.execVsin t w s
  | .vcos t w => Sys2Proof.Machine.execVcos t w s
  | .vred t w => Sys2Proof.Machine.execVred t w s
  | .vscan t w => Sys2Proof.Machine.execVscan t w s
  | .vcens t w => Sys2Proof.Machine.execVcens t w s
  | .vscale t w => Sys2Proof.Machine.execVscale t w s
  | .vladd t w => Sys2Proof.Machine.execVladd t w s
  | .graw t w => Sys2Proof.Machine.execGraw t w s
  | .guni t w => Sys2Proof.Machine.execGuni t w s
  | .guno t w => Sys2Proof.Machine.execGuno t w s
  | .gnorm t w => Sys2Proof.Machine.execGnorm t w s
  | .gbern t w => Sys2Proof.Machine.execGbern t w s
  | .ggumb t w => Sys2Proof.Machine.execGgumb t w s
  | .sloc t w => Sys2Proof.Machine.execSloc t w s
  | .smrg t w => Sys2Proof.Machine.execSmrg t w s
  | .spick t w => Sys2Proof.Machine.execSpick t w s
  | .taggedAccessRecheck t idx => Sys2Proof.Machine.execTaggedAccessRecheck t idx s
  | .tagTimeout t idx => Sys2Proof.Machine.execTagTimeout t idx s
  | .remoteWriteCheck t => Sys2Proof.Machine.execRemoteWriteCheck t s
  | .remoteRead t => Sys2Proof.Machine.execRemoteRead t s
  | .queueTailAdvance t win => Sys2Proof.Machine.execQueueTailAdvance t win s
  | .wcloseComplete t win => Sys2Proof.Machine.execWcloseComplete t win s
  | .grantMessage t => Sys2Proof.Machine.execGrantMessage t s
  | .grantReturn t => Sys2Proof.Machine.execGrantReturn t s
  | .winClosedRefusal t => Sys2Proof.Machine.execWinClosedRefusal t s
  | .creditTimeout t => Sys2Proof.Machine.execCreditTimeout t s
  | .replyArrival t => Sys2Proof.Machine.execReplyArrival t s
  | .semOpAtHome t => Sys2Proof.Machine.execSemOpAtHome t s
  | .semReleaseDelivery t => Sys2Proof.Machine.execSemReleaseDelivery t s
  | .returnedRelease t => Sys2Proof.Machine.execReturnedRelease t s
  | .semTimeout t entry idx => Sys2Proof.Machine.execSemTimeout t entry idx s
  | .sigBufferRelease t => Sys2Proof.Machine.execSigBufferRelease t s
  | .dmaOpStart t que => Sys2Proof.Machine.execDmaOpStart t que s
  | .dmaOpEnd t que => Sys2Proof.Machine.execDmaOpEnd t que s
  | .txnReleaseArrival t => Sys2Proof.Machine.execTxnReleaseArrival t s
  | .txnTimeout t h => Sys2Proof.Machine.execTxnTimeout t h s
  | .darkCopyDrop t => Sys2Proof.Machine.execDarkCopyDrop t s
  | .phaseStart t => Sys2Proof.Machine.execPhaseStart t s
  | .sendRecordIssue t => Sys2Proof.Machine.execSendRecordIssue t s
  | .exchAckArrival t => Sys2Proof.Machine.execExchAckArrival t s
  | .phaseEnd t => Sys2Proof.Machine.execPhaseEnd t s
  | .phaseGraceExpiry t => Sys2Proof.Machine.execPhaseGraceExpiry t s
  | .mcastBranchResume t id => Sys2Proof.Machine.execMcastBranchResume t id s
  | .mcastTimeout t id => Sys2Proof.Machine.execMcastTimeout t id s
  | .mapChange => Sys2Proof.Machine.execMapChange s
  | .tileSubstitute row col => Sys2Proof.Machine.execTileSubstitute row col s
  | .routerFailure row col => Sys2Proof.Machine.execRouterFailure row col s
  | .routerBypassSwitch row col => Sys2Proof.Machine.execRouterBypassSwitch row col s
  | .tileCoreReset t => Sys2Proof.Machine.execTileCoreReset t s
  | .tileCoreReady t => Sys2Proof.Machine.execTileCoreReady t s
  | .routerReset row col => Sys2Proof.Machine.execRouterReset row col s
  | .routerReady row col => Sys2Proof.Machine.execRouterReady row col s
  | .beaconEdge => Sys2Proof.Machine.execBeaconEdge s
  | .syncFrame src count term hold => Sys2Proof.Machine.execSyncFrame src count term hold s
  | .tickPeriodChange => Sys2Proof.Machine.execTickPeriodChange s
  | .holdoverEntry => Sys2Proof.Machine.execHoldoverEntry s
  | .holdoverSourceSearch found => Sys2Proof.Machine.execHoldoverSourceSearch found s
  | .electionAdvertisement term prio module floor => Sys2Proof.Machine.execElectionAdvertisement term prio module floor s
  | .electionClose => Sys2Proof.Machine.execElectionClose s
  | .holdoverLimit => Sys2Proof.Machine.execHoldoverLimit s
  | .beaconRelock src count => Sys2Proof.Machine.execBeaconRelock src count s
  | .fabricRejoin src term prio master count => Sys2Proof.Machine.execFabricRejoin src term prio master count s
  | .treeReductionStart tree op contribution tc tr level height depth => Sys2Proof.Machine.execTreeReductionStart tree op contribution tc tr level height depth s
  | .treeContribution tree port value count absent => Sys2Proof.Machine.execTreeContribution tree port value count absent s
  | .treeNodeClose tree => Sys2Proof.Machine.execTreeNodeClose tree s
  | .treeResult tree value count absent => Sys2Proof.Machine.execTreeResult tree value count absent s
  | .collTrigger axis counter n => Sys2Proof.Machine.execCollTrigger axis counter n s
  | .collContribution axis header payload cdig => Sys2Proof.Machine.execCollContribution axis header payload cdig s
  | .collEnd axis d => Sys2Proof.Machine.execCollEnd axis d s
  | .collDeadline axis d => Sys2Proof.Machine.execCollDeadline axis d s
  | .hbmRead stack ch => Sys2Proof.Machine.execHbmRead stack ch s
  | .hbmWrite stack ch => Sys2Proof.Machine.execHbmWrite stack ch s
  | .sparingCopyDone stack => Sys2Proof.Machine.execSparingCopyDone stack s
  | .channelReset stack ch => Sys2Proof.Machine.execChannelReset stack ch s
  | .channelReady stack ch => Sys2Proof.Machine.execChannelReady stack ch s
  | .scrubRead blk => Sys2Proof.Machine.execScrubRead blk s
  | .stackTempRead stack temp => Sys2Proof.Machine.execStackTempRead stack temp s
  | .stepOpen => Sys2Proof.Machine.execStepOpen s
  | .leaseRelease idx => Sys2Proof.Machine.execLeaseRelease idx s
  | .voteTick => Sys2Proof.Machine.execVoteTick s
  | .flip => Sys2Proof.Machine.execFlip s
  | .stepResultLate => Sys2Proof.Machine.execStepResultLate s
  | .moduleOutOfStep => Sys2Proof.Machine.execModuleOutOfStep s
  | .frameReceive port header decodes fcrcOk corrected => Sys2Proof.Machine.execFrameReceive port header decodes fcrcOk corrected s
  | .replayTimeout port => Sys2Proof.Machine.execReplayTimeout port s
  | .creditAudit port totals => Sys2Proof.Machine.execCreditAudit port totals s
  | .packetArrival port header payload => Sys2Proof.Machine.execPacketArrival port header payload s
  | .delayProbe port roundTrip turnaround => Sys2Proof.Machine.execDelayProbe port roundTrip turnaround s
  | .laneErrorWindow port bad seq => Sys2Proof.Machine.execLaneErrorWindow port bad seq s
  | .laneSwap port => Sys2Proof.Machine.execLaneSwap port s
  | .trainingStateDone port good delay => Sys2Proof.Machine.execTrainingStateDone port good delay s
  | .trainingStateTimeout port => Sys2Proof.Machine.execTrainingStateTimeout port s
  | .detectRetry port present => Sys2Proof.Machine.execDetectRetry port present s
  | .identityPacket port ident => Sys2Proof.Machine.execIdentityPacket port ident s
  | .linkLoss port => Sys2Proof.Machine.execLinkLoss port s
  | .portReset port => Sys2Proof.Machine.execPortReset port s
  | .portReady port => Sys2Proof.Machine.execPortReady port s
  | .leaveNotice port => Sys2Proof.Machine.execLeaveNotice port s
  | .fenceNotice port => Sys2Proof.Machine.execFenceNotice port s
  | .portQuiesce port => Sys2Proof.Machine.execPortQuiesce port s
  | .quiesceDrainEnd port => Sys2Proof.Machine.execQuiesceDrainEnd port s
  | .portUnquiesce port => Sys2Proof.Machine.execPortUnquiesce port s
  | .portFence port => Sys2Proof.Machine.execPortFence port s
  | .portUnfence port => Sys2Proof.Machine.execPortUnfence port s
  | .portRetrain port => Sys2Proof.Machine.execPortRetrain port s
  | .portEnable port enable => Sys2Proof.Machine.execPortEnable port enable s
  | .bfSelfWrite value => Sys2Proof.Machine.execBfSelfWrite value s
  | .sqTailDoorbell ring value => Sys2Proof.Machine.execSqTailDoorbell ring value s
  | .cqHeadDoorbell ring value => Sys2Proof.Machine.execCqHeadDoorbell ring value s
  | .hifReset => Sys2Proof.Machine.execHifReset s
  | .conventionalReset => Sys2Proof.Machine.execConventionalReset s
  | .functionLevelReset => Sys2Proof.Machine.execFunctionLevelReset s
  | .ringEnable ring value => Sys2Proof.Machine.execRingEnable ring value s
  | .ringDisable ring value => Sys2Proof.Machine.execRingDisable ring value s
  | .relayTableWrite k value => Sys2Proof.Machine.execRelayTableWrite k value s
  | .unmappedAccess offset isWrite => Sys2Proof.Machine.execUnmappedAccess offset isWrite s
  | .registerWrite offset size value => Sys2Proof.Machine.execRegisterWrite offset size value s
  | .fetchBurst => Sys2Proof.Machine.execFetchBurst s
  | .descriptorStart ring => Sys2Proof.Machine.execDescriptorStart ring s
  | .completionWrite => Sys2Proof.Machine.execCompletionWrite s
  | .msixInterrupt ring => Sys2Proof.Machine.execMsixInterrupt ring s
  | .hostMemoryError ring => Sys2Proof.Machine.execHostMemoryError ring s
  | .relayForward => Sys2Proof.Machine.execRelayForward s
  | .relayPathLoss k => Sys2Proof.Machine.execRelayPathLoss k s
  | .relayPathRegain k => Sys2Proof.Machine.execRelayPathRegain k s
  | .nopCmd ring desc => Sys2Proof.Machine.execNopCmd ring desc s
  | .identify ring desc => Sys2Proof.Machine.execIdentify ring desc s
  | .regRead ring desc => Sys2Proof.Machine.execRegRead ring desc s
  | .regWrite ring desc => Sys2Proof.Machine.execRegWrite ring desc s
  | .stepRecords ring desc => Sys2Proof.Machine.execStepRecords ring desc s
  | .copyIn ring desc => Sys2Proof.Machine.execCopyIn ring desc s
  | .copyOut ring desc => Sys2Proof.Machine.execCopyOut ring desc s
  | .copyComplete tag => Sys2Proof.Machine.execCopyComplete tag s
  | .batchPost ring desc => Sys2Proof.Machine.execBatchPost ring desc s
  | .batchStaged index => Sys2Proof.Machine.execBatchStaged index s
  | .jobPlace ring desc => Sys2Proof.Machine.execJobPlace ring desc s
  | .suspend ring desc => Sys2Proof.Machine.execSuspend ring desc s
  | .resume ring desc => Sys2Proof.Machine.execResume ring desc s
  | .cancel ring desc => Sys2Proof.Machine.execCancel ring desc s
  | .opQuery ring desc => Sys2Proof.Machine.execOpQuery ring desc s
  | .reshard ring desc => Sys2Proof.Machine.execReshard ring desc s
  | .checkpoint ring desc => Sys2Proof.Machine.execCheckpoint ring desc s
  | .ctxSave ring desc => Sys2Proof.Machine.execCtxSave ring desc s
  | .pwrReq ring desc => Sys2Proof.Machine.execPwrReq ring desc s
  | .fwLoad ring desc => Sys2Proof.Machine.execFwLoad ring desc s
  | .fwImageAccept => Sys2Proof.Machine.execFwImageAccept s
  | .attest ring desc => Sys2Proof.Machine.execAttest ring desc s
  | .nvmStore ring desc => Sys2Proof.Machine.execNvmStore ring desc s
  | .nvmStoreDone => Sys2Proof.Machine.execNvmStoreDone s
  | .afterglowRead ring desc => Sys2Proof.Machine.execAfterglowRead ring desc s
  | .jobDequeue => Sys2Proof.Machine.execJobDequeue s
  | .memberReady module => Sys2Proof.Machine.execMemberReady module s
  | .placementTimeout => Sys2Proof.Machine.execPlacementTimeout s
  | .tileStartAtHalt t => Sys2Proof.Machine.execTileStartAtHalt t s
  | .checkpointStart => Sys2Proof.Machine.execCheckpointStart s
  | .checkpointDone => Sys2Proof.Machine.execCheckpointDone s
  | .memberLost module => Sys2Proof.Machine.execMemberLost module s
  | .recoveryTimeout => Sys2Proof.Machine.execRecoveryTimeout s
  | .tilesHeld module => Sys2Proof.Machine.execTilesHeld module s
  | .lighthouseReset => Sys2Proof.Machine.execLighthouseReset s
  | .lighthouseReady => Sys2Proof.Machine.execLighthouseReady s
  | .gatewayFailure g => Sys2Proof.Machine.execGatewayFailure g s
  | .authorityChange master => Sys2Proof.Machine.execAuthorityChange master s
  | .lockstepDisagree pair => Sys2Proof.Machine.execLockstepDisagree pair s
  | .testDue row col => Sys2Proof.Machine.execTestDue row col s
  | .testMove row col => Sys2Proof.Machine.execTestMove row col s
  | .tileTestResult row col pass => Sys2Proof.Machine.execTileTestResult row col pass s
  | .testForced row col => Sys2Proof.Machine.execTestForced row col s
  | .linkChannelTest unit pass => Sys2Proof.Machine.execLinkChannelTest unit pass s
  | .sentinelDigest => Sys2Proof.Machine.execSentinelDigest s
  | .digestReceive member digest => Sys2Proof.Machine.execDigestReceive member digest s
  | .replicaVerdict => Sys2Proof.Machine.execReplicaVerdict s
  | .verdictReceive outcome => Sys2Proof.Machine.execVerdictReceive outcome s
  | .mirrorRecord sstep digest tiles => Sys2Proof.Machine.execMirrorRecord sstep digest tiles s
  | .mirrorRebuild => Sys2Proof.Machine.execMirrorRebuild s
  | .domainNotReady unit => Sys2Proof.Machine.execDomainNotReady unit s
  | .afterglowCommit => Sys2Proof.Machine.execAfterglowCommit s
  | .journalCommit => Sys2Proof.Machine.execJournalCommit s
  | .nvmRelPolicyWrite value => Sys2Proof.Machine.execNvmRelPolicyWrite value s
  | .nvmCalSet value => Sys2Proof.Machine.execNvmCalSet value s
  | .presPress => Sys2Proof.Machine.execPresPress s
  | .presWindowExpire => Sys2Proof.Machine.execPresWindowExpire s
  | .presClose => Sys2Proof.Machine.execPresClose s
  | .tamperClr => Sys2Proof.Machine.execTamperClr s
  | .secFloorSet value => Sys2Proof.Machine.execSecFloorSet value s
  | .secUnitReturn value => Sys2Proof.Machine.execSecUnitReturn value s
  | .sealSample isOpen => Sys2Proof.Machine.execSealSample isOpen s
  | .bootRom => Sys2Proof.Machine.execBootRom s
  | .powerUp slot board vbatOk => Sys2Proof.Machine.execPowerUp slot board vbatOk s
  | .refClkStable => Sys2Proof.Machine.execRefClkStable s
  | .vinSample vin power => Sys2Proof.Machine.execVinSample vin power s
  | .inputRangeFault vin => Sys2Proof.Machine.execInputRangeFault vin s
  | .inputCollapse vin => Sys2Proof.Machine.execInputCollapse vin s
  | .brownout => Sys2Proof.Machine.execBrownout s
  | .capControl mean mean100 => Sys2Proof.Machine.execCapControl mean mean100 s
  | .tjSample tj => Sys2Proof.Machine.execTjSample tj s
  | .hbmLevel3Timeout stack => Sys2Proof.Machine.execHbmLevel3Timeout stack s
  | .powerEntry => Sys2Proof.Machine.execPowerEntry s
  | .wakeN => Sys2Proof.Machine.execWakeN s
  | .wakeAtCount => Sys2Proof.Machine.execWakeAtCount s
  | .wakeAtUtc => Sys2Proof.Machine.execWakeAtUtc s
  | .wakeComplete => Sys2Proof.Machine.execWakeComplete s
  | .pllLockLoss pll unit => Sys2Proof.Machine.execPllLockLoss pll unit s
  | .pwrRstN => Sys2Proof.Machine.execPwrRstN s
  | .pwrRstRelease => Sys2Proof.Machine.execPwrRstRelease s
  | .bcnTokenPass slot => Sys2Proof.Machine.execBcnTokenPass slot s
  | .bcnTokenTakeover => Sys2Proof.Machine.execBcnTokenTakeover s
  | .bcnWordReceive word sync => Sys2Proof.Machine.execBcnWordReceive word sync s
  | .clearFaults pec => Sys2Proof.Machine.execClearFaults pec s
  | .statusWord pec => Sys2Proof.Machine.execStatusWord pec s
  | .readVin pec => Sys2Proof.Machine.execReadVin pec s
  | .readIin pec => Sys2Proof.Machine.execReadIin pec s
  | .readTemperature1 pec => Sys2Proof.Machine.execReadTemperature1 pec s
  | .readPin pec => Sys2Proof.Machine.execReadPin pec s
  | .pmbusRevision pec => Sys2Proof.Machine.execPmbusRevision pec s
  | .mfrWake data pec => Sys2Proof.Machine.execMfrWake data pec s
  | .mfrState pec => Sys2Proof.Machine.execMfrState pec s
  | .mfrSerial pec => Sys2Proof.Machine.execMfrSerial pec s
  | .extest pins => Sys2Proof.Machine.execExtest pins s
  | .samplePreload pins => Sys2Proof.Machine.execSamplePreload pins s
  | .idcode => Sys2Proof.Machine.execIdcode s
  | .clamp pins => Sys2Proof.Machine.execClamp pins s
  | .highz pins => Sys2Proof.Machine.execHighz pins s
  | .bypass => Sys2Proof.Machine.execBypass s
  | .pllRelock pll unit => Sys2Proof.Machine.execPllRelock pll unit s
  | .jobSwitchDone => Sys2Proof.Machine.execJobSwitchDone s
  | .memberReturn module => Sys2Proof.Machine.execMemberReturn module s
  | .inputRemoval => Sys2Proof.Machine.execInputRemoval s
  | .hifPerstNRelease => Sys2Proof.Machine.execHifPerstNRelease s

end Sys2Proof.Machine
end

