-- ==== Sys2Proof/WellFormed.lean ====
section
/-! DEFINITION. Well-formed commands: every number that a command names stands for something the module has (R2, R20, R85, R251,
R264, R277, R366, R392, R396, R418, R455, R527). -/
namespace Sys2Proof

/-- A unit identifier of R455. -/
def isUnitNumber (u : Nat) : Bool :=
  let i := u % 2 ^ 28
  match u / 2 ^ 28 with
  | 0 => decide (i < 3072)
  | 1 => decide (i < 3072)
  | 2 => decide (i < 256)
  | 3 => decide (i < 8)
  | 4 => decide (i < 4)
  | 5 => decide (i = 0)
  | _ => false

/-- A PLL of R527: 0 arithmetic, 1 timing, 2 Lighthouse, 3 HBM PHY of a stack, 4 Bafen of a port. -/
def isPllNumber (pll unit : Nat) : Bool :=
  match pll with
  | 3 => decide (unit < 16)
  | 4 => decide (unit < 8)
  | _ => decide (pll < 5) && decide (unit = 0)

/-- The operands of a command name units of the module. A logical tile is one of the 2,880 of a module without a retired row. -/
def Instr.wf (c : Instr) : Bool :=
  match c with
  | .add t _ => decide (t < 2880)
  | .sub t _ => decide (t < 2880)
  | .mul t _ => decide (t < 2880)
  | .mulh t _ => decide (t < 2880)
  | .and t _ => decide (t < 2880)
  | .or t _ => decide (t < 2880)
  | .xor t _ => decide (t < 2880)
  | .shl t _ => decide (t < 2880)
  | .shr t _ => decide (t < 2880)
  | .sra t _ => decide (t < 2880)
  | .cmp t _ => decide (t < 2880)
  | .addi t _ => decide (t < 2880)
  | .movi t _ => decide (t < 2880)
  | .movhi t _ => decide (t < 2880)
  | .br t _ => decide (t < 2880)
  | .bri t _ => decide (t < 2880)
  | .call t _ => decide (t < 2880)
  | .ret t _ => decide (t < 2880)
  | .ld t _ => decide (t < 2880)
  | .st t _ => decide (t < 2880)
  | .vld t _ => decide (t < 2880)
  | .vst t _ => decide (t < 2880)
  | .dmast t _ => decide (t < 2880)
  | .dmawt t _ => decide (t < 2880)
  | .dmacan t _ => decide (t < 2880)
  | .xstart t _ => decide (t < 2880)
  | .xwait t _ => decide (t < 2880)
  | .xsend t _ => decide (t < 2880)
  | .wopen t _ => decide (t < 2880)
  | .wclose t _ => decide (t < 2880)
  | .wgrant t _ => decide (t < 2880)
  | .sig t _ => decide (t < 2880)
  | .swait t _ => decide (t < 2880)
  | .sdec t _ => decide (t < 2880)
  | .flare t _ => decide (t < 2880)
  | .sread t _ => decide (t < 2880)
  | .fence t _ => decide (t < 2880)
  | .txopen t _ => decide (t < 2880)
  | .txrel t _ => decide (t < 2880)
  | .txcan t _ => decide (t < 2880)
  | .veto t _ => decide (t < 2880)
  | .genrd t _ => decide (t < 2880)
  | .nop t _ => decide (t < 2880)
  | .wait t _ => decide (t < 2880)
  | .bcnrd t _ => decide (t < 2880)
  | .halt t _ => decide (t < 2880)
  | .illegalOp t _ => decide (t < 2880)
  | .instructionFetch t => decide (t < 2880)
  | .waitWake t => decide (t < 2880)
  | .haltReport t => decide (t < 2880)
  | .fenceComplete t => decide (t < 2880)
  | .mma t _ => decide (t < 2880)
  | .azero t _ => decide (t < 2880)
  | .ald t _ => decide (t < 2880)
  | .ast t _ => decide (t < 2880)
  | .mrun t _ => decide (t < 2880)
  | .mrunPost t => decide (t < 2880)
  | .workListReady t => decide (t < 2880)
  | .listStart t => decide (t < 2880)
  | .listEnd t => decide (t < 2880)
  | .listTimeout t _ => decide (t < 2880)
  | .vadd t _ => decide (t < 2880)
  | .vsub t _ => decide (t < 2880)
  | .vmul t _ => decide (t < 2880)
  | .vfma t _ => decide (t < 2880)
  | .vlerp t _ => decide (t < 2880)
  | .vmin t _ => decide (t < 2880)
  | .vmax t _ => decide (t < 2880)
  | .vabs t _ => decide (t < 2880)
  | .vmov t _ => decide (t < 2880)
  | .vand t _ => decide (t < 2880)
  | .vor t _ => decide (t < 2880)
  | .vxor t _ => decide (t < 2880)
  | .vcmp t _ => decide (t < 2880)
  | .vtrn t _ => decide (t < 2880)
  | .vcvt t _ => decide (t < 2880)
  | .vdiv t _ => decide (t < 2880)
  | .vsqrt t _ => decide (t < 2880)
  | .vrsqrt t _ => decide (t < 2880)
  | .vrcp t _ => decide (t < 2880)
  | .vexp t _ => decide (t < 2880)
  | .vexp2 t _ => decide (t < 2880)
  | .vlog t _ => decide (t < 2880)
  | .vlog2 t _ => decide (t < 2880)
  | .vtanh t _ => decide (t < 2880)
  | .vlgst t _ => decide (t < 2880)
  | .verf t _ => decide (t < 2880)
  | .vsin t _ => decide (t < 2880)
  | .vcos t _ => decide (t < 2880)
  | .vred t _ => decide (t < 2880)
  | .vscan t _ => decide (t < 2880)
  | .vcens t _ => decide (t < 2880)
  | .vscale t _ => decide (t < 2880)
  | .vladd t _ => decide (t < 2880)
  | .graw t _ => decide (t < 2880)
  | .guni t _ => decide (t < 2880)
  | .guno t _ => decide (t < 2880)
  | .gnorm t _ => decide (t < 2880)
  | .gbern t _ => decide (t < 2880)
  | .ggumb t _ => decide (t < 2880)
  | .sloc t _ => decide (t < 2880)
  | .smrg t _ => decide (t < 2880)
  | .spick t _ => decide (t < 2880)
  | .taggedAccessRecheck t _ => decide (t < 2880)
  | .tagTimeout t _ => decide (t < 2880)
  | .remoteWriteCheck t => decide (t < 2880)
  | .remoteRead t => decide (t < 2880)
  | .queueTailAdvance t win => decide (t < 2880) && decide (win < 64)
  | .wcloseComplete t win => decide (t < 2880) && decide (win < 64)
  | .grantMessage t => decide (t < 2880)
  | .grantReturn t => decide (t < 2880)
  | .winClosedRefusal t => decide (t < 2880)
  | .creditTimeout t => decide (t < 2880)
  | .replyArrival t => decide (t < 2880)
  | .semOpAtHome t => decide (t < 2880)
  | .semReleaseDelivery t => decide (t < 2880)
  | .returnedRelease t => decide (t < 2880)
  | .semTimeout t entry _ => decide (t < 2880) && decide (entry < 64)
  | .sigBufferRelease t => decide (t < 2880)
  | .dmaOpStart t que => decide (t < 2880) && decide (que < 4)
  | .dmaOpEnd t que => decide (t < 2880) && decide (que < 4)
  | .txnReleaseArrival t => decide (t < 2880)
  | .txnTimeout t h => decide (t < 2880) && decide (h < 4)
  | .darkCopyDrop t => decide (t < 2880)
  | .phaseStart t => decide (t < 2880)
  | .sendRecordIssue t => decide (t < 2880)
  | .exchAckArrival t => decide (t < 2880)
  | .phaseEnd t => decide (t < 2880)
  | .phaseGraceExpiry t => decide (t < 2880)
  | .mcastBranchResume t _ => decide (t < 2880)
  | .mcastTimeout t _ => decide (t < 2880)
  | .mapChange => true
  | .tileSubstitute row col => decide (row < 48) && decide (col < 64)
  | .routerFailure row col => decide (row < 48) && decide (col < 64)
  | .routerBypassSwitch row col => decide (row < 48) && decide (col < 64)
  | .tileCoreReset t => decide (t < 2880)
  | .tileCoreReady t => decide (t < 2880)
  | .routerReset row col => decide (row < 48) && decide (col < 64)
  | .routerReady row col => decide (row < 48) && decide (col < 64)
  | .beaconEdge => true
  | .syncFrame src _ _ _ => decide (src < 9)
  | .tickPeriodChange => true
  | .holdoverEntry => true
  | .holdoverSourceSearch found => found.all (· < 9)
  | .electionAdvertisement _ _ _ _ => true
  | .electionClose => true
  | .holdoverLimit => true
  | .beaconRelock src _ => decide (src < 9)
  | .fabricRejoin src _ _ _ _ => decide (src < 9)
  | .treeReductionStart tree op _ _ _ _ _ _ => decide (tree < 16) && decide (op < 4)
  | .treeContribution tree port _ _ _ => decide (tree < 16) && decide (port < 8)
  | .treeNodeClose tree => decide (tree < 16)
  | .treeResult tree _ _ _ => decide (tree < 16)
  | .collTrigger axis counter _ => decide (axis < 4) && decide (counter < 64)
  | .collContribution axis _ _ _ => decide (axis < 4)
  | .collEnd axis d => decide (axis < 4) && decide (d < 256)
  | .collDeadline axis d => decide (axis < 4) && decide (d < 256)
  | .hbmRead stack ch => decide (stack < 16) && decide (ch < 16)
  | .hbmWrite stack ch => decide (stack < 16) && decide (ch < 16)
  | .sparingCopyDone stack => decide (stack < 16)
  | .channelReset stack ch => decide (stack < 16) && decide (ch < 16)
  | .channelReady stack ch => decide (stack < 16) && decide (ch < 16)
  | .scrubRead blk => decide (blk < 188743680)
  | .stackTempRead stack _ => decide (stack < 16)
  | .stepOpen => true
  | .leaseRelease _ => true
  | .voteTick => true
  | .flip => true
  | .stepResultLate => true
  | .moduleOutOfStep => true
  | .frameReceive port _ _ _ _ => decide (port < 8)
  | .replayTimeout port => decide (port < 8)
  | .creditAudit port _ => decide (port < 8)
  | .packetArrival port _ _ => decide (port < 8)
  | .delayProbe port _ _ => decide (port < 8)
  | .laneErrorWindow port _ _ => decide (port < 8)
  | .laneSwap port => decide (port < 8)
  | .trainingStateDone port _ _ => decide (port < 8)
  | .trainingStateTimeout port => decide (port < 8)
  | .detectRetry port _ => decide (port < 8)
  | .identityPacket port _ => decide (port < 8)
  | .linkLoss port => decide (port < 8)
  | .portReset port => decide (port < 8)
  | .portReady port => decide (port < 8)
  | .leaveNotice port => decide (port < 8)
  | .fenceNotice port => decide (port < 8)
  | .portQuiesce port => decide (port < 8)
  | .quiesceDrainEnd port => decide (port < 8)
  | .portUnquiesce port => decide (port < 8)
  | .portFence port => decide (port < 8)
  | .portUnfence port => decide (port < 8)
  | .portRetrain port => decide (port < 8)
  | .portEnable port _ => decide (port < 8)
  | .bfSelfWrite _ => true
  | .sqTailDoorbell ring _ => decide (ring < 64)
  | .cqHeadDoorbell ring _ => decide (ring < 64)
  | .hifReset => true
  | .conventionalReset => true
  | .functionLevelReset => true
  | .ringEnable ring _ => decide (ring < 64)
  | .ringDisable ring _ => decide (ring < 64)
  | .relayTableWrite k _ => decide (k < 64)
  | .unmappedAccess _ _ => true
  | .registerWrite _ size _ => decide (size = 4 ∨ size = 8)
  | .fetchBurst => true
  | .descriptorStart _ => true
  | .completionWrite => true
  | .msixInterrupt ring => decide (ring < 64)
  | .hostMemoryError ring => decide (ring < 64)
  | .relayForward => true
  | .relayPathLoss k => decide (k < 64)
  | .relayPathRegain k => decide (k < 64)
  | .nopCmd _ _ => true
  | .identify _ _ => true
  | .regRead _ _ => true
  | .regWrite _ _ => true
  | .stepRecords _ _ => true
  | .copyIn _ _ => true
  | .copyOut _ _ => true
  | .copyComplete _ => true
  | .batchPost _ _ => true
  | .batchStaged _ => true
  | .jobPlace _ _ => true
  | .suspend _ _ => true
  | .resume _ _ => true
  | .cancel _ _ => true
  | .opQuery _ _ => true
  | .reshard _ _ => true
  | .checkpoint _ _ => true
  | .ctxSave _ _ => true
  | .pwrReq _ _ => true
  | .fwLoad _ _ => true
  | .fwImageAccept => true
  | .attest _ _ => true
  | .nvmStore _ _ => true
  | .nvmStoreDone => true
  | .afterglowRead _ _ => true
  | .jobDequeue => true
  | .memberReady module => decide (module < 2 ^ 14)
  | .placementTimeout => true
  | .tileStartAtHalt t => decide (t < 2880)
  | .checkpointStart => true
  | .checkpointDone => true
  | .memberLost module => decide (module < 2 ^ 14)
  | .recoveryTimeout => true
  | .tilesHeld module => decide (module < 2 ^ 14)
  | .lighthouseReset => true
  | .lighthouseReady => true
  | .gatewayFailure g => decide (g < 2)
  | .authorityChange master => decide (master < 2 ^ 14)
  | .lockstepDisagree pair => decide (pair < 4)
  | .testDue row col => decide (row < 48) && decide (col < 64)
  | .testMove row col => decide (row < 48) && decide (col < 64)
  | .tileTestResult row col _ => decide (row < 48) && decide (col < 64)
  | .testForced row col => decide (row < 48) && decide (col < 64)
  | .linkChannelTest unit _ => isUnitNumber unit.toNat
  | .sentinelDigest => true
  | .digestReceive member _ => decide (member < 2 ^ 14)
  | .replicaVerdict => true
  | .verdictReceive outcome => decide (outcome < 4)
  | .mirrorRecord _ _ _ => true
  | .mirrorRebuild => true
  | .domainNotReady unit => isUnitNumber unit.toNat
  | .afterglowCommit => true
  | .journalCommit => true
  | .nvmRelPolicyWrite _ => true
  | .nvmCalSet _ => true
  | .presPress => true
  | .presWindowExpire => true
  | .presClose => true
  | .tamperClr => true
  | .secFloorSet _ => true
  | .secUnitReturn _ => true
  | .sealSample _ => true
  | .bootRom => true
  | .powerUp _ _ _ => true
  | .refClkStable => true
  | .vinSample _ _ => true
  | .inputRangeFault _ => true
  | .inputCollapse _ => true
  | .brownout => true
  | .capControl _ _ => true
  | .tjSample _ => true
  | .hbmLevel3Timeout stack => decide (stack < 16)
  | .powerEntry => true
  | .wakeN => true
  | .wakeAtCount => true
  | .wakeAtUtc => true
  | .wakeComplete => true
  | .pllLockLoss pll unit => isPllNumber pll unit
  | .pwrRstN => true
  | .pwrRstRelease => true
  | .bcnTokenPass _ => true
  | .bcnTokenTakeover => true
  | .bcnWordReceive _ _ => true
  | .clearFaults _ => true
  | .statusWord _ => true
  | .readVin _ => true
  | .readIin _ => true
  | .readTemperature1 _ => true
  | .readPin _ => true
  | .pmbusRevision _ => true
  | .mfrWake _ _ => true
  | .mfrState _ => true
  | .mfrSerial _ => true
  | .extest _ => true
  | .samplePreload _ => true
  | .idcode => true
  | .clamp _ => true
  | .highz _ => true
  | .bypass => true
  | .pllRelock pll unit => isPllNumber pll unit
  | .jobSwitchDone => true
  | .memberReturn module => decide (module < 2 ^ 14)
  | .inputRemoval => true
  | .hifPerstNRelease => true

end Sys2Proof
end

