-- ==== Sys2Proof/Safety.lean ====
section
/-! DEFINITION. What a sound memory is, and what a safe step is. -/
namespace Sys2Proof.Machine

/-- The canonical form of a memory of bytes: addresses strictly rising, no entry equal to 0, which is what an unlisted
address reads as (DESIGN CHOICE, log 45). -/
def Memory.wf (m : Map Byte) : Bool := Map.wf 0 m

/-- A tile's stores in canonical form: its scratchpad, its accumulators, its slot tags. -/
def Tile.storesWf (t : Tile) : Bool := Memory.wf t.spad && Map.wf 0 t.acc && Map.wf false t.tags

/-- The memories of a saved context: its HBM and the stores of its tiles. -/
def Context.memoriesWf (c : Context) : Bool := Memory.wf c.hbm && c.tiles.all (fun e => e.2.storesWf)

/-- The state's memories are in canonical form: HBM, the host's memory, Lighthouse SRAM, each tile's stores, those of the saved
contexts. -/
def State.memoriesWf (s : State) : Bool :=
  Memory.wf s.hbm && Memory.wf s.hif.mem && Memory.wf s.lh.sram && s.tiles.all (fun e => e.2.storesWf)
    && s.lh.contexts.all Context.memoriesWf && s.lh.written.all (fun e => e.2.memoriesWf)

/-- States that differ in tile `t` at most. -/
def OnlyTile (t : Nat) (s s' : State) : Prop := (∀ u, u ≠ t → s'.tile u = s.tile u) ∧ { s' with tiles := s.tiles } = s

/-- The answer is a next state of which `P` holds. -/
def Gives (r : Result) (P : State → Prop) : Prop := ∃ s', r = .next s' ∧ P s'

/-- A step that goes on: neither a fault nor a refusal. -/
def Safe (s : State) : Prop := ∃ s', step s = .next s'

/-- A command that goes on in state `s`. -/
def Completes (c : Instr) (s : State) : Prop := ∃ s', exec c s = .next s'

/-- A descriptor in the form of R399 and R400: a listed OPC, the reserved bits and every bit of ARG outside the command's fields
0, an OP_TAG exactly where the command is long. -/
def Formed (d : BitVec 512) : Prop :=
  cArg d 11 5 = 0 ∧ cArg d 47 17 = 0 ∧ (longOpc (cOpc d) = true ↔ cTag d ≠ 0)
  ∧ ∃ fs, argFields (cOpc d) = some fs ∧ ∀ i, 192 ≤ i → i < 512 → (∀ f ∈ fs, i < f.1 ∨ f.1 + f.2 ≤ i) → d.getLsbD i = false

/-- What lets descriptor `d` of ring `n` start (R39, R400, R408, R521, R523): the module ready or the command FW_LOAD, Lighthouse
out of reset, in S2 no command of this module that needs HBM, the descriptor formed, an administration command on ring 0, the tag of
a long command not live and fewer than 4,096 live, no PWR_REQ of state 1. -/
def Startable (n : Nat) (d : BitVec 512) (s : State) : Prop :=
  (s.fld HIF.READY = 1 ∨ cOpc d = 0x50) ∧ s.lh.inReset = false
  ∧ (s.pwr.state = .s2 → cOpc d ∈ [0x10, 0x11, 0x12, 0x20, 0x25, 0x26, 0x27] → cVia d = true ∧ cModule d ≠ s.self.toNat)
  ∧ Formed d ∧ (adminOpc (cOpc d) = true → n = 0)
  ∧ (longOpc (cOpc d) = true → cTag d ∉ s.liveTags ∧ s.liveTags.length < 4096) ∧ (cOpc d = 0x40 → cArg d 192 2 ≠ 1)

end Sys2Proof.Machine
end

