-- ==== Sys2Proof/Certificates/Slice0/Obligations.lean ====
section
/-! DEFINITION. The statements about the machine. -/

open Sys2Proof Sys2Proof.Machine

/-- Where command c stands at the front of the queue, step answers what exec answers for c on the state whose queue is the
rest. The queue is the model's own form of the commands that wait (log 4). (95_what_each_step_holds.md, opcode table.) -/
def Obligations.StepRunsFrontCommand : Prop :=
  ∀ (s : State) (c : Instr) (rest : List Instr), s.pending = c :: rest → step s = exec c { s with pending := rest }

/-- On an empty queue step answers a next state in which the model's cycle count is one higher, BCN_SUBTICK has counted
one cycle where the timing domain is on (P0 to S2), and tiles, HBM, the host's memory, the Beacon count and the queue
stand as they were; where a µs of 940 cycles ends in a module in service, WAIT_US of each enabled ring that has
descriptors waiting rises by 1, saturating, and MAX_US keeps the longer value (R417). That an empty queue idles for
one arithmetic cycle is the model's design choice (log 4). (R250, R498, R495, R417.) -/
def Obligations.IdleStepCountsOneCycle : Prop :=
  ∀ s : State, s.pending = [] → ∃ s', step s = .next s' ∧ s'.cycle = s.cycle + 1 ∧ s'.pending = []
    ∧ s'.fld BCN.SUBTICK = (if s.awake then (s.fld BCN.SUBTICK + 1) % 2 ^ BCN.SUBTICK.width else s.fld BCN.SUBTICK)
    ∧ (∀ t, s'.tile t = s.tile t) ∧ s'.hbm = s.hbm ∧ s'.hif.mem = s.hif.mem ∧ s'.count = s.count
    ∧ (s.awake = true → (s.cycle + 1) % 940 = 0 → ∀ n, n < 64 → s.fld (HIF.ENABLE n) = 1 → 0 < s.waiting n →
        let w := min (s.fld (HIF.WAIT_US n) + 1) (2 ^ 32 - 1)
        s'.fld (HIF.WAIT_US n) = w ∧ s'.fld (HIF.MAX_US n) = max (s.fld (HIF.MAX_US n)) w)

/-- After module reset no command waits; every scratchpad byte is 0 and every tag is empty (R47); every window is closed
with generation 0 (R58); every domain's epoch is 0 (R36); s0 reads 0 and p0 all ones (R75); no spare channel is in use
(R281); every ring is disabled (R395); the module is at BOOT_WAIT 1 and READY 0 (R543); an HBM byte that nothing has
written reads 0, as Lighthouse writes every block as zeros. The other s, p and v registers read 0, which is the
model's choice (log 1). (R36, R47, R58, R75, R248, R281, R395, R543.) -/
def Obligations.ResetValues : Prop :=
  State.reset.pending = []
  ∧ (∀ t a, Map.get 0 (State.reset.tile t).spad a = 0) ∧ (∀ t k, (State.reset.tile t).full k = false)
  ∧ (∀ t k, ((State.reset.tile t).window k).st = .closed ∧ ((State.reset.tile t).window k).gen = 0)
  ∧ (∀ t, (State.reset.tile t).fld TILE.CORE_EPOCH = 0 ∧ (State.reset.tile t).fld TILE.RTR_EPOCH = 0)
  ∧ (∀ t, (State.reset.tile t).getS 0 = 0 ∧ (State.reset.tile t).getP 0 = BitVec.allOnes 256)
  ∧ (∀ t r, r ≠ 0 → (State.reset.tile t).getS r = 0 ∧ (State.reset.tile t).getP r = 0)
  ∧ (∀ t r, (State.reset.tile t).getV r = 0)
  ∧ (∀ k, k < 16 → State.reset.fld (HBM.SPARE_USED k) = 0) ∧ (∀ n, n < 64 → State.reset.fld (HIF.ENABLE n) = 0)
  ∧ State.reset.fld HIF.BOOT_WAIT = 1 ∧ State.reset.fld HIF.READY = 0
  ∧ (∀ a, Map.get 0 State.reset.hbm a = 0)

/-- After module reset HBM, the host's memory, the Lighthouse SRAM and every tile's scratchpad, accumulators and slot tags
are in the model's canonical form. (R9, R41, R47.) -/
def Obligations.ResetMemoriesCanonical : Prop := State.reset.memoriesWf = true

/-- For every state whose memories are in the model's canonical form (HBM, the host's memory, the Lighthouse SRAM, each
tile's scratchpad, accumulators and slot tags, and the HBM and those tile memories of every saved context), and every
command at the front of its queue or none: where step answers a next state, that state's memories are in canonical
form. Equal memories are then equal data in every run. (R9, R41, R276, R449, R450.) -/
def Obligations.EveryStepKeepsMemories : Prop :=
  ∀ s s' : State, s.memoriesWf = true → step s = .next s' → s'.memoriesWf = true

/-- For every command whose operands name units the module has, and every state of a module that has retired no row, exec
answers a next state: no ordinary data and no state of the machine makes a command stop. The rules cited number the
units: tiles, windows, DMA queues, semaphore entries. (R2, R20, R55, R98, R263.) -/
def Obligations.WellFormedCommandCompletes : Prop :=
  ∀ (c : Instr) (s : State), c.wf = true → s.retired = [] → ∃ s', exec c s = .next s'

/-- No command is refused. Where exec stops with a fault, that fault is noSuchUnit, and the command is ill-formed or the
module has retired a row. (R2, R20, R55, R98, R263.) -/
def Obligations.CommandStopsOnlyWithoutUnit : Prop :=
  (∀ (c : Instr) (s : State) (r : Refusal), exec c s ≠ .refused r)
  ∧ (∀ (c : Instr) (s : State) (f : Fault), exec c s = .fault f → f = .noSuchUnit ∧ (c.wf = false ∨ s.retired ≠ []))

/-- For every command that is a tile instruction of the lists of R89, R121, R174, R179 and R200, its 64-bit word laid out
as R84 lists (CLASS in bits 63 to 60, OP in bits 59 to 52, the other fields in bits 51 to 0) decodes, on its tile, to
the same instruction with every bit of every field. A word that decodes to a listed instruction is that instruction's
encoding, and one that is not listed decodes to ILLEGAL_OP with the whole word. (R84.) -/
def Obligations.TileWordsRoundTrip : Prop :=
  (∀ (c : Instr) (t : Nat) (cl : BitVec 4) (op : BitVec 8) (w : BitVec 52), tileWordFields c = some (t, cl, op, w) →
    ∃ word, encodeTile c = some word ∧ word.extractLsb' 60 4 = cl ∧ word.extractLsb' 52 8 = op ∧ word.extractLsb' 0 52 = w
      ∧ tileInstr t word = some c ∧ decodeTile t word = c)
  ∧ (∀ (t : Nat) (word : BitVec 64) (c : Instr), tileInstr t word = some c → encodeTile c = some word)
  ∧ (∀ (t : Nat) (word : BitVec 64), tileInstr t word = none → decodeTile t word = .illegalOp t word)

/-- Where tile t issues the instruction and its predicate is true, exec answers the state in which the instruction has
left the buffer, the PC has moved past it, and RD holds: ADD and SUB the sum and difference modulo 2^64; MUL and MULH
the low and high 64 bits of the signed product; AND, OR, XOR the bitwise value; SHL, SHR, SRA the shift of RA by
RB[5:0] (SRA: the signed quotient by the power of two, rounded down). Every other register, tile and byte of the state
stands as the issue left it, and a write to s0 is discarded. (R89.) -/
def Obligations.AluRegisterResults : Prop :=
  ∀ (t : Nat) (w : BitVec 52) (s : State), Issues t w (formR w) s →
    let a := (s.tile t).getS (fRA w)
    let b := (s.tile t).getS (fRB w)
    let n := (b.setWidth 6).toNat
    let gives := fun (r : Result) (v : Word) => r = .next ((s.issued t).putS t (fRD w) v)
    gives (exec (.add t w) s) (a + b) ∧ gives (exec (.sub t w) s) (a - b)
    ∧ gives (exec (.mul t w) s) (BitVec.ofInt 64 (a.toInt * b.toInt))
    ∧ gives (exec (.mulh t w) s) (BitVec.ofInt 64 (a.toInt * b.toInt / 2 ^ 64))
    ∧ gives (exec (.and t w) s) (a &&& b) ∧ gives (exec (.or t w) s) (a ||| b) ∧ gives (exec (.xor t w) s) (a ^^^ b)
    ∧ gives (exec (.shl t w) s) (BitVec.ofNat 64 (a.toNat * 2 ^ n))
    ∧ gives (exec (.shr t w) s) (BitVec.ofNat 64 (a.toNat / 2 ^ n))
    ∧ gives (exec (.sra t w) s) (BitVec.ofInt 64 (a.toInt / 2 ^ n))

/-- Where tile t issues the instruction and its predicate is true: ADDI writes RA plus the sign-extended IMM32 to RD, MOVI
the sign-extended IMM32, MOVHI IMM32 shifted left by 32 OR the low half of RA; CMP sets every bit of predicate RD to
condition IMM12 on RA and RB (0 =, 1 ≠, 2 < signed, 3 ≥ signed, 4 < unsigned, 5 ≥ unsigned). Nothing else changes; a
write to s0 or p0 is discarded. (R89.) -/
def Obligations.AluImmediateResults : Prop :=
  ∀ (t : Nat) (w : BitVec 52) (s : State),
    let a := (s.tile t).getS (fRA w)
    let b := (s.tile t).getS (fRB w)
    let imm : Word := (w.extractLsb' 0 32).signExtend 64
    let gives := fun (r : Result) (v : Word) => r = .next ((s.issued t).putS t (fRD w) v)
    (Issues t w (formI w) s → gives (exec (.addi t w) s) (a + imm))
    ∧ (Issues t w (formMovi w) s → gives (exec (.movi t w) s) imm)
    ∧ (Issues t w (formI w) s →
        gives (exec (.movhi t w) s) (w.extractLsb' 0 32 ++ a.extractLsb' 0 32))
    ∧ (Issues t w (formCmp w) s → ∀ holds : Bool,
        (holds = true ↔ (fIMM12 w = 0 ∧ a = b) ∨ (fIMM12 w = 1 ∧ a ≠ b) ∨ (fIMM12 w = 2 ∧ a.toInt < b.toInt)
          ∨ (fIMM12 w = 3 ∧ b.toInt ≤ a.toInt) ∨ (fIMM12 w = 4 ∧ a.toNat < b.toNat) ∨ (fIMM12 w = 5 ∧ b.toNat ≤ a.toNat)) →
        exec (.cmp t w) s =
          .next ((s.issued t).onTile t (fun x => x.putP (fRD w) (if holds then BitVec.allOnes 256 else 0))))

/-- Where tile t issues the instruction and its predicate is true: BR moves the PC to its own offset plus 8 × DISP, BRI to
RA plus 8 × DISP, CALL writes its own offset plus 8 to s31 and moves the PC by 8 × DISP, RET moves the PC to s31, all
modulo 2^20. The instruction leaves the buffer; no other register, tile or byte changes. (R89.) -/
def Obligations.BranchTargets : Prop :=
  ∀ (t : Nat) (w : BitVec 52) (s : State),
    let x := s.tile t
    let disp : Int := (w.extractLsb' 0 32).toInt
    let pcAt := fun (n : Int) => BitVec.ofInt 20 n
    let goes := fun (r : Result) (pc : BitVec 20) =>
      ∃ s', r = .next s' ∧ OnlyTile t s s' ∧ s'.tile t = { x with pc := pc, ibuf := takeInsn x.pc x.ibuf }
    (Issues t w formBr s → goes (exec (.br t w) s) (pcAt (x.pc.toNat + 8 * disp)))
    ∧ (Issues t w (formBri w) s → goes (exec (.bri t w) s) (pcAt ((x.getS (fRD w)).toNat + 8 * disp)))
    ∧ (Issues t w formRet s → goes (exec (.ret t w) s) (pcAt ((x.getS 31).toNat)))
    ∧ (Issues t w formCall s → ∃ s', exec (.call t w) s = .next s' ∧ OnlyTile t s s' ∧ (s'.tile t).pc = pcAt (x.pc.toNat + 8 * disp)
        ∧ (s'.tile t).getS 31 = BitVec.ofNat 64 (x.pc.toNat + 8) ∧ (∀ r, r ≠ 31 → (s'.tile t).getS r = x.getS r)
        ∧ s'.tile t = { x with pc := (s'.tile t).pc, s := (s'.tile t).s, ibuf := takeInsn x.pc x.ibuf })

/-- Where tile t can issue a scalar-core instruction with legal fields whose predicate bit 0 (inverted when PNEG is 1) is
0, exec answers the state in which the instruction has left the buffer and the PC lies past it: no register is written
and no status is raised. Stated for ADD, MUL, ADDI, CMP, BR, CALL, LD, ST, SIG, SWAIT, FENCE, HALT. (R77.) -/
def Obligations.FalsePredicateOnlyAdvances : Prop :=
  ∀ (t : Nat) (w : BitVec 52) (s : State),
    let off := fun (f : Form) => t < s.tileCount ∧ s.clocked = true ∧ (s.tile t).canIssue f.regs = true ∧ (s.tile t).predsReady w f = true
      ∧ pcOk (s.tile t).pc = true ∧ unusedZero w f.used = true ∧ f.legal = true ∧ ((s.tile t).pred w).getLsbD 0 = false
    (off (formR w) → exec (.add t w) s = .next (s.issued t) ∧ exec (.mul t w) s = .next (s.issued t))
    ∧ (off (formI w) → exec (.addi t w) s = .next (s.issued t)) ∧ (off (formCmp w) → exec (.cmp t w) s = .next (s.issued t))
    ∧ (off formBr → exec (.br t w) s = .next (s.issued t)) ∧ (off formCall → exec (.call t w) s = .next (s.issued t))
    ∧ (off (formMem w) → exec (.ld t w) s = .next (s.issued t) ∧ exec (.st t w) s = .next (s.issued t))
    ∧ (off (formCount w true) → exec (.sig t w) s = .next (s.issued t))
    ∧ (off (formSem w) → exec (.swait t w) s = .next (s.issued t))
    ∧ (off (formFence w) → exec (.fence t w) s = .next (s.issued t))
    ∧ (off { used := [], regs := [] } → exec (.halt t w) s = .next (s.issued t))

/-- Where tile t can issue and its stream runs: a PC that is no multiple of 8 or lies past 0x9_FFFF stops the stream with
PC_FAULT; an ADD, an AND or a BR with a bit set in an unused field stops it with INSN_FIELD; a word whose class or
operation is not listed stops it with ILLEGAL_OP. In each case the tile is halted, TILE_FAULT holds the status and the
PC unless it held an earlier record, the PC stays, no s, p or v register and no scratchpad byte changes, and the
status ends the job unless one has. (That it ends the job is R444's; which statuses stop a stream is R103's.) (R78,
R88, R103.) -/
def Obligations.IllegalFieldsStopTheStream : Prop :=
  ∀ (t : Nat) (w : BitVec 52) (word : BitVec 64) (s : State),
    let x := s.tile t
    let stops := fun (r : Result) (c : BitVec 16) => ∃ s', r = .next s' ∧ (s'.tile t).halted = true ∧ (s'.tile t).pc = x.pc
      ∧ (x.fld TILE.FAULT_VALID ≠ 1 → (s'.tile t).fld TILE.FAULT_CODE = c.toNat ∧ (s'.tile t).fld TILE.FAULT_PC = x.pc.toNat
          ∧ (s'.tile t).fld TILE.FAULT_VALID = 1)
      ∧ (x.fld TILE.FAULT_VALID = 1 → (s'.tile t).fld TILE.FAULT_CODE = x.fld TILE.FAULT_CODE)
      ∧ (s'.tile t).s = x.s ∧ (s'.tile t).p = x.p ∧ (s'.tile t).v = x.v ∧ (s'.tile t).spad = x.spad
      ∧ (∀ u, u ≠ t → s'.tile u = s.tile u) ∧ s'.jobFault = some (s.jobFault.getD c)
    let can := fun (f : Form) => t < s.tileCount ∧ s.clocked = true ∧ x.canIssue f.regs = true ∧ x.predsReady w f = true
    (can (formR w) → pcOk x.pc = false → stops (exec (.add t w) s) Status.PC_FAULT)
    ∧ (can (formR w) → pcOk x.pc = true → unusedZero w (formR w).used = false →
        stops (exec (.add t w) s) Status.INSN_FIELD ∧ stops (exec (.and t w) s) Status.INSN_FIELD)
    ∧ (can formBr → pcOk x.pc = true → unusedZero w formBr.used = false → stops (exec (.br t w) s) Status.INSN_FIELD)
    ∧ (t < s.tileCount → s.clocked = true → x.canIssue [] = true → pcOk x.pc = true → tileInstr 0 word = none →
        stops (exec (.illegalOp t word) s) Status.ILLEGAL_OP)

/-- Where tile t issues the instruction: NOP only moves the PC past itself; BCNRD writes the 64-bit Beacon count to RD;
HALT stops the tile's issue. A halted tile issues nothing: any ADD leaves the state as it is. (R89, R104.) -/
def Obligations.SystemInstructionResults : Prop :=
  ∀ (t : Nat) (w : BitVec 52) (s : State),
    (Issues t 0 { used := [], regs := [] } s → exec (.nop t 0) s = .next (s.issued t))
    ∧ (Issues t w { used := [uRD], regs := [fRD w] } s → exec (.bcnrd t w) s = .next ((s.issued t).putS t (fRD w) s.count))
    ∧ (Issues t w { used := [], regs := [] } s → ∃ s', exec (.halt t w) s = .next s' ∧ OnlyTile t s s'
        ∧ s'.tile t = { ((s.issued t).tile t) with halted := true, ended := true, haltReported := false }
        ∧ ∀ v, exec (.add t v) s' = .next s')

/-- Whatever the state, when exec gives a next state for an ALU or BR instruction, NOP, BCNRD or HALT of tile t: every
other tile is unchanged; on tile t every v register, the accumulators, every scratchpad byte and tag, every window,
queue and register of the control block but TILE_FAULT are unchanged; HBM, the host's memory and the module's
registers are unchanged; every s register but RD (for CALL s31; for CMP, branches, NOP and HALT none) and every p
register (but RD's for CMP) is unchanged. The PC may change. (TILE_FAULT changes where R88 or R78 stops the stream.)
(R75, R77, R88, R89, R103.) -/
def Obligations.ScalarFrame : Prop :=
  ∀ (t : Nat) (w : BitVec 52) (s : State),
    let x := s.tile t
    let frame := fun (r : Result) (sOut pOut : List Nat) => ∀ s', r = .next s' →
      (∀ u, u ≠ t → s'.tile u = s.tile u)
      ∧ (∀ a, Map.get 0 (s'.tile t).spad a = Map.get 0 x.spad a) ∧ (∀ k, (s'.tile t).full k = x.full k)
      ∧ (∀ k, (s'.tile t).window k = x.window k) ∧ (∀ i, (s'.tile t).getV i = x.getV i) ∧ (s'.tile t).acc = x.acc
      ∧ (∀ off, off ≠ TILE.FAULT_CODE.off → (s'.tile t).rd off = x.rd off)
      ∧ (s'.tile t).vq = x.vq ∧ (s'.tile t).mq = x.mq ∧ (s'.tile t).xq = x.xq ∧ (s'.tile t).dma = x.dma
      ∧ (∀ i, i ∉ sOut → (s'.tile t).getS i = x.getS i) ∧ (∀ i, i ∉ pOut → (s'.tile t).getP i = x.getP i)
      ∧ (∀ a, Map.get 0 s'.hbm a = Map.get 0 s.hbm a) ∧ (∀ a, Map.get 0 s'.hif.mem a = Map.get 0 s.hif.mem a)
      ∧ (∀ off, s'.rd off = s.rd off)
    frame (exec (.add t w) s) [fRD w] [] ∧ frame (exec (.sub t w) s) [fRD w] [] ∧ frame (exec (.mul t w) s) [fRD w] []
    ∧ frame (exec (.mulh t w) s) [fRD w] [] ∧ frame (exec (.and t w) s) [fRD w] [] ∧ frame (exec (.or t w) s) [fRD w] []
    ∧ frame (exec (.xor t w) s) [fRD w] [] ∧ frame (exec (.shl t w) s) [fRD w] [] ∧ frame (exec (.shr t w) s) [fRD w] []
    ∧ frame (exec (.sra t w) s) [fRD w] [] ∧ frame (exec (.addi t w) s) [fRD w] [] ∧ frame (exec (.movi t w) s) [fRD w] []
    ∧ frame (exec (.movhi t w) s) [fRD w] [] ∧ frame (exec (.bcnrd t w) s) [fRD w] []
    ∧ frame (exec (.cmp t w) s) [] [fRD w] ∧ frame (exec (.br t w) s) [] [] ∧ frame (exec (.bri t w) s) [] []
    ∧ frame (exec (.ret t w) s) [] [] ∧ frame (exec (.call t w) s) [31] [] ∧ frame (exec (.nop t w) s) [] []
    ∧ frame (exec (.halt t w) s) [] []

/-- Where tile t issues an LD or ST whose bytes lie in its own scratchpad from offset off, and meet no storage error: LD
fills RD with the b bytes, low byte first and zero-extended (s0 stays 0), and changes no byte of memory and no other s
register; ST changes exactly those b bytes, to the low b bytes of RD, and no s register and no tag. Other tiles, HBM
and the host's memory are unchanged. b is 1, 2, 4 or 8 by LEN. (R91, R92.) -/
def Obligations.ScalarAccessOwnScratchpad : Prop :=
  ∀ (t off : Nat) (w : BitVec 52) (s : State),
    let x := s.tile t
    let a := ((x.getS (fRA w) + (w.extractLsb' 0 24).signExtend 64).extractLsb' 0 48).toNat
    let n := 2 ^ (fLEN w)
    Issues t w (formMem w) s → Memory.wf x.spad = true → s.region a n = .spad t off →
      ((x.spadRead off n).2.1 = 0 → Gives (exec (.ld t w) s) (fun s' => OnlyTile t s s'
        ∧ (fRD w ≠ 0 → ∀ i, i < 8 → ((s'.tile t).getS (fRD w)).extractLsb' (8 * i) 8 = if i < n then Map.get 0 x.spad (off + i) else 0)
        ∧ (∀ r, r ≠ fRD w ∨ r = 0 → (s'.tile t).getS r = x.getS r)
        ∧ (∀ k, Map.get 0 (s'.tile t).spad k = Map.get 0 x.spad k) ∧ (s'.tile t).tags = x.tags ∧ (s'.tile t).pc = x.pc + 8))
      ∧ ((x.spadWrite off (bytesOf (x.getS (fRD w)).toNat n)).2 = 0 → Gives (exec (.st t w) s) (fun s' => OnlyTile t s s'
        ∧ (∀ k, Map.get 0 (s'.tile t).spad k =
            if off ≤ k ∧ k < off + n then (x.getS (fRD w)).extractLsb' (8 * (k - off)) 8 else Map.get 0 x.spad k)
        ∧ (∀ r, (s'.tile t).getS r = x.getS r) ∧ (s'.tile t).tags = x.tags ∧ (s'.tile t).pc = x.pc + 8))

/-- Where tile t issues an ST whose address is neither in its own scratchpad nor in its own control block, exec answers a
next state in which no byte of any scratchpad, of HBM or of the host's memory has changed, no s, p or v register and
no module register has changed, and TILE_FAULT holds STORE_SCOPE and the instruction's offset, unless it held an
earlier record. (R92.) -/
def Obligations.StoresOutsideOwnTileRefused : Prop :=
  ∀ (t : Nat) (w : BitVec 52) (s : State),
    let x := s.tile t
    let r := s.region (memAddr (x.getS (fRA w)) w) (lenBytes (fLEN w))
    Issues t w (formMem w) s → (∀ off, r ≠ .spad t off) → (∀ off, r ≠ .tcb t off) →
      Gives (exec (.st t w) s) (fun s' =>
        (∀ u a, Map.get 0 (s'.tile u).spad a = Map.get 0 (s.tile u).spad a)
        ∧ (∀ a, Map.get 0 s'.hbm a = Map.get 0 s.hbm a) ∧ (∀ a, Map.get 0 s'.hif.mem a = Map.get 0 s.hif.mem a)
        ∧ (∀ off, s'.rd off = s.rd off) ∧ (s'.tile t).s = x.s ∧ (s'.tile t).p = x.p ∧ (s'.tile t).v = x.v
        ∧ (x.fld TILE.FAULT_VALID ≠ 1 → (s'.tile t).fld TILE.FAULT_CODE = Status.STORE_SCOPE.toNat
            ∧ (s'.tile t).fld TILE.FAULT_PC = x.pc.toNat))

/-- Where tile t issues a VLD or VST that can run at once, whose b bytes lie in its own scratchpad from offset off, its
tags stand as its mode waits for, and no storage error is met: VLD fills rows 0 to b/64 - 1 of VD with the bytes,
leaves the other rows, changes no byte, clears the tags of its slots in consuming mode (TAGM 1) and leaves them in the
plain and peeking modes; VST changes exactly those b bytes, to the first b bytes of VD, and sets the tags of its slots
full in tagged mode. (R49, R50, R91.) -/
def Obligations.VectorAccessOwnScratchpad : Prop :=
  ∀ (t off : Nat) (w : BitVec 52) (s : State),
    let x := s.tile t
    let n := lenBytes (fLEN w)
    let tagged := decide (fTAGM w ≠ 0)
    let v := x.getV (fRD w)
    let slotsSet := fun (y : Tile) (b : Bool) => ∀ k, y.full k = if off / 256 ≤ k ∧ k < off / 256 + n / 256 then b else x.full k
    Memory.wf x.spad = true → s.region (memAddr (x.getS (fRA w)) w) n = .spad t off →
    (tagged = true → off % 256 = 0 ∧ n % 256 = 0) →
      (RunsAlone t 2 3 w { formAccess w 3 with room := decide (x.vq.length < 16) } s → (x.spadRead off n).2.1 = 0 →
        (tagged = true → x.tagReady .consume (off / 256) (n / 256) = true) →
        Gives (exec (.vld t w) s) (fun s' => OnlyTile t s s'
          ∧ (s'.tile t).getV (fRD w) = BitVec.ofNat 8192 (putBits v.toNat 0 (8 * n)
              (ofBytes ((List.range n).map (fun i => Map.get 0 x.spad (off + i)))))
          ∧ (∀ r, r ≠ fRD w → (s'.tile t).getV r = x.getV r) ∧ (∀ k, Map.get 0 (s'.tile t).spad k = Map.get 0 x.spad k)
          ∧ (if fTAGM w = 1 then slotsSet (s'.tile t) false else (s'.tile t).tags = x.tags) ∧ (s'.tile t).s = x.s))
      ∧ (RunsAlone t 2 4 w { formAccess w 2 with room := decide (x.vq.length < 16) } s → (x.spadWrite off (bytesOf v.toNat n)).2 = 0 →
        (tagged = true → x.tagReady .store (off / 256) (n / 256) = true) →
        Gives (exec (.vst t w) s) (fun s' => OnlyTile t s s'
          ∧ (∀ k, Map.get 0 (s'.tile t).spad k =
              if off ≤ k ∧ k < off + n then BitVec.ofNat 8 (v.toNat / 256 ^ (k - off)) else Map.get 0 x.spad k)
          ∧ (if tagged then slotsSet (s'.tile t) true else (s'.tile t).tags = x.tags)
          ∧ (s'.tile t).v = x.v ∧ (s'.tile t).s = x.s))

/-- Where tile t issues the instruction and the virtual identifier in RA[31:0] translates to entry e of tile h of this
module, whose router is ready: the operation reaches h's queue behind what waits there, with the requester's module,
tile, epoch and stamp and its RD; SIG and SDEC carry the count IMM16, or RB[15:0] where CNTR is 1, which must not be 0
(SIG: none of its named DMA queues holds or failed an operation, and nothing waits in the signal buffer; the others:
no SIG to that home is held, R265); SWAIT carries the waiting tile's TIMEOUT_EXP and stops issue; the others hold RD
until the answer comes. An SREAD of a trigger counter of the module is answered at once with its COUNT, in the mail.
No s register changes yet. (R93, R95, R264, R265.) -/
def Obligations.SemaphoreRequestsReachHome : Prop :=
  ∀ (t h e : Nat) (w : BitVec 52) (s : State),
    let x := s.tile t
    let id := (x.getS (fRA w)).toNat % 2 ^ 32
    let n := if fCNTR w then (x.getS (fRB w)).toNat % 2 ^ 16 else fIMM16 w
    let arrives := fun (op : SemOp) (s' : State) => (s'.tile h).semOps = (s.tile h).semOps ++ [⟨s.self, s.stamp t, e, op, fRD w, none, false, none⟩]
      ∧ (∀ r, (s'.tile t).getS r = x.getS r)
    let held := fun (s' : State) => (s'.tile t).busy = if fRD w = 0 then x.busy else x.busy ++ [fRD w]
    let open_ := x.sigs.any (fun y => y.target.sameHome (.here h e)) = false
    ((SemRef.here h e).isEngine = true → open_ → s.semTarget t id false = some (.here h e) → Issues t w (formSem w) s → Gives (exec (.sread t w) s) (fun s' =>
        (s'.tile t).mail = x.mail ++ [.reply (s.stamp t) (fRD w) (BitVec.ofNat 64 (s.fld (CE.COUNT (h - 0xF00) e))) .value] ∧ held s'
        ∧ (∀ r, (s'.tile t).getS r = x.getS r)))
    ∧ ((s.tile h).rtrReady = true → (SemRef.here h e).isEngine = false →
      (s.semTarget t id true = some (.here h e) →
        (Issues t w (formCount w true) s → n ≠ 0 → x.sigs = [] → x.dma = [] → x.dmaFails = [] →
          Gives (exec (.sig t w) s) (fun s' => arrives (.sig n) s' ∧ held s' ∧ (s'.tile t).sigsOut = x.sigsOut + 1)))
      ∧ (s.semTarget t id false = some (.here h e) → open_ →
        (Issues t w (formSem w) s → Gives (exec (.swait t w) s) (fun s' => arrives (.swait (x.fld TILE.TIMEOUT_EXP)) s'
          ∧ (s'.tile t).stall = .swait (fRD w)))
        ∧ (Issues t w (formCount w false) s → n ≠ 0 → Gives (exec (.sdec t w) s) (fun s' => arrives (.sdec n) s' ∧ held s'))
        ∧ (Issues t w (formSem w) s → Gives (exec (.flare t w) s) (fun s' => arrives .flare s' ∧ held s'))
        ∧ (Issues t w (formSem w) s → Gives (exec (.sread t w) s) (fun s' => arrives .sread s' ∧ held s'))))

/-- Where one operation of tile u of this module waits at home t whose router is ready, on an entry with count c and q
waiters: SIG n releases the min(n, q) oldest waiters and adds the rest of n to the count, unless the count would pass
2^32 - 1, when nothing changes and the answer is SEM_OVERFLOW; SWAIT takes 1 from a count of at least 1, else joins
the queue, or answers SEM_QFULL where 64 wait; SDEC n lowers the count by n, or answers SEM_UNDERFLOW where n exceeds
it; FLARE releases every waiter and leaves the count; SREAD answers the count and the number of waiters in bits 38 to
32. Every other answer is 0; each released waiter of this module is sent a release. (R93.) -/
def Obligations.HomeAppliesOneOperation : Prop :=
  ∀ (t u e rd : Nat) (mod : BitVec 14) (st : Stamp) (op : SemOp) (s : State),
    let m : SemMsg := ⟨mod, st, e, op, rd, none, false, none⟩
    let c := (s.sem t e).count.toNat
    let ws := (s.sem t e).waiters
    let after := fun (s' : State) (c' : Nat) (ws' : List Waiter) => (s'.sem t e).count.toNat = c' ∧ (s'.sem t e).waiters = ws'
    let answers := fun (s' : State) (v : Word) => (s'.tile u).mail.getLast? = some (.reply st rd v op.kind)
    let released := fun (s' : State) (k : Nat) => ∀ w ∈ ws.take k, w.away = none → (Msg.semRelease none t e w) ∈ (s'.tile w.st.tile).mail
    t < s.tileCount → (s.tile t).rtrReady = true → (s.tile t).semOps = [m] → st.tile = u →
      Gives (exec (.semOpAtHome t) s) (fun s' => (s'.tile t).semOps = [] ∧
        match op with
        | .sig n => if c + (n - min n ws.length) > 2 ^ 32 - 1 then after s' c ws ∧ answers s' (Status.SEM_OVERFLOW.setWidth 64)
            else after s' (c + (n - min n ws.length)) (ws.drop n) ∧ released s' n ∧ answers s' 0
        | .flare => after s' c [] ∧ released s' ws.length ∧ answers s' 0
        | .sdec n => if c < n then after s' c ws ∧ answers s' (Status.SEM_UNDERFLOW.setWidth 64)
            else after s' (c - n) ws ∧ answers s' 0
        | .swait x => if 1 ≤ c then after s' (c - 1) ws ∧ answers s' 0
            else if 64 ≤ ws.length then after s' c ws ∧ answers s' (Status.SEM_QFULL.setWidth 64)
            else after s' c (ws ++ [⟨mod, st, rd, x, none⟩])
        | .sread => after s' c ws ∧ answers s' (BitVec.ofNat 64 (c + ws.length * 2 ^ 32)))

/-- The operations that a home takes in one cycle, as the model forms that cycle (the longest run of waiting operations
with no requester twice), are applied as a permutation of themselves ordered by group (SIG, FLARE, SDEC, SWAIT,
SREAD), within a group by module index, and within a module by logical index; the others keep waiting in their order.
(R94.) -/
def Obligations.HomeOrdersACycle : Prop :=
  ∀ ms : List SemMsg, (∀ m ∈ ms, m.st.tile < 2 ^ 12 ∧ m.rank = none) →
    let l := (semBatch [] ms).1.foldl (fun l m => semInsert m l) []
    l.Perm (semBatch [] ms).1 ∧ (semBatch [] ms).1 ++ (semBatch [] ms).2 = ms
    ∧ l.Pairwise (fun a b => a.op.rank < b.op.rank
        ∨ (a.op.rank = b.op.rank ∧ (a.module.toNat < b.module.toNat ∨ (a.module = b.module ∧ a.st.tile ≤ b.st.tile))))
    ∧ SemOp.rank (.sig 1) < SemOp.rank .flare ∧ SemOp.rank .flare < SemOp.rank (.sdec 1)
    ∧ SemOp.rank (.sdec 1) < SemOp.rank (.swait 0) ∧ SemOp.rank (.swait 0) < SemOp.rank .sread

/-- A release in the mail of its waiter's tile, whose epoch is still the tile's and whose core is ready, writes 0 to the
waiting SWAIT's RD and ends its stall. Where the epoch has changed it goes back to its home in this module, another
tile. A returned release at its home counts as a SIG of 1 of the home's own, in that cycle's order: alone and without
waiters it raises the count by 1, and it satisfies an SWAIT that came before it. A waiter whose timeout expires leaves
the queue, and its tile is answered SEM_TIMEOUT. A held SIG whose DMA operations have ended without a failure leaves
the buffer for its home. (R93, R95, R267.) -/
def Obligations.SemaphoreEventsComplete : Prop :=
  ∀ (t h e i : Nat) (s : State),
    let x := s.tile t
    (∀ (w : Waiter) (rd : Nat) (rest : List Msg), t < s.tileCount → x.mail = .semRelease none h e w :: rest → x.stall = .swait rd →
      (w.st.epoch.toNat = x.fld TILE.CORE_EPOCH → x.fld TILE.CORE_READY = 1 →
        Gives (exec (.semReleaseDelivery t) s) (fun s' => OnlyTile t s s' ∧ (s'.tile t).stall = .none
          ∧ (s'.tile t).mail = rest ∧ (s'.tile t).getS w.rd = 0))
      ∧ (w.st.epoch.toNat ≠ x.fld TILE.CORE_EPOCH → h ≠ t →
        Gives (exec (.semReleaseDelivery t) s) (fun s' => (s'.tile h).mail = (s.tile h).mail ++ [.semReturned e]
          ∧ (s'.tile t).stall = x.stall ∧ (s'.tile t).mail = rest)))
    ∧ (∀ rest : List Msg, t < s.tileCount → x.mail = .semReturned e :: rest → (s.sem t e).waiters = [] → x.rtrReady = true →
        (x.semOps = [] → (s.sem t e).count.toNat < 2 ^ 32 - 1 →
          Gives (exec (.returnedRelease t) s) (fun s' => (s'.sem t e).count = (s.sem t e).count + 1 ∧ (s'.tile t).mail = rest))
        ∧ (∀ st exp rd, st.tile ≠ t → (s.sem t e).count = 0 → x.semOps = [⟨s.self, st, e, .swait exp, rd, none, false, none⟩] →
          Gives (exec (.returnedRelease t) s) (fun s' => (s'.sem t e).count = 0 ∧ (s'.sem t e).waiters = [] ∧ (s'.tile t).semOps = []
            ∧ (s'.tile st.tile).mail = (s.tile st.tile).mail ++ [.reply st rd 0 .swait])))
    ∧ (∀ w : Waiter, t < s.tileCount → e < 64 → (s.sem t e).waiters[i]? = some w → w.away = none →
        Gives (exec (.semTimeout t e i) s) (fun s' => (s'.sem t e).waiters = (s.sem t e).waiters.eraseIdx i
          ∧ (s'.sem t e).count = (s.sem t e).count
          ∧ (s'.tile w.st.tile).mail = (s.tile w.st.tile).mail ++ [.reply w.st w.rd (Status.SEM_TIMEOUT.setWidth 64) .swait]))
    ∧ (∀ (n rd : Nat), t < s.tileCount → x.sigs = [⟨.here h e, .sig n, rd, [], []⟩] → (s.tile h).rtrReady = true →
        (SemRef.here h e).isEngine = false →
        Gives (exec (.sigBufferRelease t) s) (fun s' => (s'.tile t).sigs = []
          ∧ (s'.tile h).semOps = (s.tile h).semOps ++ [⟨s.self, s.stamp t, e, .sig n, rd, none, false, none⟩]))

/-- A FENCE whose named groups have drained lets issue go on, and with IFETCH empties the instruction buffer; one whose
groups have not stops issue until FENCE_COMPLETE finds them drained. A WAIT without deadline takes at once the enabled
events that are pending into RD and clears exactly them; with none pending it stops issue at the level of TILE_MODE,
until WAIT_WAKE finds one. A HALT is reported once every engine queue is empty. A fetch into an empty buffer at a
legal PC appends the instructions of the PC's 128-byte line, from the PC to the line's end. (R78, R96, R104, R106,
R107.) -/
def Obligations.FenceWaitHaltFetch : Prop :=
  ∀ (t : Nat) (w : BitVec 52) (s : State),
    let x := s.tile t
    let y := (s.issued t).tile t
    let g : BitVec 16 := w.extractLsb' 0 16
    let events := bits w.toNat 0 7 ||| 0x20
    let wakes := fun (z : Tile) (rd ev : Nat) (s' : State) => OnlyTile t s s' ∧ (s'.tile t).stall = .none
      ∧ (s'.tile t).fld TILE.PEND = x.fld TILE.PEND - (x.fld TILE.PEND &&& ev)
      ∧ (rd ≠ 0 → (s'.tile t).getS rd = BitVec.ofNat 64 (x.fld TILE.PEND &&& ev)) ∧ (s'.tile t).pc = z.pc
    (Issues t w (formFence w) s →
        (x.drained g = true → Gives (exec (.fence t w) s) (fun s' => OnlyTile t s s'
          ∧ s'.tile t = { y with stall := .none, ibuf := if g.getLsbD 4 then [] else y.ibuf }))
        ∧ (x.drained g = false → Gives (exec (.fence t w) s) (fun s' => OnlyTile t s s' ∧ s'.tile t = { y with stall := .fence g })))
    ∧ (∀ f, t < s.tileCount → x.stall = .fence f → x.drained f = true →
        Gives (exec (.fenceComplete t) s) (fun s' => OnlyTile t s s'
          ∧ s'.tile t = { x with stall := .none, ibuf := if f.getLsbD 4 then [] else x.ibuf }))
    ∧ (fDL w = false → Issues t w { used := [uRD, (32, 1), (0, 7)], regs := [fRD w] } s →
        (x.fld TILE.PEND &&& events ≠ 0 → Gives (exec (.wait t w) s) (wakes y (fRD w) events))
        ∧ (x.fld TILE.PEND &&& events = 0 → Gives (exec (.wait t w) s) (fun s' => OnlyTile t s s'
            ∧ s'.tile t = { y with stall := .wait (fRD w) (BitVec.ofNat 7 events) none (x.fld TILE.WAITLVL) })))
    ∧ (∀ rd ev dl lv, t < s.tileCount → x.stall = .wait rd ev dl lv → x.fld TILE.PEND &&& ev.toNat ≠ 0 →
        Gives (exec (.waitWake t) s) (wakes x rd ev.toNat))
    ∧ (t < s.tileCount → x.halted = true → x.ended = true → x.haltReported = false → x.enginesEmpty = true →
        Gives (exec (.haltReport t) s) (fun s' => OnlyTile t s s' ∧ s'.tile t = { x with haltReported := true }))
    ∧ (t < s.tileCount → s.clocked = true → x.fld TILE.CORE_READY = 1 → x.halted = false → x.ibuf = [] → pcOk x.pc = true →
        (x.spadRead x.pc.toNat (128 - x.pc.toNat % 128)).2.1 = 0 →
        Gives (exec (.instructionFetch t) s) (fun s' => OnlyTile t s s' ∧ (s'.tile t).pc = x.pc
          ∧ (s'.tile t).ibuf = (List.range (16 - x.pc.toNat % 128 / 8)).map (fun i =>
              (x.pc.toNat + 8 * i, BitVec.ofNat 64 (ofBytes (readRun 0 x.spad (x.pc.toNat + 8 * i) 8))))))

/-- TXOPEN opens the lowest free handle and writes its number to RD[17:16] with status 0; with none free RD takes
TXN_LIMIT. TXREL of an open handle without copies completes at once with 0 and frees it; of a cancelled handle it
writes the status and the index in bits 27 to 16 and frees it; of a free handle it answers TXN_STATE. TXCAN of an open
handle without dark copies and without unsent operations completes at once with 0 and frees it. A completed TXREL or
TXCAN makes the TXN event pending. (R97, R548.) -/
def Obligations.TransactionHandles : Prop :=
  ∀ (t : Nat) (w : BitVec 52) (s : State),
    let x := s.tile t
    let h := fIMM32 w
    let y := x.txn h
    let done := fun (s' : State) (v : Word) => (s'.tile t).txn h = {} ∧ (fRD w ≠ 0 → (s'.tile t).getS (fRD w) = v)
      ∧ bit ((s'.tile t).fld TILE.PEND) 4 = true
    (Issues t w (formTxopen w) s →
        (∀ k, k < 4 → x.txn k = {} → (∀ j, j < k → x.txn j ≠ {}) → Gives (exec (.txopen t w) s) (fun s' => OnlyTile t { s with nextKey := s.nextKey + 1 } s'
          ∧ ((s'.tile t).txn k).st = .opened ∧ (∀ j, j ≠ k → (s'.tile t).txn j = x.txn j)
          ∧ (fRD w ≠ 0 → (s'.tile t).getS (fRD w) = BitVec.ofNat 64 (k * 2 ^ 16))))
        ∧ ((∀ k, k < 4 → x.txn k ≠ {}) → exec (.txopen t w) s = .next ((s.issued t).putStatus t (fRD w) Status.TXN_LIMIT)))
    ∧ (Issues t w (formHandle w) s → h < 4 → y.canRd = none →
        (y.st = .opened → y.acked = [] → y.open_ = [] → x.txnUnsent h = false → Gives (exec (.txrel t w) s) (fun s' => OnlyTile t s s' ∧ done s' 0))
        ∧ (y.st = .cancelled → Gives (exec (.txrel t w) s) (fun s' => OnlyTile t s s'
            ∧ done s' (BitVec.ofNat 64 (y.status.toNat + y.index.toNat * 2 ^ 16))))
        ∧ (y.st = .free → exec (.txrel t w) s = .next ((s.issued t).putStatus t (fRD w) Status.TXN_STATE))
        ∧ (y.st = .opened → y.dropped = false → y.relRd = none → s.txnHolders t y = [] → x.txnUnsent h = false →
            Gives (exec (.txcan t w) s) (fun s' => OnlyTile t s s' ∧ done s' 0)))

/-- The timeout of an open handle without a waiting TXREL, whose copies lie dark nowhere, cancels it with MCAST_TIMEOUT
and the lowest target that has not answered (0xFFF where none is left). A release that reaches a target clears the
dark bits of its slots and sets their tags full in the same step, and changes no byte. A drop clears the dark bits,
leaves the tags as they are and changes no byte. (R232, R233, R548.) -/
def Obligations.TransactionEvents : Prop :=
  ∀ (t h o k : Nat) (rest : List Msg) (s : State),
    let x := s.tile t
    let y := x.txn h
    t < s.tileCount →
      (h < 4 → y.st = .opened → y.canRd = none → y.relRd = none → s.txnHolders t y = [] → Gives (exec (.txnTimeout t h) s) (fun s' => OnlyTile t s s'
        ∧ ((s'.tile t).txn h).st = .cancelled ∧ ((s'.tile t).txn h).status = Status.MCAST_TIMEOUT
        ∧ (∀ u ∈ y.open_, u < 0xFFF → ((s'.tile t).txn h).index.toNat ≤ u)
        ∧ (((s'.tile t).txn h).index.toNat = 0xFFF ∨ ((s'.tile t).txn h).index.toNat ∈ y.open_)))
      ∧ (x.mail = .txnRelease o k :: rest → Gives (exec (.txnReleaseArrival t) s) (fun s' => OnlyTile t s s'
        ∧ (s'.tile t).mail = rest ∧ (s'.tile t).spad = x.spad
        ∧ (∀ slot ∈ x.darkOf (o, k), (s'.tile t).isDark slot = false ∧ (s'.tile t).full slot = true)
        ∧ (∀ slot, slot ∉ x.darkOf (o, k) → (s'.tile t).full slot = x.full slot ∧ (s'.tile t).isDark slot = x.isDark slot)))
      ∧ (x.mail = .drop o k :: rest → (s.tile o).handleOf k = none → Gives (exec (.darkCopyDrop t) s) (fun s' => OnlyTile t s s'
        ∧ (s'.tile t).mail = rest ∧ (s'.tile t).spad = x.spad ∧ (s'.tile t).tags = x.tags
        ∧ (∀ slot ∈ x.darkOf (o, k), (s'.tile t).isDark slot = false)))

/-- Where tile t issues a DMAST without SYNCM and TX whose descriptor offset keeps R98's limits, whose descriptor reads
without a storage error and passes every check, and, with SCHED, whose count R100 admits while the Beacon is not lost:
the operation stands last in its queue, not started, with the descriptor, the count and whether it is late, and RD is
0. A DMAWT on an empty queue writes the queue's first non-success status to RD and clears it; on a queue that is not
empty it stops issue. DMACAN removes exactly the operations of its queue that have not started (no signal held, no
transaction open). (R98, R99, R100.) -/
def Obligations.DmaInstructions : Prop :=
  ∀ (t : Nat) (w : BitVec 52) (s : State),
    let x := s.tile t
    let a := x.getS (fRA w)
    let q := fQUE w
    let d := BitVec.ofNat 256 (ofBytes (readRun 0 x.spad a.toNat 32))
    (Issues t w (formDmast x w) s → fSYNCM w = 0 → fTX w = false → a.toNat % 32 = 0 → a.toNat ≤ 0x9_FFE0 →
      (x.spadRead a.toNat 32).2.1 = 0 → s.dmaCheck t d = 0 →
      (fSCHED w = true → s.fld BCN.STATE ≠ 5 ∧ tooFar (x.getS (fRB w)) s.count = false) →
      Gives (exec (.dmast t w) s) (fun s' => ∃ o, (s'.tile t).dma = x.dma ++ [o] ∧ o.que = q ∧ o.desc = d ∧ o.started = false
        ∧ o.sched = (if fSCHED w then some (x.getS (fRB w)) else none)
        ∧ o.late = (fSCHED w && decide (ahead (x.getS (fRB w)) s.count ≤ 0))
        ∧ (s'.tile t).getS (fRD w) = 0 ∧ (∀ r, r ≠ fRD w → (s'.tile t).getS r = x.getS r)
        ∧ (∀ k, Map.get 0 (s'.tile t).spad k = Map.get 0 x.spad k)))
    ∧ (Issues t w (formDmawt w) s →
        (x.queued q = 0 → Gives (exec (.dmawt t w) s) (fun s' => OnlyTile t s s'
          ∧ (fRD w ≠ 0 → (s'.tile t).getS (fRD w) = (Map.get 0 x.dmaStatus q).setWidth 64)
          ∧ Map.get 0 (s'.tile t).dmaStatus q = 0 ∧ (s'.tile t).stall = x.stall))
        ∧ (x.queued q ≠ 0 → Gives (exec (.dmawt t w) s) (fun s' => OnlyTile t s s' ∧ (s'.tile t).stall = .dmawt q (fRD w))))
    ∧ (Issues t w (formDmacan w) s → x.sigs = [] → (∀ h, h < 4 → x.txn h = {}) →
        Gives (exec (.dmacan t w) s) (fun s' => OnlyTile t s s'
          ∧ (s'.tile t).dma = x.dma.filter (fun o => decide (o.que ≠ q) || o.started)))

/-- DMA_OP_START of a queue whose first operation has not started and whose count, if any, has come, with a descriptor
without tags, Halo, SYNCM and TX from and to the tile's own scratchpad, where no storage error is met: each
destination byte takes what its source byte held before, no other byte of the scratchpad and no tag changes, no s, p
or v register changes, and the operation, started, has moved its whole length. DMA_OP_END of the only operation of a
queue, started, whose bytes have all moved and whose writes are all answered, and for which no signal and no DMAWT
waits, takes it out of its queue; a non-success status of it is the queue's, unless the queue holds an earlier one;
the DMA event is pending. (R98, R100, R549.) -/
def Obligations.DmaMovesBytes : Prop :=
  ∀ (t q a b n : Nat) (o : DmaOp) (s : State),
    let x := s.tile t
    t < s.tileCount → q < 4 → x.current q = some o → (∀ p ∈ x.dma, p.id = o.id → p = o) → o.syncm = 0 →
      (Memory.wf x.spad = true → o.started = false → o.readDone = false → o.status = none → o.moved = 0 → o.got = none → o.put = 0 →
        o.txn = none → (∀ c, o.sched = some c → ahead c s.count ≤ 0) → x.fld TILE.CORE_READY = 1 → n = dLen o.desc → 0 < n →
        dHalo o.desc = false → dStag o.desc = false → dDtag o.desc = false → (∀ p ∈ x.parked, p.user ≠ .dma o.id) →
        s.region (dSrc o.desc) n = .spad t a → s.region (dDst o.desc) n = .spad t b →
        (x.spadRead a n).2.1 = 0 → ((x.spadRead a n).1.spadWrite b (readRun 0 x.spad a n)).2 = 0 →
        Gives (exec (.dmaOpStart t q) s) (fun s' => OnlyTile t s s'
          ∧ (∀ k, Map.get 0 (s'.tile t).spad k = if b ≤ k ∧ k < b + n then Map.get 0 x.spad (a + (k - b)) else Map.get 0 x.spad k)
          ∧ (s'.tile t).tags = x.tags ∧ (s'.tile t).s = x.s ∧ (s'.tile t).p = x.p ∧ (s'.tile t).v = x.v
          ∧ (∃ p ∈ (s'.tile t).dma, p.id = o.id ∧ p.started = true ∧ p.moved = n ∧ p.readDone = true)))
      ∧ (o.started = true → o.readDone = true → o.unacked = 0 → x.mail = [] → x.sigs = [] →
        (∀ h, h < 4 → x.txn h = {}) → x.queued q = 1 → x.stall = .none →
        Gives (exec (.dmaOpEnd t q) s) (fun s' => OnlyTile t s s' ∧ (s'.tile t).dma = x.dma.filter (fun p => decide (p.id ≠ o.id))
          ∧ bit ((s'.tile t).fld TILE.PEND) 2 = true
          ∧ Map.get 0 (s'.tile t).dmaStatus q =
              (let c := o.status.getD (if o.late then Status.SCHED_LATE else 0)
               if Status.ok c ∨ Map.get 0 x.dmaStatus q ≠ 0 then Map.get 0 x.dmaStatus q else c)))

/-- Where tile t issues the instruction and its exchange queue is empty and no WCLOSE is closing: WOPEN of a closed window
whose range is not empty, lies in the 2,560 slots and overlaps no other window that is open or closing (and, for a
queue window, holds no full tag) opens it with that base, length and mode, its head, tail and counts at 0, and writes
its generation to RD[31:16] with status 0; where one of these fails it changes no window and writes WIN_STATE with the
generation. WCLOSE advances the window's generation by 1 modulo 2^16, sets it to closing, voids what it had granted,
and holds RD. WGRANT of m credits, m from 1 to POOL, of an open queue window to a tile of this module whose core is
ready puts the grant in that tile's mail, counts m as granted and holds RD; with m = 0 or beyond POOL it writes
CREDIT_RANGE, of a window that is no open queue window WIN_STATE, and neither changes a window or another tile. In
each case no other window of the tile changes. (R57, R58, R65, R66, R69, R90.) -/
def Obligations.WindowInstructions : Prop :=
  ∀ (t : Nat) (w : BitVec 52) (s : State),
    let x := s.tile t
    let k := fIMM12 w % 64
    let d := x.window k
    let base := (x.getS (fRA w)).toNat
    let len := (x.getS (fRB w)).toNat
    let queue := (fIMM12 w).testBit 6
    let opens := d.st = .closed ∧ 0 < len ∧ base + len ≤ 2560 ∧ (queue = true → anyRun x.tags base len = false)
      ∧ (∀ e ∈ x.wins, e.1 ≠ k → e.2.st ≠ .closed → base + len ≤ e.2.base ∨ e.2.base + e.2.len ≤ base)
    let others := fun (s' : State) => ∀ j, j ≠ k → (s'.tile t).window j = x.window j
    let writes := fun (s' : State) (v : Word) => OnlyTile t s s' ∧ (fRD w ≠ 0 → (s'.tile t).getS (fRD w) = v)
    let holds := fun (s' : State) => fRD w ≠ 0 → fRD w ∈ (s'.tile t).busy
    x.xq = [] → x.closing = none →
      (Issues t w (formWopen x w) s →
        (opens → Gives (exec (.wopen t w) s) (fun s' => others s' ∧ writes s' (BitVec.ofNat 64 (d.gen.toNat * 2 ^ 16))
            ∧ (s'.tile t).window k = { d with base := base, len := len, queue := queue, st := .opened, head := 0, tail := 0, occupied := 0, granted := 0, held := none }))
        ∧ (¬ opens → Gives (exec (.wopen t w) s) (fun s' => (s'.tile t).wins = x.wins
            ∧ writes s' (BitVec.ofNat 64 (Status.WIN_STATE.toNat + d.gen.toNat * 2 ^ 16)))))
      ∧ (Issues t w (formWclose x w) s → Gives (exec (.wclose t w) s) (fun s' => OnlyTile t s s' ∧ others s' ∧ holds s'
          ∧ (s'.tile t).window k = { d with gen := d.gen + 1, st := .closing, granted := 0 }
          ∧ (s'.tile t).closing = some (k, fRD w)))
      ∧ (Issues t w (formWgrant x w) s → bits base 12 4 = 0 → bits base 30 34 = 0 →
          (d.st = .opened → d.queue = true → 0 < len → len ≤ d.pool → bits base 16 14 = s.self.toNat → base % 2 ^ 12 < s.tileCount →
            (s.tile (base % 2 ^ 12)).fld TILE.CORE_READY = 1 →
            Gives (exec (.wgrant t w) s) (fun s' => others s' ∧ holds s' ∧ (s'.tile t).window k = { d with granted := d.granted + len }
              ∧ (s'.tile (base % 2 ^ 12)).mail = (s.tile (base % 2 ^ 12)).mail ++ [.grant s.self t k d.gen len (fRD w) (s.stamp t) none]))
          ∧ (d.st = .opened → d.queue = true → (len = 0 ∨ d.pool < len) → Gives (exec (.wgrant t w) s) (fun s' => (s'.tile t).wins = x.wins
              ∧ writes s' (Status.CREDIT_RANGE.setWidth 64)))
          ∧ (d.st ≠ .opened ∨ d.queue = false → Gives (exec (.wgrant t w) s) (fun s' => (s'.tile t).wins = x.wins
              ∧ writes s' (Status.WIN_STATE.setWidth 64))))

/-- The write at the head of port 0 of a ready tile, a visible dynamic message (no transaction, no phase) of whole slots
from another tile, where no tag group has a parity error and the window's slots for it are distinct: where the window
is not open or the generation differs, it is refused WIN_CLOSED; in an open addressed window, WIN_RANGE where f + k
passes LEN, else EXCH_OVERRUN where a tag of its slots is full or the slot dark, else it lands in slots BASE + f
onwards; in an open queue window that nothing holds, QUEUE_OVERRUN where k exceeds LEN - OCCUPIED or a slot from head
is full or dark, else it lands in the k slots from HEAD, modulo LEN, and HEAD, OCCUPIED and the granted credit move by
k. Landing writes its bytes 256 to a slot, sets the tags of its slots and changes no other byte or tag; a refusal
changes no byte and no tag, and adds 1 to the window's REFUSED, which saturates. The write leaves the port, and its
sender is answered the status. (R60, R61.) -/
def Obligations.RemoteWriteChecked : Prop :=
  ∀ (t : Nat) (wr : RemoteWrite) (rest : List RemoteWrite) (st : Stamp) (key : Nat) (s : State),
    let x := s.tile t
    let d := x.window wr.win
    let k := (wr.data.length + 255) / 256
    let slots := if d.queue then (List.range k).map (fun i => d.base + (d.head + i) % d.len)
      else (List.range k).map (fun i => d.base + wr.first + i)
    let taken := slots.any (fun y => x.full y || x.isDark y)
    let status := if d.st ≠ .opened ∨ wr.gen ≠ d.gen then Status.WIN_CLOSED
      else if d.queue then (if d.len < d.occupied + k ∨ taken = true then Status.QUEUE_OVERRUN else 0)
      else if d.len < wr.first + k then Status.WIN_RANGE
      else if taken then Status.EXCH_OVERRUN else 0
    t < s.tileCount → x.fld TILE.CORE_READY = 1 → x.tagParity = [] → x.writes = wr :: rest → wr.dark = none → wr.sstep = none → wr.absolute = false →
    wr.sender = .message st key → st.tile ≠ t → d.held = none → d.occupied ≤ d.len → slots.Nodup → wr.data.length = 256 * k →
      Gives (exec (.remoteWriteCheck t) s) (fun s' => (s'.tile t).writes = rest
        ∧ (Msg.answer wr.sender t status none) ∈ (s'.tile st.tile).mail
        ∧ (∀ u, u ≠ t → u ≠ st.tile → s'.tile u = s.tile u)
        ∧ (∀ j, j ≠ wr.win → (s'.tile t).window j = x.window j)
        ∧ (status = 0 →
            (∀ i a, i < k → a < 256 → Map.get 0 (s'.tile t).spad (slots.getD i 0 * 256 + a) = wr.data.getD (256 * i + a) 0)
            ∧ (∀ a, a / 256 ∉ slots → Map.get 0 (s'.tile t).spad a = Map.get 0 x.spad a)
            ∧ (∀ y, (s'.tile t).full y = (decide (y ∈ slots) || x.full y))
            ∧ (s'.tile t).window wr.win = if d.queue then { d with head := (d.head + k) % d.len, occupied := d.occupied + k, granted := d.granted - k } else d)
        ∧ (status ≠ 0 → (s'.tile t).spad = x.spad ∧ (s'.tile t).tags = x.tags
            ∧ (s'.tile t).window wr.win = { d with refused := BitVec.ofNat 16 (min (d.refused.toNat + 1) 0xFFFF) }))

/-- The tail of a queue window whose slot has landed and is now empty and not dark passes it: TAIL moves by 1 modulo LEN,
OCCUPIED falls by 1, so that POOL rises by 1. A closing window becomes closed with its generation as the close left
it, and the WCLOSE that closed it writes 0 to its RD. A remote read at a ready tile is answered the bytes of the
scratchpad at its address, where no storage error is met, and changes no byte. (R43, R62, R69.) -/
def Obligations.WindowEvents : Prop :=
  ∀ (t k : Nat) (s : State),
    let x := s.tile t
    let d := x.window k
    t < s.tileCount →
      (k < 64 → d.queue = true → 0 < d.occupied → d.occupied + d.granted ≤ d.len → x.full (d.base + d.tail) = false →
        x.isDark (d.base + d.tail) = false → Gives (exec (.queueTailAdvance t k) s) (fun s' => OnlyTile t s s'
          ∧ (s'.tile t).window k = { d with tail := (d.tail + 1) % d.len, occupied := d.occupied - 1 }
          ∧ ((s'.tile t).window k).pool = d.pool + 1 ∧ (∀ j, j ≠ k → (s'.tile t).window j = x.window j)))
      ∧ (∀ rd, k < 64 → d.st = .closing → x.closing = some (k, rd) → x.xq = [] → x.stall = .none →
          Gives (exec (.wcloseComplete t k) s) (fun s' => OnlyTile t s s' ∧ (s'.tile t).window k = { d with st := .closed }
            ∧ (s'.tile t).closing = none ∧ (s'.tile t).getS rd = 0 ∧ (∀ r, r ≠ rd → (s'.tile t).getS r = x.getS r)))
      ∧ (∀ (r : ReadReq) (rest : List ReadReq) (st : Stamp) (key : Nat) (dst : LoadDst), x.reads = r :: rest →
          r.sender = .message st key → r.dst = some dst → x.fld TILE.CORE_READY = 1 →
          (x.spadRead (r.addr.toNat % 0x10_0000) r.len).2.1 = 0 → Gives (exec (.remoteRead t) s) (fun s' =>
            (s'.tile st.tile).mail = (s.tile st.tile).mail ++ [.load st dst r.pc 0 (readRun 0 x.spad (r.addr.toNat % 0x10_0000) r.len)]
            ∧ (s'.tile t).reads = rest ∧ (s'.tile t).spad = x.spad))

/-- A grant that reaches a ready tile adds to the tile's credit entry of its window and generation, replaces an entry of
another generation, or fills a new one while there are fewer than 64; the granting tile is told that it is placed.
With 64 other entries it is returned with CREDIT_TABLE_FULL. A returned grant of the domain's epoch and time completes
its WGRANT with the status it carries, and gives its count back to the window where the window still has the grant's
generation. A WIN_CLOSED refusal clears the tile's entry of that window and no other. An XSEND that waits for credit
at the head of an otherwise empty exchange queue ends with CREDIT_TIMEOUT when its timeout expires, and TIMEOUTS
counts it, saturating; nothing is sent. A reply of the domain's epoch and time fills RD and frees it; that of an SWAIT
ends the SWAIT's stall, and no other reply does; that of a SIG lowers the count of SIGs without an answer. A stale
reply is dropped and counted, and no s register changes. (Stated with empty vector and exchange queues.) (R37, R64,
R66, R67, R70, R81, R93.) -/
def Obligations.CreditsAndReplies : Prop :=
  ∀ (t u k m : Nat) (g : BitVec 16) (mod : BitVec 14) (rd : Nat) (st : Stamp) (c : BitVec 16) (rest : List Msg) (s : State),
    let x := s.tile t
    let entry := x.credits.find? (fun c => c.is mod u k)
    let told := fun (s' : State) (a : Msg) => (s'.tile u).mail = (s.tile u).mail ++ [a] ∧ (s'.tile t).mail = rest
    t < s.tileCount →
      (x.mail = .grant mod u k g m rd st none :: rest → st.tile = u → u ≠ t → x.fld TILE.CORE_READY = 1 → x.xq = [] → x.stall = .none →
        (entry = none → x.credits.length < 64 → Gives (exec (.grantMessage t) s) (fun s' =>
          (s'.tile t).credits = x.credits ++ [⟨mod, u, k, g, m⟩] ∧ told s' (.grantPlaced rd st)))
        ∧ (entry ≠ none → Gives (exec (.grantMessage t) s) (fun s' => told s' (.grantPlaced rd st)
          ∧ (s'.tile t).credits = x.credits.map (fun e => if e.is mod u k then
            (if e.gen = g then { e with count := e.count + m } else { e with gen := g, count := m }) else e)))
        ∧ (entry = none → 64 ≤ x.credits.length → Gives (exec (.grantMessage t) s) (fun s' => (s'.tile t).credits = x.credits
          ∧ told s' (.grantBack k g m rd st Status.CREDIT_TABLE_FULL))))
      ∧ (x.mail = .grantBack k g m rd st c :: rest → x.stale s.count st = false →
          Gives (exec (.grantReturn t) s) (fun s' => OnlyTile t s s' ∧ (s'.tile t).mail = rest
            ∧ ((s'.tile t).window k).granted = (if (x.window k).gen = g then (x.window k).granted - m else (x.window k).granted)
            ∧ (∀ j, j ≠ k → (s'.tile t).window j = x.window j)
            ∧ (rd ≠ 0 → (s'.tile t).getS rd = c.setWidth 64) ∧ (∀ r, r ≠ rd → (s'.tile t).getS r = x.getS r)))
      ∧ (x.mail = .winClosed mod u k :: rest → Gives (exec (.winClosedRefusal t) s) (fun s' => OnlyTile t s s'
          ∧ (s'.tile t).credits = x.credits.filter (fun c => !c.is mod u k) ∧ (s'.tile t).mail = rest))
      ∧ (∀ q : QInsn, x.xq = [q] → q.op = 0x03 → x.creditWait = true → x.stall = .none →
          Gives (exec (.creditTimeout t) s) (fun s' => OnlyTile t s s' ∧ (s'.tile t).xq = [] ∧ (s'.tile t).creditWait = false
            ∧ (fRD q.w ≠ 0 → (s'.tile t).getS (fRD q.w) = Status.CREDIT_TIMEOUT.setWidth 64)
            ∧ (∀ r, r ≠ fRD q.w → (s'.tile t).getS r = x.getS r)
            ∧ (s'.tile t).fld TILE.TIMEOUTS = min (x.fld TILE.TIMEOUTS + 1) (2 ^ TILE.TIMEOUTS.width - 1)))
      ∧ (∀ v kind, x.mail = .reply st rd v kind :: rest → x.stall = (if kind = .swait then .swait rd else .none) → x.vq = [] → x.xq = [] →
          (x.stale s.count st = false → Gives (exec (.replyArrival t) s) (fun s' => OnlyTile t s s' ∧ (s'.tile t).mail = rest
            ∧ (rd ≠ 0 → (s'.tile t).getS rd = v) ∧ (∀ r, r ≠ rd → (s'.tile t).getS r = x.getS r)
            ∧ (s'.tile t).busy = x.busy.erase rd ∧ (s'.tile t).stall = .none
            ∧ (s'.tile t).sigsOut = (if kind = .sig then x.sigsOut - 1 else x.sigsOut)))
          ∧ (x.stale s.count st = true → Gives (exec (.replyArrival t) s) (fun s' => OnlyTile t s s' ∧ (s'.tile t).mail = rest
            ∧ (s'.tile t).s = x.s ∧ (s'.tile t).busy = x.busy ∧ (s'.tile t).stall = x.stall
            ∧ (s'.tile t).fld TILE.STALE_REPLIES = min (x.fld TILE.STALE_REPLIES + 1) 0xFFFF)))
      ∧ (∀ v r2 kind, x.mail = .reply st rd v kind :: rest → x.stall = .swait r2 → kind ≠ .swait → x.vq = [] → x.xq = [] →
          x.stale s.count st = false → Gives (exec (.replyArrival t) s) (fun s' => (s'.tile t).stall = .swait r2))

/-- A unicast XSEND at the head of an otherwise empty exchange queue, without SYNCM and TX, of whole slots from the tile's
own scratchpad to another tile of this module whose core is ready, with a legal descriptor without tags and Halo, no
storage error met, no branch of a multicast stalled, and an entry that holds the k credits it needs: its bytes reach
the port of the target in writes of at most 32 slots, in order, for the target window and with the descriptor's
generation; the entry loses k credits, no byte of the sender's scratchpad changes, and RD is held until the answer. A
stalled branch of a multicast that now has credit leaves: it is no longer stalled, it counts as sent, and its copy is
at the target. A multicast whose timeout expires, and none of whose copies lies dark, is taken out; its RD holds
MCAST_TIMEOUT and, in bits 27 to 16, the lowest target that has not acknowledged, and MC_TIMEOUTS counts it,
saturating. The last acknowledgement of a unicast message (Mirror mode off, no SYNCM, no handle in use) takes it out,
writes 0 to its RD and frees it; of a multicast it does the same and sends a release to every target. (R64, R101,
R230, R231.) -/
def Obligations.DynamicMessages : Prop :=
  ∀ (t u off dst n win key : Nat) (w : BitVec 52) (cr : Credit) (m : Mcast) (s : State),
    let x := s.tile t
    let a := (x.getS (fRA w)).toNat
    let d := BitVec.ofNat 256 (ofBytes (readRun 0 x.spad a 32))
    let k := (n + 255) / 256
    let waiting := (m.stalled ++ m.sent).map (·.1)
    let gone := fun (s' : State) (v : Word) => (s'.tile t).mcasts = [] ∧ (m.rd ≠ 0 → (s'.tile t).getS m.rd = v)
      ∧ (s'.tile t).busy = x.busy.erase m.rd
    s.mirrored = false → u ≠ t → u < s.tileCount → t < s.tileCount → (s.tile u).fld TILE.CORE_READY = 1 → x.stall = .none → x.xq = [] →
      (Issues t w (formXsend x w) s → x.closing = none → x.mcasts.any (fun m => !m.stalled.isEmpty) = false → fSYNCM w = 0 → fTX w = false →
        a % 32 = 0 → a ≤ 0x9_FFE0 → (x.spadRead a 32).2.1 = 0 → dReservedOk d = true → dHalo d = false → dStag d = false → dDtag d = false →
        n = dLen d → 0 < n → n % 256 = 0 → dDst d % 256 = 0 → s.region (dDst d) n = .spad u dst → s.region (dSrc d) n = .spad t off →
        (x.spadRead off n).2.1 = 0 → s.credit t u (dWin d) = some cr → k ≤ cr.count → Gives (exec (.xsend t w) s) (fun s' =>
          (∃ ws, (s'.tile u).writes = (s.tile u).writes ++ ws ∧ (ws.map (·.data)).flatten = readRun 0 x.spad off n
            ∧ ∀ wr ∈ ws, wr.win = dWin d ∧ wr.gen = dWgen d ∧ wr.data.length ≤ 8192 ∧ wr.first = 0 ∧ wr.absolute = false ∧ wr.dark = none ∧ wr.sstep = none)
          ∧ (s'.tile t).credits = x.credits.map (fun c => if c.is s.self u (dWin d) then { c with count := c.count - k } else c)
          ∧ (fRD w ≠ 0 → fRD w ∈ (s'.tile t).busy) ∧ (s'.tile t).spad = x.spad))
      ∧ (x.mcasts = [m] → m.key = key →
          (m.stalled = [(u, win)] → m.txn = none → m.data.length ≤ 8192 → s.credit t u win = some cr → m.slots ≤ cr.count →
            Gives (exec (.mcastBranchResume t key) s) (fun s' =>
            (s'.tile t).mcasts = [{ m with stalled := [], sent := m.sent ++ [(u, win)] }]
            ∧ (∃ wr, (s'.tile u).writes = (s.tile u).writes ++ [wr] ∧ wr.win = win ∧ wr.gen = cr.gen ∧ wr.data = m.data)))
          ∧ (∀ i, m.multi = true → m.txn = none → s.darkHolders (t, key) ((m.acked ++ m.sent).map (·.1)) = [] → m.syncm = 0 →
            i ∈ waiting → (∀ j ∈ waiting, i ≤ j) → i < 0xFFF → Gives (exec (.mcastTimeout t key) s) (fun s' => OnlyTile t s s'
            ∧ gone s' (BitVec.ofNat 64 (Status.MCAST_TIMEOUT.toNat + i * 2 ^ 16))
            ∧ (s'.tile t).fld TILE.MC_TIMEOUTS = min (x.fld TILE.MC_TIMEOUTS + 1) 0xFFFF))
          ∧ (∀ st rest dark, m.stalled = [] → m.sent = [(u, win)] → m.txn = none → m.syncm = 0 → (∀ h, h < 4 → x.txn h = {}) →
              x.stale s.count st = false →
              (m.multi = false → x.mail = .answer (.message st key) u 0 none :: rest →
                Gives (exec (.exchAckArrival t) s) (fun s' => OnlyTile t s s' ∧ gone s' 0 ∧ (s'.tile t).mail = rest))
              ∧ (m.multi = true → x.mail = .answer (.mcast st key) u 0 dark :: rest →
                Gives (exec (.exchAckArrival t) s) (fun s' => gone s' 0
                  ∧ (∀ v ∈ u :: m.acked.map (·.1), .txnRelease t key ∈ (s'.tile v).mail)))))

/-- Where tile t issues an XSTART without SYNCM and TX, with its exchange queue empty, no vector or MAT instruction and no
list under way, no phase, no hold of Lighthouse on its start and the Beacon not lost, whose start count R213 admits
and whose program header, read without a storage error, is version 1 at a multiple of 64 with its reserved bits 0 and
its records inside the scratchpad: the phase is accepted, RD is 0, and the phase carries the program, its start count,
NSEND, NRECV, END and whether it is late. At the start count PHASE_START starts it at a ready tile; LATE_START records
whether it was late, and the receive count takes in, one by one, the writes of its superstep that came before, except
those that would take it above NRECV. With no phase and no XSTART in the queue, XWAIT writes the last phase's status
to RD at once; with a phase it stops issue. (R101, R212, R213, R214, R215.) -/
def Obligations.ExchangePhaseAccepted : Prop :=
  ∀ (t : Nat) (w : BitVec 52) (s : State),
    let x := s.tile t
    let off := (x.getS (fRA w)).toNat
    let start := x.getS (fRB w)
    let h := ofBytes (readRun 0 x.spad off 64)
    (Issues t w (formXstart x w) s → fSYNCM w = 0 → fTX w = false → x.xq = [] → x.closing = none → x.phase = none →
      x.vq = [] → x.vbusy = [] → x.parked = [] → x.mq = [] → x.lists = [] → x.running = none → x.astWait = none →
      x.startHeld = none → s.lh.suspension = none → s.lh.contexts = [] →
      s.fld BCN.STATE ≠ 5 → tooFar start s.count = false → off % 64 = 0 → off + 64 + 32 * bits h 16 12 ≤ 0xA_0000 → (x.spadRead off 64).2.1 = 0 →
      bits h 0 8 = 1 → bits h 8 8 = 0 → bits h 28 4 = 0 → bits h 44 20 = 0 → bits h 96 416 = 0 →
      Gives (exec (.xstart t w) s) (fun s' => OnlyTile t s s' ∧ (s'.tile t).getS (fRD w) = 0 ∧ (s'.tile t).xq = []
        ∧ ∃ p, (s'.tile t).phase = some p ∧ p.prog = off ∧ p.start = start ∧ p.nsend = bits h 16 12 ∧ p.nrecv = bits h 32 12
          ∧ p.end_ = bits h 64 32 ∧ p.late = decide (ahead start s.count ≤ 0) ∧ p.started = false ∧ p.issued = [] ∧ p.answered = []))
    ∧ (∀ p : Phase, t < s.tileCount → x.phase = some p → p.started = false → ahead p.start s.count ≤ 0 → x.fld TILE.CORE_READY = 1 →
        s.fld BCN.STATE ≠ 5 → Gives (exec (.phaseStart t) s) (fun s' => (∀ u, u ≠ t → s'.tile u = s.tile u)
          ∧ (s'.tile t).phase = some { p with started := true, startCycle := s.cycle }
          ∧ (s'.tile t).fld TILE.LATE_START = (if p.late then 1 else 0) ∧ (s'.tile t).early = []
          ∧ (s'.tile t).recv0 = x.early.foldl (fun n k => if n + k ≤ p.nrecv then n + k else n) x.recv0))
    ∧ (Issues t w { used := [uRD], regs := [fRD w] } s →
        (x.phase = none → x.xq.any (fun q => decide (q.op = 0x01)) = false → Gives (exec (.xwait t w) s) (fun s' => OnlyTile t s s'
          ∧ (fRD w ≠ 0 → (s'.tile t).getS (fRD w) = BitVec.ofNat 64 (x.fld TILE.PHASE_STATUS)) ∧ (s'.tile t).stall = .none))
        ∧ (∀ p, x.phase = some p → Gives (exec (.xwait t w) s) (fun s' => OnlyTile t s s' ∧ (s'.tile t).stall = .xwait (fRD w))))

/-- In a running phase without a transaction and SYNCM, Mirror mode off and no handle in use: the record with the lowest
ISSUE, of those the one with the lowest number, is issued next; a unicast record to a ready tile of this module, with
its reserved bits 0, its source a multiple of 64 inside the scratchpad and no storage error met, puts its bytes at the
port of its target with its window, generation and first slot, stamped with the superstep, and waits for that answer;
the acknowledgement of its last copy makes it answered. A phase all of whose records are answered and whose receive
count is NRECV ends: its status is the first it recorded, else EXCH_LATE where it started late or ran past END, else
0; the superstep count rises by 1, XCH_DONE is pending, the phase is gone, and the writes that came for the next
superstep wait to be counted. A phase still running at END plus the grace ends with EXCH_INCOMPLETE, unless it
recorded a status, and every open addressed window starts to close. (R215, R216, R217, R220, R221, R222, R225.) -/
def Obligations.ExchangePhaseRuns : Prop :=
  ∀ (t u i : Nat) (p : Phase) (s : State),
    let x := s.tile t
    let r := x.record' p i
    let issue_ := fun j => bits (x.record' p j) 32 32
    let n := (bits r 64 5 + 1) * 256
    let src := bits r 0 20
    t < s.tileCount → x.phase = some p → p.started = true → p.txn = none → p.syncm = 0 → s.mirrored = false →
    (∀ h, h < 4 → x.txn h = {}) → x.xq = [] → x.stall = .none →
      (i < p.nsend → i ∉ p.issued → (∀ j, j < p.nsend → j ∉ p.issued → issue_ i < issue_ j ∨ (issue_ i = issue_ j ∧ i ≤ j)) →
        u ≠ t → u < s.tileCount → u = bits r 128 12 → bits r 70 2 = 0 → bit r 154 = false → bits r 20 12 = 0 → bits r 78 2 = 0 →
        bits r 108 20 = 0 → bits r 140 14 = 0 → bits r 155 101 = 0 → src % 64 = 0 → src + n ≤ 0xA_0000 → (s.tile u).fld TILE.CORE_READY = 1 →
        (x.spadRead (p.prog + 64 + 32 * i) 32).2.1 = 0 → (x.spadRead src n).2.1 = 0 →
        Gives (exec (.sendRecordIssue t) s) (fun s' =>
          (∃ wr, (s'.tile u).writes = (s.tile u).writes ++ [wr] ∧ wr.win = bits r 72 6 ∧ wr.gen = BitVec.ofNat 16 (bits r 80 16)
            ∧ wr.first = bits r 96 12 ∧ wr.data = readRun 0 x.spad src n ∧ wr.sstep = some ((x.rd TILE.SSTEP.off).setWidth 32)
            ∧ wr.dark = none)
          ∧ (∃ p', (s'.tile t).phase = some p' ∧ p'.issued = p.issued ++ [i] ∧ p'.waiting = p.waiting ++ [(i, u)] ∧ p'.answered = p.answered)))
      ∧ (∀ (st : Stamp) (rest : List Msg), x.mail = .answer (.record st (x.rd TILE.SSTEP.off) i) u 0 none :: rest → x.stale s.count st = false →
          p.waiting = [(i, u)] → Gives (exec (.exchAckArrival t) s) (fun s' => OnlyTile t s s' ∧ (s'.tile t).mail = rest
            ∧ ∃ p', (s'.tile t).phase = some p' ∧ p'.waiting = [] ∧ p'.answered = p.answered ++ [i] ∧ p'.first = p.first))
      ∧ (p.answered.length = p.nsend → x.recv0 = p.nrecv → Gives (exec (.phaseEnd t) s) (fun s' => OnlyTile t s s' ∧ (s'.tile t).phase = none
          ∧ (s'.tile t).fld TILE.PHASE_STATUS = (match p.first with
              | some c => c
              | none => if p.late = true ∨ p.end_ < s.cycle - p.startCycle then Status.EXCH_LATE else 0).toNat
          ∧ (s'.tile t).fld TILE.SSTEP = (x.fld TILE.SSTEP + 1) % 2 ^ TILE.SSTEP.width ∧ bit ((s'.tile t).fld TILE.PEND) 1 = true
          ∧ (s'.tile t).recv0 = 0 ∧ (s'.tile t).early = x.recv1 ∧ (s'.tile t).recv1 = []))
      ∧ ((p.answered.length ≠ p.nsend ∨ x.recv0 ≠ p.nrecv) → x.wins.Pairwise (fun a b => a.1 ≠ b.1) →
          Gives (exec (.phaseGraceExpiry t) s) (fun s' => (s'.tile t).phase = none
          ∧ (s'.tile t).fld TILE.PHASE_STATUS = (p.first.getD Status.EXCH_INCOMPLETE).toNat
          ∧ (∀ k, (x.window k).st = .opened → (x.window k).queue = false → ((s'.tile t).window k).st = .closing
              ∧ ((s'.tile t).window k).gen = (x.window k).gen + 1)))

/-- With empty vector and exchange queues: entry i of the wait table, a consuming or peeking VLD whose slots are now full
and read without error, and of none of whose slots a served peek waits, fills the first rows of its v register, clears
the tags of its slots (consuming) or leaves them (peeking), and leaves the table; a parked VST whose slots are now
empty writes its bytes and sets their tags, and leaves it. On expiry of its timeout the VLD leaves the table with no
byte, tag or v register changed; TIMEOUTS rises by 1, saturating, and TAG_TIMEOUT is recorded where TILE_FAULT holds
no earlier record. The TAG event is pending after each. (R49, R51, R53.) -/
def Obligations.ParkedAccesses : Prop :=
  ∀ (t i slot k vd ord : Nat) (kind : TagKind) (data : BitVec 8192) (pc : BitVec 20) (s : State),
    let x := s.tile t
    let slotsSet := fun (y : Tile) (b : Bool) => ∀ j, y.full j = if slot ≤ j ∧ j < slot + k then b else x.full j
    let out := fun (y : Tile) => y.parked = x.parked.eraseIdx i ∧ bit (y.fld TILE.PEND) 3 = true
    t < s.tileCount → x.vq = [] → x.xq = [] → x.stall = .none → k ≤ 4 →
      (x.parked[i]? = some ⟨3, kind, slot, k, .vld vd pc ord⟩ → kind ≠ .store →
        (x.tagParity = [] → (∀ j, slot ≤ j → j < slot + k → x.full j = true) → Map.wf false x.tags = true → (x.spadRead (slot * 256) (k * 256)).2.1 = 0 →
          x.parked.all (fun r => decide (r.kind ≠ .peek) || decide (slot + k ≤ r.slot) || decide (r.slot + r.slots ≤ slot)) = true ∨ kind = .peek →
          Gives (exec (.taggedAccessRecheck t i) s) (fun s' => OnlyTile t s s' ∧ out (s'.tile t)
            ∧ (s'.tile t).getV vd = loadRows (x.getV vd) (readRun 0 x.spad (slot * 256) (k * 256))
            ∧ (∀ a, Map.get 0 (s'.tile t).spad a = Map.get 0 x.spad a)
            ∧ (if kind = .consume then slotsSet (s'.tile t) false else (s'.tile t).tags = x.tags)))
        ∧ Gives (exec (.tagTimeout t i) s) (fun s' => out (s'.tile t) ∧ (s'.tile t).spad = x.spad
            ∧ (s'.tile t).tags = x.tags ∧ (s'.tile t).v = x.v ∧ (s'.tile t).fld TILE.TIMEOUTS = min (x.fld TILE.TIMEOUTS + 1) 0xFFFF
            ∧ (x.fld TILE.FAULT_VALID ≠ 1 → (s'.tile t).fld TILE.FAULT_CODE = Status.TAG_TIMEOUT.toNat)))
      ∧ (x.parked[i]? = some ⟨3, .store, slot, k, .vst data pc ord⟩ → x.tagParity = [] →
          (∀ j, slot ≤ j → j < slot + k → x.full j = false ∧ x.isDark j = false) →
          (x.spadWrite (slot * 256) (rowBytes data (k * 256))).2 = 0 →
          Gives (exec (.taggedAccessRecheck t i) s) (fun s' => OnlyTile t s s' ∧ out (s'.tile t) ∧ slotsSet (s'.tile t) true
            ∧ (∀ a, Map.get 0 (s'.tile t).spad a = if slot * 256 ≤ a ∧ a < (slot + k) * 256 then BitVec.ofNat 8 (data.toNat / 256 ^ (a - slot * 256)) else Map.get 0 x.spad a)))

/-- Where tile t issues an element-wise VEC instruction that runs at once (nothing waits in the queue, the lane unit
works, its registers are at rest, its STG is 0 and END is 1): each element of VD whose lane's predicate bit is 1 takes
the operation's result on the elements of VA, VB, VC at the same index (or the broadcast scalars), every other element
of VD keeps its bits; no other v register, no s or p register, no accumulator, no byte, no tag, no register of the
control block but the lane unit's busy count, and no other tile changes, and the PC moves past the instruction.
elemResult is the model's table of the operations: integer and float arithmetic of R174, and for the functions that
R179 bounds without giving their bits a free value of the operands. (R77, R170, R173, R174, R179.) -/
def Obligations.VectorElementwise : Prop :=
  ∀ (t : Nat) (w : BitVec 52) (s : State),
    let x := s.tile t
    let runs := fun (op : Nat) (f : Form) (c : Instr) =>
      RunsAlone t 3 op w { f with room := decide (x.vq.length < 16) } s →
      let wd := fmtWidth (fFMT w)
      let q := vecInsn x 3 op w x.pc
      Gives (exec c s) (fun s' => OnlyTile t s s'
        ∧ (∀ k, k < viewCount wd → elemOf wd ((s'.tile t).getV (fRD w)) k =
            if (x.pred w).getLsbD (laneOf wd k) then x.elemResult q k % 2 ^ wd else elemOf wd (x.getV (fRD w)) k)
        ∧ (∀ r, r ≠ fRD w → (s'.tile t).getV r = x.getV r) ∧ (s'.tile t).s = x.s ∧ (s'.tile t).p = x.p ∧ (s'.tile t).acc = x.acc
        ∧ (s'.tile t).spad = x.spad ∧ (s'.tile t).tags = x.tags ∧ (∀ off, off ≠ 0x158 → (s'.tile t).rd off = x.rd off)
        ∧ (s'.tile t).pc = x.pc + 8 ∧ (s'.tile t).vq = [])
    runs 1 (formV2 w laneAll) (.vadd t w) ∧ runs 2 (formV2 w laneAll) (.vsub t w) ∧ runs 3 (formV2 w laneAll) (.vmul t w)
    ∧ runs 4 (formV3 w 4 laneFloats) (.vfma t w) ∧ runs 5 (formV3 w 2 laneFloats) (.vlerp t w)
    ∧ runs 6 (formV2 w laneAll) (.vmin t w) ∧ runs 7 (formV2 w laneAll) (.vmax t w) ∧ runs 8 (formV1 w laneAll) (.vabs t w)
    ∧ runs 0xA (formV2 w [0xA]) (.vand t w) ∧ runs 0xB (formV2 w [0xA]) (.vor t w) ∧ runs 0xC (formV2 w [0xA]) (.vxor t w)
    ∧ runs 0x18 (formV2 w laneFloats) (.vdiv t w) ∧ runs 0x19 (formV1 w laneFloats) (.vsqrt t w)
    ∧ runs 0x1A (formV2 w [1, 2, 3] (decide (fRND w ≤ 1))) (.vrsqrt t w) ∧ runs 0x1B (formFn w [1, 2, 3]) (.vrcp t w)
    ∧ runs 0x1C (formFn w laneFloats) (.vexp t w) ∧ runs 0x1D (formFn w [1, 2, 3]) (.vexp2 t w)
    ∧ runs 0x1E (formFn w laneFloats) (.vlog t w) ∧ runs 0x1F (formFn w [1, 2, 3]) (.vlog2 t w)
    ∧ runs 0x20 (formFn w [1, 2, 3]) (.vtanh t w) ∧ runs 0x21 (formFn w [1, 2, 3]) (.vlgst t w)
    ∧ runs 0x22 (formFn w [1, 2, 3]) (.verf t w) ∧ runs 0x23 (formFn w [1, 2, 3]) (.vsin t w) ∧ runs 0x24 (formFn w [1, 2, 3]) (.vcos t w)

/-- Where tile t issues the instruction with FMT INT32 on v registers (SUB 0) and it runs at once, lane i of VD, where the
predicate holds on it, takes from lanes a of VA and b of VB: VADD a + b, VSUB a - b, VMUL a × b modulo 2^32; VMIN and
VMAX the signed smaller and larger; VABS the absolute value, 0x7FFF_FFFF for -2^31; VAND, VOR, VXOR the bitwise value.
(R77, R174.) -/
def Obligations.VectorIntegerElements : Prop :=
  ∀ (t : Nat) (w : BitVec 52) (s : State), fFMT w = 0xA → fSUB w = 0 →
    let x := s.tile t
    let lane := fun (y : Tile) (r i : Nat) => (y.getV r).extractLsb' (32 * i) 32
    let gives := fun (op : Nat) (f : Form) (c : Instr) (g : BitVec 32 → BitVec 32 → BitVec 32) =>
      RunsAlone t 3 op w { f with room := decide (x.vq.length < 16) } s → Gives (exec c s) (fun s' => ∀ i, i < 256 →
        lane (s'.tile t) (fRD w) i = if (x.pred w).getLsbD i then g (lane x (fRA w) i) (lane x (fRB w) i) else lane x (fRD w) i)
    gives 1 (formV2 w laneAll) (.vadd t w) (· + ·) ∧ gives 2 (formV2 w laneAll) (.vsub t w) (· - ·)
    ∧ gives 3 (formV2 w laneAll) (.vmul t w) (· * ·)
    ∧ gives 6 (formV2 w laneAll) (.vmin t w) (fun a b => if a.sle b then a else b)
    ∧ gives 7 (formV2 w laneAll) (.vmax t w) (fun a b => if a.sle b then b else a)
    ∧ gives 8 (formV1 w laneAll) (.vabs t w) (fun a _ => if a = 0x8000_0000#32 then 0x7FFF_FFFF#32 else if a.msb then -a else a)
    ∧ gives 0xA (formV2 w [0xA]) (.vand t w) (· &&& ·) ∧ gives 0xB (formV2 w [0xA]) (.vor t w) (· ||| ·)
    ∧ gives 0xC (formV2 w [0xA]) (.vxor t w) (· ^^^ ·)

/-- Where tile t issues the instruction and it runs at once, each element of VD whose predicate bit is 1 takes its value
and the others keep theirs: VMOV the bits of VB's element or of the broadcast scalar (one and the same unspecified
byte where a scalar goes to an 8-bit view); VTRN element (r, c) takes VA's element (c, r) of the 16 × 16 view; VCVT
the converted element of the part that VB names, other elements keep their value; VRED row 0, or column 0, takes the
reduction of the column or the row, the other elements keep theirs; VSCAN the running sums of its lines. VCMP writes
bit i of predicate VD[2:0] where the instruction's own predicate holds, with the condition on the element of lane i,
and a write to p0 is discarded. No other v, s or p register, byte or tag changes. (R174, R178, R181, R182.) -/
def Obligations.VectorOtherResults : Prop :=
  ∀ (t : Nat) (w : BitVec 52) (s : State),
    let x := s.tile t
    let f := fFMT w
    let runs := fun (op : Nat) (g : Form) => RunsAlone t 3 op w { g with room := decide (x.vq.length < 16) } s
    let same := fun (s' : State) => (∀ u, u ≠ t → s'.tile u = s.tile u) ∧ s'.hbm = s.hbm ∧ s'.regs = s.regs ∧ (s'.tile t).s = x.s
      ∧ (s'.tile t).spad = x.spad ∧ (s'.tile t).tags = x.tags ∧ (s'.tile t).acc = x.acc ∧ (s'.tile t).pc = x.pc + 8
    let elems := fun (wd : Nat) (new : Nat → Nat) (s' : State) => same s' ∧ (s'.tile t).p = x.p
      ∧ (∀ r, r ≠ fRD w → (s'.tile t).getV r = x.getV r)
      ∧ (∀ k, k < viewCount wd → elemOf wd ((s'.tile t).getV (fRD w)) k =
          if (x.pred w).getLsbD (laneOf wd k) then new k % 2 ^ wd else elemOf wd (x.getV (fRD w)) k)
    let wd := fmtWidth f
    let src := fun (k : Nat) => elemOf wd (x.getV (fRA w)) k
    let old := fun (k : Nat) => elemOf wd (x.getV (fRD w)) k
    let q := fun (op : Nat) => vecInsn x 3 op w x.pc
    let part := if bit (fRC w) 3 then x.getP (fRC w % 8) else BitVec.allOnes 256
    let red := fun (axis i : Nat) => reduceLine f (fSUB w % 4) ((lineOf wd axis i).map (fun k => (part.getLsbD (laneOf wd k), src k)))
    let seg := if bit (fRC w) 3 then x.getP (fRC w % 8) else 0
    let y0 := if f = 0xA then 0 else 2 ^ (wd - 1)
    let scan := fun (axis i j : Nat) => (scanLine f (bit (fSUB w) 1) y0
      (if bit (fSUB w) 2 then elemOf wd (x.getV (fRB w)) ((lineOf wd axis i).getLastD 0) else y0)
      ((lineOf wd axis i).map (fun k => (seg.getLsbD (laneOf wd k), src k)))).getD j 0
    (runs 9 (formVec w [uRD, uRB, (12, 1)] (if bcastB w then [fRB w] else []) [0, 1, 2, 3, 4, 5, 9, 0xA]) →
      Gives (exec (.vmov t w) s) (fun s' => ∃ b, elems wd (fun k => if bcastB w then (if wd = 8 then b else (x.getS (fRB w)).toNat)
        else elemOf wd (x.getV (fRB w)) k) s'))
    ∧ (runs 0xE (formVec w [uRD, uRA, uRB, uRC, (12, 1)] (if bcastB w then [fRB w] else []) [0, 1, 0xA]
          (decide (fRD w < 8) && decide (fRC w < 7))) →
      Gives (exec (.vcmp t w) s) (fun s' => same s' ∧ (s'.tile t).v = x.v ∧ (∀ r, r ≠ fRD w → (s'.tile t).getP r = x.getP r)
        ∧ (fRD w ≠ 0 → ∀ i, i < 256 → ((s'.tile t).getP (fRD w)).getLsbD i =
            if (x.pred w).getLsbD (laneOf wd (i * 32 / wd)) then compareElem f (fRC w) (src (i * 32 / wd)) (x.opB (q 0xE) wd (i * 32 / wd))
            else (x.getP (fRD w)).getLsbD i)))
    ∧ (runs 0xF (formV1 w [1, 0xA]) → Gives (exec (.vtrn t w) s) (elems 32 (fun k => elemOf 32 (x.getV (fRA w)) (k % 16 * 16 + k / 16))))
    ∧ (runs 0x10 (formVec w [uRD, uRA, uRB, uSUB] [] convertible (convertible.contains (fSUB w) && decide (fRB w < 16)
          && decide (fRB w * min wd (fmtWidth (fSUB w)) < max wd (fmtWidth (fSUB w))))) →
      Gives (exec (.vcvt t w) s) (elems (fmtWidth (fSUB w)) (fun k => (x.convertElem (q 0x10) k).getD
        (elemOf (fmtWidth (fSUB w)) (x.getV (fRD w)) k))))
    ∧ (runs 0x30 (formVec w [uRD, uRA, uRC, (12, 3)] [] [0, 1, 0xA] (partOk w)) → Gives (exec (.vred t w) s) (elems wd (fun k =>
        if bit (fSUB w) 2 then (if k % viewCols wd = 0 then red 1 (k / viewCols wd) else old k)
        else if k < viewCols wd then red 0 k else old k)))
    ∧ (runs 0x31 (formVec w ([uRD, uRA, uRC, (12, 3)] ++ (if bit (fSUB w) 2 then [uRB] else [])) [] [0, 1, 0xA]
          (partOk w && !(bit (fSUB w) 1 && bit (fSUB w) 2))) → Gives (exec (.vscan t w) s) (elems wd (fun k =>
        if bit (fSUB w) 0 then scan 1 (k / viewCols wd) (k % viewCols wd) else scan 0 (k % viewCols wd) (k / viewCols wd))))

/-- Where tile t issues a pass that runs at once and its scratchpad holds no double error and no bad tag group: VCENS at a
multiple of 128 adds the censuses of the selected elements to the record's 21 counts (or replaces them), each
saturating at 2^48 - 1 with the record's and the register's CLAMP. VSCALE whose descriptor keeps R186 writes exactly
the bytes of its copies (ScaleJob.writes: the squares and scales of R185) and, with CENS, adds the source's census to
the record, which takes SRC_FMT and SCALED where it held no count. VLADD whose descriptor keeps R187 writes the sums
(as long elements or FP32) and then its descriptor with the smaller anchor, and sets LFALLBACK where a sum has fallen
back. SLOC, SMRG and SPICK whose descriptor keeps R202 and R209 write the frame or result record that localFrame,
mergeFrames or pick gives; SPICK notes its result. No other byte, no tag, s, p or v register, accumulator or other
tile changes, and the PC moves past. A misplaced record or a misaligned descriptor gives INSN_FIELD (a sampling stage
GLT_DESC), a descriptor outside the scratchpad or against its rules VEC_DESC or GLT_DESC: TILE_FAULT takes it unless
it holds an earlier record, and bytes, tags, accumulators and registers s, p, v stay. A VADD that issues while the
lane unit rests, or that opens a chain with END 0 where nothing waits, joins the queue with its scalars and changes
nothing else. (R165, R166, R167, R171, R183, R184, R185, R186, R187, R202, R203, R206.) -/
def Obligations.VectorPassesAndQueue : Prop :=
  ∀ (t : Nat) (w : BitVec 52) (s : State),
    let x := s.tile t
    let y := (s.issued t).tile t
    let a := (x.getS (fRA w)).toNat
    let b := (x.getS (fRB w)).toNat
    let f := fFMT w
    let runs := fun (cls op : Nat) (g : Form) => RunsAlone t cls op w { g with room := decide (x.vq.length < 16) } s
    let sound := x.eccDouble = [] ∧ x.tagParity = []
    let keeps := fun (s' : State) => (∀ u, u ≠ t → s'.tile u = s.tile u) ∧ s'.hbm = s.hbm ∧ (s'.tile t).tags = x.tags ∧ (s'.tile t).acc = x.acc
      ∧ (s'.tile t).s = x.s ∧ (s'.tile t).p = x.p ∧ (s'.tile t).v = x.v ∧ (s'.tile t).pc = x.pc + 8 ∧ (s'.tile t).vq = []
    let refused := fun (c : Instr) (st : BitVec 16) => Gives (exec c s) (fun s' => (s'.tile t).spad = x.spad ∧ (s'.tile t).tags = x.tags
      ∧ (s'.tile t).acc = x.acc ∧ (s'.tile t).s = x.s ∧ (s'.tile t).p = x.p ∧ (s'.tile t).v = x.v
      ∧ (x.fld TILE.FAULT_VALID ≠ 1 → (s'.tile t).fld TILE.FAULT_CODE = st.toNat ∧ (s'.tile t).fld TILE.FAULT_PC = x.pc.toNat))
    let number := fun (m : Map Byte) (o n : Nat) => ofBytes (readRun 0 m o n)
    (runs 3 0x38 (formVec w [uRA, uRB, (12, 1)] [fRB w] [0, 1, 2, 3, 4, 5, 9]) →
        let replace := bit (fSUB w) 0
        let sel := (List.range (viewCount (fmtWidth f))).filter (fun k => (x.pred w).getLsbD (laneOf (fmtWidth f) k))
        let r := number x.spad b 128
        let sum := fun (i : Nat) => (if replace then 0 else bits r (48 * i) 48)
          + (sel.map (fun k => (censusOf f none false (elemOf (fmtWidth f) (x.getV (fRA w)) k)).getD i 0)).sum
        let clamp := (List.range 21).any (fun i => decide (2 ^ 48 ≤ sum i))
        (sound → b % 128 = 0 → b + 128 ≤ 0xA_0000 → Gives (exec (.vcens t w) s) (fun s' => keeps s'
          ∧ (∀ k, k < b ∨ b + 128 ≤ k → Map.get 0 (s'.tile t).spad k = Map.get 0 x.spad k)
          ∧ (∀ i, i < 21 → bits (number (s'.tile t).spad b 128) (48 * i) 48 = min (sum i) (2 ^ 48 - 1))
          ∧ bits (number (s'.tile t).spad b 128) 1008 4 = (if replace then f else bits r 1008 4)
          ∧ bit (number (s'.tile t).spad b 128) 1012 = (!replace && bit r 1012)
          ∧ bit (number (s'.tile t).spad b 128) 1013 = (clamp || (!replace && bit r 1013))
          ∧ (s'.tile t).fld TILE.VEC_CLAMP = if clamp then 1 else x.fld TILE.VEC_CLAMP))
        ∧ (b % 128 ≠ 0 ∨ 0xA_0000 < b + 128 → refused (.vcens t w) Status.INSN_FIELD))
    ∧ (runs 3 0x40 (formPass w [uFMT, uRND] (fmtIn w [1, 2])) →
        let j := scaleJob (number x.spad a 64) f
        let rows := j.source.map (fun e => number x.spad e.1 e.2)
        let m := ((j.copies.map (j.writes x rows (x.rndCode (fRND w)))).flatten).foldl (fun m e => writeRun 0 m e.1 e.2) x.spad
        let o := bits j.desc 256 20
        (sound → a % 64 = 0 → a + 64 ≤ 0xA_0000 → j.ok = true → Gives (exec (.vscale t w) s) (fun s' => keeps s'
          ∧ (∀ k, j.cens = false ∨ k < o ∨ o + 128 ≤ k → Map.get 0 (s'.tile t).spad k = Map.get 0 m k)
          ∧ (j.cens = true → (∀ i, i < 21 → bits (number (s'.tile t).spad o 128) (48 * i) 48
                = min (bits (number m o 128) (48 * i) 48 + (j.census rows (decide (x.fld TILE.SCALE_RULE = 1))).getD i 0) (2 ^ 48 - 1))
              ∧ (bits (number m o 128) 0 48 = 0 → bits (number (s'.tile t).spad o 128) 1008 4 = f
                  ∧ bit (number (s'.tile t).spad o 128) 1012 = !j.noscale))))
        ∧ (a % 64 ≠ 0 → refused (.vscale t w) Status.INSN_FIELD)
        ∧ (a % 64 = 0 → 0xA_0000 < a + 64 → refused (.vscale t w) Status.VEC_DESC)
        ∧ (sound → a % 64 = 0 → a + 64 ≤ 0xA_0000 → j.ok = false → refused (.vscale t w) Status.VEC_DESC))
    ∧ (runs 3 0x41 (formPass w [] true) →
        let d := number x.spad a 32
        let n := bits d 96 16
        let pa := bits d 0 20
        let pb := bits d 32 20
        let po := bits d 64 20
        let len := (if bit d 94 then 4 else 12) * n
        let good := bits d 30 2 = 0 ∧ bits d 62 2 = 0 ∧ bit d 95 = false ∧ bits d 112 144 = 0 ∧ 0 < n ∧ n ≤ 32768
          ∧ pa + 12 * n ≤ 0xA_0000 ∧ pb + 12 * n ≤ 0xA_0000 ∧ po + len ≤ 0xA_0000 ∧ overlaps (pa, 12 * n) (pb, 12 * n) = false
          ∧ (overlaps (po, len) (pa, 12 * n) = true → po = pa) ∧ (overlaps (po, len) (pb, 12 * n) = true → po = pb)
        let aa := signed 10 (bits d 20 10)
        let ab := signed 10 (bits d 52 10)
        let an := min aa ab
        let zs := List.zipWith (LongVal.add aa ab) (longElems n (readRun 0 x.spad pa (12 * n))) (longElems n (readRun 0 x.spad pb (12 * n)))
        let out := if bit d 94 then bytesOf (packElems 32 (zs.map (LongVal.toFp32 an))) len else bytesOf (packElems 96 (zs.map LongVal.toBits)) len
        (sound → a % 32 = 0 → a + 32 ≤ 0xA_0000 → good → Gives (exec (.vladd t w) s) (fun s' => keeps s'
          ∧ (s'.tile t).spad = writeRun 0 (writeRun 0 x.spad po out) a (bytesOf (putBits d 84 10 (an % 1024).toNat) 32)
          ∧ (s'.tile t).fld TILE.VEC_LFALLBACK = if zs.any LongVal.isFallen then 1 else x.fld TILE.VEC_LFALLBACK))
        ∧ (a % 32 ≠ 0 → refused (.vladd t w) Status.INSN_FIELD)
        ∧ (a % 32 = 0 → 0xA_0000 < a + 32 → refused (.vladd t w) Status.VEC_DESC)
        ∧ (sound → a % 32 = 0 → a + 32 ≤ 0xA_0000 → ¬ good → refused (.vladd t w) Status.VEC_DESC))
    ∧ (let d := number x.spad a 64
       let k := sampleK d
       let stage := fun (op : Nat) (c : Instr) (out : List Byte) => runs 0xA op (formPass w [] true) →
         (sound → a % 64 = 0 → a + 64 ≤ 0xA_0000 → sampleOk op d = true → Gives (exec c s) (fun s' => keeps s'
           ∧ (s'.tile t).spad = writeRun 0 x.spad (bits d 20 20) out
           ∧ (s'.tile t).picks = x.picks ++ if op = 0x12 then [bits d 20 20] else []))
         ∧ (a % 64 ≠ 0 ∨ 0xA_0000 < a + 64 → refused c Status.GLT_DESC)
         ∧ (sound → a % 64 = 0 → a + 64 ≤ 0xA_0000 → sampleOk op d = false → refused c Status.GLT_DESC)
       let wd := fmtWidth (bits d 40 4)
       stage 0x10 (.sloc t w) ((localFrame (bits d 40 4) k (bits d 192 22) (bits d 128 32) ((List.range (bits d 64 32)).map (fun n =>
           bits (number x.spad (bits d 0 20) (bits d 64 32 * (wd / 8))) (wd * n) wd))).toBytes k)
       ∧ stage 0x11 (.smrg t w) ((mergeFrames k ((List.range (bits d 64 32)).map (fun n => Frame.ofBytes k
           (((readRun 0 x.spad (bits d 0 20) (bits d 64 32 * frameBytes k)).drop (n * frameBytes k)).take (frameBytes k))))).toBytes k)
       ∧ stage 0x12 (.spick t w) (bytesOf (x.pick d k (Frame.ofBytes k (readRun 0 x.spad (bits d 0 20) (frameBytes k)))) 32))
    ∧ (Issues t w { formV2 w laneAll with room := decide (x.vq.length < 16) } s →
        (s.lanesOn = false ∨ (x.vq = [] ∧ x.stages = 0 ∧ fSTG w = 0 ∧ fEND w = false)) →
        Gives (exec (.vadd t w) s) (fun s' => OnlyTile t s s'
          ∧ s'.tile t = { y with vq := x.vq ++ [vecInsn x 3 1 w x.pc], vecs := x.vecs + 1 }))

/-- Where tile t issues the instruction and it runs at once: each selected element takes the value of R201 from the Glint
word at its coordinate (scalar VB plus row times VC[63:32] plus column, modulo 2^64; draw offset VC[31:0]; the stream
slot SUB[2:0]): GRAW the word itself, GUNI and GUNO the uniform value in [0, 1) and (0, 1), rounded toward zero, GNORM
and GGUMB through the lane's functions; GBERN sets bit i of predicate VD where the uniform value is below the
probability. The other elements and bits keep their values, and nothing else of the tile changes but the PC and the
busy count. (R194, R197, R200, R201.) -/
def Obligations.GlintDraws : Prop :=
  ∀ (t : Nat) (w : BitVec 52) (s : State),
    let x := s.tile t
    let wd := fmtWidth (fFMT w)
    let runs := fun (op : Nat) (f : Form) => RunsAlone t 0xA op w { f with room := decide (x.vq.length < 16) } s
    let e := fun (k : Nat) => ((x.getS (fRB w)).toNat + k / viewCols wd * ((x.getS (fRC w)).toNat / 2 ^ 32) + k % viewCols wd) % 2 ^ 64
    let off := (x.getS (fRC w)).toNat % 2 ^ 32
    let word := fun (k : Nat) => glintWord (x.glintAt (fSUB w % 8) (BitVec.ofNat 64 (e k / 4)) off) (e k % 4)
    let frame := fun (s' : State) => OnlyTile t s s' ∧ (s'.tile t).s = x.s ∧ (s'.tile t).spad = x.spad ∧ (s'.tile t).tags = x.tags
      ∧ (∀ o, o ≠ 0x158 → (s'.tile t).rd o = x.rd o) ∧ (s'.tile t).pc = x.pc + 8
    let draws := fun (op : Nat) (f : Form) (c : Instr) (new : Nat → Nat) => runs op f → Gives (exec c s) (fun s' => frame s'
      ∧ (s'.tile t).p = x.p ∧ (∀ r, r ≠ fRD w → (s'.tile t).getV r = x.getV r)
      ∧ ∀ k, k < viewCount wd → elemOf wd ((s'.tile t).getV (fRD w)) k =
          if (x.pred w).getLsbD (laneOf wd k) then new k % 2 ^ wd else elemOf wd (x.getV (fRD w)) k)
    let pair := fun (k : Nat) => x.glintAt (fSUB w % 8) (BitVec.ofNat 64 (e k / 2)) off
    draws 1 (formDraw w [] [] 3 [0xA]) (.graw t w) word
    ∧ draws 2 (formDraw w [] [] 3 [1, 2, 3]) (.guni t w) (fun k => (FVal.fin false (word k / 2 ^ 8) (-24)).toBits (fFMT w) .zero true)
    ∧ draws 3 (formDraw w [] [] 3 [1, 2, 3]) (.guno t w) (fun k => (FVal.fin false (2 * (word k / 2 ^ 9) + 1) (-24)).toBits (fFMT w) .zero true)
    ∧ draws 4 (formDraw w [] [] 3 [1, 2, 3]) (.gnorm t w) (fun k =>
        (normal (glintWord (pair k) (2 * (e k % 2))) (glintWord (pair k) (2 * (e k % 2) + 1))).toBits (fFMT w) .near true)
    ∧ draws 6 (formDraw w [uRA] [] 3 [1]) (.ggumb t w) (fun k =>
        ((FVal.ofBits 1 false (elemOf 32 (x.getV (fRA w)) k)).add false (gumbel (word k))).toBits 1 .near true)
    ∧ (runs 5 (formDraw w [uRA] (if bit (fSUB w) 3 then [fRA w] else []) 4 [1] (decide (fRD w < 8))) →
        Gives (exec (.gbern t w) s) (fun s' => frame s' ∧ (s'.tile t).v = x.v ∧ (∀ r, r ≠ fRD w → (s'.tile t).getP r = x.getP r)
          ∧ (fRD w ≠ 0 → ∀ i, i < 256 → ((s'.tile t).getP (fRD w)).getLsbD i =
              if (x.pred w).getLsbD i then (FVal.fin false (word i / 2 ^ 8) (-24)).lt (FVal.ofBits 1 false
                (if bit (fSUB w) 3 then (x.getS (fRA w)).toNat % 2 ^ 32 else elemOf 32 (x.getV (fRA w)) i))
              else (x.getP (fRD w)).getLsbD i)))

/-- Where tile t issues the instruction, the engine queue is empty, no list runs and no AST waits, and the scratchpad
holds no double error and no bad tag group. AZERO makes each element of its accumulator 0 (an exact one's term count,
ERANGE bit and SET too). ALD with operands that R122 allows loads its 2,304 elements row by row: 4-byte ones as they
stand, 2-byte ones converted to FP32, long ones as long elements, with the term count and ERANGE bit 0 and SET 1. AST
with operands that R122 allows stores each kept element, of its format's size and rounding, and no other byte; with
TAG it then sets the slot's tag where that is empty and not dark, else it waits parked. MMA with PAIR 0 and operands
that R114 and R115 allow adds to each kept element the K products of its streams (to 0 with ZACC): modulo 2^32 or in
the reference order of R158; for an exact accumulator without MX as sumExact adds them, the term count raised by K and
the anchor set where SET was 0 or ZACC is 1; elements that the masks drop keep their value. Depth 0 or above 2^24, or
a stream against R114, gives MAT_OPERAND, and an MX depth that is no multiple of 32 MAT_MX: TILE_FAULT takes it unless
it holds an earlier record, and accumulators, bytes, tags and registers s, p, v stay. MRUN posts the list of its
registers; with a count of 0 or a misplaced block it gives MAT_OPERAND. In every case other than a refusal the other
accumulators, the s, p and v registers, other tiles and HBM stay, bytes and tags as said, and the PC moves past the
instruction. (R76, R80, R114, R115, R117, R121, R122, R126, R128, R151.) -/
def Obligations.MatrixInstructions : Prop :=
  ∀ (t : Nat) (w : BitVec 52) (s : State),
    let x := s.tile t
    let a := x.getS (xRA w)
    let b := x.getS (xRB w)
    let c := x.getS (xRK w)
    let n := fACC w
    let f := xFMT w
    let K := c.toNat
    let free := fun (op : Nat) (regs : List Nat) =>
      Issues t w { used := matUsed op, regs := regs, legal := matLegal op w, room := decide (x.mq.length < 16) } s
      ∧ x.mq = [] ∧ x.running = none ∧ x.astWait = none ∧ s.lanesOn = true
    let sound := x.eccDouble = [] ∧ x.tagParity = []
    let kept := fun (i j : Nat) => (x.mask w).1.getLsbD i && (x.mask w).2.getLsbD j
    let q := fun (op : Nat) => ({ cls := 4, op := op, w := w, pc := x.pc, a := a, b := b, c := c, rows := (x.mask w).1, cols := (x.mask w).2 } : QInsn)
    let elem := fun (sz : Nat) (z : Tile) (e : Nat) => ofBytes ((List.range sz).map (fun k => Map.get 0 z.spad (a.toNat + sz * e + k)))
    let still := fun (s' : State) => (∀ u, u ≠ t → s'.tile u = s.tile u) ∧ s'.hbm = s.hbm ∧ (s'.tile t).s = x.s ∧ (s'.tile t).p = x.p
      ∧ (s'.tile t).v = x.v ∧ (s'.tile t).pc = x.pc + 8 ∧ (s'.tile t).mq = []
    let bytes := fun (s' : State) => (s'.tile t).spad = x.spad ∧ (s'.tile t).tags = x.tags
    let others := fun (s' : State) => if fEXACT w then ∀ m, m ≠ n → (s'.tile t).longRead m = x.longRead m
      else ∀ m, m ≠ n → (s'.tile t).accRead m = x.accRead m
    let refused := fun (c : Instr) (st : BitVec 16) => Gives (exec c s) (fun s' => bytes s' ∧ (s'.tile t).acc = x.acc ∧ (s'.tile t).s = x.s
      ∧ (s'.tile t).p = x.p ∧ (s'.tile t).v = x.v
      ∧ (x.fld TILE.FAULT_VALID ≠ 1 → (s'.tile t).fld TILE.FAULT_CODE = st.toNat ∧ (s'.tile t).fld TILE.FAULT_PC = x.pc.toNat))
    let element := fun (v : Word) (refl : Bool) (i d : Nat) =>
      let sq := ofBytes (readRun 0 x.spad (strBase v + d / 48 * strStride v) (squareBytes f))
      let u := FVal.ofBits f (fMX w) (bits sq (fmtWidth f * (if refl then i * 48 + d % 48 else d % 48 * 48 + i)) (fmtWidth f))
      let e := (Map.get 0 x.spad (strScale v + d / 32 * 48 + i)).toNat
      if fMX w then (if e = 0xFF then FVal.nan else u.shift (127 - (e : Int))) else u
    let products := fun (i j : Nat) => (List.range K).map (fun d => (element a (fREFA w) i d).mul (element b (fREFB w) j d))
    Memory.wf x.spad = true → Map.wf 0 x.acc = true →
    (free 8 [] → Gives (exec (.azero t w) s) (fun s' => still s' ∧ bytes s' ∧ others s'
        ∧ (fEXACT w = false → (s'.tile t).accRead n = List.replicate 2304 0)
        ∧ (fEXACT w = true → (s'.tile t).longRead n = List.replicate 2304 (.exact 0) ∧ Map.get 0 (s'.tile t).terms n = 0
            ∧ (s'.tile t).fld (anchorSet n) = 0 ∧ bit ((s'.tile t).fld TILE.ERANGE) n = false)))
    ∧ (free 9 [xRA w, xRK w] → sound → accMoveOk (q 9) = true →
        Gives (exec (.ald t w) s) (fun s' => still s' ∧ bytes s' ∧ others s'
          ∧ (fEXACT w = false → ∀ e, e < 2304 → ((s'.tile t).accRead n).getD e 0 =
              if f = 2 ∨ f = 3 then (FVal.ofBits f false (elem 2 x e)).toBits 1 .near true % 2 ^ 32 else elem 4 x e)
          ∧ (fEXACT w = true → (∀ e, e < 2304 → ((s'.tile t).longRead n).getD e (.exact 0) = LongVal.ofBits (elem 12 x e))
              ∧ Map.get 0 (s'.tile t).terms n = 0 ∧ (s'.tile t).fld (anchorSet n) = 1 ∧ bit ((s'.tile t).fld TILE.ERANGE) n = false)))
    ∧ (free 0xA [xRA w, xRK w] → sound → accMoveOk (q 0xA) = true →
        let sz := accSize (q 0xA)
        let slot := kSLOT c
        let value := fun (i j : Nat) =>
          let e := (x.accRead n).getD (48 * i + j) 0
          let l := (x.longRead n).getD (48 * i + j) (.exact 0)
          if fEXACT w then (if kLONG c then l.toBits else if f = 0xA then (l.value (x.anchor n)).toBits 0xA .near true
            else match l with
              | .fallen b => if f = 1 then b else (FVal.ofBits 1 false b).toBits f .near true
              | .exact m => (FVal.ofInt m (x.anchor n)).toBits f .near true)
          else if f = 2 ∨ f = 3 then (FVal.ofBits 1 false e).toBits f (x.rounding (x.rndCode (kRND c)) i j) true else e
        Gives (exec (.ast t w) s) (fun s' => still s' ∧ (s'.tile t).acc = x.acc
          ∧ (∀ i j, i < 48 → j < 48 → kept i j = true → elem sz (s'.tile t) (48 * i + j) = value i j % 2 ^ (8 * sz))
          ∧ (∀ i j k, i < 48 → j < 48 → k < sz → kept i j = false → Map.get 0 (s'.tile t).spad (a.toNat + sz * (48 * i + j) + k)
              = Map.get 0 x.spad (a.toNat + sz * (48 * i + j) + k))
          ∧ (∀ o, o < a.toNat ∨ a.toNat + sz * 2304 ≤ o → Map.get 0 (s'.tile t).spad o = Map.get 0 x.spad o)
          ∧ (kTAG c = false → (s'.tile t).tags = x.tags)
          ∧ (kTAG c = true → x.full slot = false → x.isDark slot = false → ∀ k, (s'.tile t).full k = (decide (k = slot) || x.full k))
          ∧ (kTAG c = true → (x.full slot || x.isDark slot) = true → (s'.tile t).tags = x.tags
              ∧ (s'.tile t).parked = x.parked ++ [⟨2, .store, slot, 1, .ast x.pc⟩] ∧ (s'.tile t).astWait = some (slot, x.mats))))
    ∧ (free 1 [xRA w, xRB w, xRK w] → fPAIR w = false →
        (0 < K → K ≤ 2 ^ 24 → streamOk f K (fMX w) a = true → streamOk f K (fMX w) b = true →
          (fMX w = true → K % 32 ≠ 0 → refused (.mma t w) Status.MAT_MX)
          ∧ ((fMX w = true → K % 32 = 0) → sound → Gives (exec (.mma t w) s) (fun s' => still s' ∧ bytes s' ∧ others s'
              ∧ (fEXACT w = false → ∀ i j, i < 48 → j < 48 → ((s'.tile t).accRead n).getD (48 * i + j) 0 =
                  let old := (x.accRead n).getD (48 * i + j) 0
                  let start := if fZACC w then 0 else old
                  if kept i j then (if f = 9 then sumInt start (products i j) else sumFp32 start (products i j)) % 2 ^ 32 else old)
              ∧ (fEXACT w = true → ∀ i j, i < 48 → j < 48 → kept i j = false → ((s'.tile t).longRead n).getD (48 * i + j) (.exact 0)
                  = (x.longRead n).getD (48 * i + j) (.exact 0))
              ∧ (fEXACT w = true → fMX w = false → (x.mask w).1 ≠ 0 → (x.mask w).2 ≠ 0 →
                  let terms := if fZACC w then 0 else Map.get 0 x.terms n
                  let anchor := if fZACC w || decide (x.fld (anchorSet n) = 0) then 2 * (exactConst f false).1 else x.anchor n
                  Map.get 0 (s'.tile t).terms n = terms + K ∧ (s'.tile t).fld (anchorSet n) = 1 ∧ (s'.tile t).anchor n = anchor
                  ∧ ∀ i j, i < 48 → j < 48 → kept i j = true → ((s'.tile t).longRead n).getD (48 * i + j) (.exact 0) =
                      LongVal.ofBits ((sumExact anchor (exactConst f false).2 terms
                        (if fZACC w then .exact 0 else (x.longRead n).getD (48 * i + j) (.exact 0), false)
                        (chunks16 (K + 1) (products i j))).1.toBits % 2 ^ 96)))))
        ∧ (K = 0 ∨ 2 ^ 24 < K ∨ streamOk f K (fMX w) a = false ∨ streamOk f K (fMX w) b = false → refused (.mma t w) Status.MAT_OPERAND))
    ∧ (free 0x10 [xRA w, xRB w] →
        let k := bits b.toNat 0 8
        (x.lists.length < 16 → 0 < k → bits b.toNat 10 6 = 0 → bits b.toNat 30 34 = 0 → a.toNat % 32 = 0 → a.toNat + 32 * k ≤ 0xA_0000 →
          Gives (exec (.mrun t w) s) (fun s' => still s' ∧ bytes s' ∧ (s'.tile t).acc = x.acc ∧ (∀ o, (s'.tile t).rd o = x.rd o)
            ∧ (s'.tile t).lists = x.lists ++ [{
                off := a.toNat, count := k, backward := bit b.toNat 8, last := bit b.toNat 9,
                slot := bits b.toNat 16 12, waits := bit b.toNat 28, consume := bit b.toNat 29, pc := x.pc,
                ready := !bit b.toNat 28 || x.full (bits b.toNat 16 12) }]))
        ∧ (k = 0 ∨ a.toNat % 32 ≠ 0 ∨ 0xA_0000 < a.toNat + 32 * k → refused (.mrun t w) Status.MAT_OPERAND))

/-- With no exchange instruction waiting and issue not stopped: MRUN_POST posts the list of an MRUN that waits alone, once
there is room. WORK_LIST_READY makes ready the posted lists whose slot's tag is full (a ready list stays so).
LIST_START, where nothing runs and no direct instruction waits, starts the list that MAT_POLICY picks among the ready
ones (forward lists only while FWD_AHEAD is 0 or AHEAD lies below it): 0 the oldest backward one, else the oldest
forward one; 1 the other way round; otherwise the oldest of the kind not run last, else the oldest. The other lists
stay posted in order, and s, p and v registers stay. Where the scratchpad is sound, the list consumes no slot, it has
one item and that is AZERO of a(n), a(n) is 0 and the list is done; where its first item is no MAT word, the list is
done and TILE_FAULT takes INSN_FIELD at that item, unless it holds an earlier record. LIST_END of a list that has done
its items frees the engine; a last forward list raises AHEAD by 1 below 15, a last backward list lowers it by 1, not
below 0. A timeout of a list that waits for its slot takes it from the posted ones and records TAG_TIMEOUT, unless
TILE_FAULT holds an earlier record. (R128, R129, R130, R131, R132, R134.) -/
def Obligations.WorkLists : Prop :=
  ∀ (t : Nat) (s : State),
    let x := s.tile t
    let can := fun (l : WorkList) => l.ready = true ∧ (l.backward = true ∨ x.fld TILE.FWD_AHEAD = 0 ∨ x.fld TILE.AHEAD < x.fld TILE.FWD_AHEAD)
    let first := fun (P : WorkList → Prop) (l : WorkList) (rest : List WorkList) => ∃ pre suf, x.lists = pre ++ l :: suf ∧ rest = pre ++ suf
      ∧ P l ∧ ∀ k ∈ pre, ¬ P k
    let kind := fun (b : Bool) (l : WorkList) => can l ∧ l.backward = b
    let none_ := fun (b : Bool) => ∀ l ∈ x.lists, ¬ kind b l
    let chosen := fun (l : WorkList) (rest : List WorkList) => match x.fld TILE.MAT_POLICY with
      | 0 => first (kind true) l rest ∨ (none_ true ∧ first (kind false) l rest)
      | 1 => first (kind false) l rest ∨ (none_ false ∧ first (kind true) l rest)
      | _ => first (kind (!x.lastBackward)) l rest ∨ (none_ (!x.lastBackward) ∧ first can l rest)
    let item := fun (l : WorkList) => ofBytes (readRun 0 x.spad l.off 32)
    t < s.tileCount → x.xq = [] → x.stall = .none →
      (∀ p, x.mq = [p] → p.op = 0x10 → s.lanesOn = true → x.lists.length < 16 →
        let k := bits p.b.toNat 0 8
        0 < k → bits p.b.toNat 10 6 = 0 → bits p.b.toNat 30 34 = 0 → p.a.toNat % 32 = 0 → p.a.toNat + 32 * k ≤ 0xA_0000 →
        Gives (exec (.mrunPost t) s) (fun s' => OnlyTile t s s' ∧ s'.tile t = { x with mq := [], lists := x.lists ++
          [{ off := p.a.toNat, count := k, backward := bit p.b.toNat 8, last := bit p.b.toNat 9, slot := bits p.b.toNat 16 12
             waits := bit p.b.toNat 28, consume := bit p.b.toNat 29, pc := p.pc
             ready := !bit p.b.toNat 28 || x.full (bits p.b.toNat 16 12) }] }))
      ∧ Gives (exec (.workListReady t) s) (fun s' => OnlyTile t s s'
          ∧ s'.tile t = { x with lists := x.lists.map (fun l => { l with ready := l.ready || x.full l.slot }) })
      ∧ (∀ l rest, s.lanesOn = true → x.running = none → x.astWait = none → (∀ p ∈ x.mq.head?, p.op = 0x10) → x.fld TILE.CORE_READY ≠ 0 →
          chosen l rest → Gives (exec (.listStart t) s) (fun s' => (s'.tile t).lists = rest ∧ (s'.tile t).lastBackward = l.backward
            ∧ (s'.tile t).s = x.s ∧ (s'.tile t).p = x.p ∧ (s'.tile t).v = x.v
            ∧ (∃ r, (s'.tile t).running = some r ∧ r.list = l
              ∧ (x.eccDouble = [] → x.tagParity = [] → l.consume = false → 0 < l.count →
                  (∀ n, n < 12 → l.count = 1 → item l % 2 ^ 64 = 0x4080_0000_0000_0000 + n * 2 ^ 44 →
                    r.done = true ∧ (s'.tile t).accRead n = List.replicate 2304 0)
                  ∧ (bits (item l) 60 4 ≠ 4 → r.done = true ∧ (s'.tile t).acc = x.acc
                      ∧ (x.fld TILE.FAULT_VALID ≠ 1 → (s'.tile t).fld TILE.FAULT_CODE = Status.INSN_FIELD.toNat
                          ∧ (s'.tile t).fld TILE.FAULT_PC = l.off % 2 ^ 20))))))
      ∧ (∀ r, x.running = some r → r.done = true → x.astWait = none → x.mq = [] →
          Gives (exec (.listEnd t) s) (fun s' => (s'.tile t).running = none ∧ (s'.tile t).lists = x.lists ∧ (s'.tile t).spad = x.spad
            ∧ (s'.tile t).acc = x.acc ∧ (∀ u, u ≠ t → s'.tile u = s.tile u)
            ∧ (r.list.last = false → (s'.tile t).fld TILE.AHEAD = x.fld TILE.AHEAD)
            ∧ (r.list.last = true → r.list.backward = false → x.fld TILE.AHEAD < 15 → (s'.tile t).fld TILE.AHEAD = x.fld TILE.AHEAD + 1)
            ∧ (r.list.last = true → r.list.backward = true → (s'.tile t).fld TILE.AHEAD = x.fld TILE.AHEAD - 1)))
      ∧ (∀ i l, x.lists[i]? = some l → l.ready = false → x.mq = [] →
          Gives (exec (.listTimeout t i) s) (fun s' => (s'.tile t).lists = x.lists.eraseIdx i ∧ (s'.tile t).spad = x.spad
            ∧ (s'.tile t).acc = x.acc ∧ (x.fld TILE.FAULT_VALID ≠ 1 → (s'.tile t).fld TILE.FAULT_CODE = Status.TAG_TIMEOUT.toNat)))

/-- VETO before the open step's vote tick has passed adds a cause of bit 7 with the tile and IMM32[15:0] (last where no
cause of this cycle is there) and answers 0; without an open step, or once it has voted or the tick has passed, it
answers VOTE_CLOSED and adds nothing. GENRD answers LIT, SHADOW or the lit layout epoch. Each writes RD at most and
moves the PC on. At its tick a training step of a running job opens, where the Beacon is not lost, no suspension,
evaluation or sweep is due and canOpen holds (each region has a free slot, and room for its pins): vote tick O +
VOTE_OFF, flip tick V + FLIP_OFF, SHADOW is LIT + 1 modulo 2^24, ATTEMPT counts on, OPEN is 1, LIT stays. From V on
the step votes, once: its causes are used up, a cause of bits 1 to 9 clears its bit and COMMIT, and the word is this
member's in VOTE_TREE. At F with the result (no map change, tick change or tree pending), or after F on its arrival,
the step ends: a commit (COMMIT set, none missing) of a training step makes the shadow lit, a discard leaves LIT; OPEN
becomes 0; the selector moves to the commit or the discard candidate; a record is kept, at most 256. A step without
result at the next open is thrown away with LIT as it was. A lease whose tiles have all passed its last superstep
ends. (R97, R260, R296, R299, R302, R309, R319, R321, R331, R334, R337.) -/
def Obligations.StepCommands : Prop :=
  ∀ (t i : Nat) (w : BitVec 52) (s : State) (j : Job),
    let x := s.tile t
    let veto := Issues t w { used := [uRD, uIMM32], regs := [fRD w] } s
    let answers := fun (v : Word) (s' : State) => (∀ u, u ≠ t → s'.tile u = s.tile u) ∧ s'.hbm = s.hbm ∧ s'.regs = s.regs
      ∧ (fRD w ≠ 0 → (s'.tile t).getS (fRD w) = v) ∧ (∀ r, r ≠ fRD w → (s'.tile t).getS r = x.getS r)
      ∧ (s'.tile t).v = x.v ∧ (s'.tile t).p = x.p ∧ (s'.tile t).spad = x.spad ∧ (s'.tile t).tags = x.tags ∧ (s'.tile t).pc = x.pc + 8
    let cause : Cause := { bit := 7, status := Status.STEP_VETO, tile := t, reason := w.extractLsb' 0 16, cycle := s.cycle }
    let free := s.fld BCN.STATE ≠ 5 ∧ s.lh.suspension = none
    let flips := fun (st : OpenStep) (r : VoteResult) (s' : State) =>
      let commit := r.word.getLsbD 0 && decide (r.missing = 0)
      s'.lh.step = none ∧ s'.lh.sel = BitVec.ofNat 2 ((s.lh.sel.toNat + if commit then 1 else 2) % 3)
      ∧ (st.readOnly = true → s'.fld HBM.LIT = s.fld HBM.LIT)
      ∧ (st.readOnly = false → s'.fld HBM.OPEN = 0 ∧ s'.fld HBM.LIT = if commit then s.fld HBM.SHADOW else s.fld HBM.LIT)
      ∧ s'.lh.records.length = min 256 (s.lh.records.length + 1)
    (∀ st, veto → s.lh.step = some st → st.voted = false → ahead st.vote s.count ≥ 0 →
        Gives (exec (.veto t w) s) (fun s' => answers 0 s' ∧ s'.causes.Perm (s.causes ++ [cause])
          ∧ ((∀ c ∈ s.causes, c.cycle ≠ s.cycle) → s'.causes = s.causes ++ [cause])))
    ∧ (veto → (s.lh.step = none ∨ ∃ st, s.lh.step = some st ∧ (st.voted = true ∨ ahead st.vote s.count < 0)) →
        Gives (exec (.veto t w) s) (fun s' => answers (Status.VOTE_CLOSED.setWidth 64) s' ∧ s'.causes = s.causes))
    ∧ (Issues t w { used := [uRD, uIMM32], regs := [fRD w], legal := decide (fIMM32 w ≤ 2) } s →
        Gives (exec (.genrd t w) s) (answers (if fIMM32 w = 0 then BitVec.ofNat 64 (s.fld HBM.LIT)
          else if fIMM32 w = 1 then BitVec.ofNat 64 (s.fld HBM.SHADOW) else s.lh.lit.lepoch.setWidth 64)))
    ∧ (∀ o, s.lh.nextOpen = some o → s.job = some j → j.state = .running → j.kind = 0 → s.lh.evalDue = false → s.lh.sweepDue = false →
        ahead o s.count ≤ 0 → s.lh.step = none → free → s.canOpen true j.trails.length = true →
        Gives (exec .stepOpen s) (fun s' => s'.lh.nextOpen = none ∧ s'.fld HBM.LIT = s.fld HBM.LIT ∧ s'.fld HBM.OPEN = 1
          ∧ s'.fld HBM.SHADOW = (s.fld HBM.LIT + 1) % 2 ^ 24 ∧ s'.fld HBM.ATTEMPT = (s.fld HBM.ATTEMPT + 1) % 2 ^ 8
          ∧ ∃ st, s'.lh.step = some st ∧ st.open_ = o ∧ st.vote = o + BitVec.ofNat 64 j.voteOff
            ∧ st.flip = st.vote + BitVec.ofNat 64 j.flipOff ∧ st.voted = false ∧ st.result = none ∧ st.readOnly = false ∧ st.noSlot = false))
    ∧ (∀ st, s.lh.step = some st → s.job = some j → st.voted = false → ahead st.vote s.count ≤ 0 → free →
        Gives (exec .voteTick s) (fun s' => s'.causes = [] ∧ s'.fld HBM.LIT = s.fld HBM.LIT
          ∧ ∃ st', s'.lh.step = some st' ∧ st'.voted = true ∧ st'.vote = st.vote ∧ st'.flip = st.flip ∧ st'.readOnly = st.readOnly
            ∧ (∀ c ∈ s.causes, 1 ≤ c.bit → c.bit ≤ 9 → st'.word.getLsbD c.bit = false ∧ st'.word.getLsbD 0 = false)
            ∧ ∃ r, s'.tree j.voteTree = some r ∧ r.op = 0 ∧ r.own = some st'.word ∧ r.tc = st.vote ∧ r.tr = st.flip))
    ∧ (∀ st r, s.lh.step = some st → s.job = some j → st.result = some r → free →
        (s.count = st.flip → s.moves = [] → s.bcn.pendingTick = none → s.bcn.trees = [] → Gives (exec .flip s) (flips st r))
        ∧ (ahead st.flip s.count < 0 → Gives (exec .stepResultLate s) (flips st r)))
    ∧ (∀ st, s.lh.step = some st → s.job = some j → st.result = none → ahead (st.flip + BitVec.ofNat 64 j.gap) s.count ≤ 0 →
        Gives (exec .moduleOutOfStep s) (fun s' => s'.lh.step = none ∧ s'.lh.nextOpen = none ∧ s'.fld HBM.LIT = s.fld HBM.LIT))
    ∧ (∀ l, s.lh.leases[i]? = some l → (∀ u, u < s.tileCount → (Map.get 0 l.base u).toNat + l.last < (s.tile u).fld TILE.SSTEP) →
        Gives (exec (.leaseRelease i) s) (fun s' => s'.lh.leases = s.lh.leases.eraseIdx i ∧ s'.fld HBM.LIT = s.fld HBM.LIT
          ∧ s'.lh.step = s.lh.step ∧ (∀ u, s'.tile u = s.tile u)))

/-- While every tile is between phases and the Beacon is not lost, a waiting map change moves its logical position to the
column it names, and a substitution moves it to the spare chosen (with none, nothing moves); no other position of any
row moves, every tile keeps its bytes and tags, and the tile at that place holds its next XSTART. While some tile is
in a phase, or the Beacon is lost (STATE 5), neither acts. A router that fails is failed, then, once its neighbours
have switched, bypassed; no other router changes. A core reset raises CORE_EPOCH by 1 modulo 2^16, clears CORE_READY
and every tag, closes all 64 windows with their generations one higher, notes the count, stops the stream, keeps the
semaphore entries of the router, HBM, and the other tiles' bytes, tags and s registers. In P0 a core with power, no
saved context and no job becomes ready; one without power stays as it is. A router reset raises RTR_EPOCH, clears the
semaphore entries and what waits at them and leaves every core's bytes and s and v registers; the router of a spare
does the same in its own record. In P0 a router becomes ready. (R35, R36, R39, R71, R72, R73, R234, R235, R236, R239,
R257, R263.) -/
def Obligations.GridCommands : Prop :=
  ∀ (t row col : Nat) (s : State),
    let x := s.tile t
    let moves := fun (s' : State) (r c dest : Nat) => s'.physCol r c = dest ∧ (∀ u, (s'.tile u).spad = (s.tile u).spad ∧ (s'.tile u).tags = (s.tile u).tags)
      ∧ s'.hbm = s.hbm ∧ (∀ r' c', r' < 48 → c' < 60 → (r', c') ≠ (r, c) → s'.physCol r' c' = s.physCol r' c')
      ∧ ∀ u, s.tileAt r (s.physCol r c) = some u → (s'.tile u).startHeld = some (s.count + BitVec.ofNat 64 s.switchTicks)
    let others := fun (s' : State) => ∀ r c, r < 48 → c < 64 → (r, c) ≠ (row, col) → s'.router r c = s.router r c
    let mayMove := s.betweenPhases = true ∧ s.fld BCN.STATE ≠ 5
    (∀ m : MapMove, mayMove → s.moves = [m] → m.row < 48 → m.col < 60 →
        Gives (exec .mapChange s) (fun s' => s'.moves = [] ∧ moves s' m.row m.col m.dest))
    ∧ (¬ mayMove → exec .mapChange s = .next s ∧ (row < 48 → col < 64 → exec (.tileSubstitute row col) s = .next s))
    ∧ (row < 48 → col < 64 →
        (∀ u c, s.tileAt row col = some u → s.colAt row col = some c → mayMove → s.moves = [] →
          (∀ q, s.chooseSpare row col = some q → Gives (exec (.tileSubstitute row col) s) (fun s' => moves s' row c q))
          ∧ (s.chooseSpare row col = none → exec (.tileSubstitute row col) s = .next s))
        ∧ (s.router row col = .up → Gives (exec (.routerFailure row col) s) (fun s' => s'.router row col = .failed ∧ others s'))
        ∧ (s.router row col = .failed → Gives (exec (.routerBypassSwitch row col) s) (fun s' =>
            s'.router row col = .bypassed ∧ others s' ∧ s'.tiles = s.tiles))
        ∧ (∀ u, s.tileAt row col = some u →
            Gives (exec (.routerReset row col) s) (fun s' => (s'.tile u).fld TILE.RTR_EPOCH = ((s.tile u).fld TILE.RTR_EPOCH + 1) % 2 ^ 16
              ∧ (s'.tile u).sems = [] ∧ (s'.tile u).semOps = [] ∧ (s'.tile u).rtrReady = false ∧ (s'.tile u).rtrResetAt = s.count
              ∧ ∀ v, (s'.tile v).spad = (s.tile v).spad ∧ (s'.tile v).s = (s.tile v).s ∧ (s'.tile v).v = (s.tile v).v)
            ∧ (s.pwr.state = .p0 → Gives (exec (.routerReady row col) s) (fun s' => OnlyTile u s s'
                ∧ s'.tile u = { (s.tile u) with rtrReady := true })))
        ∧ (s.tileAt row col = none →
            Gives (exec (.routerReset row col) s) (fun s' => s'.spare (row * 64 + col) = { s.spare (row * 64 + col) with
              rtrEpoch := ((s.spare (row * 64 + col)).rtrEpoch + 1) % 2 ^ 16, rtrResetAt := s.count, rtrReady := false } ∧ s'.tiles = s.tiles)
            ∧ (s.pwr.state = .p0 → Gives (exec (.routerReady row col) s) (fun s' => s'.spare (row * 64 + col)
                = { s.spare (row * 64 + col) with rtrReady := true } ∧ s'.tiles = s.tiles))))
    ∧ (t < s.tileCount → Gives (exec (.tileCoreReset t) s) (fun s' =>
        (s'.tile t).fld TILE.CORE_EPOCH = (x.fld TILE.CORE_EPOCH + 1) % 2 ^ 16 ∧ (s'.tile t).fld TILE.CORE_READY = 0
        ∧ (∀ k, (s'.tile t).full k = false) ∧ (∀ k, k < 64 → ((s'.tile t).window k).st = .closed ∧ ((s'.tile t).window k).gen = (x.window k).gen + 1)
        ∧ (s'.tile t).resetAt = s.count ∧ (s'.tile t).halted = true ∧ (s'.tile t).sems = x.sems ∧ s'.hbm = s.hbm
        ∧ ∀ u, u ≠ t → (s'.tile u).spad = (s.tile u).spad ∧ (s'.tile u).s = (s.tile u).s ∧ (s'.tile u).tags = (s.tile u).tags))
    ∧ (t < s.tileCount → s.pwr.state = .p0 → x.fld TILE.CORE_READY = 0 →
        (x.fld TILE.CORE_PWR = 1 → s.savedTile t = none → s.job = none → Gives (exec (.tileCoreReady t) s) (fun s' => OnlyTile t s s'
          ∧ s'.tile t = x.setFld TILE.CORE_READY 1))
        ∧ (x.fld TILE.CORE_PWR = 0 → exec (.tileCoreReady t) s = .next s))

/-- In P0, where a stack below level 3 holds one request, its bytes lie in one block whose channel is not lost, no version
region is in use and no storage error is there: a read without Halo is answered with status 0 and those bytes, or,
from a poisoned block, with POISON_CONSUMED and none, and changes no byte; a plain write to a block that is not
poisoned changes exactly its bytes, marks the block BARE and answers 0; a whole block with a matching Halo without
poison is stored with the Halo built from the GEN and LEPOCH it names. The queue is empty then. At level 3, or outside
P0, nothing is served. A finished sparing copy without errors switches the map: SPARE_USED and SPARE_FOR name the
channel, the spare serves it. A channel reset of a module that has power raises its epoch, clears READY, takes away
exactly its own requests and notes the count; once ready again its journalled blocks are poisoned. A scrub read
corrects the only error, a single one in its block, and counts it. Of a module that has power, a temperature reading
is stored; from 105 on the level is 3, up to 82 it is 0; other stacks keep theirs; a stack that enters level 3 with an
empty queue adds HBM_OVERTEMP as a cause of bit 9; one below level 3 with an empty queue changes no byte. (R33, R37,
R279, R281, R283, R285, R287, R288, R290, R292, R294, R303.) -/
def Obligations.HbmCommands : Prop :=
  ∀ (k ch blk : Nat) (r : HbmReq) (st : Stamp) (d : LoadDst) (s : State),
    let a := r.addr.toNat
    let clean := s.hbmBad = [] ∧ s.hbmSoft = [] ∧ s.vregs = [] ∧ Memory.wf s.hbm = true
    let inBlock := fun (n : Nat) => 0 < n ∧ a % 4096 + n ≤ 4096 ∧ s.channelLost (a / 4096) = false
    let asks := k < 16 ∧ ch < 16 ∧ s.pwr.state = .p0 ∧ s.fld (HBM.TLEVEL k) ≠ 3 ∧ (s.stack k).queue = [(ch, r)]
    let answered := fun (z : State) (m : Msg) => (z.tile st.tile).mail = (s.tile st.tile).mail ++ [m] ∧ (z.stack k).queue = []
    (asks → clean → inBlock r.len → r.write = none → r.halo = false → r.sender = .message st 0 → r.dst = some d →
        (haloPoison (s.haloOf (a / 4096)) = false → Gives (exec (.hbmRead k ch) s) (fun z =>
          answered z (.load st d r.pc 0 ((List.range r.len).map (fun i => Map.get 0 s.hbm (a + i)))) ∧ z.hbm = s.hbm ∧ z.halo = s.halo))
        ∧ (haloPoison (s.haloOf (a / 4096)) = true → Gives (exec (.hbmRead k ch) s) (fun z =>
          answered z (.load st d r.pc Status.POISON_CONSUMED []) ∧ z.hbm = s.hbm ∧ z.halo = s.halo)))
    ∧ (∀ bs, asks → clean → inBlock bs.length → r.write = some bs → r.halo = false → r.sender = .dma st 0 → haloPoison (s.haloOf (a / 4096)) = false →
        Gives (exec (.hbmWrite k ch) s) (fun z => answered z (.answer (.dma st 0) 0 0 none)
          ∧ (∀ i, Map.get 0 z.hbm i = if a ≤ i ∧ i < a + bs.length then bs.getD (i - a) 0 else Map.get 0 s.hbm i)
          ∧ haloBare (z.haloOf (a / 4096)) = true ∧ (∀ b, b ≠ a / 4096 → z.haloOf b = s.haloOf b)))
    ∧ (∀ bs h, asks → clean → a % 4096 = 0 → s.channelLost (a / 4096) = false → bs.length = 4096 → haloMatches bs h = true → haloPoison h = false →
        r.write = some (bs ++ bytesOf h.toNat 32) → r.halo = true → r.sender = .dma st 0 → haloPoison (s.haloOf (a / 4096)) = false →
        Gives (exec (.hbmWrite k ch) s) (fun z => answered z (.answer (.dma st 0) 0 0 none)
          ∧ (∀ i, Map.get 0 z.hbm i = if a ≤ i ∧ i < a + 4096 then bs.getD (i - a) 0 else Map.get 0 s.hbm i)
          ∧ z.haloOf (a / 4096) = buildHalo bs r.gen.toNat r.lepoch.toNat 0 ∧ (∀ b, b ≠ a / 4096 → z.haloOf b = s.haloOf b)))
    ∧ (k < 16 → ch < 16 → s.fld (HBM.TLEVEL k) = 3 ∨ s.pwr.state ≠ .p0 → exec (.hbmRead k ch) s = .next s ∧ exec (.hbmWrite k ch) s = .next s)
    ∧ (∀ lch, k < 16 → lch < 15 → (s.stack k).copying = some lch → s.hbmBad = [] → s.hbmSoft = [] →
        Gives (exec (.sparingCopyDone k) s) (fun z => z.fld (HBM.COPY_BUSY k) = 0 ∧ z.fld (HBM.SPARE_USED k) = 1 ∧ z.fld (HBM.SPARE_FOR k) = lch
          ∧ z.physChannel k lch = 15 ∧ (z.stack k).copying = none ∧ z.hbm = s.hbm ∧ z.halo = s.halo))
    ∧ (k < 16 → ch < 16 →
        (s.awake = true → Gives (exec (.channelReset k ch) s) (fun z => z.fld (HBM.CH_EPOCH k ch) = (s.fld (HBM.CH_EPOCH k ch) + 1) % 2 ^ 16
          ∧ z.fld (HBM.CH_READY k ch) = 0 ∧ (z.stack k).queue = (s.stack k).queue.filter (fun e => decide (e.1 ≠ ch))
          ∧ Map.get 0 (z.stack k).resetAt ch = s.count ∧ z.hbm = s.hbm ∧ z.halo = s.halo))
        ∧ (s.fld (HBM.CH_READY k ch) = 0 → Gives (exec (.channelReady k ch) s) (fun z => z.fld (HBM.CH_READY k ch) = 1 ∧ z.hbm = s.hbm
          ∧ (∀ b, (ch, b) ∈ (s.stack k).journal → haloPoison (z.haloOf b) = true)
          ∧ (∀ b, (ch, b) ∉ (s.stack k).journal → z.haloOf b = s.haloOf b) ∧ ∀ e ∈ (z.stack k).journal, e.1 ≠ ch)))
    ∧ (∀ u, blk < 188743680 → s.pwr.state = .p0 → s.fld HBM.SCRUB_H ≠ 0 → s.channelReady blk = true → s.stackAsleep blk = false
        → s.channelLost blk = false → u / 128 = blk → s.hbmSoft = [(u, true)] → s.hbmBad = [] → s.fld (HBM.CORRECTED (s.place blk).1) + 1 < 2 ^ 24 →
        Gives (exec (.scrubRead blk) s) (fun z => z.hbmSoft = [] ∧ z.hbm = s.hbm ∧ z.halo = s.halo
          ∧ z.fld (HBM.CORRECTED (s.place blk).1) = s.fld (HBM.CORRECTED (s.place blk).1) + 1))
    ∧ (∀ temp : BitVec 8, k < 16 → s.awake = true → Gives (exec (.stackTempRead k temp) s) (fun z => z.fld (HBM.TEMP k) = temp.toNat
          ∧ (105 ≤ temp.toNat → z.fld (HBM.TLEVEL k) = 3) ∧ (temp.toNat ≤ 82 → z.fld (HBM.TLEVEL k) = 0)
          ∧ (∀ j, j < 16 → j ≠ k → z.fld (HBM.TLEVEL j) = s.fld (HBM.TLEVEL j))
          ∧ ((s.stack k).queue = [] → s.fld (HBM.TLEVEL k) < 3 → z.hbm = s.hbm
              ∧ (105 ≤ temp.toNat → ∃ c ∈ z.causes, c.bit = 9 ∧ c.status = Status.HBM_OVERTEMP))))

/-- At an edge of an awake module the count rises by 1 modulo 2^64, BCN_SUBTICK restarts, a WAIT deadline at or before the
new count makes DEADLINE pending unless the Beacon is lost, and, where no tile is held for a move, no scratchpad or
HBM byte changes; asleep, nothing changes. An unmarked sync frame of a term that is not older: the first one gives the
count, the term and the lock; in holdover one that agrees locks; from the locked source one that differs is counted,
and leads to the one other source, or, where none is left, to holdover. A scheduled tick change takes effect from its
count on, where no map change waits and the Beacon is not lost. Entering holdover sets SRC 15 and counts three missed
edges, unless edges were marked; a source found then locks, none starts an election under the next term. An
advertisement of the election's term keeps the better key and the higher floor. The election's winner is master with
depth 0, counting on, or from the floor plus 2^32 where it held no count; another module that holds a count locks to
its one source, or, without sources, is in holdover; one without a count has no source. At the limit of holdover or
election BCN_LOST: state 5 and a cause of bit 6. A relock takes the source's count, DESYNC noting a jump; a master
that meets a part whose key has a higher priority takes that part's term, master and count. (R106, R248, R249, R250,
R252, R253, R254, R256, R257, R258.) -/
def Obligations.BeaconCommands : Prop :=
  ∀ (t src : Nat) (count : BitVec 64) (term : BitVec 16) (prio : BitVec 8) (m : BitVec 14) (s : State),
    let st := s.fld BCN.STATE
    let live := ¬ (olderTerm term.toNat (s.fld BCN.TERM) = true)
    let locked := fun (s' : State) (p : Nat) => s'.fld BCN.STATE = 1 ∧ s'.fld BCN.SRC = p
    let holdover := fun (s' : State) => s'.fld BCN.STATE = 3 ∧ s'.fld BCN.SRC = 15 ∧ s'.count = s.count
    let keeps := fun (s' : State) => (∀ u, (s'.tile u).spad = (s.tile u).spad) ∧ s'.hbm = s.hbm
    (s.awake = false → exec .beaconEdge s = .next s)
    ∧ (s.awake = true → Gives (exec .beaconEdge s) (fun s' => s'.count = s.count + 1 ∧ s'.fld BCN.SUBTICK = 0
        ∧ ((∀ e ∈ s.tiles, e.2.startHeld = none) → keeps s')
        ∧ (∀ rd ev d lv, st ≠ 5 → (s.tile t).stall = .wait rd ev (some d) lv → ahead d (s.count + 1) ≤ 0 →
            bit ((s'.tile t).fld TILE.PEND) 0 = true)))
    ∧ (src < 9 → s.awake = true → live →
        (s.bcn.holds = false → Gives (exec (.syncFrame src count term false) s) (fun s' => locked s' src ∧ s'.count = count
          ∧ s'.fld BCN.TERM = term.toNat ∧ keeps s'))
        ∧ (s.bcn.holds = true → st = 3 → count = s.count → s.pwr.locked = none →
            Gives (exec (.syncFrame src count term false) s) (fun s' => locked s' src ∧ s'.count = s.count ∧ keeps s'))
        ∧ (s.bcn.holds = true → st = 1 → s.fld BCN.SRC = src → count ≠ s.count → s.fld BCN.COUNT_ERRS + 1 < 2 ^ 16 →
            let others := s.bcn.sources.filter (fun e => decide (e.port ≠ src))
            (others = [] → Gives (exec (.syncFrame src count term false) s) (fun s' => holdover s'
              ∧ s'.fld BCN.COUNT_ERRS = s.fld BCN.COUNT_ERRS + 1 ∧ keeps s'))
            ∧ (∀ e, others = [e] → e.port < 9 → Gives (exec (.syncFrame src count term false) s) (fun s' => locked s' e.port ∧ s'.count = s.count
              ∧ s'.fld BCN.COUNT_ERRS = s.fld BCN.COUNT_ERRS + 1 ∧ keeps s'))))
    ∧ (∀ c ns, s.bcn.pendingTick = some (c, ns) → ns < 2 ^ 21 → ahead c s.count ≤ 0 → st ≠ 5 → s.moves = [] →
        Gives (exec .tickPeriodChange s) (fun s' => s'.fld BCN.TICK_NS = ns ∧ s'.bcn.pendingTick = none ∧ s'.count = s.count))
    ∧ (st = 1 → s.fld BCN.MISSED_EDGES + 3 < 2 ^ 16 → Gives (exec .holdoverEntry s) (fun s' => holdover s' ∧ keeps s'
        ∧ s'.fld BCN.MISSED_EDGES = s.fld BCN.MISSED_EDGES + if s.bcn.marked then 0 else 3))
    ∧ (st = 3 → s.awake = true → s.pwr.locked = none →
        (src < 9 → Gives (exec (.holdoverSourceSearch (some src)) s) (fun s' => locked s' src ∧ s'.count = s.count))
        ∧ Gives (exec (.holdoverSourceSearch none) s) (fun s' => s'.fld BCN.STATE = 4 ∧ s'.fld BCN.TERM = (s.fld BCN.TERM + 1) % 2 ^ 16
            ∧ s'.bcn.best = s.ownKey ∧ s'.count = s.count))
    ∧ (st = 4 → s.awake = true → term.toNat = s.fld BCN.TERM → ∀ b, s.bcn.best = some b →
        Gives (exec (.electionAdvertisement term prio m count) s) (fun s' => s'.fld BCN.STATE = 4
          ∧ (s'.bcn.best = some b ∨ s'.bcn.best = some ⟨prio, m⟩)
          ∧ (∀ k, s'.bcn.best = some k → (b.prio.toNat < k.prio.toNat ∨ (b.prio = k.prio ∧ k.module.toNat ≤ b.module.toNat))
              ∧ (prio.toNat < k.prio.toNat ∨ (prio = k.prio ∧ k.module.toNat ≤ m.toNat)))
          ∧ s'.bcn.floor.toNat = max s.bcn.floor.toNat count.toNat))
    ∧ (st = 4 → ∀ k, s.bcn.best = some k →
        (k.module = s.self → Gives (exec .electionClose s) (fun s' => s'.fld BCN.STATE = 2 ∧ s'.fld BCN.MASTER = s.self.toNat
          ∧ s'.fld BCN.DEPTH = 0 ∧ s'.fld BCN.SRC = 15 ∧ s'.count = if s.bcn.holds then s.count else s.bcn.floor + 2 ^ 32))
        ∧ (k.module ≠ s.self → Gives (exec .electionClose s) (fun s' => s'.count = s.count
            ∧ (s.bcn.holds = false → s'.fld BCN.STATE = 0 ∧ s'.fld BCN.SRC = 15)
            ∧ (s.bcn.holds = true → (s.bcn.sources = [] → holdover s')
                ∧ ∀ e, s.bcn.sources = [e] → e.port < 9 → locked s' e.port))))
    ∧ (st = 3 ∨ st = 4 → Gives (exec .holdoverLimit s) (fun s' => s'.fld BCN.STATE = 5 ∧ s'.fld BCN.SRC = 15 ∧ s'.count = s.count
        ∧ { bit := 6, status := Status.BCN_LOST, cycle := s.cycle } ∈ s'.causes))
    ∧ (src < 9 → st = 5 → Gives (exec (.beaconRelock src count) s) (fun s' => locked s' src ∧ s'.count = count
        ∧ (count ≠ s.count → s'.fld BCN.DESYNC = 1)))
    ∧ (src < 9 → st = 2 → term.toNat ≠ s.fld BCN.TERM → s.fld BCN.PRIO < prio.toNat →
        Gives (exec (.fabricRejoin src term prio m count) s) (fun s' => locked s' src ∧ s'.count = count
          ∧ s'.fld BCN.TERM = term.toNat ∧ s'.fld BCN.MASTER = m.toNat))

/-- On a configured idle tree of a module that has not lost the Beacon, a reduction whose t_c lies ahead, not too far,
whose t_r is at least t_c + 2 × (H + 1) × L and with room in the schedule makes the tree busy and holds the member's
contribution and what children sent early; otherwise it is reported with SCHED_RANGE, SCHED_PAST or SCHED_FULL; on
another tree, or with the Beacon lost, nothing changes. A child's contribution before the close is kept, once; before
the node's own start it is kept for it; after the close it is dropped and counted. A node all of whose children have
contributed closes from t_c on, where no map or tick change waits: the value is its own combined with theirs in turn
(AND, OR, unsigned maximum or sum), the count of modules that of all; the root keeps it as the result. A result, at
the root its own, is applied from t_r on: it frees the tree, writes the missing modules and the lowest absent one, is
the open step's vote result where the tree carried its vote, and counts as late after t_r; one that reaches another
node before t_r waits there. (R268, R269, R270, R271, R272, R322.) -/
def Obligations.TreeCommands : Prop :=
  ∀ (tree op port n level height depth : Nat) (v tc tr : BitVec 64) (ab : Option Nat) (s : State), tree < 16 → s.fld BCN.STATE ≠ 5 →
    let idle := s.fld (BCN.VALID tree) ≠ 0 ∧ s.fld (BCN.BUSY tree) ≠ 1
    let start := Instr.treeReductionStart tree op v tc tr level height depth
    let inRange := tooFar tc s.count = false ∧ 0 ≤ (tr - (tc + BitVec.ofNat 64 (2 * (height + 1) * level))).toInt ∧ depth ≤ height
    let applied := fun (r : TreeRun) (x : BitVec 64 × Nat × Option Nat) (s' : State) => s'.tree tree = none ∧ s'.fld (BCN.BUSY tree) = 0
      ∧ s'.fld (BCN.MISSING tree) = s.box.length - x.2.1 ∧ s'.fld (BCN.FIRST_ABSENT tree) = x.2.2.getD 0 % 2 ^ 14
      ∧ (s.isVote tree r = true → ∃ st, s'.lh.step = some st ∧ st.result = some ⟨x.1, s.box.length - x.2.1, x.2.2.getD 0⟩)
      ∧ (s.isVote tree r = false → s'.lh.step = s.lh.step)
      ∧ (ahead r.tr s.count = 0 → s'.fld (BCN.LATE tree) = s.fld (BCN.LATE tree))
      ∧ (ahead r.tr s.count < 0 → s.fld (BCN.LATE tree) + 1 < 2 ^ 8 → s'.fld (BCN.LATE tree) = s.fld (BCN.LATE tree) + 1)
    (op < 4 →
        (idle → inRange → 0 < ahead tc s.count → s.pendingEvents < 256 → Gives (exec start s) (fun s' => s'.fld (BCN.BUSY tree) = 1
          ∧ s'.tree tree = some ⟨op, tc, tr, level, height, depth, some v, Map.get [] s.bcn.early tree, false, false, none⟩
          ∧ (∀ k, k ≠ tree → s'.tree k = s.tree k) ∧ s'.tiles = s.tiles ∧ s'.hbm = s.hbm))
        ∧ (idle → ¬ inRange → exec start s = .next (s.report Status.SCHED_RANGE tree))
        ∧ (idle → inRange → ahead tc s.count ≤ 0 → exec start s = .next (s.report Status.SCHED_PAST tree))
        ∧ (idle → inRange → 0 < ahead tc s.count → 256 ≤ s.pendingEvents → exec start s = .next (s.report Status.SCHED_FULL tree))
        ∧ (¬ idle → exec start s = .next s))
    ∧ (port < 8 → port ∈ s.children tree →
        (∀ r, s.tree tree = some r →
          (r.closed = false → (∀ k ∈ r.kids, k.port ≠ port) → Gives (exec (.treeContribution tree port v n ab) s) (fun s' =>
            s'.tree tree = some { r with kids := r.kids ++ [⟨port, v, n, ab⟩] } ∧ (∀ k, k ≠ tree → s'.tree k = s.tree k) ∧ s'.regs = s.regs))
          ∧ (r.closed = true → s.fld (BCN.DROPPED tree) + 1 < 2 ^ 8 → Gives (exec (.treeContribution tree port v n ab) s) (fun s' =>
            s'.tree tree = some r ∧ s'.fld (BCN.DROPPED tree) = s.fld (BCN.DROPPED tree) + 1)))
        ∧ (s.tree tree = none → Gives (exec (.treeContribution tree port v n ab) s) (fun s' => (∀ k, s'.tree k = s.tree k) ∧ s'.regs = s.regs
            ∧ ⟨port, v, n, ab⟩ ∈ Map.get [] s'.bcn.early tree)))
    ∧ (∀ r o, s.tree tree = some r → r.closed = false → ahead r.tc s.count ≤ 0 → r.own = some o → s.moves = [] → s.bcn.pendingTick = none →
        (∀ p ∈ s.children tree, ∃ k ∈ r.kids, k.port = p) →
        let f : BitVec 64 → BitVec 64 → BitVec 64 := fun a b =>
          if r.op = 0 then a &&& b else if r.op = 1 then a ||| b else if r.op = 2 then BitVec.ofNat 64 (max a.toNat b.toNat) else a + b
        let total := r.kids.foldl (fun a k => f a k.value) o
        Gives (exec (.treeNodeClose tree) s) (fun s' => ∃ r', s'.tree tree = some r' ∧ r'.closed = true ∧ r'.kids = r.kids ∧ r'.own = r.own
          ∧ (s.fld (BCN.PARENT tree) = 15 → ∃ low, r'.sum = some (total, r.kids.foldl (fun a k => a + k.count) 1, low))
          ∧ (s.fld (BCN.PARENT tree) ≠ 15 → r'.sum = r.sum) ∧ s'.lh = s.lh))
    ∧ (∀ r, s.tree tree = some r → r.barrier = false → s.box.length < 2 ^ 14 →
        (s.fld (BCN.PARENT tree) ≠ 15 →
          (ahead r.tr s.count ≤ 0 → Gives (exec (.treeResult tree v n ab) s) (applied r (v, n, ab)))
          ∧ (0 < ahead r.tr s.count → Gives (exec (.treeResult tree v n ab) s) (fun s' => s'.tree tree = some { r with sum := some (v, n, ab) }
              ∧ s'.regs = s.regs ∧ s'.lh = s.lh)))
        ∧ (∀ x, s.fld (BCN.PARENT tree) = 15 → r.sum = some x → ahead r.tr s.count ≤ 0 → Gives (exec (.treeResult tree v n ab) s) (applied r x)))

/-- A trigger of count n on a counter without an armed descriptor raises it by n; one that lets the counter reach TRIG_N
of its armed descriptor subtracts TRIG_N, and the descriptor runs (stated for a broadcast's receiver, with room in the
engine and nothing held). A contribution for a descriptor that does not run, or whose memory lies in a stack that
serves nothing, waits. Of a descriptor that runs: one whose CDIG fails is asked for once more, and stops the
collective with COLL_DIGEST where it has been; one of another layout epoch stops it with LAYOUT_STALE, counted, and
adds a cause of bit 5; a block of a broadcast without Halos that ends its way here, HBM in its canonical form, for
bytes of one block outside every version region whose channel is ready, reachable, idle and without storage errors,
lands in DST, and no other byte and no tile changes. The end of a collective with nothing left, no ring pass and no
chained descriptor, whose home is ready, signals DONE once there and records the descriptor and status 0. At its
DEADLINE a collective with work left stops with COLL_TIMEOUT, counted. A stop takes the collective from the engine,
records descriptor and status, adds a cause of bit 4, and changes no byte. (R369, R376, R377, R378, R382.) -/
def Obligations.CollectiveCommands : Prop :=
  ∀ (axis counter n i : Nat) (header : BitVec 384) (bs : List (BitVec 8)) (dig : BitVec 64) (c : Coll) (s : State), axis < 4 →
    let h := Hdr.decode header
    let key := (bits h.ext 8 16, h.addr)
    let mine := fun (x : Coll) => x.d = bits header.toNat 312 8 ∧ x.waits = false
    let asleep := s.ceWaits c.desc (s.takeSpans c.desc (s.extent axis) (s.rank axis) h bs.length)
    let first := s.collAt axis (bits header.toNat 312 8) = some c
    let runs := first ∧ asleep = false
    let keeps := fun (s' : State) => (∀ t, (s'.tile t).spad = (s.tile t).spad) ∧ s'.hbm = s.hbm
    let stopped := fun (s' : State) (d : Nat) (st : BitVec 16) => (∀ x ∈ s'.collsOf axis, x.d ≠ d) ∧ s'.fld (CE.LAST_DESC axis) = d % 256
      ∧ s'.fld (CE.LAST_STATUS axis) = st.toNat ∧ { bit := 4, status := st, cycle := s.cycle } ∈ s'.causes ∧ keeps s'
    let desc := s.collDesc axis (s.fld (CE.ARMED axis counter))
    let count := s.fld (CE.COUNT axis counter) + n
    let chunk := bits h.ext 8 16
    let dist := if chunk % 2 = 0 then (s.rank axis + s.extent axis - chunk / 2) % s.extent axis
      else (chunk / 2 + s.extent axis - s.rank axis) % s.extent axis
    let dst := cdDst c.desc + (halfOff c.desc (s.extent axis) (chunk % 2) + h.addr)
    let blk := dst / 4096
    (counter < 64 → count < 2 ^ 32 → s.fld (CE.ARMED_VALID axis counter) = 0 →
        Gives (exec (.collTrigger axis counter n) s) (fun s' => s'.fld (CE.COUNT axis counter) = count ∧ keeps s'
          ∧ ∀ k, k < 64 → k ≠ counter → s'.fld (CE.COUNT axis k) = s.fld (CE.COUNT axis k)))
    ∧ (counter < 64 → count < 2 ^ 32 → s.fld (CE.ARMED_VALID axis counter) = 1 → cdTrigN desc ≠ 0 → cdTrigN desc ≤ count →
        (s.collsOf axis).length < 32 → (∀ x ∈ s.collsOf axis, x.d ≠ s.fld (CE.ARMED axis counter)) → cdOp desc = 4
        → s.rank axis ≠ cdRoot desc → s.extent axis ≠ 1 → Map.get [] s.collHeld axis = [] →
        Gives (exec (.collTrigger axis counter n) s) (fun s' =>
          s'.fld (CE.COUNT axis counter) = count - cdTrigN desc ∧ keeps s'
          ∧ ∃ x ∈ s'.collsOf axis, x.d = s.fld (CE.ARMED axis counter) ∧ x.desc = desc ∧ x.waits = false))
    ∧ ((∀ x ∈ s.collsOf axis, ¬ mine x) ∨ (first ∧ asleep = true) → Gives (exec (.collContribution axis header bs dig) s) (fun s' =>
          Map.get [] s'.collHeld axis = Map.get [] s.collHeld axis ++ [(header, bs, dig)] ∧ s'.colls = s.colls ∧ keeps s'))
    ∧ (runs → crc64 bs ≠ dig → key ∉ c.resent → s.fld (CE.RESENDS axis) + 1 < 2 ^ 16 →
        Gives (exec (.collContribution axis header bs dig) s) (fun s' => s'.fld (CE.RESENDS axis) = s.fld (CE.RESENDS axis) + 1
          ∧ (∃ x ∈ s'.collsOf axis, x.d = c.d ∧ x.resent = key :: c.resent ∧ x.left = c.left) ∧ keeps s'))
    ∧ (runs → crc64 bs ≠ dig → key ∈ c.resent → s.fld (CE.DIGEST_FAILS axis) + 1 < 2 ^ 16 →
        Gives (exec (.collContribution axis header bs dig) s) (fun s' => stopped s' c.d Status.COLL_DIGEST
          ∧ s'.fld (CE.DIGEST_FAILS axis) = s.fld (CE.DIGEST_FAILS axis) + 1))
    ∧ (runs → crc64 bs = dig → h.lepoch ≠ cdLepoch c.desc → s.fld (CE.STALE axis) + 1 < 2 ^ 16 →
        Gives (exec (.collContribution axis header bs dig) s) (fun s' => stopped s' c.d Status.LAYOUT_STALE
          ∧ s'.fld (CE.STALE axis) = s.fld (CE.STALE axis) + 1 ∧ { bit := 5, status := Status.LAYOUT_STALE, cycle := s.cycle } ∈ s'.causes))
    ∧ (runs → crc64 bs = dig → h.lepoch = cdLepoch c.desc → cdOp c.desc = 4 → cdHalo c.desc = false → h.halo = false → h.addr < 2 ^ 47 →
        hopLimit c.desc (s.extent axis) (chunk % 2) ≤ dist → 0 < bs.length → dst % 4096 + bs.length ≤ 4096 → dst + bs.length ≤ 0xB4_0000_0000 →
        Memory.wf s.hbm = true → s.vregs = [] → s.hbmBad = [] → s.hbmSoft = [] → s.stackReachable (s.place blk).1 = true → s.channelReady blk = true →
        (s.stack (s.channelOf blk).1).queue = [] →
        Gives (exec (.collContribution axis header bs dig) s) (fun s' => (∃ x ∈ s'.collsOf axis, x.d = c.d ∧ x.left = c.left - 1)
          ∧ (∀ a, Map.get 0 s'.hbm a = if dst ≤ a ∧ a < dst + bs.length then bs.getD (a - dst) 0 else Map.get 0 s.hbm a)
          ∧ s'.tiles = s.tiles))
    ∧ ((s.collsOf axis).find? (fun x => decide (x.d = i)) = some c → i < 256 → c.left = 0 → c.waits = false → cdNextEn c.desc = false → cdOp c.desc ≠ 3 →
        (∀ k, k < 64 → s.fld (CE.ARMED_VALID axis k) = 0) → (s.tile (cdHome c.desc)).rtrReady = true →
        (s.sem (cdHome c.desc) (cdEntry c.desc)).waiters = [] → (s.sem (cdHome c.desc) (cdEntry c.desc)).count.toNat < 2 ^ 32 - 1 →
        Gives (exec (.collEnd axis i) s) (fun s' => (∀ x ∈ s'.collsOf axis, x.d ≠ i) ∧ s'.fld (CE.LAST_DESC axis) = i
          ∧ s'.fld (CE.LAST_STATUS axis) = 0 ∧ keeps s'
          ∧ (s'.sem (cdHome c.desc) (cdEntry c.desc)).count = (s.sem (cdHome c.desc) (cdEntry c.desc)).count + 1))
    ∧ ((s.collsOf axis).find? (fun x => decide (x.d = i)) = some c → i < 256 → ahead (cdDeadline c.desc) s.count ≤ 0 → c.left ≠ 0 →
        s.fld (CE.TIMEOUTS axis) + 1 < 2 ^ 16 → Gives (exec (.collDeadline axis i) s) (fun s' =>
          stopped s' c.d Status.COLL_TIMEOUT ∧ s'.fld (CE.TIMEOUTS axis) = s.fld (CE.TIMEOUTS axis) + 1))

/-- On a port in service (or, for frames and packets, quiescing): the next frame in order that decodes, checks and asks
for no resend, with low count bits that agree, advances the receiver, drops exactly the covered frames of the replay
buffer and adds its credits to one channel and subclass; a frame that fails, or one ahead of its turn, is answered
with NAK and moves nothing else of the port; a codeword that fails counts in FEC_FAIL (stated below 15 in the second);
a duplicate changes nothing. A replay timeout with frames waiting counts a resend and sends the whole replay buffer
again; the eighth in a row starts a fast retrain that keeps the buffer. An audit that agrees changes nothing, one that
differs resets the port. A packet with a failing header CRC is answered with NAK; a reply for the oldest recorded
request of this module, with nothing waiting for the record, clears the record and reaches its tile as data, as a
register value or as a refusal; a refusal WIN_CLOSED of a write also voids the credits for that target and window; a
reply that matches no record is counted as an orphan, and the credits of its buffer are owed to the sender; an
exchange write is queued at the tile it names, its core ready. A probe sets BF_DELAY to the mean of the last 16. Bad
data lanes with enough spares agree a swap; without them, with five lanes left, they narrow the link and it trains
fast (stated for a port without earlier faults); at the swap exactly as many spares take their place. (R342, R343,
R345, R347, R349, R350, R353, R356.) -/
def Obligations.LinkTraffic : Prop :=
  ∀ (port : Nat) (s : State), port < 8 →
    let q := s.port port
    let st := s.fld (BF.STATE port)
    let at_ := fun (s' : State) (v : Nat) => s'.fld (BF.STATE port) = v
    (∀ (header : BitVec 256) (corr : Bool), st = 8 ∨ st = 10 →
        let seq : BitVec 16 := header.extractLsb' 0 16
        let ack : BitVec 16 := header.extractLsb' 16 16
        let key := (header.extractLsb' 33 3).toNat * 2 + (header.extractLsb' 36 1).toNat
        (seq = q.rxSeq → header.getLsbD 32 = false → (s.bcn.holds = true → (header.extractLsb' 49 16).toNat = s.count.toNat % 2 ^ 16) →
          Gives (exec (.frameReceive port header true true corr) s) (fun s' =>
            (s'.port port).rxSeq = q.rxSeq + 1 ∧ (s'.port port).nakSent = false ∧ (s'.port port).acked = ack
            ∧ (s'.port port).replay = q.replay.filter (fun f => decide (2 ^ 15 ≤ (ack - f.header.extractLsb' 0 16).toNat)) ∧ (s'.port port).tx = q.tx
            ∧ (∀ k, Map.get 0 (s'.port port).credits k = Map.get 0 q.credits k + (if k = key then (header.extractLsb' 37 12).toNat else 0))
            ∧ (s'.port port).resends = if ack = q.acked then q.resends else 0))
        ∧ (seq ≠ q.rxSeq → 2 ^ 15 ≤ (q.rxSeq - seq).toNat → Gives (exec (.frameReceive port header true true corr) s) (fun s' =>
            s'.port port = { q with nakSent := true, nakDue := q.nakDue || !q.nakSent }))
        ∧ Gives (exec (.frameReceive port header true false corr) s) (fun s' => s'.port port = { q with nakSent := true, nakDue := q.nakDue || !q.nakSent })
        ∧ (Map.get 0 s.rel.fecSince port % 32 < 15 → s.fld (BF.FEC_FAIL port) + 1 < 2 ^ 12 →
            Gives (exec (.frameReceive port header false false corr) s) (fun s' => s'.port port = { q with nakSent := true, nakDue := q.nakDue || !q.nakSent }
              ∧ s'.fld (BF.FEC_FAIL port) = s.fld (BF.FEC_FAIL port) + 1))
        ∧ (seq ≠ q.rxSeq → (q.rxSeq - seq).toNat < 2 ^ 15 → exec (.frameReceive port header true true false) s = .next s))
    ∧ (st = 8 → q.replay ≠ [] → s.fld (BF.REPLAYS port) + 1 < 2 ^ 12 →
        (q.resends ≠ 7 → Gives (exec (.replayTimeout port) s) (fun s' => s'.port port = { q with resends := q.resends + 1, again := q.replay }
            ∧ s'.fld (BF.REPLAYS port) = s.fld (BF.REPLAYS port) + 1 ∧ at_ s' 8))
        ∧ (q.resends = 7 → Gives (exec (.replayTimeout port) s) (fun s' => at_ s' 3 ∧ s'.fld (BF.REPLAYS port) = s.fld (BF.REPLAYS port) + 1
            ∧ s'.port port = { q with fast := true, resends := 0 })))
    ∧ (∀ totals : List (Nat × BitVec 16), st = 8 →
        ((∀ e ∈ totals, Map.get 0 q.totals e.1 = e.2) → exec (.creditAudit port totals) s = .next s)
        ∧ ((∃ e ∈ totals, Map.get 0 q.totals e.1 ≠ e.2) → Gives (exec (.creditAudit port totals) s) (fun s' => at_ s' 3
            ∧ s'.fld (BF.EPOCH port) = (s.fld (BF.EPOCH port) + 1) % 2 ^ 16 ∧ (s'.port port).records = [] ∧ (s'.port port).tx = []
            ∧ (s'.port port).replay = [])))
    ∧ (∀ (header : BitVec 384) (bs : List (BitVec 8)), st = 8 ∨ st = 10 →
        let h := Hdr.decode header
        let run := exec (.packetArrival port header bs) s
        (hcrcOk header = false → Gives run (fun s' => s'.port port = { q with nakSent := true, nakDue := q.nakDue || !q.nakSent } ∧ s'.tiles = s.tiles ∧ s'.hbm = s.hbm))
        ∧ (hcrcOk header = true → h.halo = false → h.type = 2 ∨ h.type = 3 ∨ h.type = 4 → h.dst = s.coord →
            (∀ r rest, q.records = r :: rest → q.wait = [] → r.coord = h.dst → r.tile = h.dstTile → r.tag.toNat = h.tag →
              let mails := fun (l : List Msg) => Gives run (fun s' => (s'.port port).records = rest ∧ (s'.port port).wait = []
                ∧ (s'.tile h.dstTile).mail = (s.tile h.dstTile).mail ++ l ∧ ∀ t, t ≠ h.dstTile → s'.tile t = s.tile t)
              (∀ st d pc c l f, r.own = some (.load st d pc c l, f) → h.type ≠ 4 → mails [.load st d pc 0 bs])
              ∧ (∀ st rd v k f, r.own = some (.reply st rd v k, f) → h.type ≠ 4 → mails [.reply st rd (BitVec.ofNat 64 (ofBytes (bs.take 8))) k])
              ∧ (∀ st d pc c l m, r.own = some (m, .load st d pc c l) → h.type = 4 → mails [.load st d pc (BitVec.ofNat 16 h.status) []])
              ∧ (∀ dest target c dark m, r.own = some (m, .answer dest target c dark) → h.type = 4 →
                  mails (.answer dest target (BitVec.ofNat 16 h.status) dark :: (if BitVec.ofNat 16 h.status = Status.WIN_CLOSED then
                    [.winClosed (BitVec.ofNat 14 (moduleIndex s.shape h.src)) target r.win] else []))))
            ∧ ((∀ r ∈ q.records, r.coord ≠ h.dst ∨ r.tile ≠ h.dstTile ∨ r.tag.toNat ≠ h.tag) → s.fld (BF.ORPHANS port) + 1 < 2 ^ 8 →
                Gives run (fun s' => s'.fld (BF.ORPHANS port) = s.fld (BF.ORPHANS port) + 1 ∧ s'.tiles = s.tiles
                  ∧ (∀ p, p ≠ port → s'.port p = s.port p) ∧ (s'.port port).tx = q.tx ∧ (s'.port port).records = q.records
                  ∧ ∀ k, Map.get 0 (s'.port port).owed k = Map.get 0 q.owed k + (if k = (header.extractLsb' 4 3).toNat * 2 + (header.extractLsb' 7 1).toNat
                      then (48 + bs.length + 63) / 64 else 0))))
        ∧ (hcrcOk header = true → h.halo = false → h.type = 0 → h.vc = 2 → h.dst = s.coord → s.pwr.state = .p0 → h.dstTile < s.tileCount →
            (s.tile h.dstTile).fld TILE.CORE_READY = 1 → Gives run (fun s' =>
              (s'.tile h.dstTile).writes = (s.tile h.dstTile).writes ++ [{
                sender := .away h.dirs (BitVec.ofNat 24 h.src) ⟨h.srcTile, BitVec.ofNat 16 h.epoch, BitVec.ofNat 32 h.bcn⟩ (BitVec.ofNat 16 h.tag)
                win := h.win, gen := BitVec.ofNat 16 h.wgen, first := h.fslot, absolute := false, data := bs
                sstep := some (BitVec.ofNat 32 h.sstep) }]
              ∧ (∀ t, t ≠ h.dstTile → s'.tile t = s.tile t) ∧ (∀ t, (s'.tile t).spad = (s.tile t).spad))))
    ∧ (∀ rt ta : Nat, st = 8 → ta + 2880 ≤ rt →
        let ps := (((rt - ta) / 2 - 1440) :: q.probes).take 16
        ps.sum / ps.length < 2 ^ 16 → Gives (exec (.delayProbe port rt ta) s) (fun s' =>
          s'.fld (BF.DELAY port) = ps.sum / ps.length ∧ (s'.port port).probes = ps))
    ∧ (∀ (bad : BitVec 12) (seq : BitVec 16), st = 8 → q.swap = none →
        let hit := (maskLanes bad).filter (fun k => decide (s.lane port k = 0))
        let good := (List.range 12).filter (fun k => decide (s.lane port k ≠ 2) && !hit.contains k)
        hit ≠ [] →
        (hit.length ≤ (s.lanesIn port 1).length → Gives (exec (.laneErrorWindow port bad seq) s) (fun s' =>
            (∃ m, (s'.port port).swap = some (m, seq) ∧ ∀ k, k < 12 → m.getLsbD k = decide (k ∈ hit)) ∧ at_ s' 8
            ∧ ∀ k, k < 12 → s'.lane port k = s.lane port k))
        ∧ ((s.lanesIn port 1).length < hit.length → 5 ≤ good.length → (s.unit (portUnit port)).faults = [] → 2 ≤ s.policy NVM.FAULT_N →
            Gives (exec (.laneErrorWindow port bad seq) s) (fun s' => at_ s' 3 ∧ (s'.port port).halfWidth = true ∧ (s'.port port).fast = true
              ∧ (∀ k, k < 12 → s'.lane port k = if k ∈ hit then 2 else s.lane port k) ∧ (s'.unit (portUnit port)).faults = [s.utc])))
    ∧ (∀ m seq, q.swap = some (m, seq) → (maskLanes m).length ≤ (s.lanesIn port 1).length → (∀ k ∈ maskLanes m, s.lane port k = 0) →
        Gives (exec (.laneSwap port) s) (fun s' => (s'.port port).swap = none
          ∧ ∀ k, k < 12 → s'.lane port k = if k ∈ maskLanes m then 2
            else if k ∈ (s.lanesIn port 1).take (maskLanes m).length then 0 else s.lane port k))

/-- Training moves DETECT, EQUALISE, MAP, ALIGN, RANGE, IDENT, CREDIT, ACTIVE, a fast retrain passing over EQUALISE; MAP
takes ten good lanes, five where a half width is asked for or fewer passed, else goes back to DETECT; RANGE above 800
goes back; a state that takes too long goes back. An identity packet of LLVER 1 is kept, another version fails IDENT;
on ACTIVE the neighbour is stored, and where both ends are configured and its port is not the far port of a right
cable the port is fenced. A lost link, a port reset and the end of a quiesce answer every request recorded or waiting
and drop what the port held; loss and reset raise the epoch, the reset trains fast (a port that is off, fenced or has
left stays so), the loss from DETECT (without a leave notice it is charged as a fault: stated for a port without
earlier faults). A leave notice is noted; a fence notice ends the port as a Beacon source. QUIESCE drains a port in
service, leaves at once one that trains (its records answered), changes no port that a placed job's map uses, and ends
idle with one packet to send; clearing it trains an enabled port fully. A port that reaches ACTIVE with QUIESCE set
quiesces. The host's fence answers the records and stops the port; on a port fenced already it only sets FENCE; only
the host's own fence is lifted. RETRAIN starts a fast retrain, ENABLE starts or idles a port that is not fenced,
BF_SELF takes coordinate, shape and CFG where no job is placed and the module is on no board. (R349, R354, R355, R357,
R358, R359, R360, R361, R363, R364.) -/
def Obligations.LinkStates : Prop :=
  ∀ (port : Nat) (good : BitVec 12) (delay : BitVec 16) (ident : BitVec 256) (v : BitVec 64) (s : State), port < 8 →
    let q := s.port port
    let st := s.fld (BF.STATE port)
    let n := (maskLanes good).length
    let done := exec (.trainingStateDone port good delay) s
    let dest := fun (r : Result) (k : Nat) => Gives r (fun s' => s'.fld (BF.STATE port) = k ∧ (∀ p, p < 8 → p ≠ port → s'.fld (BF.STATE p) = s.fld (BF.STATE p))
      ∧ s'.tiles = s.tiles ∧ s'.hbm = s.hbm)
    let answered := fun (s' : State) (c : BitVec 16) => (s'.port port).records = [] ∧ (s'.port port).wait = []
      ∧ ∀ r m f, r ∈ q.records ∨ r ∈ q.wait.map (·.1) → r.own = some (m, f) → f.withStatus c ∈ (s'.tile r.tile).mail
    let emptied := fun (s' : State) => answered s' Status.DOMAIN_RESET ∧ (s'.port port).tx = [] ∧ (s'.port port).replay = []
      ∧ s'.fld (BF.EPOCH port) = (s.fld (BF.EPOCH port) + 1) % 2 ^ 16
    let used := ∃ j ∈ s.lh.jobs, s.self.toNat ∈ j.box ∧ neighbourOf s.shape s.coord port ≠ s.coord
      ∧ moduleIndex s.shape (neighbourOf s.shape s.coord port) ∈ j.box
    (st = 1 → 5 ≤ n → dest done (if q.fast then 3 else 2)) ∧ (st = 2 → dest done 3)
    ∧ (st = 3 → (10 ≤ n → q.halfWidth = false → dest done 4 ∧ Gives done (fun s' => s'.fld (BF.WIDTH port) = 10))
        ∧ (5 ≤ n → n < 10 ∨ q.halfWidth = true → dest done 4 ∧ Gives done (fun s' => s'.fld (BF.WIDTH port) = 5)) ∧ (n < 5 → dest done 1))
    ∧ (st = 4 → dest done 5) ∧ (st = 5 → 800 < delay.toNat → dest done 1)
    ∧ (st = 5 → delay.toNat ≤ 800 → dest done 6 ∧ Gives done (fun s' => s'.fld (BF.DELAY port) = delay.toNat))
    ∧ (st = 6 → q.identOk = true → dest done 7)
    ∧ (st = 7 → (s.fld BF.CFG = 0 ∨ q.neighbour.getLsbD 67 = false → Gives done (fun s' => s'.fld (BF.STATE port) = (if s.fld (BF.QUIESCE port) = 1 then 10 else 8) ∧ (s'.port port).known = true
          ∧ (s'.port port).serial = q.neighbour.extractLsb' 0 64
          ∧ (q.fast = false → (s'.port port).replay = [] ∧ (s'.port port).rxSeq = 0 ∧ (s'.port port).txSeq = 0)))
        ∧ (s.fld BF.CFG = 1 → q.neighbour.getLsbD 67 = true →
            (q.neighbour.extractLsb' 64 3).toNat ≠ (if port % 2 = 0 then port + 1 else port - 1) →
            Gives done (fun s' => s'.fld (BF.STATE port) = 9 ∧ s'.fld (BF.FENCE_WHY port) = 3)))
    ∧ (2 ≤ st → st ≤ 7 → dest (exec (.trainingStateTimeout port) s) 1)
    ∧ (s.awake = true → s.fld (BF.ENABLE port) = 1 → st ≤ 1 → dest (exec (.detectRetry port good) s) (if 5 ≤ n then 2 else 1))
    ∧ (st = 6 → ((ident.extractLsb' 136 8).toNat = 1 → s.fld BF.CFG = 0 ∨ ident.getLsbD 67 = false → dest (exec (.identityPacket port ident) s) 6
          ∧ Gives (exec (.identityPacket port ident) s) (fun s' => (s'.port port).neighbour = ident ∧ (s'.port port).identOk = true))
        ∧ ((ident.extractLsb' 136 8).toNat ≠ 1 → dest (exec (.identityPacket port ident) s) 1))
    ∧ (st = 8 ∨ st = 10 →
        let lost := fun (s' : State) => emptied s' ∧ s'.fld (BF.STATE port) = 1 ∧ ∀ e ∈ s'.bcn.sources, e.port ≠ port
        (q.left = true → Gives (exec (.linkLoss port) s) (fun s' => lost s' ∧ s'.unit (portUnit port) = s.unit (portUnit port)))
        ∧ (q.left = false → (s.unit (portUnit port)).faults = [] → 2 ≤ s.policy NVM.FAULT_N →
            Gives (exec (.linkLoss port) s) (fun s' => lost s' ∧ (s'.unit (portUnit port)).faults = [s.utc])))
    ∧ (s.awake = true → Gives (exec (.portReset port) s) (fun s' => emptied s' ∧ s'.fld (BF.STATE port) = (if st = 0 ∨ st = 9 ∨ st = 11 then st else 3)
        ∧ (s'.port port).inReset = true ∧ (s'.port port).fast = true ∧ (s'.port port).resetAt = s.count))
    ∧ (q.inReset = true → dest (exec (.portReady port) s) (if s.fld (BF.ENABLE port) = 1 ∧ st < 8 then 1 else st)
        ∧ Gives (exec (.portReady port) s) (fun s' => s'.port port = { q with inReset := false }))
    ∧ (st = 8 → Gives (exec (.leaveNotice port) s) (fun s' => s'.port port = { q with left := true } ∧ s'.fld (BF.STATE port) = 8)
        ∧ Gives (exec (.fenceNotice port) s) (fun s' => s'.port port = { q with farFenced := true }
            ∧ s'.bcn.sources = s.bcn.sources.filter (fun e => decide (e.port ≠ port))))
    ∧ (s.awake = true → (¬ used → (st = 8 ∨ 9 ≤ st → dest (exec (.portQuiesce port) s) (if st = 8 then 10 else st))
          ∧ (st < 8 → Gives (exec (.portQuiesce port) s) (fun s' => answered s' Status.LINK_DOWN ∧ s'.fld (BF.STATE port) = 11))
          ∧ Gives (exec (.portQuiesce port) s) (fun s' => s'.fld (BF.QUIESCE port) = 1))
        ∧ (used → dest (exec (.portQuiesce port) s) st
          ∧ Gives (exec (.portQuiesce port) s) (fun s' => s'.fld (BF.QUIESCE port) = s.fld (BF.QUIESCE port) ∧ s'.ports = s.ports)))
    ∧ (st = 10 → Gives (exec (.quiesceDrainEnd port) s) (fun s' => answered s' Status.LINK_DOWN ∧ s'.fld (BF.STATE port) = 11
        ∧ (s'.port port).tx.length = 1 ∧ (s'.port port).replay = []))
    ∧ (s.awake = true → dest (exec (.portUnquiesce port) s) (if st = 10 ∨ st = 11 then (if s.fld (BF.ENABLE port) = 1 then 1 else 0) else st)
        ∧ Gives (exec (.portUnquiesce port) s) (fun s' => s'.fld (BF.QUIESCE port) = 0))
    ∧ (s.awake = true → (st ≠ 9 → Gives (exec (.portFence port) s) (fun s' => answered s' Status.PORT_FENCED ∧ s'.fld (BF.STATE port) = 9
          ∧ s'.fld (BF.FENCE_WHY port) = 1 ∧ s'.fld (BF.FENCE port) = 1 ∧ (s'.port port).replay = [] ∧ ∀ e ∈ s'.bcn.sources, e.port ≠ port))
        ∧ (st = 9 → dest (exec (.portFence port) s) 9 ∧ Gives (exec (.portFence port) s) (fun s' => s'.fld (BF.FENCE port) = 1 ∧ s'.ports = s.ports)))
    ∧ (s.awake = true → dest (exec (.portUnfence port) s) (if st = 9 ∧ s.fld (BF.FENCE_WHY port) = 1 then (if s.fld (BF.ENABLE port) = 1 then 1 else 0) else st)
        ∧ Gives (exec (.portUnfence port) s) (fun s' => s'.fld (BF.FENCE port) = 0))
    ∧ (s.awake = true → st = 8 → dest (exec (.portRetrain port) s) 3
        ∧ Gives (exec (.portRetrain port) s) (fun s' => s'.port port = { q with fast := true, resends := 0 }))
    ∧ (s.awake = true → (st = 0 → dest (exec (.portEnable port true) s) 1 ∧ Gives (exec (.portEnable port true) s) (fun s' => s'.fld (BF.ENABLE port) = 1))
        ∧ (st ≠ 9 → Gives (exec (.portEnable port false) s) (fun s' => answered s' Status.LINK_DOWN ∧ s'.fld (BF.STATE port) = 0
            ∧ s'.fld (BF.ENABLE port) = 0 ∧ (s'.port port).tx = [])))
    ∧ (s.awake = true → (∀ j ∈ s.lh.jobs, s.self.toNat ∉ j.box) → s.fld BCN.BOARD = 0 →
        (∀ a, a < 4 → coordOf (bits v.toNat 0 24) a < axisSize (bits v.toNat 24 28) a) →
        ([0, 1, 2, 3].map (axisSize (bits v.toNat 24 28))).foldl (· * ·) 1 ≤ 10240 →
        Gives (exec (.bfSelfWrite v) s) (fun s' => s'.coord = bits v.toNat 0 24 ∧ s'.shape = bits v.toNat 24 28 ∧ s'.fld BF.CFG = bits v.toNat 52 1))

/-- In a power state with the module awake: a doorbell of an enabled ring below its size sets TAIL, or HEAD up to the
completion tail; another sets DOORBELL_RANGE and LAST_RING only. Each reset disables the rings and holds their
entries; operations and machine stay (no copy running). Enabling a ring with fields in range empties it with phase 1;
a write that only clears ENABLE disables it; one that changes COAL_US of an enabled ring is refused. A relay entry
takes a write unless it is valid with live commands, or the new module is out of range, its own, or named twice. An
unoccupied offset only raises UNMAPPED. A fetch reads up to 8 descriptors of the next latency-critical ring in
rotation, or where none waits up to its share of the best-effort ring being visited; at 8,192 outstanding it is held.
A start turns a descriptor away while READY is 0, and one that passes the checks starts, is scheduled with fewer than
256 pending events, or joins the relay queue; FENCE waits for the ring's started and relayed ones. The oldest entry
with room is written in the layout of R401 at the tail, the phase turning at the wrap. An interrupt writes its message
or stays pending under its mask. A memory error stops the ring. A relayed descriptor leaves with its ring through its
port, an arrived one joins its gateway ring's, a kept entry is sent; losing a path raises RELAY_LOST to events and to
a live long command, regaining it raises its event. (R16, R395, R396, R397, R398, R400, R401, R403, R404, R415, R418,
R420.) -/
def Obligations.HostInterface : Prop :=
  ∀ (n k offset : Nat) (value : BitVec 32) (cfg : BitVec 64) (w : Bool) (s : State), s.awake = true → n < 64 → k < 64 →
    let r := s.ring n
    let v := value.toNat
    let on := s.fld (HIF.ENABLE n) = 1
    let sq := 2 ^ s.fld (HIF.SQ_LOG2 n)
    let cq := 2 ^ s.fld (HIF.CQ_LOG2 n)
    let tail := s.fld (HIF.CQ_TAIL n)
    let only := fun (s' : State) => (∀ j, j ≠ n → s'.ring j = s.ring j) ∧ s'.tiles = s.tiles ∧ s'.hbm = s.hbm ∧ s'.lh = s.lh
    let bad := fun (s' : State) => s'.fld HIF.DOORBELL_RANGE = 1 ∧ s'.fld HIF.LAST_RING = n ∧ s'.hif = s.hif ∧ s'.tiles = s.tiles ∧ s'.hbm = s.hbm
    let headOk := on ∧ v < cq ∧ v < 2 ^ 16 ∧ (v + cq - r.head) % cq ≤ (tail + cq - r.head) % cq
    let cleared := fun (s' : State) => (∀ j, j < 64 → s'.fld (HIF.ENABLE j) = 0 ∧ s'.fld (HIF.RSTATE j) = 0) ∧ s'.fld HIF.EV_ENABLE = 0
      ∧ s'.fld HIF.RING_STOPPED = 0 ∧ (∀ e ∈ s'.hif.backlog, e.held = true) ∧ s'.hif.backlog.length = s.hif.backlog.length
      ∧ s'.hif.ops = s.hif.ops ∧ s'.hif.started = s.hif.started ∧ s'.hif.mem = s.hif.mem ∧ s'.tiles = s.tiles ∧ s'.hbm = s.hbm ∧ s'.lh = s.lh
    let noCopy := ∀ o ∈ s.hif.ops, o.state = 1 → cOpc o.desc ≠ 0x10 ∧ cOpc o.desc ≠ 0x11
    let inRange := 4 ≤ bits cfg.toNat 1 5 ∧ bits cfg.toNat 1 5 ≤ 16 ∧ 4 ≤ bits cfg.toNat 6 5 ∧ bits cfg.toNat 6 5 ≤ 16 ∧ 1 ≤ bits cfg.toNat 12 8
    let last := fun (s' : State) (c : BitVec 16) => ∃ b e, s'.hif.backlog = b ++ [e] ∧ e.status = c ∧ e.event = true
    let queues := fun (s' : State) => (s'.hif.relayQueue, s'.hif.relayed, s'.hif.relayIn, s'.hif.relayKeep)
    let live := (s.hif.relayQueue ++ s.hif.relayed).filter (fun e => decide (cModule e.2 = s.fld (HIF.RMODULE k)))
    let waits := fun (j : Nat) => ((s.ring j).tail + 2 ^ s.fld (HIF.SQ_LOG2 j) - s.fld (HIF.SQ_HEAD j)) % 2 ^ s.fld (HIF.SQ_LOG2 j)
    let may := fun (j : Nat) => s.fld (HIF.ENABLE j) = 1 ∧ s.fld (HIF.RSTATE j) = 1 ∧ 0 < waits j
      ∧ ∀ e ∈ s.hif.backlog, (if e.zero then 0 else e.ring) ≠ j
    let quick := fun (j : Nat) => j = 0 ∨ s.fld (HIF.CLASS j) = 0
    let burst := fun (m : Nat) (s' : State) => s'.fld (HIF.SQ_HEAD n) = (s.fld (HIF.SQ_HEAD n) + m) % sq ∧ s'.fld (HIF.FETCHED n) = s.fld (HIF.FETCHED n) + m
      ∧ (s'.ring n).fetched = r.fetched ++ (List.range m).map (fun i => BitVec.ofNat 512 (ofBytes (s.hostRead
          (s.fld (HIF.SQ_BASE n) * 4096 + 64 * ((s.fld (HIF.SQ_HEAD n) + i) % sq)) 64)))
      ∧ only s' ∧ s'.hif.mem = s.hif.mem
    let roomy := s.outstanding < 8192 ∧ s.fld (HIF.SQ_LOG2 n) ≤ 16 ∧ s.fld (HIF.FETCHED n) + 8 < 2 ^ 48
    (on → v < sq → v < 2 ^ 16 → Gives (exec (.sqTailDoorbell n value) s) (fun s' => s'.ring n = { r with tail := v } ∧ s'.regs = s.regs ∧ only s'))
    ∧ (¬ (on ∧ v < sq ∧ v < 2 ^ 16) → Gives (exec (.sqTailDoorbell n value) s) bad)
    ∧ (headOk → Gives (exec (.cqHeadDoorbell n value) s) (fun s' => s'.ring n = { r with head := v } ∧ s'.regs = s.regs ∧ only s'))
    ∧ (¬ headOk → Gives (exec (.cqHeadDoorbell n value) s) bad)
    ∧ (noCopy → Gives (exec .hifReset s) cleared ∧ Gives (exec .functionLevelReset s) cleared
        ∧ Gives (exec .conventionalReset s) (fun s' => cleared s' ∧ s'.pwr = { s.pwr with perst := true }))
    ∧ (s.fld (HIF.ENABLE n) = 0 → inRange → Gives (exec (.ringEnable n cfg) s) (fun s' => s'.fld (HIF.ENABLE n) = 1 ∧ s'.fld (HIF.RSTATE n) = 1
          ∧ s'.fld (HIF.SQ_HEAD n) = 0 ∧ s'.fld (HIF.CQ_TAIL n) = 0 ∧ s'.fld (HIF.CQ_PHASE n) = 1 ∧ s'.fld (HIF.SQ_LOG2 n) = bits cfg.toNat 1 5
          ∧ s'.fld (HIF.CQ_LOG2 n) = bits cfg.toNat 6 5 ∧ (s'.ring n).tail = 0 ∧ (s'.ring n).head = 0 ∧ only s'))
    ∧ (on → bits cfg.toNat 1 43 = bits (s.rd (HIF.ENABLE n).off).toNat 1 43 → inRange → Gives (exec (.ringDisable n cfg) s) (fun s' =>
          s'.fld (HIF.ENABLE n) = 0 ∧ s'.fld (HIF.RSTATE n) = 0 ∧ s'.fld (HIF.SQ_LOG2 n) = s.fld (HIF.SQ_LOG2 n) ∧ s'.hif.started = s.hif.started
          ∧ s'.hif.ops = s.hif.ops ∧ (∀ e ∈ s'.hif.backlog, e.zero = false → e.ring = n → e.held = true) ∧ only s'))
    ∧ (on → bits cfg.toNat 34 10 ≠ s.fld (HIF.COAL_US n) → Gives (exec (.ringEnable n cfg) s) (fun s' => s'.fld HIF.CFG_VALUE = 1
          ∧ s'.fld (HIF.COAL_US n) = s.fld (HIF.COAL_US n) ∧ s'.fld (HIF.ENABLE n) = 1 ∧ only s'))
    ∧ (k ≠ 0 → s.fld (HIF.RVALID k) = 0 ∨ live = [] →
        let m := bits cfg.toNat 0 14
        let size := axisSize s.shape 0 * axisSize s.shape 1 * axisSize s.shape 2 * axisSize s.shape 3
        let twice := m = s.self.toNat ∨ ∃ j, 0 < j ∧ j < 64 ∧ j ≠ k ∧ s.fld (HIF.RVALID j) = 1 ∧ s.fld (HIF.RMODULE j) = m
        (cfg.getLsbD 14 = false → Gives (exec (.relayTableWrite k cfg) s) (fun s' =>
          s'.fld (HIF.RVALID k) = 0 ∧ s'.fld (HIF.REACHABLE k) = 0 ∧ s'.fld (HIF.RMODULE k) = m ∧ s'.hif = s.hif))
        ∧ (cfg.getLsbD 14 = true → m < size → ¬ twice → Gives (exec (.relayTableWrite k cfg) s) (fun s' => s'.fld (HIF.RVALID k) = 1
          ∧ s'.fld (HIF.RMODULE k) = m ∧ s'.fld HIF.RELAY_ACTIVE = 1 ∧ s'.hif = s.hif))
        ∧ (cfg.getLsbD 14 = true → size ≤ m ∨ twice → Gives (exec (.relayTableWrite k cfg) s) (fun s' => s'.fld HIF.CFG_VALUE = 1
          ∧ s'.fld (HIF.RVALID k) = s.fld (HIF.RVALID k) ∧ s'.fld (HIF.RMODULE k) = s.fld (HIF.RMODULE k))))
    ∧ (k ≠ 0 → s.fld (HIF.RVALID k) = 1 → live ≠ [] → Gives (exec (.relayTableWrite k cfg) s) (fun s' =>
          s'.fld HIF.CFG_VALUE = 1 ∧ s'.fld (HIF.RVALID k) = 1 ∧ s'.fld (HIF.RMODULE k) = s.fld (HIF.RMODULE k)))
    ∧ (modFields (canonical offset) = none → Gives (exec (.unmappedAccess offset w) s) (fun s' => s' = s.setFld HIF.UNMAPPED 1))
    ∧ (roomy → may n → quick n → (∃ d, d < 64 ∧ n = (s.hif.latency + d) % 64
          ∧ ∀ i, i < d → ¬ (quick ((s.hif.latency + i) % 64) ∧ may ((s.hif.latency + i) % 64))) →
        Gives (exec .fetchBurst s) (fun s' => burst (min 8 (min (waits n) (8192 - s.outstanding))) s' ∧ s'.hif.latency = (n + 1) % 64))
    ∧ (roomy → may n → ¬ quick n → s.hif.visit = n → 0 < r.share → (∀ j, j < 64 → ¬ (quick j ∧ may j)) →
        let m := min (min 8 r.share) (min (waits n) (8192 - s.outstanding))
        Gives (exec .fetchBurst s) (fun s' => burst m s' ∧ (s'.ring n).share = r.share - m ∧ s'.hif.visit = n))
    ∧ (8192 ≤ s.outstanding → may n → Gives (exec .fetchBurst s) (fun s' => s'.fld HIF.FETCH_HELD = 1 ∧ s'.hif = s.hif))
    ∧ (∀ d rest, r.fetched = d :: rest →
        let go := exec (.descriptorStart n) s
        let accepted := fun (s' : State) => (s'.ring n).fetched = rest ∧ s'.hif.started = s.hif.started ++ [⟨n, d, false⟩] ∧ only s'
          ∧ (longOpc (cOpc d) = true → ∃ o, s'.hif.ops = s.hif.ops ++ [o] ∧ o.tag = cTag d ∧ o.desc = d ∧ o.state = 0)
        let here := cVia d = false ∨ cModule d = s.self.toNat
        (cFence d = false → s.fld HIF.READY = 0 → cOpc d ≠ 0x50 → Gives go (fun s' => (s'.ring n).fetched = rest
            ∧ s'.hif.started = s.hif.started ∧ s'.hif.ops = s.hif.ops ∧ only s'
            ∧ ∃ e, s'.hif.backlog = s.hif.backlog ++ [e] ∧ e.status = Status.HOST_NOT_READY ∧ e.cid = cCid d ∧ e.ring = n ∧ e.interim = false))
        ∧ (cFence d = false → Startable n d s → here → cSched d = false → Gives go (fun s' => accepted s' ∧ s'.bcn = s.bcn))
        ∧ (cFence d = false → Startable n d s → here → cSched d = true → s.fld BCN.STATE ≠ 5 → s.pendingEvents < 256 →
            0 < ahead (cBcn d) s.count → ahead (cBcn d) s.count ≤ 2 ^ 31 → Gives go (fun s' => accepted s'
              ∧ s'.bcn.schedule = s.bcn.schedule ++ [⟨cBcn d, n, d⟩]))
        ∧ (cFence d = false → Startable n d s → cVia d = true → cModule d ≠ s.self.toNat →
            (∃ j, 0 < j ∧ j < 64 ∧ s.fld (HIF.RVALID j) = 1 ∧ s.fld (HIF.RMODULE j) = cModule d ∧ s.fld (HIF.REACHABLE j) = 1
              ∧ ∀ i, 0 < i → i < j → ¬ (s.fld (HIF.RVALID i) = 1 ∧ s.fld (HIF.RMODULE i) = cModule d)) → Gives go (fun s' =>
              (s'.ring n).fetched = rest ∧ s'.hif.relayQueue = s.hif.relayQueue ++ [(n, d)] ∧ s'.hif.started = s.hif.started ∧ only s'))
        ∧ (cFence d = true → (∃ x ∈ s.hif.started, x.ring = n) ∨ (∃ x ∈ s.hif.relayQueue ++ s.hif.relayed, x.1 = n) → go = .next s))
    ∧ (∀ e rest, s.hif.backlog = e :: rest → e.held = false → (if e.zero then 0 else e.ring) = n → on → s.fld (HIF.RSTATE n) = 1 →
        s.fld (HIF.CQ_LOG2 n) ≤ 16 → (tail + 1) % cq ≠ r.head → Memory.wf s.hif.mem = true → Gives (exec .completionWrite s) (fun s' =>
          let a := s.fld (HIF.CQ_BASE n) * 4096 + 32 * tail
          let x := ofBytes (s'.hostRead a 32)
          bits x 0 16 = e.cid.toNat ∧ bits x 16 16 = e.status.toNat ∧ bits x 32 16 = s.fld (HIF.SQ_HEAD e.ring) ∧ bits x 48 6 = e.ring % 64
          ∧ bits x 54 1 = ofBool e.event ∧ bits x 55 1 = ofBool e.interim ∧ bits x 63 1 = s.fld (HIF.CQ_PHASE n) ∧ bits x 64 64 = e.tag.toNat
          ∧ bits x 128 64 = e.result.toNat ∧ bits x 192 14 = e.module.toNat ∧ bits x 208 32 = e.bcn.toNat
          ∧ (∀ y, y < a ∨ a + 32 ≤ y → Map.get 0 s'.hif.mem y = Map.get 0 s.hif.mem y)
          ∧ s'.fld (HIF.CQ_TAIL n) = (tail + 1) % cq ∧ s'.hif.backlog = rest ∧ only s'
          ∧ s'.fld (HIF.CQ_PHASE n) = if (tail + 1) % cq = 0 then 1 - s.fld (HIF.CQ_PHASE n) else s.fld (HIF.CQ_PHASE n)))
    ∧ (r.coal ≠ 0 → s.fld (HIF.COAL_N n) ≠ 0 → (s.fld (HIF.COAL_N n) ≤ r.coal ∨ s.fld (HIF.COAL_US n) ≠ 0) →
        let x := s.fld (HIF.VECTOR n)
        let a := s.fld (HIF.MSIX_ADDR x)
        (s.fld (HIF.MSIX_MASK x) = 1 → Gives (exec (.msixInterrupt n) s) (fun s' => s'.fld (HIF.PBA x) = 1 ∧ s'.hif.mem = s.hif.mem
            ∧ s'.ring n = { r with coal := 0 } ∧ only s'))
        ∧ (s.fld (HIF.MSIX_MASK x) = 0 → Memory.wf s.hif.mem = true → Gives (exec (.msixInterrupt n) s) (fun s' => s'.fld (HIF.PBA x) = 0
            ∧ s'.hostRead a 4 = bytesOf (s.fld (HIF.MSIX_DATA x)) 4 ∧ (∀ y, y < a ∨ a + 4 ≤ y → Map.get 0 s'.hif.mem y = Map.get 0 s.hif.mem y)
            ∧ s'.ring n = { r with coal := 0 } ∧ only s')))
    ∧ (s.fld (HIF.RSTATE n) = 1 → s.fld HIF.EV_ENABLE = 1 → Gives (exec (.hostMemoryError n) s) (fun s' => s'.fld (HIF.RSTATE n) = 2
          ∧ s'.fld HIF.RING_STOPPED = 1 ∧ s'.fld HIF.HOST_DMA = 1 ∧ s'.fld HIF.LAST_RING = n ∧ (∀ j, j < 64 → j ≠ n → s'.fld (HIF.RSTATE j) = s.fld (HIF.RSTATE j))
          ∧ last s' Status.HOST_DMA_ERROR ∧ s'.hif.mem = s.hif.mem ∧ only s'))
    ∧ (∀ ring d rest p, s.hif.relayQueue = (ring, d) :: rest → s.hif.relayIn = [] → s.hif.relayKeep = [] →
        requestPort s.shape s.coord (moduleCoord s.shape (cModule d)) = some p → s.portRefuses p = 0 → (s.port p).records.length < 4096 →
        Gives (exec .relayForward s) (fun s' => queues s' = (rest, s.hif.relayed ++ [(ring, d)], [], []) ∧ s'.tiles = s.tiles ∧ s'.hbm = s.hbm
          ∧ ∃ x, (s'.port p).tx = (s.port p).tx ++ [x] ∧ x.payload = bytesOf d.toNat 64 ++ bytesOf ring 8 ∧ (Hdr.decode x.header).type = 9))
    ∧ (∀ coord ring d rest j, s.hif.relayQueue = [] → s.hif.relayIn = (coord, ring, d) :: rest → s.hif.relayKeep = [] →
        s.hif.gateways.find? (fun e => decide (e.2 = (coord, ring))) = some (j, coord, ring) → Gives (exec .relayForward s) (fun s' =>
          (s'.ring j).fetched = (s.ring j).fetched ++ [d] ∧ queues s' = ([], s.hif.relayed, rest, []) ∧ s'.ports = s.ports))
    ∧ (∀ coord e rest p, s.hif.relayQueue = [] → s.hif.relayIn = [] → s.hif.relayKeep = (coord, e) :: rest → s.hif.relaySent = none →
        requestPort s.shape s.coord coord.toNat = some p → s.portRefuses p = 0 → (s.port p).records.length < 4096 →
        Gives (exec .relayForward s) (fun s' => queues s' = ([], s.hif.relayed, [], (coord, e) :: rest) ∧ s'.hif.relaySent = some (p, (s.port p).nextTag) ∧ s'.tiles = s.tiles
          ∧ ∃ x, (s'.port p).tx = (s.port p).tx ++ [x] ∧ x.payload.length = 32 ∧ (Hdr.decode x.header).type = 9))
    ∧ (k ≠ 0 → s.fld (HIF.RVALID k) = 1 → s.fld (HIF.REACHABLE k) = 1 →
        (live = [] → s.fld HIF.EV_ENABLE = 1 → Gives (exec (.relayPathLoss k) s) (fun s' => s'.fld (HIF.REACHABLE k) = 0
            ∧ last s' Status.RELAY_LOST ∧ s'.hif.relayed = s.hif.relayed))
        ∧ (∀ ring d, live = [(ring, d)] → longOpc (cOpc d) = true → s.hif.backlog = [] → Gives (exec (.relayPathLoss k) s) (fun s' =>
            s'.fld (HIF.REACHABLE k) = 0 ∧ s'.hif.relayed = s.hif.relayed ∧ ∃ b e, s'.hif.backlog = b ++ [e] ∧ e.interim = true
            ∧ e.status = Status.RELAY_LOST ∧ e.tag = cTag d ∧ e.ring = ring)))
    ∧ (k ≠ 0 → s.fld (HIF.RVALID k) = 1 → s.fld (HIF.REACHABLE k) = 0 → s.fld HIF.EV_ENABLE = 1 → Gives (exec (.relayPathRegain k) s) (fun s' =>
          s'.fld (HIF.REACHABLE k) = 1 ∧ last s' 0 ∧ s'.hif.relayed = s.hif.relayed ∧ s'.tiles = s.tiles))

/-- A host command not started before that a check of R400 or R408 refuses ends with its status and changes no tile, HBM,
register, host byte or operation; one whose descriptor is another command's changes nothing. Else NOP ends with 0,
silently under NOCPL; IDENTIFY and ATTEST write their fields, STEP_RECORDS and AFTERGLOW_READ their records, and no
byte outside (ATTEST with an unreadable factory or key page writes nothing and ends with NVM_UE); REG_READ returns the
register, REG_WRITE writes HBM_LIT under its mask, outside the register space both end with ADDR_DENIED. A register
write of EV_ENABLE sets it, of SRAM bytes changes those bytes, of another size only sets UNMAPPED. A copy of plain
bytes in HBM runs with nothing moved, one without length ends with HIF_DESC; at its completion, for bytes of one block
that is reachable, ready, idle and without errors, they have moved and no other byte changed. A batch waits for its
slot and is staged there within one block. NVM_STORE takes the staged words, one that loosens the policy without
presence ends with SEC_PRESENCE, a discard restores the committed ones; its end makes the words current. An image that
passes every check of R502 waits with its fields; a wrong magic ends with HIF_DESC, an old SVN with SEC_ROLLBACK. The
first accepted image, with no unit permanent and no boot event, starts the module. (R16, R26, R400, R406, R407, R408,
R441, R487, R494, R502, R503, R507.) -/
def Obligations.HostCommands : Prop :=
  ∀ (ring size offset : Nat) (value index : BitVec 64) (d : BitVec 512) (s : State), s.awake = true → ring < 64 →
    let fresh := ∀ x ∈ s.hif.started, ¬ (x.ring = ring ∧ x.desc = d)
    let runs := fun (c : Nat) => fresh ∧ cOpc d = c ∧ Startable ring d s ∧ cNocpl d = false
    let keeps := fun (s' : State) => s'.tiles = s.tiles ∧ s'.hbm = s.hbm ∧ s'.lh = s.lh
    let same := fun (s' : State) => s'.regs = s.regs ∧ s'.hif.mem = s.hif.mem
    let ends := fun (s' : State) (c : BitVec 16) (res : BitVec 64 → Prop) => s'.hif.started = s.hif.started ∧ ∃ b e, s'.hif.backlog = b ++ [e]
      ∧ e.ring = ring ∧ e.cid = cCid d ∧ e.tag = cTag d ∧ e.status = c ∧ e.interim = false ∧ e.event = false ∧ res e.result
    let any := fun (_ : BitVec 64) => True
    let haddr := cArg d 192 64
    let outside := fun (s' : State) (a n : Nat) => ∀ x, x < a ∨ a + n ≤ x → Map.get 0 s'.hif.mem x = Map.get 0 s.hif.mem x
    let memAt := fun (s' : State) (a : Nat) (bs : List (BitVec 8)) => s'.hostRead a bs.length = bs ∧ outside s' a bs.length
    let word := fun (s' : State) (o : Nat) => s'.hostRead (haddr + o) 8
    let sound := Memory.wf s.hif.mem = true
    let commands : List (Nat × Instr) := [(0x00, .nopCmd ring d), (0x01, .identify ring d), (0x02, .regRead ring d), (0x03, .regWrite ring d),
      (0x04, .stepRecords ring d), (0x10, .copyIn ring d), (0x11, .copyOut ring d), (0x12, .batchPost ring d), (0x20, .jobPlace ring d),
      (0x21, .suspend ring d), (0x22, .resume ring d), (0x23, .cancel ring d), (0x24, .opQuery ring d), (0x25, .reshard ring d),
      (0x26, .checkpoint ring d), (0x27, .ctxSave ring d), (0x40, .pwrReq ring d), (0x50, .fwLoad ring d), (0x51, .attest ring d),
      (0x52, .nvmStore ring d), (0x60, .afterglowRead ring d)]
    let refused := fun (st : BitVec 16) => ∀ c ∈ commands, cOpc d = c.1 → fresh → Gives (exec c.2 s) (fun s' => ends s' st any ∧ keeps s'
        ∧ same s' ∧ s'.hif.ops = s.hif.ops ∧ s'.nl = s.nl ∧ s'.pwr = s.pwr)
    let booted := s.fld HIF.READY = 1 ∨ cOpc d = 0x50
    (s.fld HIF.READY = 0 → cOpc d ≠ 0x50 → refused Status.HOST_NOT_READY)
    ∧ (booted → ¬ Formed d → refused Status.HIF_DESC)
    ∧ (booted → Formed d → adminOpc (cOpc d) = true → ring ≠ 0 → refused Status.ADMIN_ONLY)
    ∧ (booted → Formed d → (adminOpc (cOpc d) = true → ring = 0) → longOpc (cOpc d) = true →
        (cTag d ∈ s.liveTags → refused Status.OP_TAG_BUSY) ∧ (cTag d ∉ s.liveTags → 4096 ≤ s.liveTags.length → refused Status.OPS_LIMIT))
    ∧ (∀ c ∈ commands, cOpc d ≠ c.1 → exec c.2 s = .next s)
    ∧ (runs 0x00 → Gives (exec (.nopCmd ring d) s) (fun s' => ends s' 0 any ∧ keeps s' ∧ same s'))
    ∧ (fresh → cOpc d = 0x00 → Startable ring d s → cNocpl d = true → Gives (exec (.nopCmd ring d) s) (fun s' =>
        s'.hif.started = s.hif.started ∧ s'.hif.backlog = s.hif.backlog ∧ keeps s' ∧ same s'))
    ∧ (runs 0x01 → haddr % 4096 = 0 → sound → Gives (exec (.identify ring d) s) (fun s' => word s' 0 = bytesOf (s.readMod 0).toNat 8
        ∧ word s' 8 = bytesOf (s.readMod 8).toNat 8 ∧ word s' 16 = bytesOf (s.readMod (bfBase 0 + 0x8_0000)).toNat 8
        ∧ (∀ k, k < 64 → word s' (24 + 8 * k) = bytesOf (s.readMod (0x2000 + 8 * k)).toNat 8) ∧ word s' 536 = bytesOf s.nl.version.toNat 8
        ∧ s'.hostRead (haddr + 544) 32 = bytesOf (shakeDigest Config.identityKey).toNat 32
        ∧ outside s' haddr 4096 ∧ ends s' 0 any ∧ keeps s'))
    ∧ (runs 0x01 → haddr % 4096 ≠ 0 → Gives (exec (.identify ring d) s) (fun s' => ends s' Status.HIF_DESC any ∧ keeps s' ∧ same s'))
    ∧ (let a := cArg d 192 48; let off := a - 0x2000_0000_0000
       (runs 0x02 → a % 8 = 0 → 0x2000_0000_0000 ≤ a → hbmBase 0 ≤ off → off < 0x2C0_0000 → modFields (canonical off) ≠ none →
          Gives (exec (.regRead ring d) s) (fun s' => ends s' 0 (fun r => r = s.readMod off) ∧ keeps s' ∧ same s'))
       ∧ (a % 8 = 0 → (a < 0x2000_0000_0000 ∨ off < hbmBase 0 ∨ 0x2C0_0000 ≤ off) →
          (runs 0x02 → Gives (exec (.regRead ring d) s) (fun s' => ends s' Status.ADDR_DENIED any ∧ keeps s' ∧ same s'))
          ∧ (runs 0x03 → Gives (exec (.regWrite ring d) s) (fun s' => ends s' Status.ADDR_DENIED any ∧ keeps s' ∧ same s')))
       ∧ (runs 0x03 → 0x2000_0000_0000 ≤ a → off = HBM.LIT.off → Gives (exec (.regWrite ring d) s) (fun s' =>
          s'.fld HBM.LIT = (bits (cArg d 256 64) 0 24 &&& bits (cArg d 320 64) 0 24) ||| (s.fld HBM.LIT &&& (2 ^ 24 - 1 - bits (cArg d 320 64) 0 24))
          ∧ ends s' 0 (fun r => r = s'.readMod off) ∧ keeps s')))
    ∧ (bits value.toNat 1 1 = 0 → Gives (exec (.registerWrite 0x18 8 value) s) (fun s' => s'.fld HIF.EV_ENABLE = bits value.toNat 0 1
        ∧ keeps s' ∧ s'.hif = s.hif))
    ∧ (size ≤ 8 → offset + size ≤ 0x80_0000 → Gives (exec (.registerWrite (sramBase + offset) size value) s) (fun s' =>
        (∀ i, s'.sramByte (offset + i) = if i < size then BitVec.ofNat 8 (value.toNat / 2 ^ (8 * i)) else s.sramByte (offset + i))
        ∧ (∀ x, x < offset → s'.sramByte x = s.sramByte x) ∧ s'.tiles = s.tiles ∧ s'.hbm = s.hbm ∧ same s'))
    ∧ (size ≠ 4 → size ≠ 8 → offset < sramBase ∨ sramBase + 0x80_0000 ≤ offset → Gives (exec (.registerWrite offset size value) s) (fun s' =>
        s'.fld HIF.UNMAPPED = 1 ∧ keeps s' ∧ s'.hif = s.hif))
    ∧ (runs 0x04 → haddr % 4096 = 0 → sound → let n := if cArg d 256 8 = 0 then 256 else cArg d 256 8
        Gives (exec (.stepRecords ring d) s) (fun s' => memAt s' haddr ((s.lh.records.drop (s.lh.records.length - n)).flatMap (fun r => bytesOf r.toNat 64))
          ∧ ends s' 0 any ∧ keeps s'))
    ∧ (runs 0x10 ∨ runs 0x11 →
        let c : Instr := if cOpc d = 0x10 then .copyIn ring d else .copyOut ring d
        (0 < cLen d → cDaddr d + cLen d ≤ 0xB4_0000_0000 → cHalo d = false → s.vregs = [] → Gives (exec c s) (fun s' =>
            s'.hif.ops = s.hif.ops ++ [{ tag := cTag d, ring := ring, desc := d, state := 1 }]
            ∧ s'.hif.started = s.hif.started ++ [⟨ring, d, true⟩] ∧ s'.hif.backlog = s.hif.backlog ∧ keeps s' ∧ same s'))
        ∧ (cLen d = 0 → Gives (exec c s) (fun s' => ends s' Status.HIF_DESC (fun r => r = 0) ∧ keeps s' ∧ same s')))
    ∧ (∀ o blk, s.hif.ops.find? (fun x => decide (x.tag = cTag d)) = some o → o.desc = d → o.state = 1 → o.moved = 0 → o.ring = ring →
        ⟨ring, d, true⟩ ∈ s.hif.started → cNocpl d = false → cHalo d = false → 0 < cLen d → cDaddr d % 4096 + cLen d ≤ 4096 → blk = cDaddr d / 4096 →
        cDaddr d + cLen d ≤ 0xB4_0000_0000 → cTag d ≠ 0 → s.vregs = [] → s.hbmBad = [] → s.hbmSoft = [] → Memory.wf s.hbm = true → s.stackAsleep blk = false →
        s.stackReachable (s.place blk).1 = true → s.channelReady blk = true → (s.stack (s.channelOf blk).1).queue = [] →
        let ended := fun (s' : State) => (∀ x ∈ s'.hif.ops, x.tag ≠ cTag d) ∧ s'.tiles = s.tiles
          ∧ ∃ b e, s'.hif.backlog = b ++ [e] ∧ e.status = 0 ∧ e.cid = cCid d ∧ e.result = BitVec.ofNat 64 (cLen d)
        (cOpc d = 0x10 → Gives (exec (.copyComplete (cTag d)) s) (fun s' => ended s' ∧ s'.hif.mem = s.hif.mem
            ∧ ∀ x, Map.get 0 s'.hbm x = if cDaddr d ≤ x ∧ x < cDaddr d + cLen d then (s.hostRead (cHaddr d) (cLen d)).getD (x - cDaddr d) 0 else Map.get 0 s.hbm x))
        ∧ (cOpc d = 0x11 → s.channelLost blk = false → haloPoison (s.haloOf blk) = false → sound →
            Gives (exec (.copyComplete (cTag d)) s) (fun s' => ended s' ∧ s'.hbm = s.hbm
              ∧ memAt s' (cHaddr d) (readRun 0 s.hbm (cDaddr d) (cLen d)))))
    ∧ (runs 0x12 → s.job = none → Gives (exec (.batchPost ring d) s) (fun s' => ends s' Status.OP_TAG_UNKNOWN any ∧ keeps s' ∧ same s'))
    ∧ (∀ j, s.job = some j →
        (runs 0x12 → j.named = BitVec.ofNat 64 haddr → cArg d 384 40 ≠ 0 → cArg d 384 40 ≤ campFld j.camp 2816 64 → (j.kind = 2 ∨ cArg d 448 64 = 0) →
          (s.lh.batches.filter (fun b => decide (b.job = j.id))).length < 256 → Gives (exec (.batchPost ring d) s) (fun s' =>
          s'.lh.batches = s.lh.batches ++ [⟨ring, d, j.id, BitVec.ofNat 64 (cArg d 320 64), BitVec.ofNat 64 (cArg d 256 64), cArg d 384 40,
            BitVec.ofNat 64 (cArg d 448 64)⟩] ∧ s'.hif.started = s.hif.started ++ [⟨ring, d, true⟩] ∧ s'.hif.backlog = s.hif.backlog ∧ same s'))
        ∧ (∀ b a, s.lh.batches.find? (fun b => decide (b.index = index) && decide (b.job = j.id)) = some b →
          (index - s.lh.lit.cursor).toNat < j.stageN → a = campFld j.camp 2496 48 + index.toNat % j.stageN * campFld j.camp 2816 64 →
          a + b.len ≤ 0xB4_0000_0000 → s.vregs = [] → Memory.wf s.hbm = true → 0 < b.len → a % 4096 + b.len ≤ 4096 → s.lh.startAtHalt = [] →
          Gives (exec (.batchStaged index) s) (fun s' => Map.get none s'.lh.staged (index.toNat % j.stageN) = some b ∧ s'.lh.batches = s.lh.batches.erase b
            ∧ (∀ y, Map.get 0 s'.hbm y = if a ≤ y ∧ y < a + b.len then (s.hostRead b.addr.toNat b.len).getD (y - a) 0 else Map.get 0 s.hbm y)
            ∧ s'.tiles = s.tiles ∧ s'.hif.mem = s.hif.mem)))
    ∧ (runs 0x51 → haddr % 4096 = 0 → (∃ p, p < 12 ∧ s.pageBad p = true) → Gives (exec (.attest ring d) s) (fun s' => ends s' Status.NVM_UE any ∧ keeps s' ∧ same s'))
    ∧ (runs 0x51 → haddr % 4096 = 0 → (∀ p, p < 12 → s.pageBad p = false) → sound → Gives (exec (.attest ring d) s) (fun s' =>
        let x := ofBytes (s'.hostRead haddr 512)
        bits x 64 64 = Config.serial.toNat ∧ bits x 128 256 = cArg d 256 256 ∧ bits x 640 32 = s.fld SEC.SVN ∧ bits x 672 32 = s.nl.sec.floor.toNat
        ∧ bits x 704 2 = s.fld SEC.KEY_IDX ∧ bits x 706 4 = s.nl.sec.revoked.toNat ∧ bits x 710 1 = ofBool s.nl.sec.tamper
        ∧ bits x 768 32 = s.nl.settings.seq.toNat ∧ bits x 1184 64 = s.rel.nextSeq.toNat
        ∧ s'.hostRead (haddr + 3840) 1280 = padTo (Config.falconSign Config.serial (shake256 (s'.hostRead haddr 3840) 64)) 1280
        ∧ outside s' haddr 8192 ∧ ends s' 0 (fun r => r = 8192) ∧ keeps s'))
    ∧ (runs 0x52 → cArg d 192 1 = 1 → Gives (exec (.nvmStore ring d) s) (fun s' => (∀ o ∈ settingOffsets, s'.staged o = s.committed o)
        ∧ s'.nl = s.nl ∧ ends s' 0 any ∧ keeps s'))
    ∧ (runs 0x52 → cArg d 192 1 = 0 → s.nl.storing = none →
        let risky := loosens (s.committed (nvmBase + 0x400)) (s.staged (nvmBase + 0x400)) = true ∧ s.nl.presUntil = none
        (¬ risky → Gives (exec (.nvmStore ring d) s) (fun s' => (∃ w, s'.nl.storing = some (w, ring, d) ∧ ∀ o ∈ settingOffsets, Map.get (modReset o) w o = s.staged o)
            ∧ s'.nl.settings = s.nl.settings ∧ s'.hif.started = s.hif.started ++ [⟨ring, d, true⟩] ∧ keeps s' ∧ same s'))
        ∧ (risky → Gives (exec (.nvmStore ring d) s) (fun s' => ends s' Status.SEC_PRESENCE any ∧ s'.nl = s.nl ∧ keeps s' ∧ same s')))
    ∧ (∀ w, s.nl.storing = some (w, ring, d) → s.nl.storesWait = [] → ⟨ring, d, true⟩ ∈ s.hif.started → cNocpl d = false →
        (s.pwr.state = .p0 ∨ s.pwr.state = .s2) →
        Gives (exec .nvmStoreDone s) (fun s' => s'.nl.storing = none ∧ s'.nl.settings.seq = s.nl.settings.seq + 1 ∧ s'.nl.settings.words = w
          ∧ s'.nl.current = !s.nl.current ∧ keeps s' ∧ ∃ b e, s'.hif.backlog = b ++ [e] ∧ e.status = 0 ∧ e.cid = cCid d
            ∧ e.result = (s.nl.settings.seq + 1).setWidth 64))
    ∧ (runs 0x60 → haddr % 4096 = 0 → sound →
        (cArg d 336 1 = 1 → Gives (exec (.afterglowRead ring d) s) (fun s' => (∀ i, i < 6413 → let x := ofBytes (s'.hostRead (haddr + 32 * i) 32)
              let u := unitAt i
              bits x 0 32 = u ∧ bits x 32 2 = (if u < 3072 ∧ (s.unit u).state = 0 ∧ s.colAt (u / 64) (u % 64) = none then 1 else (s.unit u).state % 4)
              ∧ bits x 36 4 = s.recent u % 16 ∧ bits x 40 40 = (s.unit u).faults.getD 0 0 % 2 ^ 40 ∧ bits x 160 40 = (s.unit u).testDue % 2 ^ 40
              ∧ bits x 200 40 = (s.unit u).testLast % 2 ^ 40 ∧ bits x 240 4 = (s.unit u).result % 16)
            ∧ outside s' haddr (32 * 6413) ∧ ends s' 0 (fun r => r = 6413) ∧ keeps s'))
        ∧ (∀ l, let rs := ((s.rel.log ++ s.rel.fresh).filter (fun r => decide (cArg d 256 64 ≤ (r.extractLsb' 0 64).toNat))).take (cArg d 320 16)
           cArg d 336 1 = 0 → 1 ≤ cArg d 320 16 → cArg d 320 16 ≤ 4096 → rs.getLast? = some l →
           Gives (exec (.afterglowRead ring d) s) (fun s' => memAt s' haddr (rs.flatMap (fun r => bytesOf r.toNat 64))
            ∧ ends s' 0 (fun r => r = l.extractLsb' 0 64 + 1) ∧ keeps s')))
    ∧ (runs 0x50 → haddr % 4096 = 0 → (s.pageBad 12 = false ∧ s.pageBad 13 = false) ∨ (s.pageBad 14 = false ∧ s.pageBad 15 = false) →
        let h := s.hostRead haddr 4096
        let f := fun (lsb n : Nat) => bits (ofBytes (h.take 64)) lsb n
        let len := cArg d 256 32
        let body := s.hostRead (haddr + 4096) (f 128 32)
        let form := f 0 32 = 0x07681A7E ∧ f 32 8 = 1 ∧ f 47 17 = 0 ∧ f 160 32 = 0 ∧ (∀ x ∈ (h.drop 1857).take 191, x = 0) ∧ (∀ x ∈ (h.drop 3328).take 768, x = 0)
          ∧ f 96 32 ≤ f 64 32 ∧ len = 4096 + f 128 32 ∧ f 128 32 ≠ 0 ∧ f 128 32 ≤ 2097152 ∧ (f 43 4).testBit (f 40 2) = false
        let signed := s.nl.sec.revoked.getLsbD (f 40 2) = false ∧ shakeDigest ((h.drop 64).take 1793) = Config.rootDigest (f 40 2)
          ∧ Config.falconVerifies (shakeDigest512 ((h.drop 64).take 1793)) (shakeDigest512 (h.take 2048)) ((h.drop 2048).take 1280) = true
        (form → signed → s.nl.sec.floor.toNat ≤ f 64 32 → (f 42 1 = 1 → s.nl.sec.tamper = false) → (shakeDigest body).toNat = f 256 256 →
          Gives (exec (.fwLoad ring d) s) (fun s' => (∃ i, s'.nl.images = s.nl.images ++ [i] ∧ i.svn.toNat = f 64 32 ∧ i.minSvn.toNat = f 96 32
            ∧ i.version.toNat = f 192 64 ∧ i.body = body ∧ i.ring = ring ∧ i.desc = d) ∧ s'.hif.backlog = s.hif.backlog ∧ keeps s' ∧ same s'))
        ∧ (f 0 32 ≠ 0x07681A7E → Gives (exec (.fwLoad ring d) s) (fun s' => ends s' Status.HIF_DESC any ∧ s'.nl = s.nl ∧ keeps s' ∧ same s'))
        ∧ (form → signed → f 64 32 < s.nl.sec.floor.toNat → Gives (exec (.fwLoad ring d) s) (fun s' => ends s' Status.SEC_ROLLBACK any
            ∧ s'.nl = s.nl ∧ keeps s' ∧ same s')))
    ∧ (∀ i rest, s.nl.images = i :: rest → s.pwr.state = .p0 → i.minSvn.toNat ≤ s.nl.sec.floor.toNat → i.revoke &&& ~~~s.nl.sec.revoked = 0 →
        s.fld HIF.READY = 0 → (∀ e ∈ s.rel.units, e.2.state ≠ 3) → s.pwr.bootEvents = [] →
        Gives (exec .fwImageAccept s) (fun s' => s'.fld HIF.READY = 1 ∧ s'.fld HIF.BOOT_WAIT = 0 ∧ s'.fld SEC.SVN = i.svn.toNat
          ∧ s'.lh.firmware = i.body ∧ s'.nl.version = i.version ∧ s'.nl.images = rest
          ∧ ∀ t, t < s.tileCount → (s'.tile t).fld TILE.CORE_READY = 1 ∧ (s'.tile t).halted = true))

/-- For a command that the checks let start and that no earlier start holds. One that names no operation of its link, or a
job the module does not run, ends with OP_TAG_UNKNOWN. JOB_PLACE away from the master goes on to it; at the master a
job that State.placeCheck accepts takes the next identifier and the first box that State.boxFree admits, or, a
best-effort job without one, waits with QUEUED and its identifier; a campaign whose CRC differs ends with HIF_DESC.
SUSPEND of a running job fixes its stop superstep, one past every superstep that a tile has started; of a queued job
or a copy that waits it holds it; held already it ends with OP_STATE, of another operation with OP_FIXED. RESUME
releases what is held and ends with OP_STATE otherwise; CANCEL ends a queued job or a copy that does not move.
OP_QUERY returns state and last status of an operation that runs or is held. RESHARD with free entries, regions and
descriptors that its checks accept stages them. CHECKPOINT waits for the next commit, CTX_SAVE for the job's stop, and
ends with OP_STATE where the job neither runs nor has a context. PWR_REQ to P0 ends at once or wakes a module in S2;
an entry waits with no job on the module, and ends with PWR_STATE for an active one. None of these changes a tile or
HBM but the placement here. (R409, R410, R411, R412, R413, R414, R428, R429, R435, R442, R450, R521.) -/
def Obligations.HostOperations : Prop :=
  ∀ (ring : Nat) (d : BitVec 512) (s : State), s.awake = true → ring < 64 →
    let fresh := ∀ x ∈ s.hif.started, ¬ (x.ring = ring ∧ x.desc = d)
    let runs := fun (c : Nat) => fresh ∧ cOpc d = c ∧ Startable ring d s ∧ cNocpl d = false
    let keeps := fun (s' : State) => s'.tiles = s.tiles ∧ s'.hbm = s.hbm ∧ (∀ o, canonical o ≠ 0x20 → s'.rd o = s.rd o) ∧ s'.hif.mem = s.hif.mem
    let answers := fun (s' : State) (c : BitVec 16) (res : BitVec 64 → Prop) => ∃ b e, s'.hif.backlog = b ++ [e]
      ∧ e.ring = ring ∧ e.cid = cCid d ∧ e.status = c ∧ e.interim = false ∧ res e.result
    let any := fun (_ : BitVec 64) => True
    let waits := fun (s' : State) => s'.hif.started = s.hif.started ++ [⟨ring, d, true⟩] ∧ s'.hif.backlog = s.hif.backlog
    let tag := BitVec.ofNat 64 (cArg d 192 64)
    let commands : List (Nat × Instr) := [(0x21, .suspend ring d), (0x22, .resume ring d), (0x23, .cancel ring d), (0x24, .opQuery ring d)]
    let jobs : List (Nat × Instr) := [(0x25, .reshard ring d), (0x26, .checkpoint ring d), (0x27, .ctxSave ring d)]
    let named := fun (o : Op) => s.hif.ops.find? (fun x => decide (x.tag = tag) && decide (x.ring < 64)) = some o
    let new : Job := { id := s.lh.lastId + 1, voteK := s.policy NVM.K, tag := cTag d, named := cTag d, ring := ring, cid := cCid d
                       camp := s.hostRead (pHaddr d) (pLen d), received := s.count, state := .queued
                       ctx := if pCtx d = 0 then none else some (BitVec.ofNat 64 (pCtx d), pCtxLen d) }
    let box := (s.boxesFor new).find? (fun b => s.boxFree new b)
    let held := fun (s' : State) (t : BitVec 64) (v : Nat) => ∀ x ∈ s'.hif.ops, x.tag = t → x.state = v
    let stopsAt := fun (u : Suspension) => ∃ m, u.stop = BitVec.ofNat 64 (m + 1)
      ∧ (∀ t, t < s.tileCount → (s.tile t).fld TILE.SSTEP + ofBool (s.tile t).phase.isSome ≤ m)
      ∧ (m = 0 ∨ ∃ t, t < s.tileCount ∧ (s.tile t).fld TILE.SSTEP + ofBool (s.tile t).phase.isSome = m)
    let stoppable := fun (j : Job) => s.lh.cur = some j.id ∧ j.state = .running ∧ s.lh.suspension = none ∧ ∀ c ∈ s.lh.contexts, c.job ≠ j.id
    (∀ c ∈ commands, runs c.1 → (∀ o ∈ s.hif.ops, o.tag = tag → 64 ≤ o.ring) → (∀ e ∈ s.hif.relayQueue ++ s.hif.relayed, cTag e.2 = tag → 64 ≤ e.1) →
        Gives (exec c.2 s) (fun s' => answers s' Status.OP_TAG_UNKNOWN any ∧ s'.hif.ops = s.hif.ops ∧ s'.lh = s.lh ∧ keeps s'))
    ∧ (∀ c ∈ jobs, runs c.1 → (∀ j, s.job = some j → j.named ≠ tag) → Gives (exec c.2 s) (fun s' => answers s' Status.OP_TAG_UNKNOWN any
        ∧ s'.hif.started = s.hif.started ∧ s'.lh = s.lh ∧ keeps s'))
    ∧ (∀ p, runs 0x20 → s.fld BCN.STATE ≠ 2 → requestPort s.shape s.coord (moduleCoord s.shape (s.fld BCN.MASTER)) = some p → s.portRefuses p = 0 →
        Gives (exec (.jobPlace ring d) s) (fun s' => s'.hif.relayed = s.hif.relayed ++ [(ring, d)] ∧ s'.hif.started = s.hif.started ∧ s'.lh = s.lh ∧ keeps s'))
    ∧ (runs 0x20 → s.fld BCN.STATE = 2 → pHaddr d % 4096 = 0 → 512 ≤ pLen d → pLen d ≤ 1966080 →
        (crc64 (s.hostRead (pHaddr d) (pLen d))).toNat ≠ cArg d 288 64 → Gives (exec (.jobPlace ring d) s) (fun s' =>
        answers s' Status.HIF_DESC any ∧ s'.lh = s.lh ∧ s'.hif.started = s.hif.started ∧ keeps s'))
    ∧ (runs 0x20 → s.fld BCN.STATE = 2 → s.placeCheck ring d = 0 →
        (∀ b, box = some b → Gives (exec (.jobPlace ring d) s) (fun s' => s'.lh.lastId = s.lh.lastId + 1 ∧ held s' (cTag d) 1
          ∧ ∃ j ∈ s'.lh.jobs, j.id = s.lh.lastId + 1 ∧ j.tag = cTag d ∧ j.state = .placing ∧ j.box = b ∧ j.camp = s.hostRead (pHaddr d) (pLen d)))
        ∧ (box = none → new.bestEffort = true → Gives (exec (.jobPlace ring d) s) (fun s' => s'.lh.lastId = s.lh.lastId + 1
          ∧ held s' (cTag d) 0 ∧ (∃ j ∈ s'.lh.jobs, j.id = s.lh.lastId + 1 ∧ j.tag = cTag d ∧ j.state = .queued ∧ j.box = []) ∧ keeps s'
          ∧ ∃ b e, s'.hif.backlog = b ++ [e] ∧ e.interim = true ∧ e.status = Status.QUEUED ∧ e.tag = cTag d ∧ e.result = s.lh.lastId + 1)))
    ∧ (∀ o j, named o → s.lh.jobs.find? (fun x => decide (x.tag = o.tag)) = some j → cOpc o.desc = 0x20 →
        (runs 0x21 → o.state = 1 → stoppable j → Gives (exec (.suspend ring d) s) (fun s' => waits s' ∧ keeps s'
          ∧ ∃ u, s'.lh.suspension = some u ∧ u.job = j.id ∧ u.why = 0 ∧ stopsAt u ∧ u.ring = ring ∧ u.desc = d))
        ∧ (runs 0x21 → o.state = 0 → j.state = .queued → Gives (exec (.suspend ring d) s) (fun s' => answers s' 0 any ∧ held s' o.tag 2
          ∧ (∀ x ∈ s'.lh.jobs, x.id = j.id → x.host = true ∧ x.state = .queued) ∧ keeps s'))
        ∧ (runs 0x21 → (o.state = 2 ∨ o.state = 4) → Gives (exec (.suspend ring d) s) (fun s' => answers s' Status.OP_STATE any
          ∧ s'.lh = s.lh ∧ s'.hif.ops = s.hif.ops ∧ keeps s'))
        ∧ (runs 0x22 → o.state = 2 → j.state = .queued → Gives (exec (.resume ring d) s) (fun s' => answers s' 0 any ∧ held s' o.tag 0
          ∧ (∀ x ∈ s'.lh.jobs, x.id = j.id → x.host = false) ∧ keeps s'))
        ∧ (runs 0x22 → o.state ≠ 2 → o.state ≠ 4 → Gives (exec (.resume ring d) s) (fun s' => answers s' Status.OP_STATE any ∧ s'.lh = s.lh
          ∧ s'.hif.ops = s.hif.ops ∧ keeps s'))
        ∧ (runs 0x23 → j.state = .queued → s.lh.cur ≠ some j.id → j.box = [] → Gives (exec (.cancel ring d) s) (fun s' => answers s' 0 any
          ∧ s'.lh.jobs = s.lh.jobs.filter (fun x => decide (x.id ≠ j.id)) ∧ s'.lh.cur = s.lh.cur ∧ keeps s')))
    ∧ (∀ o, named o → cOpc o.desc = 0x10 ∨ cOpc o.desc = 0x11 →
        (runs 0x21 → o.state = 0 → Gives (exec (.suspend ring d) s) (fun s' => answers s' 0 any ∧ held s' o.tag 2 ∧ s'.lh = s.lh ∧ keeps s'))
        ∧ (runs 0x22 → o.state = 2 → ⟨o.ring, o.desc, true⟩ ∈ s.hif.started → Gives (exec (.resume ring d) s) (fun s' => answers s' 0 any
          ∧ held s' o.tag 1 ∧ s'.lh = s.lh ∧ keeps s'))
        ∧ (runs 0x23 → o.state ≠ 1 → cTag o.desc = o.tag → o.tag ≠ 0 → (∃ x ∈ s.hif.started, x.ring = o.ring ∧ x.desc = o.desc) →
          (∀ x ∈ s.hif.ops, x.tag = o.tag → x = o) →
          Gives (exec (.cancel ring d) s) (fun s' => answers s' 0 any ∧ (∀ x ∈ s'.hif.ops, x.tag ≠ o.tag) ∧ s'.lh = s.lh ∧ keeps s')))
    ∧ (∀ o, named o → cOpc o.desc ≠ 0x10 → cOpc o.desc ≠ 0x11 → cOpc o.desc ≠ 0x20 → runs 0x21 → Gives (exec (.suspend ring d) s) (fun s' =>
        answers s' Status.OP_FIXED any ∧ s'.hif.ops = s.hif.ops ∧ s'.lh = s.lh ∧ keeps s'))
    ∧ (∀ o, named o → runs 0x24 → o.state ≠ 0 → Gives (exec (.opQuery ring d) s) (fun s' =>
        answers s' 0 (fun r => r = BitVec.ofNat 64 (o.state + o.last.toNat * 2 ^ 16)) ∧ s'.hif.ops = s.hif.ops ∧ s'.lh = s.lh ∧ keeps s'))
    ∧ (∀ j, s.job = some j → j.named = tag →
        (runs 0x25 →
          let rs := (List.range (cArg d 320 16)).map (fun i => ofBytes (s.hostRead (cArg d 256 64 + 32 * i) 32))
          let cs := (List.range (cArg d 336 16)).map (fun i => BitVec.ofNat 512 (ofBytes (s.hostRead (cArg d 256 64 + 32 * cArg d 320 16 + 64 * i) 64)))
          let ns := ((List.range 1024).filter (fun n => decide (s.fld (HBM.SLOTS n) = 0))).take (cArg d 320 16)
          (ns.length < cArg d 320 16 → Gives (exec (.reshard ring d) s) (fun s' => answers s' Status.STEP_CONFIG any ∧ s'.lh = s.lh ∧ keeps s'))
          ∧ (ns.length = cArg d 320 16 → cArg d 336 16 ≤ 1024 → regionsOk rs = true → s.clearOfRegions rs = true → collsOk cs (campFld j.camp 128 28) j.repro = true →
            Gives (exec (.reshard ring d) s) (fun s' => answers s' 0 any ∧ s'.lh.reshard = some ⟨BitVec.ofNat 8 (cArg d 352 8), ns, cs⟩
              ∧ (∀ e ∈ ns.zip rs, ∀ k, k < 4 → s'.rd (HBM.vreg e.1 + 8 * k) = BitVec.ofNat 64 (bits e.2 (64 * k) 64))
              ∧ s'.tiles = s.tiles ∧ s'.hbm = s.hbm ∧ s'.lh.jobs = s.lh.jobs)))
        ∧ (runs 0x26 → Gives (exec (.checkpoint ring d) s) (fun s' => waits s' ∧ s'.lh = { s.lh with ckptAsked := s.lh.ckptAsked ++ [(ring, d)] } ∧ keeps s'))
        ∧ (runs 0x27 → cArg d 256 64 % 4096 = 0 → stoppable j → j.host = false → Gives (exec (.ctxSave ring d) s) (fun s' => waits s' ∧ keeps s'
            ∧ ∃ u, s'.lh.suspension = some u ∧ u.job = j.id ∧ u.why = 2 ∧ stopsAt u ∧ u.portable = d.getLsbD 384))
        ∧ (runs 0x27 → cArg d 256 64 % 4096 = 0 → j.state ≠ .running → (∀ c ∈ s.lh.contexts, c.job ≠ j.id) → Gives (exec (.ctxSave ring d) s) (fun s' =>
            answers s' Status.OP_STATE any ∧ s'.lh = s.lh ∧ keeps s')))
    ∧ (runs 0x40 →
        let req := exec (.pwrReq ring d) s
        let target := cArg d 192 2
        (target = 0 → s.pwr.state ≠ .s2 → Gives req (fun s' => answers s' 0 any ∧ s'.pwr = s.pwr ∧ s'.lh = s.lh ∧ keeps s'))
        ∧ (target = 0 → s.pwr.state = .s2 → Gives req (fun s' => waits s' ∧ s'.lh = s.lh ∧ keeps s'
            ∧ s'.pwr = { s.pwr with wake := true, wakeAsked := s.pwr.wakeAsked ++ [(ring, d)] }))
        ∧ (∀ j, s.job = some j → 2 ≤ target → s.pwr.state ≠ .s2 → j.state ≠ .running ∨ (j.host = false ∧ ∀ c ∈ s.lh.contexts, c.job ≠ j.id) →
            Gives req (fun s' => answers s' Status.PWR_STATE any ∧ s'.pwr = s.pwr ∧ s'.lh = s.lh ∧ keeps s'))
        ∧ (s.job = none → 2 ≤ target → s.pwr.state ≠ .s2 → s.lh.contexts = [] → (∀ j ∈ s.lh.jobs, s.self.toNat ∉ j.box) → s.pwr.entering = none →
            Gives req (fun s' => waits s' ∧ s'.pwr = { s.pwr with entering := some (target, some (ring, d)) } ∧ s'.fld PWR.NEXT = target
              ∧ s'.lh = s.lh ∧ s'.tiles = s.tiles ∧ s'.hbm = s.hbm)))

/-- Lighthouse running, at the authority: of queued jobs the one before which, in R436's order, only jobs without a free
box stand takes the first box that is free for it; the last ready member of a job that the host does not hold and no
context waits for sets the first open 1,024 counts ahead (the model's choice, log 35), an earlier one is noted; at the
placement timeout the members that did not report are lost. A tile that an open left waiting, its batches staged,
starts at ENTRY. A checkpoint, with no earlier event due and no pin at its limit, starts with the lit STEP in the next
buffer; its end, with no error met, copies the blocks of a single region, writes the header and turns the buffers;
with the last member's header it completes the command that asked for it, the last one ends the job. A lost member
puts its running job into recovery; its return is noted, the last one places the job again, the timeout queues the job
for any box. A member's report that it holds is counted; with all held the hold reduction is scheduled 64 counts ahead
(the model's choice, log 34). A reset of Lighthouse raises LH_EPOCH, loses step, schedule and records and keeps
firmware and memory; a short command ends with DOMAIN_RESET. Two gateway failures lose the module. A new master counts
on from the highest identifier. With every stream halted and quiet, and the hold agreed where a step is open, a stop
saves the job's context and answers its SUSPEND, a cancel ends the job; a DMA under way holds it back. (R425, R426,
R428, R435, R436, R439, R440, R442, R444, R445, R447, R449.) -/
def Obligations.JobCommands : Prop :=
  ∀ (m t g master ring : Nat) (d : BitVec 512) (s : State) (j : Job), m < 2 ^ 14 →
    let runs := s.awake = true ∧ s.lh.inReset = false
    let rules := runs ∧ s.fld BCN.STATE = 2
    let jobNow := fun (s' : State) (P : Job → Prop) => (∃ x ∈ s'.lh.jobs, x.id = j.id) ∧ ∀ x ∈ s'.lh.jobs, x.id = j.id → P x
    let keeps := fun (s' : State) => (∀ u, (s'.tile u).spad = (s.tile u).spad) ∧ s'.hbm = s.hbm
    let last := fun (s' : State) (c : BitVec 16) (res : BitVec 64 → Prop) => ∃ b e, s'.hif.backlog = b ++ [e] ∧ e.ring = ring ∧ e.cid = cCid d
      ∧ e.status = c ∧ e.interim = false ∧ res e.result
    let any := fun (_ : BitVec 64) => True
    let open_ := s.count + 1024
    let noneDue := s.moves = [] ∧ s.bcn.pendingTick = none ∧ s.bcn.trees = [] ∧ ∀ st, s.lh.step = some st → st.result = none ∨ s.count ≠ st.flip
    (∀ b, rules → j ∈ s.lh.jobs → (∀ k ∈ s.lh.jobs, k.state = .queued ∧ k.box = [] ∧ k.host = false ∧ k.priority = none ∧ (k ≠ j → k.id ≠ j.id)) →
        (s.boxesFor j).find? (fun x => s.boxFree j x) = some b →
        (∀ k ∈ s.lh.jobs, k ≠ j → k.before j = true → ∀ x ∈ s.boxesFor k, s.boxFree k x = false) →
        Gives (exec .jobDequeue s) (fun s' => jobNow s' (fun x => x.state = .placing ∧ x.box = b ∧ x.tag = j.tag)))
    ∧ (rules → s.lh.jobs = [] → exec .jobDequeue s = .next s)
    ∧ (s.lh.jobs.find? (fun x => decide (x.state = .placing) && x.box.contains m) = some j → m ≠ s.self.toNat → rules →
        ((∃ x ∈ j.box, x ≠ m ∧ x ∉ j.ready) → Gives (exec (.memberReady m) s) (fun s' => jobNow s' (fun x => m ∈ x.ready ∧ x.state = .placing) ∧ keeps s'))
        ∧ ((∀ x ∈ j.box, x = m ∨ x ∈ j.ready) → j.host = false → s.self.toNat ∈ j.box → s.lh.contexts = [] → (∀ u, (s.tile u).xq = []) →
            Gives (exec (.memberReady m) s) (fun s' => jobNow s' (fun x => x.state = .running) ∧ s'.lh.nextOpen = some open_ ∧ s'.lh.cur = some j.id ∧ keeps s')))
    ∧ (s.lh.jobs.find? (fun x => decide (x.state = .placing)) = some j → rules → (∃ x ∈ j.box, x ∉ j.ready) → Gives (exec .placementTimeout s) (fun s' =>
        (∃ x ∈ s'.lh.jobs, x.id = j.id ∧ x.box = j.box ∧ x.state = .recovering ∧ ∀ y ∈ j.box, y ∉ j.ready → y ∈ x.lost)
        ∧ (∀ y ∈ j.box, y ∉ j.ready → y ∈ s'.lh.unfit) ∧ keeps s'))
    ∧ (∀ st e, t < s.tileCount → runs → s.job = some j → s.lh.step = some st → s.lh.sweepDue = false → t ∈ s.lh.startAtHalt →
        (∀ i, i < j.batches → ∃ b, Map.get none s.lh.staged ((s.lh.lit.cursor.toNat + i) % j.stageN) = some b
          ∧ b.index.toNat = s.lh.lit.cursor.toNat + i ∧ b.job = j.id) →
        (s.tile t).halted = true → (s.tile t).ended = true → (s.tile t).fld TILE.CORE_READY = 1 → j.image s.use t = some e → Map.get 0 s.lh.uses t = s.use →
        Gives (exec (.tileStartAtHalt t) s) (fun s' => (s'.tile t).pc = BitVec.ofNat 20 (bits e 84 20) ∧ (s'.tile t).halted = false
          ∧ s'.lh.startAtHalt = s.lh.startAtHalt.erase t ∧ (∀ u, u ≠ t → s'.tile u = s.tile u) ∧ keeps s'))
    ∧ (s.job = some j → s.lh.ckptDue = true → s.lh.ckpt = none → s.fld BCN.STATE ≠ 5 → noneDue → s.lh.lit.draw.length ≤ 8 → Memory.wf s.hif.mem = true →
        (∀ n ∈ s.vregs, ∀ k, s.litSlot n = some k → s.fld (HBM.PIN n k) < 65535) → Gives (exec .checkpointStart s) (fun s' =>
        (∃ c, s'.lh.ckpt = some c ∧ c.step = s.lh.lit.step ∧ c.buffer = s.lh.nextBuffer ∧ c.asked = s.lh.ckptAsked ∧ c.lepoch = s.lh.lit.lepoch
          ∧ ∀ n k, (n, k) ∈ c.pins ↔ n ∈ s.vregs ∧ s.litSlot n = some k)
        ∧ s'.lh.ckptDue = false ∧ s'.lh.ckptAsked = [] ∧ keeps s'
        ∧ (let v := ofBytes (s'.hostRead (campFld j.camp (2048 + 64 * s.lh.nextBuffer) 64 + 64) 1664)
           bits v 0 64 = s.lh.lit.step.toNat ∧ bits v 64 64 = s.lh.lit.cursor.toNat ∧ bits v 384 8 = s.lh.lit.lepoch.toNat
           ∧ bits v 448 64 = s.lh.lit.commits.toNat ∧ bits v 512 32 = s.lh.lit.ls.toNat)))
    ∧ (∀ c n k, s.job = some j → s.lh.ckpt = some c → s.vregs = [n] → c.pins = [(n, k)] → s.hbmBad = [] → s.hbmSoft = [] → Memory.wf s.hbm = true →
        Memory.wf s.hif.mem = true →
        (∀ b ∈ s.slotBlocks n k, haloPoison (s.haloOf b) = false ∧ s.channelLost b = false ∧ (s.stack (s.channelOf b).1).queue = []) →
        let at_ := campFld j.camp (2048 + 64 * c.buffer) 64
        s.authority = true → s.self.toNat ∈ j.box →
        let all := ∀ x ∈ j.box, x = s.self.toNat ∨ x ∈ j.wrote
        (¬ all → Gives (exec .checkpointDone s) (fun s' => s'.lh.ckpt = none ∧ s'.lh.ckptWait = some c ∧ s'.lh.nextBuffer = 1 - c.buffer
          ∧ s'.lh.ckptDone = s.lh.ckptDone ∧ s'.hif.backlog = s.hif.backlog ∧ jobNow s' (fun x => s.self.toNat ∈ x.wrote) ∧ keeps s'))
        ∧ (all → c.last = false → s.rel.forced = [] → c.asked = [(ring, d)] → ring < 64 → cNocpl d = false → ⟨ring, d, true⟩ ∈ s.hif.started →
          Gives (exec .checkpointDone s) (fun s' => s'.lh.ckpt = none ∧ s'.lh.nextBuffer = 1 - c.buffer ∧ s'.lh.ckptDone = some (c.buffer, c.step)
            ∧ ofBytes (s'.hostRead at_ 64) = c.step.toNat + c.gen.toNat * 2 ^ 64 + c.lepoch.toNat * 2 ^ 88 + 2 ^ 96
            ∧ (∀ i, i < s.fld (HBM.LEN_BLK n) → s'.hostRead (at_ + 1728 + 4128 * i) 4096
                = readRun 0 s.hbm ((s.fld (HBM.BASE_BLK n) + k * s.fld (HBM.LEN_BLK n) + i) * 4096) 4096)
            ∧ last s' 0 (fun r => r = c.step) ∧ keeps s'))
        ∧ (all → c.last = true → Gives (exec .checkpointDone s) (fun s' => (∀ x ∈ s'.lh.jobs, x.id ≠ j.id) ∧ s'.lh.cur = none)))
    ∧ (j ∈ s.lh.jobs → m ∈ j.box → j.state = .running → Gives (exec (.memberLost m) s) (fun s' => m ∈ s'.lh.unfit ∧ keeps s'
        ∧ (∃ x ∈ s'.lh.jobs, x.id = j.id ∧ x.state = .recovering ∧ m ∈ x.lost) ∧ (∀ x ∈ s.lh.jobs, m ∉ x.box → x ∈ s'.lh.jobs)))
    ∧ (s.lh.jobs.find? (fun x => decide (x.state = .recovering)) = some j → rules → Gives (exec .recoveryTimeout s) (fun s' =>
        jobNow s' (fun x => x.state = .queued ∧ x.box = [] ∧ x.lost = [] ∧ x.fresh = false) ∧ (s.lh.cur = some j.id → s'.lh.cur = none) ∧ keeps s'))
    ∧ (∀ u, rules → s.lh.suspension = some u → s.job = some j → m ∈ j.box → m ≠ s.self.toNat →
        ((∃ x ∈ j.box, x ≠ m ∧ x ∉ u.held) → Gives (exec (.tilesHeld m) s) (fun s' => s'.lh.suspension = some { u with held := m :: u.held.erase m }
            ∧ s'.tiles = s.tiles ∧ s'.bcn = s.bcn))
        ∧ (∀ st, (∀ x ∈ j.box, x = m ∨ x ∈ u.held) → u.tc = none → u.agreed = none → s.lh.step = some st → st.voted = false →
            let tc := s.count + 64; let tr := tc + BitVec.ofNat 64 j.flipOff
            0 ≤ (st.vote - tr).toInt → s.fld (BCN.BUSY j.voteTree) = 0 → Gives (exec (.tilesHeld m) s) (fun s' =>
              s'.lh.suspension = some { u with held := m :: u.held.erase m, tc := some (tc, tr) } ∧ s'.fld (BCN.BUSY j.voteTree) = 1
              ∧ (∃ r, s'.tree j.voteTree = some r ∧ r.tc = tc ∧ r.tr = tr ∧ r.op = 0 ∧ r.own = some 1) ∧ s'.tiles = s.tiles)))
    ∧ (∀ u, runs → s.lh.suspension = some u → s.job = some j → t < s.tileCount → (s.tile t).dma ≠ [] → exec (.tilesHeld s.self.toNat) s = .next s)
    ∧ (s.awake = true → Gives (exec .lighthouseReset s) (fun s' => s'.lh.inReset = true ∧ s'.fld HIF.LH_EPOCH = (s.fld HIF.LH_EPOCH + 1) % 2 ^ 16
        ∧ s'.lh.step = none ∧ s'.lh.records = [] ∧ s'.bcn.schedule = [] ∧ s'.causes = [] ∧ s'.lh.firmware = s.lh.firmware ∧ s'.hif.mem = s.hif.mem ∧ keeps s'))
    ∧ (s.awake = true → s.lh.cur = none → s.hif.started = [⟨ring, d, true⟩] → longOpc (cOpc d) = false → cNocpl d = false → ring < 64 →
        s.hif.relayQueue = [] → s.hif.relayed = [] → Gives (exec .lighthouseReset s) (fun s' => s'.hif.started = []
          ∧ ∃ e ∈ s'.hif.backlog, e.ring = ring ∧ e.cid = cCid d ∧ e.status = Status.DOMAIN_RESET ∧ e.interim = false))
    ∧ (s.awake = true → s.lh.inReset = true → Gives (exec .lighthouseReady s) (fun s' => s'.lh = { s.lh with inReset := false } ∧ keeps s'
        ∧ (s.fld HIF.EV_ENABLE = 1 → ∃ b e, s'.hif.backlog = b ++ [e] ∧ e.event = true ∧ e.status = 0)))
    ∧ (g < 2 → (s.lh.gatewaysDown = [] → Gives (exec (.gatewayFailure g) s) (fun s' => s'.lh = { s.lh with gatewaysDown := [g] } ∧ keeps s'))
        ∧ (s.lh.gatewaysDown = [1 - g] → Gives (exec (.gatewayFailure g) s) (fun s' => s'.lh.gatewaysDown = [g, 1 - g] ∧ s.self.toNat ∈ s'.lh.unfit ∧ keeps s'))
        ∧ (g ∈ s.lh.gatewaysDown → exec (.gatewayFailure g) s = .next s))
    ∧ (master < 2 ^ 14 → Gives (exec (.authorityChange master) s) (fun s' => s'.fld BCN.MASTER = master ∧ keeps s'
        ∧ (master = s.self.toNat → s'.lh.jobs = s.lh.jobs) ∧ (∀ x ∈ s'.lh.jobs, x ∈ s.lh.jobs ∧ x.id.toNat ≤ s'.lh.lastId.toNat)
        ∧ (∀ x ∈ s.lh.jobs, s.self.toNat ∈ x.box → x ∈ s'.lh.jobs) ∧ s.lh.lastId.toNat ≤ s'.lh.lastId.toNat))
    ∧ (∀ u, s.lh.suspension = some u → s.job = some j → u.job = j.id →
        let quiet := (∀ i, i < s.tileCount → (s.tile i).halted = true ∧ (s.tile i).dma = [] ∧ (s.tile i).lists = [] ∧ (s.tile i).running = none
            ∧ (s.tile i).astWait = none ∧ (s.tile i).phase = none ∧ (s.tile i).vq = [] ∧ (s.tile i).mq = [])
          ∧ (s.lh.step = none ∨ u.agreed = some true)
        (t < s.tileCount → (s.tile t).dma ≠ [] → exec .jobSwitchDone s = .next s)
        ∧ (quiet → u.cancels = [] → u.why = 0 → u.ring = ring → u.desc = d → ring < 64 → cNocpl d = false → ⟨ring, d, true⟩ ∈ s.hif.started →
          Gives (exec .jobSwitchDone s) (fun s' => s'.lh.suspension = none ∧ s'.lh.step = none ∧ last s' 0 any ∧ jobNow s' (fun x => x.host = true) ∧ keeps s'
            ∧ ∃ c ∈ s'.lh.contexts, c.job = j.id ∧ c.tiles = s.tiles ∧ c.step = s.lh.step ∧ c.hbm = s.hbm ∧ c.stop = u.stop))
        ∧ (quiet → u.why = 4 → Gives (exec .jobSwitchDone s) (fun s' => (∀ x ∈ s'.lh.jobs, x.id ≠ j.id) ∧ s'.lh.suspension = none ∧ s'.lh.cur = none)))
    ∧ (s.lh.jobs.find? (fun x => decide (x.state = .recovering) && x.lost.contains m) = some j → j.mirror = false →
        (j.lost.erase m ≠ [] → Gives (exec (.memberReturn m) s) (fun s' => jobNow s' (fun x => x.lost = j.lost.erase m ∧ x.state = .recovering)
            ∧ s'.lh.unfit = s.lh.unfit.erase m ∧ keeps s'))
        ∧ (j.lost = [m] → s.fld BCN.STATE = 2 → Gives (exec (.memberReturn m) s) (fun s' => jobNow s' (fun x => x.state = .placing ∧ x.box = j.box ∧ x.lost = []))))

/-- On a module that is awake: a lockstep disagreement charges its pair, first fault, and takes it out of service; a pair
out of service is left as it is. With no earlier event due, a due test runs in place where no job holds the module; of
a tile that a job holds it is deferred and recorded once, in the no-test window or without a free spare, else it waits
for the move, which between phases gives the logical tile the best spare and tests the tile; a deferred test past its
days is forced. Where no job holds the module, a passed test sets result and dates, a failed one is repeated, a failed
retest makes the unit permanent; a channel's or port's test without a test open sets result and date or is repeated.
In an open sentinel step before its vote a member whose tiles are final sends its digest: none without a range, of one
range over no region the digest of its blocks. The leader notes each member's first digest and judges itself by strict
majority of the members that vote; a member applies the first outcome, any but 0 adding a cause of bit 8, 1 also
taking the module out of service. A partner's digest waits for this module's, ends the comparison where it agrees, and
with one tile that differs adds MIRROR_MISMATCH and that tile to the tests. Where another module of a Mirror job
returned, the job runs on. A domain still in reset is permanent. A log commit makes the fresh records lasting. (R457,
R459, R464, R465, R470, R471, R473, R476, R477, R478, R482, R483.) -/
def Obligations.ReliabilityCommands : Prop :=
  ∀ (pair row col member outcome : Nat) (unit : BitVec 32) (digest : Option (BitVec 256)) (sstep : BitVec 32) (d : BitVec 64)
    (ds : List (Nat × BitVec 64)) (s : State), s.awake = true →
    let u := row * 64 + col
    let v := unit.toNat
    let i := v % 2 ^ 16
    let keeps := fun (s' : State) => (∀ t, (s'.tile t).spad = (s.tile t).spad) ∧ s'.hbm = s.hbm
    let others := fun (s' : State) (v : Nat) => ∀ w, w ≠ v → s'.unit w = s.unit w
    let quiet := s.moves = [] ∧ s.bcn.pendingTick = none ∧ s.bcn.trees = [] ∧ s.lh.ckptDue = false
      ∧ ∀ st, s.lh.step = some st → st.result = none ∨ s.count ≠ st.flip
    let due := (s.unit u).state = 0 ∧ s.underTest u = none ∧ (s.unit u).testDue ≤ s.utc
    let deferred := s.deferredFrom u
    let overdue := deferred ≠ 0 ∧ deferred + 86400 * s.policy NVM.DEFER_D ≤ s.utc
    let free := fun (q : Nat) => q < 64 ∧ s.colAt row q = none ∧ (s.unit (row * 64 + q)).state = 0 ∧ s.router row q = .up ∧ s.underTest (row * 64 + q) = none
    let dist := fun (q : Nat) => if q ≤ col then col - q else q - col
    let near := fun (q : Nat) => q / 16 = col / 16
    let best := fun (q : Nat) => free q ∧ ∀ r, free r → r ≠ q →
      (near q ∧ ¬ near r) ∨ ((near q ↔ near r) ∧ (dist q < dist r ∨ (dist q = dist r ∧ q < r)))
    let noTest := s.utc < s.lh.noTestUntil
    (pair < 4 → (s.unit (pairUnit pair)).state < 2 → (s.unit (pairUnit pair)).faults = [] → 2 ≤ s.policy NVM.FAULT_N →
        Gives (exec (.lockstepDisagree pair) s) (fun s' => (s'.unit (pairUnit pair)).state = 2 ∧ (s'.unit (pairUnit pair)).faults = [s.utc]
          ∧ s'.rel.nextSeq = s.rel.nextSeq + 2 ∧ others s' (pairUnit pair) ∧ keeps s'))
    ∧ (pair < 4 → 2 ≤ (s.unit (pairUnit pair)).state → exec (.lockstepDisagree pair) s = .next s)
    ∧ (row < 48 → col < 64 → quiet → due →
        (s.lh.cur = none → Gives (exec (.testDue row col) s) (fun s' => s'.underTest u = some false ∧ s'.deferredFrom u = 0
            ∧ (∀ w, s.tileAt row col ≠ some w → s'.tile w = s.tile w) ∧ s'.hbm = s.hbm ∧ s'.rel.units = s.rel.units))
        ∧ (∀ t, s.lh.cur.isSome = true → s.tileAt row col = some t →
            (noTest ∨ (∀ q, ¬ free q) → deferred = 0 → Gives (exec (.testDue row col) s) (fun s' => s'.underTest u = none
                ∧ s'.deferredFrom u = max 1 (s.unit u).testDue ∧ s'.rel.nextSeq = s.rel.nextSeq + 1 ∧ keeps s'))
            ∧ (noTest ∨ (∀ q, ¬ free q) → deferred ≠ 0 → exec (.testDue row col) s = .next s)
            ∧ (¬ noTest → (∃ q, free q) → exec (.testDue row col) s = .next s)
            ∧ (∀ q c, ¬ noTest → best q → s.colAt row col = some c → s.retired = [] → s.fld BCN.STATE ≠ 5 →
                (∀ e ∈ s.tiles, ∀ p, e.2.phase = some p → p.started = false) →
                Gives (exec (.testMove row col) s) (fun s' => s'.underTest u = some false ∧ s'.physOf t = row * 64 + q ∧ keeps s'
                  ∧ ∀ w, w < 2880 → w ≠ t → s'.physOf w = s.physOf w))
            ∧ (overdue → (∀ q, ¬ free q) → u ∉ s.rel.forced → Gives (exec (.testForced row col) s) (fun s' =>
                s'.rel.forced = s.rel.forced ++ [u] ∧ s'.underTest u = none ∧ s'.tiles = s.tiles)))
        ∧ (s.lh.cur = none → overdue → u ∉ s.rel.forced → Gives (exec (.testForced row col) s) (fun s' => s'.underTest u = some false
            ∧ s'.deferredFrom u = 0)))
    ∧ (row < 48 → col < 64 → u ∉ s.rel.mirrorTests → s.rel.excluded = false → s.lh.cur = none →
        (s.underTest u = some false → (s.unit u).state < 3 → Gives (exec (.tileTestResult row col true) s) (fun s' => s'.underTest u = none
            ∧ s'.unit u = { s.unit u with testLast := s.utc, result := 1, testDue := s.utc + 86400 * s.policy NVM.TEST_D } ∧ others s' u ∧ keeps s'))
        ∧ (s.underTest u = some false → Gives (exec (.tileTestResult row col false) s) (fun s' => s'.underTest u = some true ∧ s'.rel.units = s.rel.units
            ∧ s'.rel.nextSeq = s.rel.nextSeq + 1 ∧ keeps s'))
        ∧ (s.underTest u = some true → (s.unit u).state < 3 → Gives (exec (.tileTestResult row col false) s) (fun s' => s'.underTest u = none
            ∧ (s'.unit u).state = 3 ∧ (s'.unit u).result = 3 ∧ (s'.unit u).testLast = s.utc)))
    ∧ (isUnit v = true → (v / 2 ^ 28 = 2 ∨ v / 2 ^ 28 = 3) → s.lh.cur = none → (s.unit v).state < 2 → s.underTest v = none →
        Gives (exec (.linkChannelTest unit true) s) (fun s' => s'.unit v = { s.unit v with testLast := s.utc, result := 1 } ∧ others s' v ∧ keeps s')
        ∧ Gives (exec (.linkChannelTest unit false) s) (fun s' => s'.underTest v = some true ∧ s'.rel.units = s.rel.units ∧ keeps s'))
    ∧ (∀ st j, s.lh.step = some st → s.job = some j → st.voted = false → s.lh.lit.step.toNat % j.voteK = j.voteK - 1 → s.rel.verdict = none →
        let ring := j.box.filter (fun m => decide (bits (moduleCoord s.shape m) 0 18 = bits s.coord 0 18))
        let leads := s.self.toNat ∈ ring ∧ ∀ m ∈ ring, s.self.toNat ≤ m
        let range := fun (t k : Nat) => s.vregs = [] ∧ (s.tile t).fld (TILE.SENT_VALID k) = 1 ∧ 1 ≤ (s.tile t).fld (TILE.SENT_NBLK k)
          ∧ (s.tile t).fld (TILE.SENT_BLK k) + (s.tile t).fld (TILE.SENT_NBLK k) ≤ 720 * 2 ^ 18
          ∧ ∀ w n, w < s.tileCount → n < 4 → (w, n) ≠ (t, k) → (s.tile w).fld (TILE.SENT_VALID n) ≠ 1
        let sent := fun (x : Option (BitVec 256)) => Gives (exec .sentinelDigest s) (fun s' => s'.rel.ownDigest = true
          ∧ s'.rel.digests = s.rel.digests ++ [(s.self.toNat, x)] ∧ keeps s' ∧ s'.tiles = s.tiles)
        (s.rel.ownDigest = false → (∀ t, t < s.tileCount → (Map.get 0 st.base t).toNat + (s.tile t).fld TILE.SENT_SSTEP ≤ (s.tile t).fld TILE.SSTEP) →
            Gives (exec .sentinelDigest s) (fun s' => s'.rel.ownDigest = true ∧ keeps s' ∧ s'.tiles = s.tiles)
            ∧ (leads → (∀ e ∈ s.rel.digests, e.1 ≠ s.self.toNat) →
              ((∀ t k, t < s.tileCount → k < 4 → (s.tile t).fld (TILE.SENT_VALID k) ≠ 1) → sent none)
              ∧ (∀ t k, t < s.tileCount → k < 4 → range t k → (s.tile t).fld (TILE.SENT_NBLK k) ≤ 16384 → sent (some (shakeDigest
                  ((List.range ((s.tile t).fld (TILE.SENT_NBLK k))).flatMap (fun b => s.blockData ((s.tile t).fld (TILE.SENT_BLK k) + b))))))))
        ∧ (leads → ahead (st.vote - BitVec.ofNat 64 (s.policy NVM.LEAD_BT)) s.count ≤ 0 →
            let said : Nat → Option (Option (BitVec 256)) := fun m => (s.rel.digests.find? (fun e => decide (e.1 = m))).map (·.2)
            let voting := ring.filter (fun m => decide (said m ≠ some none))
            let votes := fun (x : BitVec 256) => (ring.filter (fun m => decide (said m = some (some x)))).length
            let judged := fun (o : Nat) => Gives (exec .replicaVerdict s) (fun s' => s'.rel.verdict = some o ∧ keeps s' ∧ (o = 0 → s'.causes = s.causes))
            (said s.self.toNat = some none → judged 0)
            ∧ (∀ x, said s.self.toNat = some (some x) → voting.length < 2 * votes x → judged 0)
            ∧ (∀ x y, said s.self.toNat = some (some x) → x ≠ y → voting.length < 2 * votes y → judged 1)
            ∧ (∀ y, said s.self.toNat = none → voting.length < 2 * votes y → judged 2)
            ∧ ((∀ y, 2 * votes y ≤ voting.length) → said s.self.toNat ≠ some none → judged 3))
        ∧ (leads → member ∈ ring → (∀ e ∈ s.rel.digests, e.1 ≠ member) → Gives (exec (.digestReceive member digest) s) (fun s' =>
            s' = { s with rel := { s.rel with digests := s.rel.digests ++ [(member, digest)] } }))
        ∧ (outcome < 4 → Gives (exec (.verdictReceive outcome) s) (fun s' => s'.rel.verdict = some outcome ∧ keeps s'
            ∧ (outcome = 0 → s'.causes = s.causes)
            ∧ (outcome ≠ 0 → { bit := 8, status := Status.REPLICA_MINORITY, cycle := s.cycle } ∈ s'.causes)
            ∧ (outcome = 1 → 2 ≤ (s'.unit moduleUnit).state))))
    ∧ (s.rel.verdict.isSome = true ∨ 4 ≤ outcome → exec (.verdictReceive outcome) s = .next s)
    ∧ (∀ j, s.job = some j → bit (ofBytes (j.camp.take 4)) 14 = true →
        let n := sstep.toNat
        (Map.get none s.rel.mirrorOwn n = none → Gives (exec (.mirrorRecord sstep d ds) s) (fun s' => Map.get none s'.rel.mirrorPeer n = some (d, ds)
            ∧ s'.causes = s.causes ∧ s'.tiles = s.tiles))
        ∧ (∀ own, Map.get none s.rel.mirrorOwn n = some (d, own) → Gives (exec (.mirrorRecord sstep d ds) s) (fun s' => Map.get none s'.rel.mirrorPeer n = none
            ∧ Map.get none s'.rel.mirrorOwn n = none ∧ s'.causes = s.causes ∧ s'.rel.mirrorTests = s.rel.mirrorTests))
        ∧ (∀ e t x y, Map.get none s.rel.mirrorOwn n = some (e, [(t, x)]) → d ≠ e → ds = [(t, y)] → x ≠ y → Gives (exec (.mirrorRecord sstep d ds) s) (fun s' =>
            { bit := 4, status := Status.MIRROR_MISMATCH, tile := t, cycle := s.cycle } ∈ s'.causes
            ∧ s'.rel.mirrorTests = s.rel.mirrorTests ++ [s.physOf t] ∧ keeps s')))
    ∧ (∀ m j, s.lh.rebuild = some m → s.lh.step = none → m ≠ s.self.toNat → s.fld BCN.STATE ≠ 2 →
        s.lh.jobs.find? (fun j => j.mirror && decide (j.state = .recovering) && j.lost.isEmpty && j.box.contains m) = some j →
        Gives (exec .mirrorRebuild s) (fun s' => s'.lh.rebuild = none ∧ (∀ x ∈ s'.lh.jobs, x.id = j.id → x.state = .running) ∧ s'.tiles = s.tiles ∧ s'.hbm = s.hbm))
    ∧ (isUnit v = true →
        let inReset := (v / 2 ^ 28 = 0 ∧ ∃ t, s.tileAt (i / 64) (i % 64) = some t ∧ (s.tile t).fld TILE.CORE_READY = 0 ∧ (s.tile t).fld TILE.CORE_PWR = 1)
          ∨ (v / 2 ^ 28 = 1 ∧ ((∃ t, s.tileAt (i / 64) (i % 64) = some t ∧ (s.tile t).rtrReady = false)
              ∨ (s.tileAt (i / 64) (i % 64) = none ∧ (s.spare i).rtrReady = false)))
          ∨ (v / 2 ^ 28 = 2 ∧ s.fld (HBM.CH_READY (i / 16) (i % 16)) = 0) ∨ (v / 2 ^ 28 = 3 ∧ (s.port i).inReset = true)
          ∨ (4 ≤ v / 2 ^ 28 ∧ s.lh.inReset = true)
        (inReset → (s.unit v).state < 3 → Gives (exec (.domainNotReady unit) s) (fun s' => (s'.unit v).state = 3 ∧ (s'.unit v).result = 3))
        ∧ (¬ inReset → exec (.domainNotReady unit) s = .next s))
    ∧ Gives (exec .afterglowCommit s) (fun s' => s'.rel = { s.rel with log := s.rel.log ++ s.rel.fresh, fresh := [] } ∧ s'.regs = s.regs ∧ keeps s')

/-- On a module with its supply: a journal commit writes the next page with the counters, the calendar and a count floor,
the count plus 2^30 where a count is held; a press opens the presence window for 60 s and is counted, none while it is
open; an opened seal is counted and sets TAMPER, a closed one is noted; off the supply an opening is latched. On a
module that is awake: a legal policy is staged where it loosens nothing of the committed one or the window is open;
one that loosens it without presence changes nothing. The calendar is set to any value no more than 300 s back or with
presence, else it is kept. The window closes at its end or by command. TAMPER clears with presence and a closed seal;
otherwise persistent registers, security state and units stay. A floor is raised to a higher one up to the running
version; any other changes none of them. With presence a permanent unit returns to service with its faults cleared,
its test due and one record; otherwise nothing of them changes. The boot ROM of a powered module without firmware
takes the security copy with the higher number, or copy A over a bad copy B, and waits for firmware once HIF_PERST_N
is high, its host port trained. (R461, R492, R493, R496, R497, R498, R499, R509, R510, R511, R513.) -/
def Obligations.PersistenceCommands : Prop :=
  ∀ (value : BitVec 64) (unit floor : BitVec 32) (s : State),
    let v := value.toNat
    let old := (s.committed (nvmBase + 0x400)).toNat
    let keeps := fun (s' : State) => s'.tiles = s.tiles ∧ s'.hbm = s.hbm ∧ s'.hif.mem = s.hif.mem
    let state := fun (s' : State) => (∀ o, nvmBase ≤ o → s'.rd o = s.rd o) ∧ s'.nl = s.nl ∧ s'.rel.units = s.rel.units
    let awake := s.awake = true
    let supplied := s.pwr.state ≠ .off
    let present := s.nl.presUntil.isSome = true
    let legal := 1 ≤ bits v 0 2 ∧ 1 ≤ bits v 2 9 ∧ bits v 2 9 ≤ 365 ∧ 1 ≤ bits v 11 5 ∧ bits v 11 5 ≤ 30 ∧ 1 ≤ bits v 16 8 ∧ 1 ≤ bits v 24 13
      ∧ bits v 24 13 ≤ 4096 ∧ 16 ≤ bits v 37 12
    let looser := bits old 0 2 < bits v 0 2 ∨ bits v 2 9 < bits old 2 9 ∨ bits old 11 5 < bits v 11 5 ∨ bits old 16 8 < bits v 16 8 ∨ bits old 24 13 < bits v 24 13
    (supplied → Gives (exec .journalCommit s) (fun s' => keeps s' ∧ s'.nl.journalNext = s.nl.journalNext + 1
        ∧ ∃ f : BitVec 64, (s.bcn.holds = true → f.toNat = (s.count.toNat + 2 ^ 30) % 2 ^ 64) ∧ (s.bcn.holds = false → f.toNat = s.fld NVM.FLOOR)
          ∧ s'.fld NVM.FLOOR = f.toNat ∧ Map.get {} s'.nl.journal (s.nl.journalNext % 64) = ⟨s.nl.journalNext + 1,
            (List.range 8).map (fun i => BitVec.ofNat 64 (s.fld (NVM.LIFE i))), f, BitVec.ofNat 64 s.utc⟩))
    ∧ (awake → legal → (¬ looser ∨ present) → Gives (exec (.nvmRelPolicyWrite value) s) (fun s' => s'.fld NVM.FAULT_N = bits v 0 2
        ∧ s'.fld NVM.WINDOW_D = bits v 2 9 ∧ s'.fld NVM.DEFER_D = bits v 11 5 ∧ s'.fld NVM.TEST_D = bits v 16 8 ∧ s'.fld NVM.K = bits v 24 13
        ∧ s'.fld NVM.LEAD_BT = bits v 37 12 ∧ s'.nl = s.nl ∧ keeps s'))
    ∧ (awake → legal → looser → ¬ present → Gives (exec (.nvmRelPolicyWrite value) s) (fun s' => s'.rd (nvmBase + 0x400) = s.rd (nvmBase + 0x400)
        ∧ s'.nl = s.nl ∧ keeps s'))
    ∧ (awake → (s.utc ≤ v + 300 ∨ present) → Gives (exec (.nvmCalSet value) s) (fun s' => s'.fld NVM.CAL = v ∧ s'.fld NVM.CAL_VALID = 1 ∧ s'.nl = s.nl ∧ keeps s'))
    ∧ (awake → v + 300 < s.utc → ¬ present → Gives (exec (.nvmCalSet value) s) (fun s' => s'.fld NVM.CAL = s.fld NVM.CAL
        ∧ s'.fld NVM.CAL_VALID = s.fld NVM.CAL_VALID ∧ s'.nl = s.nl ∧ keeps s'))
    ∧ (supplied → ¬ present → s.fld (NVM.LIFE 5) + 1 < 2 ^ 64 → Gives (exec .presPress s) (fun s' => s'.nl.presUntil = some (s.utc + 60)
        ∧ s'.fld (NVM.LIFE 5) = s.fld (NVM.LIFE 5) + 1 ∧ s'.nl.sec = s.nl.sec ∧ keeps s'))
    ∧ (supplied → present → exec .presPress s = .next s)
    ∧ Gives (exec .presWindowExpire s) (fun s' => s' = { s with nl := { s.nl with presUntil := none } })
    ∧ (awake → Gives (exec .presClose s) (fun s' => s' = { s with nl := { s.nl with presUntil := none } }))
    ∧ (awake →
        (present → s.nl.sealOpen = false → Gives (exec .tamperClr s) (fun s' => s'.nl.sec.tamper = false ∧ s'.nl.sec.floor = s.nl.sec.floor
            ∧ s'.nl.sec.revoked = s.nl.sec.revoked ∧ s'.nl.presUntil = s.nl.presUntil ∧ keeps s'))
        ∧ ((¬ present ∨ s.nl.sealOpen = true) → Gives (exec .tamperClr s) (fun s' => state s' ∧ keeps s')))
    ∧ (awake →
        (s.nl.sec.floor.toNat < floor.toNat → floor.toNat ≤ s.fld SEC.SVN → Gives (exec (.secFloorSet floor) s) (fun s' =>
            s'.nl.sec = { s.nl.sec with floor := floor, seq := s.nl.sec.seq + 1 } ∧ s'.regs = s.regs ∧ keeps s'))
        ∧ ((floor.toNat ≤ s.nl.sec.floor.toNat ∨ s.fld SEC.SVN < floor.toNat) → Gives (exec (.secFloorSet floor) s) (fun s' => state s' ∧ keeps s')))
    ∧ (awake → let u := unit.toNat
        (present → isUnit u = true → (s.unit u).state = 3 → Gives (exec (.secUnitReturn unit) s) (fun s' =>
            s'.unit u = { s.unit u with state := 0, faults := [], testDue := s.utc, result := 0 } ∧ (∀ w, w ≠ u → s'.unit w = s.unit w)
            ∧ s'.rel.nextSeq = s.rel.nextSeq + 1 ∧ keeps s'))
        ∧ ((¬ present ∨ isUnit u = false ∨ (s.unit u).state ≠ 3) → Gives (exec (.secUnitReturn unit) s) (fun s' => state s' ∧ keeps s')))
    ∧ (supplied → s.nl.sealOpen = false → s.fld (NVM.LIFE 6) + 1 < 2 ^ 64 → Gives (exec (.sealSample true) s) (fun s' => s'.nl.sealOpen = true
        ∧ s'.nl.sec.tamper = true ∧ s'.nl.sec.floor = s.nl.sec.floor ∧ s'.fld (NVM.LIFE 6) = s.fld (NVM.LIFE 6) + 1 ∧ keeps s'))
    ∧ (supplied → Gives (exec (.sealSample false) s) (fun s' => s' = { s with nl := { s.nl with sealOpen := false } }))
    ∧ (s.pwr.state = .off → Gives (exec (.sealSample true) s) (fun s' => s' = { s with nl := { s.nl with latched := true } }))
    ∧ (s.pwr.state = .p0 → s.fld HIF.READY = 0 →
        Gives (exec .bootRom s) (fun s' => keeps s' ∧ s'.lh = s.lh
          ∧ ((∀ p ∈ [12, 13, 14, 15], s.pageBad p = false) → s'.nl.sec = if s.nl.secA.seq < s.nl.secB.seq then s.nl.secB else s.nl.secA)
          ∧ ((∀ p ∈ [12, 13], s.pageBad p = false) → s.pageBad 14 = true → s'.nl.sec = s.nl.secA ∧ s'.nl.secB = s.nl.secA)
          ∧ (s.pwr.perst = true → s'.fld HIF.BOOT_WAIT = 0)
          ∧ (s.pwr.perst = false → s'.fld HIF.BOOT_WAIT = 1 ∧ s'.pwr.faultPin = false ∧ 4 ≤ s'.fld HIF.LINK_GEN ∧ s'.fld HIF.LINK_GEN ≤ 6
            ∧ (s'.fld HIF.LINK_WIDTH = 8 ∨ s'.fld HIF.LINK_WIDTH = 16))))

/-- From Off the input's return latches the straps and starts a cold wake. Awake: a measurement in range ends an input
fault, adding POWER_OK's cause (bit 9) where it ended one; an input fault adds it and caps the input duty at 8; a
collapse or 115 °C stops the rails. A brown-out resets the island but for the calendar. The cap controller moves its
duty one step, never below 1. At 105 °C the thermal duty is 0 until TJ is below 102 °C (stated with the engines'
queues empty); crossing 98 °C is counted, duties move at their tempo. Level 3 for 10 s makes the module hot and unfit.
With no event due, no copy moving and no job on the module, Lighthouse enters S2 with HBM kept and the tiles reset and
completes its PWR_REQ, or S3 with nothing but the island, the exact count in its floor. An enabled wake event notes
the wake, which brings back the tiles in service from S2, those of a job from its context, and boots from S3. A PLL's
loss adds bit 9's cause, puts the Beacon in holdover, resets Lighthouse, a stack's good channels or a port; its return
restores the Beacon or resets the cores. PWR_RST_N stops the rails, its release wakes. Without input only security
state, settings, journal, calendar and host memory are held to stay. HIF_PERST_N's release lets a waiting boot go on.
(R34, R514, R515, R517, R520, R521, R524, R525, R526, R528, R529, R544.) -/
def Obligations.PowerCommands : Prop :=
  ∀ (slot : BitVec 3) (board vbatOk : Bool) (vin power mean mean100 tj stack pll unit ring : Nat) (d : BitVec 512) (s : State),
    let p := s.pwr
    let keeps := fun (s' : State) => s'.tiles = s.tiles ∧ s'.hbm = s.hbm ∧ s'.hif.mem = s.hif.mem
    let nvm := fun (s' : State) => s'.nl.sec = s.nl.sec ∧ s'.nl.settings = s.nl.settings ∧ s'.nl.journal = s.nl.journal ∧ s'.fld NVM.CAL = s.fld NVM.CAL
    let rails := fun (s' : State) => s'.pwr.state = .s3 ∧ s'.fld PWR.LOWPOWER = 1 ∧ s'.fld HIF.READY = 0 ∧ s'.fld HIF.BOOT_WAIT = 0 ∧ s'.hbm = [] ∧ s'.tiles = []
      ∧ s'.lh.cur = none ∧ s'.lh.jobs = [] ∧ s'.hif.mem = s.hif.mem ∧ s'.fld NVM.CAL = s.fld NVM.CAL ∧ s'.nl.sec = s.nl.sec
    let awake := s.awake = true
    let supplied := p.state ≠ .off
    let noPower : Cause := { bit := 9, status := Status.PWR_INPUT, cycle := s.cycle }
    let noneDue := s.moves = [] ∧ s.bcn.pendingTick = none ∧ s.bcn.trees = [] ∧ ∀ st, s.lh.step = some st → st.result = none ∨ s.count ≠ st.flip
    let enters := noneDue ∧ p.state = .p0 ∧ s.lh.inReset = false ∧ s.lh.cur = none ∧ s.fld BCN.STATE ≠ 5 ∧ ∀ o ∈ s.hif.ops, o.state = 1 → cOpc o.desc ≠ 0x10 ∧ cOpc o.desc ≠ 0x11
    let served := fun (t : Nat) => t < s.tileCount ∧ (s.unit (s.physOf t)).state < 2
    let up := fun (s' : State) (t : Nat) => (s'.tile t).fld TILE.CORE_PWR = 1 ∧ (s'.tile t).fld TILE.CORE_READY = 1 ∧ (s'.tile t).rtrReady = true
    let wakes := fun (c : Instr) => Gives (exec c s) (fun s' => s' = { s with pwr := { p with wake := true } })
    let asleep := p.shutdown = false ∧ (p.state = .s2 ∨ p.state = .s3)
    (p.state = .off → Gives (exec (.powerUp slot board vbatOk) s) (fun s' => s'.pwr.state = .s3 ∧ s'.pwr.wake = true ∧ s'.pwr.cold = true
        ∧ s'.pins.slot = slot ∧ s'.pins.board = board ∧ (vbatOk = true → s'.fld NVM.CAL = s.fld NVM.CAL ∧ s'.fld NVM.VBAT_LOW = 0)
        ∧ (vbatOk = false → s'.fld NVM.CAL_VALID = 0 ∧ s'.fld NVM.VBAT_LOW = 1 ∧ ∀ u, u < 3072 → (s'.unit u).testDue = s'.utc)
        ∧ (s.nl.latched = true → s'.nl.sec.tamper = true)))
    ∧ (p.state ≠ .off → exec (.powerUp slot board vbatOk) s = .next s)
    ∧ Gives (exec .refClkStable s) (fun s' => s' = { s with pwr := { p with refStable := true } })
    ∧ (awake → 400 ≤ vin → vin ≤ 600 → Gives (exec (.vinSample vin power) s) (fun s' => s'.pwr.range = false ∧ s'.pwr.input = 16 ∧ s'.fld PWR.VIN = vin
        ∧ (p.range = true → noPower ∈ s'.causes) ∧ (p.range = false → s'.causes = s.causes) ∧ keeps s'))
    ∧ (awake → (vin < 400 ∨ 600 < vin) → Gives (exec (.vinSample vin power) s) (fun s' => s'.pwr.input = p.input ∧ s'.fld PWR.VIN = min vin 1023
        ∧ s'.causes = s.causes ∧ keeps s'))
    ∧ (awake → (vin < 400 ∨ 600 < vin) → p.range = false → Gives (exec (.inputRangeFault vin) s) (fun s' => s'.pwr.range = true ∧ s'.pwr.input = 8
        ∧ s'.pins.smbStatus.getLsbD 13 = true ∧ noPower ∈ s'.causes ∧ keeps s'))
    ∧ (awake → (vin < 370 ∨ 630 < vin) → Gives (exec (.inputCollapse vin) s) (fun s' => rails s' ∧ s'.pwr.faultPin = true ∧ Status.PWR_INPUT ∈ s'.pwr.bootEvents))
    ∧ (370 ≤ vin → vin ≤ 630 → exec (.inputCollapse vin) s = .next s)
    ∧ (p.state = .s3 → s.fld PWR.LOWPOWER = 1 → s.fld PWR.BROWNOUTS + 1 < 2 ^ 16 → Gives (exec .brownout s) (fun s' => s'.fld PWR.NL_BROWNOUT = 1
        ∧ s'.fld PWR.WAKE_AT = 0 ∧ s'.fld PWR.WAKE_UTC = 0 ∧ s'.fld PWR.BROWNOUTS = s.fld PWR.BROWNOUTS + 1 ∧ s'.nl.presUntil = none
        ∧ Status.PWR_BROWNOUT ∈ s'.pwr.bootEvents ∧ s'.fld NVM.CAL = s.fld NVM.CAL))
    ∧ (awake → let w := s.fld PWR.CAP_W
        Gives (exec (.capControl mean mean100) s) (fun s' => s'.fld PWR.POWER_W = min mean 4095 ∧ keeps s'
          ∧ (w < mean → s'.pwr.cap = max 1 (p.cap - 1)) ∧ (100 * mean < 95 * w → s'.pwr.cap = min 16 (p.cap + 1))
          ∧ (mean ≤ w → 95 * w ≤ 100 * mean → s'.pwr.cap = p.cap)
          ∧ (w < mean → p.cap = 16 → s.fld PWR.CAP_ENTRIES + 1 < 2 ^ 16 → s'.fld PWR.CAP_ENTRIES = s.fld PWR.CAP_ENTRIES + 1)
          ∧ (w < mean → p.cap = 1 → 99 ≤ p.oneFor → 102 * w < 100 * mean100 → s'.fld PWR.CAP_UNMET = 1)))
    ∧ (awake → s.fld (NVM.LIFE 7) + 1 < 2 ^ 64 →
        let sample := exec (.tjSample tj) s
        (115 ≤ tj → Gives sample (fun s' => rails s' ∧ s'.pwr.shutdown = true ∧ s'.pwr.faultPin = true ∧ s'.fld (NVM.LIFE 7) = s.fld (NVM.LIFE 7) + 1))
        ∧ (105 ≤ tj → tj < 115 → p.stopped = false → s.fld PWR.STOPS + 1 < 2 ^ 16 → Gives sample (fun s' => s'.pwr.therm = 0 ∧ s'.pwr.stopped = true
            ∧ s'.fld PWR.STOPS = s.fld PWR.STOPS + 1 ∧ s'.fld PWR.TJ = tj ∧ keeps s'))
        ∧ (102 ≤ tj → tj < 115 → p.stopped = true → Gives sample (fun s' => s'.pwr = p ∧ s'.fld PWR.TJ = tj ∧ keeps s'))
        ∧ (tj < 102 → p.stopped = true → (∀ t, (s.tile t).vq = [] ∧ (s.tile t).mq = [] ∧ (s.tile t).xq = []) → Gives sample (fun s' => s'.pwr.stopped = false ∧ 1 ≤ s'.pwr.therm ∧ s'.fld PWR.TJ = tj))
        ∧ (98 ≤ tj → tj < 105 → p.stopped = false → p.band ≠ 2 → s.fld PWR.THROTTLES + 1 < 2 ^ 16 → Gives sample (fun s' => s'.pwr.band = 2
            ∧ s'.pwr.therm = p.therm ∧ s'.fld PWR.THROTTLES = s.fld PWR.THROTTLES + 1 ∧ keeps s'))
        ∧ (98 ≤ tj → tj < 105 → p.stopped = false → p.band = 2 → p.tempo = 99 → Gives sample (fun s' => s'.pwr.therm = max 1 (p.therm - 1) ∧ s'.pwr.tempo = 0 ∧ keeps s'))
        ∧ (tj < 95 → p.stopped = false → p.band = 0 → p.tempo = 999 → Gives sample (fun s' => s'.pwr.therm = min 16 (p.therm + 1) ∧ s'.pwr.tempo = 0 ∧ keeps s')))
    ∧ (p.state = .s3 → Gives (exec (.tjSample tj) s) (fun s' => s' = { s with pwr := { p with islandTemp := tj, shutdown := p.shutdown && decide (60 ≤ tj) } }))
    ∧ (stack < 16 → awake → (s.fld (HBM.TLEVEL stack) = 3 → Gives (exec (.hbmLevel3Timeout stack) s) (fun s' => s'.pwr.hot = true ∧ s.self.toNat ∈ s'.lh.unfit ∧ keeps s'))
        ∧ (s.fld (HBM.TLEVEL stack) ≠ 3 → exec (.hbmLevel3Timeout stack) s = .next s))
    ∧ (enters → s.fld PWR.NEXT = 2 → Gives (exec .powerEntry s) (fun s' => s'.pwr.state = .s2 ∧ s'.pwr.entering = none ∧ s'.hbm = s.hbm
        ∧ (∀ t, t < s.tileCount → (s'.tile t).fld TILE.CORE_READY = 0 ∧ (s'.tile t).fld TILE.CORE_PWR = 0)
        ∧ (p.entering = some (2, some (ring, d)) → ring < 64 → cNocpl d = false → ⟨ring, d, true⟩ ∈ s.hif.started →
            ∃ b e, s'.hif.backlog = b ++ [e] ∧ e.ring = ring ∧ e.cid = cCid d ∧ e.status = 0)))
    ∧ (enters → s.fld PWR.NEXT = 3 → (∀ j ∈ s.lh.jobs, s.self.toNat ∉ j.box) → Gives (exec .powerEntry s) (fun s' => s'.pwr.state = .s3
        ∧ s'.fld PWR.LOWPOWER = 1 ∧ s'.hbm = [] ∧ s'.tiles = [] ∧ s'.fld NVM.CAL = s.fld NVM.CAL
        ∧ (s.bcn.holds = true → s'.fld NVM.FLOOR = s.count.toNat)))
    ∧ (noneDue → (p.state ≠ .p0 ∨ s.fld PWR.NEXT = 0 ∨ s.lh.inReset = true ∨ s.fld BCN.STATE = 5) → exec .powerEntry s = .next s)
    ∧ (asleep →
        ((s.fld PWR.WAKE_EN).testBit 1 = true → wakes .wakeN) ∧ ((s.fld PWR.WAKE_EN).testBit 1 = false → exec .wakeN s = .next s)
        ∧ ((s.fld PWR.WAKE_EN).testBit 0 = true → p.state = .s2 → s.fld PWR.NEXT = 2 → s.fld BCN.COUNT = s.fld PWR.WAKE_AT → wakes .wakeAtCount)
        ∧ ((s.fld PWR.WAKE_EN).testBit 3 = true → s.fld PWR.WAKE_UTC ≠ 0 → s.utc = s.fld PWR.WAKE_UTC → wakes .wakeAtUtc))
    ∧ ((s.fld PWR.WAKE_UTC = 0 ∨ s.utc ≠ s.fld PWR.WAKE_UTC) → exec .wakeAtUtc s = .next s)
    ∧ (p.wake = true →
        (p.state = .s2 → p.wakeAsked = [] → Gives (exec .wakeComplete s) (fun s' => s'.pwr.state = .p0 ∧ s'.pwr.wake = false ∧ s'.fld PWR.NEXT = 0 ∧ s'.hbm = s.hbm
          ∧ (∀ t, served t → up s' t)
          ∧ (∀ j c t, s.job = some j → s.lh.contexts = [c] → c.job = j.id → t < s.tileCount → (s'.tile t).spad = (Map.get {} c.tiles t).spad
              ∧ (s'.tile t).pc = (Map.get {} c.tiles t).pc)))
        ∧ (p.state = .s3 → p.refStable = true → p.rst = false → Gives (exec .wakeComplete s) (fun s' => s'.pwr.state = .p0 ∧ s'.pwr.wake = false
          ∧ s'.fld HIF.READY = 0 ∧ s'.fld HIF.BOOT_WAIT = (if p.perst then 0 else 1) ∧ s'.fld BCN.SLOT = s.pins.slot.toNat ∧ s'.fld PWR.LOWPOWER = 0
          ∧ s'.hbm = [] ∧ s'.tiles = [] ∧ (p.cold = true → s'.fld PWR.CAP_W = bits (s.committed (nvmBase + 0x440)).toNat 0 12)))
        ∧ (p.state = .s3 → (p.refStable = false ∨ p.rst = true) → exec .wakeComplete s = .next s))
    ∧ (p.wake = false → exec .wakeComplete s = .next s)
    ∧ (p.state = .p0 →
        (Gives (exec (.pllLockLoss 0 0) s) (fun s' => noPower ∈ s'.causes ∧ (0, 0) ∈ s'.pwr.unlocked ∧ keeps s'))
        ∧ ((s.fld BCN.STATE = 1 ∨ s.fld BCN.STATE = 2) → Gives (exec (.pllLockLoss 1 0) s) (fun s' => s'.fld BCN.STATE = 3 ∧ s'.fld BCN.SRC = 15
            ∧ s'.pwr.locked = some (s.fld BCN.STATE, s.fld BCN.SRC) ∧ s'.count = s.count ∧ keeps s'))
        ∧ Gives (exec (.pllLockLoss 2 0) s) (fun s' => s'.lh.inReset = true ∧ s'.hbm = s.hbm)
        ∧ (unit < 16 → Gives (exec (.pllLockLoss 3 unit) s) (fun s' => s'.hbm = s.hbm ∧ ∀ ch, ch < 16 → (s.fld (HBM.FAILED unit)).testBit ch = false →
            s'.fld (HBM.CH_READY unit ch) = 0 ∧ s'.fld (HBM.CH_EPOCH unit ch) = (s.fld (HBM.CH_EPOCH unit ch) + 1) % 2 ^ 16))
        ∧ (unit < 8 → Gives (exec (.pllLockLoss 4 unit) s) (fun s' => (s'.port unit).inReset = true ∧ s'.fld (BF.EPOCH unit) = (s.fld (BF.EPOCH unit) + 1) % 2 ^ 16
            ∧ s'.hbm = s.hbm)))
    ∧ (awake → (pll, unit) ∈ p.unlocked →
        (∀ st src, pll = 1 → unit = 0 → p.locked = some (st, src) → st < 8 → src < 16 → s.fld BCN.STATE = 3 → Gives (exec (.pllRelock 1 0) s) (fun s' =>
            s'.fld BCN.STATE = st ∧ s'.fld BCN.SRC = src ∧ s'.pwr.locked = none ∧ s'.count = s.count ∧ keeps s'))
        ∧ (pll = 0 → unit = 0 → Gives (exec (.pllRelock 0 0) s) (fun s' => s'.hbm = s.hbm ∧ ∀ t, t < s.tileCount → (s'.tile t).fld TILE.CORE_READY = 0
            ∧ (s'.tile t).fld TILE.CORE_EPOCH = ((s.tile t).fld TILE.CORE_EPOCH + 1) % 2 ^ 16))
        ∧ (2 ≤ pll → isPll pll unit = true → Gives (exec (.pllRelock pll unit) s) (fun s' =>
            s' = { s with pwr := { p with unlocked := p.unlocked.erase (pll, unit) } })))
    ∧ (awake → Gives (exec .pwrRstN s) (fun s' => rails s' ∧ s'.pwr.rst = true ∧ s'.pwr.wake = false))
    ∧ (p.state = .s3 → Gives (exec .pwrRstN s) (fun s' => s' = { s with pwr := { p with rst := true, wake := false } }))
    ∧ (p.rst = true → Gives (exec .pwrRstRelease s) (fun s' => s'.pwr.rst = false ∧ (asleep → s'.pwr.wake = true) ∧ keeps s' ∧ s'.regs = s.regs))
    ∧ (p.rst = false → exec .pwrRstRelease s = .next s)
    ∧ (supplied → Gives (exec .inputRemoval s) (fun s' => s'.pwr.state = .off ∧ s'.hbm = [] ∧ s'.tiles = [] ∧ s'.lh.cur = none ∧ s'.hif.mem = s.hif.mem ∧ nvm s'
        ∧ s'.nl.presUntil = none))
    ∧ (p.perst = true → p.state = .p0 → s.fld HIF.READY = 0 → s.fld HIF.BOOT_WAIT = 0 → Gives (exec .hifPerstNRelease s) (fun s' => s'.pwr.perst = false
        ∧ s'.fld HIF.BOOT_WAIT = 1 ∧ 4 ≤ s'.fld HIF.LINK_GEN ∧ s'.fld HIF.LINK_GEN ≤ 6 ∧ keeps s'))
    ∧ (p.perst = true → s.awake = false → Gives (exec .hifPerstNRelease s) (fun s' => s' = { s with pwr := { p with perst := false } }))
    ∧ (p.perst = false → exec .hifPerstNRelease s = .next s)

/-- On a board, a token that passes to this module's slot is taken by a master or a locked module that has none, and
drives from two edges on; the holder that sees it pass to another slot leaves after the next edge; a takeover drives
from the next edge, and does nothing off a board or unlocked. A driver that reads its own word changes nothing; one
that reads another slot's counts a collision, and the higher slot stops at the next edge. A receiver counts a broken
word as a missed edge; a good unmarked word of its source whose count bits agree only clears the marks. In every state
but Off a management read returns its bytes, the state code 5 while the boot waits, and with a packet error check
their CRC-8 behind them; CLEAR_FAULTS clears the status, a failed check sets CML; MFR_WAKE wakes from S2 or S3, where
enabled and no shutdown holds, only with a good check and data 0x57, any other sets CML. With the core rail on, IDCODE
scans 0x10768B47, BYPASS a 0, SAMPLE/PRELOAD loads the boundary register; EXTEST, CLAMP and HIGHZ act only while READY
is 0, else as BYPASS. What SAMPLE/PRELOAD and EXTEST scan out is left open, the register's order being unstated. Off
the rail, or Off, these do nothing. (R525, R536, R538, R545, R546.) -/
def Obligations.PinCommands : Prop :=
  ∀ (slot : BitVec 3) (word : BitVec 96) (sync : Bool) (pec : Option Bool) (data : BitVec 8) (pins : BitVec 64) (s : State),
    let on := s.awake = true ∧ s.fld BCN.BOARD = 1
    let may := s.fld BCN.STATE = 1 ∨ s.fld BCN.STATE = 2
    let onlyPins := fun (s' : State) => { s' with pins := s.pins } = s
    let drv := bits word.toNat (if sync then 80 else 16) 3
    let addr : Byte := BitVec.ofNat 8 (2 * (0x40 + s.fld BCN.SLOT))
    let check := fun (code : Byte) (bs : List Byte) => match pec with
      | some _ => bs ++ [BitVec.ofNat 8 (crc8 0 ([addr, code, addr + 1] ++ bs))]
      | none => bs
    let reads := fun (c : Instr) (code : Byte) (bs : List Byte) => Gives (exec c s) (fun s' => s'.pins.smbReply = check code bs ∧ onlyPins s'
      ∧ s'.pins.smbStatus = s.pins.smbStatus)
    let cml := fun (c : Instr) => Gives (exec c s) (fun s' => s' = { s with pins := { s.pins with smbStatus := s.pins.smbStatus ||| 2 } })
    let linear := fun (milli : Nat) => bytesOf (Config.linear11 milli).toNat 2
    let taps := fun (c : Instr) (i : BitVec 4) => Gives (exec c s) (fun s' => s'.pins.tap = i ∧ s'.pins.boundary = pins ∧ s'.pins.scanned = 0 ∧ onlyPins s')
    let bypassed := fun (c : Instr) => Gives (exec c s) (fun s' => s'.pins.tap = 15 ∧ s'.pins.scanned = 0 ∧ s'.pins.boundary = s.pins.boundary ∧ onlyPins s')
    let sampled := fun (c : Instr) (i : BitVec 4) => Gives (exec c s) (fun s' => s'.pins.tap = i ∧ s'.pins.boundary = pins ∧ s'.regs = s.regs ∧ s'.tiles = s.tiles)
    (on → slot.toNat = s.fld BCN.SLOT → may → s.fld BCN.TOKEN = 0 → Gives (exec (.bcnTokenPass slot) s) (fun s' => s'.fld BCN.TOKEN = 1
      ∧ s'.pins.driveFrom = some (s.count + 2) ∧ s'.pins.stopDriving = none ∧ s'.count = s.count))
    ∧ (on → slot.toNat ≠ s.fld BCN.SLOT → s.fld BCN.TOKEN = 1 → Gives (exec (.bcnTokenPass slot) s) (fun s' => s'.fld BCN.TOKEN = 0
      ∧ s'.pins.stopDriving = some (s.count + 1) ∧ s'.pins.driveFrom = none ∧ s'.count = s.count))
    ∧ (on → may → s.fld BCN.TOKEN = 0 → Gives (exec .bcnTokenTakeover s) (fun s' => s'.fld BCN.TOKEN = 1
      ∧ s'.pins.driveFrom = some (s.count + 1) ∧ s'.pins.stopDriving = none))
    ∧ ((¬ may ∨ s.fld BCN.BOARD = 0 ∨ s.awake = false) → exec .bcnTokenTakeover s = .next s)
    ∧ (on → s.fld BCN.DRIVING = 1 → busCrcOk word sync = true → drv = s.fld BCN.SLOT → exec (.bcnWordReceive word sync) s = .next s)
    ∧ (on → s.fld BCN.DRIVING = 1 → busCrcOk word sync = true → drv ≠ s.fld BCN.SLOT → s.fld BCN.COLLISIONS + 1 < 2 ^ 16 →
        Gives (exec (.bcnWordReceive word sync) s) (fun s' => s'.fld BCN.COLLISIONS = s.fld BCN.COLLISIONS + 1
          ∧ (drv < s.fld BCN.SLOT → s'.fld BCN.TOKEN = 0 ∧ s'.pins.stopDriving = some (s.count + 1))
          ∧ (s.fld BCN.SLOT < drv → s'.fld BCN.TOKEN = s.fld BCN.TOKEN ∧ s'.pins = s.pins)))
    ∧ (on → s.fld BCN.DRIVING = 0 → busCrcOk word sync = false → s.fld BCN.MISSED_EDGES + 1 < 2 ^ 16 →
        Gives (exec (.bcnWordReceive word sync) s) (fun s' => s'.fld BCN.MISSED_EDGES = s.fld BCN.MISSED_EDGES + 1 ∧ s'.count = s.count ∧ s'.tiles = s.tiles))
    ∧ (on → s.fld BCN.DRIVING = 0 → busCrcOk word false = true → s.bcn.holds = true → s.fld BCN.STATE = 1 → s.fld BCN.SRC = 8 → word.toNat.testBit 19 = false →
        bits word.toNat 0 16 = s.fld BCN.COUNT % 2 ^ 16 → Gives (exec (.bcnWordReceive word false) s) (fun s' =>
          s' = { s with bcn := { s.bcn with marked := false } }))
    ∧ ((s.awake = false ∨ s.fld BCN.BOARD = 0) → exec (.bcnTokenPass slot) s = .next s ∧ exec (.bcnWordReceive word sync) s = .next s)
    ∧ (s.pwr.state ≠ .off →
        reads (.statusWord pec) 0x79 (bytesOf s.pins.smbStatus.toNat 2) ∧ reads (.readVin pec) 0x88 (linear (100 * s.fld PWR.VIN))
        ∧ reads (.readIin pec) 0x89 (linear s.pwr.current) ∧ reads (.readPin pec) 0x97 (linear (1000 * s.fld PWR.POWER_W))
        ∧ reads (.readTemperature1 pec) 0x8D (linear (1000 * (if s.pwr.state = .s3 then s.pwr.islandTemp else s.fld PWR.TJ)))
        ∧ reads (.pmbusRevision pec) 0x98 [0x33] ∧ reads (.mfrSerial pec) 0xD2 (8 :: bytesOf Config.serial.toNat 8)
        ∧ reads (.mfrState pec) 0xD1 [BitVec.ofNat 8 (if s.pwr.state = .p0 ∧ s.fld HIF.BOOT_WAIT = 1 then 5 else s.powerState.code)]
        ∧ cml (.clearFaults (some false)) ∧ (pec ≠ some false → Gives (exec (.clearFaults pec) s) (fun s' => s'.pins.smbStatus = 0 ∧ onlyPins s'))
        ∧ ((pec ≠ some true ∨ data ≠ 0x57) → cml (.mfrWake data pec)) ∧ ((s.fld PWR.WAKE_EN).testBit 2 = false → exec (.mfrWake 0x57 (some true)) s = .next s)
        ∧ ((s.fld PWR.WAKE_EN).testBit 2 = true → s.pwr.shutdown = false → (s.pwr.state = .s2 ∨ s.pwr.state = .s3) →
            exec (.mfrWake 0x57 (some true)) s = .next { s with pwr := { s.pwr with wake := true } }))
    ∧ (s.pwr.state = .off → ∀ c ∈ [Instr.statusWord pec, .readVin pec, .readIin pec, .readPin pec, .readTemperature1 pec, .pmbusRevision pec, .mfrSerial pec, .mfrState pec,
        .clearFaults pec, .mfrWake data pec], exec c s = .next s)
    ∧ (s.pwr.state = .p0 →
        Gives (exec .idcode s) (fun s' => s'.pins.tap = 2 ∧ s'.pins.scanned = 0x10768B47 ∧ s'.pins.boundary = s.pins.boundary ∧ onlyPins s') ∧ bypassed .bypass
        ∧ sampled (.samplePreload pins) 1
        ∧ (s.fld HIF.READY = 0 → sampled (.extest pins) 0 ∧ taps (.clamp pins) 3 ∧ taps (.highz pins) 4)
        ∧ (s.fld HIF.READY = 1 → bypassed (.extest pins) ∧ bypassed (.clamp pins) ∧ bypassed (.highz pins)))
    ∧ (s.pwr.state ≠ .p0 → ∀ c ∈ [Instr.idcode, .bypass, .samplePreload pins, .extest pins, .clamp pins, .highz pins], exec c s = .next s)

/-- A tagged VLD or VST whose offset has bits [7:0] equal to 0 and whose length is 256, 512, 768 or 1,024 B names that one
to four consecutive slots and records no TAG_ALIGN; one that breaks either limit is refused with TAG_ALIGN, which
TILE_FAULT holds unless it held an earlier record, and no data and no tag of the scratchpad changes, no register of
the tile, and nothing on another tile. For every tile, every address in its scratchpad, every length code and both tag
modes of a load, where the access can run as it issues. (R48.) -/
def Obligations.TagAlign : Prop :=
  ∀ (load : Bool) (t off : Nat) (w : BitVec 52) (s : State),
    let x := s.tile t
    let n := lenBytes (fLEN w)
    let c : Instr := if load then .vld t w else .vst t w
    let whole := off % 256 = 0 ∧ (n = 256 ∨ n = 512 ∨ n = 768 ∨ n = 1024)
    RunsAlone t 2 (if load then 3 else 4) w { formAccess w (if load then 3 else 2) with room := decide (x.vq.length < 16) } s →
    fTAGM w ≠ 0 → s.region (memAddr (x.getS (fRA w)) w) n = .spad t off →
      (¬ whole → Gives (exec c s) (fun s' => (s'.tile t).fld TILE.FAULT_VALID = 1
        ∧ (x.fld TILE.FAULT_VALID ≠ 1 → (s'.tile t).fld TILE.FAULT_CODE = Status.TAG_ALIGN.toNat)
        ∧ (s'.tile t).spad = x.spad ∧ (s'.tile t).tags = x.tags ∧ (s'.tile t).v = x.v ∧ (s'.tile t).s = x.s ∧ (s'.tile t).p = x.p
        ∧ (∀ u, u ≠ t → s'.tile u = s.tile u) ∧ s'.hbm = s.hbm ∧ (s'.tile t).parked = x.parked))
      ∧ (whole → s.tagTarget t (memAddr (x.getS (fRA w)) w) n = (0, off / 256) ∧ 1 ≤ n / 256 ∧ n / 256 ≤ 4
        ∧ Gives (exec c s) (fun s' => (s'.tile t).fld TILE.FAULT_CODE = Status.TAG_ALIGN.toNat → x.fld TILE.FAULT_CODE = Status.TAG_ALIGN.toNat))

/-- For every stamp l and every own count now, extension gives now + d where d, the stamp less the low 32 bits of now
modulo 2^32, is at most 2^31, and now − (2^32 − d) otherwise. It names a count from 2^31 − 1 behind to 2^31 ahead of
now with l as its low 32 bits, and it is exact: for every count c in that range the extension of the low 32 bits of c
is c. The rule's two worked values come out. (R259.) -/
def Obligations.StampExtension : Prop :=
  (∀ (l : BitVec 32) (now : BitVec 64),
    let d := (l.toNat + 2 ^ 32 - now.toNat % 2 ^ 32) % 2 ^ 32
    extend l now = (if d ≤ 2 ^ 31 then now + BitVec.ofNat 64 d else now - BitVec.ofNat 64 (2 ^ 32 - d))
    ∧ (extend l now).setWidth 32 = l ∧ -(2 ^ 31 - 1) ≤ ahead (extend l now) now ∧ ahead (extend l now) now ≤ 2 ^ 31)
  ∧ (∀ c now : BitVec 64, -(2 ^ 31 - 1) ≤ ahead c now → ahead c now ≤ 2 ^ 31 → extend (c.setWidth 32) now = c)
  ∧ extend 0xFFFF_FE80 0x3_FFFF_FF00 = 0x3_FFFF_FE80 ∧ extend 0x0000_0010 0x3_FFFF_FF00 = 0x4_0000_0010
end

