-- ==== Sys2Proof/Laws/Bits.lean ====
section
/-! SUPPORT. Fields of a number read after a field was written. -/
namespace Sys2Proof.Machine

theorem testBit_bits (w l n i : Nat) : (bits w l n).testBit i = (decide (i < n) && w.testBit (l + i)) := by
  simp [bits, Nat.testBit_mod_two_pow, Nat.testBit_shiftRight]

theorem putBits_eq (w l n v : Nat) : putBits w l n v = 2 ^ l * (2 ^ n * (w / 2 ^ l / 2 ^ n) + v % 2 ^ n) + w % 2 ^ l := by
  have h1 := Nat.div_add_mod w (2 ^ l)
  have h2 := Nat.div_add_mod (w / 2 ^ l) (2 ^ n)
  have h3 : w = 2 ^ l * (2 ^ n * (w / 2 ^ l / 2 ^ n)) + (w / 2 ^ l % 2 ^ n) * 2 ^ l + w % 2 ^ l := by
    conv_lhs => rw [← h1, ← h2]
    ring
  simp only [putBits, bits, Nat.shiftRight_eq_div_pow]
  have h4 : w - (w / 2 ^ l % 2 ^ n) * 2 ^ l = 2 ^ l * (2 ^ n * (w / 2 ^ l / 2 ^ n)) + w % 2 ^ l := by omega
  rw [h4]; ring

/-- A bit of a number with one field written. -/
theorem testBit_putBits (w l n v i : Nat) :
    (putBits w l n v).testBit i = if l ≤ i ∧ i < l + n then v.testBit (i - l) else w.testBit i := by
  rw [putBits_eq, Nat.testBit_two_pow_mul_add _ (Nat.mod_lt _ (Nat.two_pow_pos l))]
  by_cases h : i < l
  · rw [if_pos h, if_neg (by omega), Nat.testBit_mod_two_pow]; simp [h]
  · rw [if_neg h, Nat.testBit_two_pow_mul_add _ (Nat.mod_lt _ (Nat.two_pow_pos n))]
    by_cases h' : i - l < n
    · rw [if_pos h', if_pos (by omega), Nat.testBit_mod_two_pow]; simp [h']
    · rw [if_neg h', if_neg (by omega), Nat.testBit_div_two_pow, Nat.testBit_div_two_pow]
      congr 1; omega

@[simp] theorem bits_putBits_same (w l n v : Nat) : bits (putBits w l n v) l n = v % 2 ^ n := by
  apply Nat.eq_of_testBit_eq; intro i
  rw [testBit_bits, testBit_putBits, Nat.testBit_mod_two_pow]
  by_cases h : i < n
  · simp [h]
  · simp [h]

/-- A field that does not touch the written one reads as before. -/
theorem bits_putBits_other (w v : Nat) {l n l' n' : Nat} (h : l + n ≤ l' ∨ l' + n' ≤ l) :
    bits (putBits w l n v) l' n' = bits w l' n' := by
  apply Nat.eq_of_testBit_eq; intro i
  rw [testBit_bits, testBit_bits, testBit_putBits]
  by_cases hi : i < n'
  · rw [if_neg (by omega)]
  · simp [hi]

theorem putBits_lt {w l n v k : Nat} (hw : w < 2 ^ k) (hl : l + n ≤ k) : putBits w l n v < 2 ^ k := by
  apply Nat.lt_pow_two_of_testBit; intro i hi
  rw [testBit_putBits, if_neg (by omega)]
  exact Nat.testBit_lt_two_pow (lt_of_lt_of_le hw (Nat.pow_le_pow_right (by norm_num) hi))

@[simp] theorem bits_lt (w l n : Nat) : bits w l n < 2 ^ n := Nat.mod_lt _ (Nat.two_pow_pos n)

end Sys2Proof.Machine
end

