-- ==== Sys2Proof/Laws/Map.lean ====
section
/-! SUPPORT. Reading a sparse map after a write, and the canonical form that every write keeps. -/
namespace Sys2Proof

variable {α : Type}

@[simp] theorem Map.get_nil (d : α) (k : Nat) : Map.get d [] k = d := rfl

@[simp] theorem Map.get_insert_same (d v : α) (m : Map α) (k : Nat) : Map.get d (Map.insert m k v) k = v := by
  induction m with
  | nil => simp [Map.insert, Map.get]
  | cons e m ih =>
    obtain ⟨j, u⟩ := e
    by_cases h : k = j
    · simp [Map.insert, h, Map.get]
    · by_cases h' : k < j
      · simp [Map.insert, h, h', Map.get]
      · simp [Map.insert, h, h', Map.get, ih]

theorem Map.get_insert_other (d v : α) (m : Map α) {k i : Nat} (hi : i ≠ k) :
    Map.get d (Map.insert m k v) i = Map.get d m i := by
  induction m with
  | nil => simp [Map.insert, Map.get, hi]
  | cons e m ih =>
    obtain ⟨j, u⟩ := e
    by_cases h : k = j
    · subst h; simp [Map.insert, Map.get, hi]
    · by_cases h' : k < j
      · simp [Map.insert, h, h', Map.get, hi]
      · simp [Map.insert, h, h', Map.get, ih]

@[simp] theorem Map.get_erase_same (d : α) (m : Map α) (k : Nat) : Map.get d (Map.erase m k) k = d := by
  induction m with
  | nil => rfl
  | cons e m ih =>
    obtain ⟨j, u⟩ := e
    by_cases h : k = j
    · simp only [Map.erase, if_pos h]; exact ih
    · simp [Map.erase, h, Map.get, ih]

theorem Map.get_erase_other (d : α) (m : Map α) {k i : Nat} (hi : i ≠ k) : Map.get d (Map.erase m k) i = Map.get d m i := by
  induction m with
  | nil => rfl
  | cons e m ih =>
    obtain ⟨j, u⟩ := e
    by_cases h : k = j
    · subst h; simp [Map.erase, Map.get, hi, ih]
    · simp [Map.erase, h, Map.get, ih]

variable [DecidableEq α]

/-- A key reads what was last written to it. -/
@[simp] theorem Map.get_set_same (d v : α) (m : Map α) (k : Nat) : Map.get d (Map.set d m k v) k = v := by
  by_cases h : v = d <;> simp [Map.set, h]

/-- Every other key reads as before, whatever it reads as where nothing is listed. -/
theorem Map.get_set_other (d d' v : α) (m : Map α) {k i : Nat} (hi : i ≠ k) :
    Map.get d' (Map.set d m k v) i = Map.get d' m i := by
  by_cases h : v = d
  · simp [Map.set, h, Map.get_erase_other d' m hi]
  · simp [Map.set, h, Map.get_insert_other d' v m hi]

theorem Map.get_set (d v : α) (m : Map α) (k i : Nat) :
    Map.get d (Map.set d m k v) i = if i = k then v else Map.get d m i := by
  by_cases h : i = k
  · subst h; simp
  · simp [h, Map.get_set_other d d v m h]

omit [DecidableEq α] in
theorem Map.risesFrom_mono {lo lo' : Nat} {m : Map α} (h : lo' ≤ lo) (w : Map.risesFrom lo m = true) : Map.risesFrom lo' m = true := by
  cases m with
  | nil => rfl
  | cons e m =>
    obtain ⟨j, u⟩ := e
    simp only [Map.risesFrom, Bool.and_eq_true, decide_eq_true_eq] at w ⊢
    exact ⟨by omega, w.2⟩

omit [DecidableEq α] in
theorem Map.risesFrom_erase {lo : Nat} {m : Map α} (k : Nat) (w : Map.risesFrom lo m = true) :
    Map.risesFrom lo (Map.erase m k) = true := by
  induction m generalizing lo with
  | nil => rfl
  | cons e m ih =>
    obtain ⟨j, u⟩ := e
    simp only [Map.risesFrom, Bool.and_eq_true, decide_eq_true_eq] at w
    by_cases h : k = j
    · simp only [Map.erase, if_pos h]
      exact Map.risesFrom_mono (by omega) (ih w.2)
    · simp only [Map.erase, if_neg h, Map.risesFrom, Bool.and_eq_true, decide_eq_true_eq]
      exact ⟨w.1, ih w.2⟩

omit [DecidableEq α] in
theorem Map.risesFrom_insert {lo : Nat} {m : Map α} (k : Nat) (v : α) (hk : lo ≤ k) (w : Map.risesFrom lo m = true) :
    Map.risesFrom lo (Map.insert m k v) = true := by
  induction m generalizing lo with
  | nil => simp [Map.insert, Map.risesFrom, hk]
  | cons e m ih =>
    obtain ⟨j, u⟩ := e
    simp only [Map.risesFrom, Bool.and_eq_true, decide_eq_true_eq] at w
    by_cases h : k = j
    · subst h; simp [Map.insert, Map.risesFrom, w]
    · by_cases h' : k < j
      · simp only [Map.insert, if_neg h, if_pos h', Map.risesFrom, Bool.and_eq_true, decide_eq_true_eq]
        exact ⟨hk, by omega, w.2⟩
      · simp only [Map.insert, if_neg h, if_neg h', Map.risesFrom, Bool.and_eq_true, decide_eq_true_eq]
        exact ⟨w.1, ih (by omega) w.2⟩

omit [DecidableEq α] in
theorem Map.mem_insert {m : Map α} {k : Nat} {v : α} {e : Nat × α} (h : e ∈ Map.insert m k v) : e = (k, v) ∨ e ∈ m := by
  induction m with
  | nil => simpa [Map.insert] using h
  | cons x m ih =>
    obtain ⟨j, u⟩ := x
    by_cases hj : k = j
    · rw [Map.insert, if_pos hj] at h
      rcases List.mem_cons.1 h with h | h
      · exact .inl h
      · exact .inr (List.mem_cons_of_mem _ h)
    · by_cases hl : k < j
      · rw [Map.insert, if_neg hj, if_pos hl] at h
        rcases List.mem_cons.1 h with h | h
        · exact .inl h
        · exact .inr h
      · rw [Map.insert, if_neg hj, if_neg hl] at h
        rcases List.mem_cons.1 h with h | h
        · exact .inr (h ▸ List.mem_cons_self)
        · rcases ih h with h | h
          · exact .inl h
          · exact .inr (List.mem_cons_of_mem _ h)

omit [DecidableEq α] in
theorem Map.mem_erase {m : Map α} {k : Nat} {e : Nat × α} (h : e ∈ Map.erase m k) : e ∈ m := by
  induction m with
  | nil => exact h
  | cons x m ih =>
    obtain ⟨j, u⟩ := x
    by_cases hj : k = j
    · rw [Map.erase, if_pos hj] at h
      exact List.mem_cons_of_mem _ (ih h)
    · rw [Map.erase, if_neg hj] at h
      rcases List.mem_cons.1 h with h | h
      · exact h ▸ List.mem_cons_self
      · exact List.mem_cons_of_mem _ (ih h)

/-- A write keeps the canonical form. -/
theorem Map.wf_set (d v : α) (m : Map α) (k : Nat) (w : Map.wf d m = true) : Map.wf d (Map.set d m k v) = true := by
  simp only [Map.wf, Bool.and_eq_true, List.all_eq_true, decide_eq_true_eq] at w ⊢
  by_cases h : v = d
  · rw [Map.set, if_pos h]
    exact ⟨Map.risesFrom_erase k w.1, fun e he => w.2 e (Map.mem_erase he)⟩
  · rw [Map.set, if_neg h]
    refine ⟨Map.risesFrom_insert k v (Nat.zero_le k) w.1, fun e he => ?_⟩
    rcases Map.mem_insert he with he | he
    · exact he ▸ h
    · exact w.2 e he

end Sys2Proof
end

