-- ==== Sys2Proof/Laws/Regs.lean ====
section
/-! SUPPORT. Registers and their fields: what reads back after a write, what a write leaves alone. -/
namespace Sys2Proof.Machine

@[simp] theorem State.rd_wr_same (s : State) (off : Nat) (v : Word) : (s.wr off v).rd off = v := by
  simp [State.rd, State.wr]

theorem State.rd_wr_other (s : State) (v : Word) {off i : Nat} (h : canonical i ≠ canonical off) : (s.wr off v).rd i = s.rd i := by
  simp [State.rd, State.wr, Map.get_set_other _ _ _ _ h]

theorem toNat_putBits (w : Word) {l n : Nat} (v : Nat) (h : l + n ≤ 64) :
    (BitVec.ofNat 64 (putBits w.toNat l n v)).toNat = putBits w.toNat l n v := by
  rw [BitVec.toNat_ofNat, Nat.mod_eq_of_lt (putBits_lt w.isLt h)]

/-- A field of a register reads what was written to it. -/
theorem State.fld_setFld_same (s : State) (f : Fld) (v : Nat) (h : f.lsb + f.width ≤ 64) : (s.setFld f v).fld f = v % 2 ^ f.width := by
  simp only [State.fld, State.setFld, State.rd_wr_same]
  rw [toNat_putBits _ _ h, bits_putBits_same]

/-- A field of another register, and another field of the same register, read as before. -/
theorem State.fld_setFld_other (s : State) {f g : Fld} (v : Nat) (h : f.lsb + f.width ≤ 64)
    (d : canonical g.off ≠ canonical f.off ∨ (g.off = f.off ∧ (f.lsb + f.width ≤ g.lsb ∨ g.lsb + g.width ≤ f.lsb))) :
    (s.setFld f v).fld g = s.fld g := by
  rcases d with d | ⟨e, d⟩
  · simp only [State.fld, State.setFld]
    rw [State.rd_wr_other s _ d]
  · simp only [State.fld, State.setFld]
    rw [e, State.rd_wr_same, toNat_putBits _ _ h, bits_putBits_other _ _ d]

@[simp] theorem Tile.rd_wr_same (t : Tile) (off : Nat) (v : Word) : (t.wr off v).rd off = v := by
  simp [Tile.rd, Tile.wr]

theorem Tile.rd_wr_other (t : Tile) (v : Word) {off i : Nat} (h : i ≠ off) : (t.wr off v).rd i = t.rd i := by
  simp [Tile.rd, Tile.wr, Map.get_set_other _ _ _ _ h]

/-- A field of a tile's control block reads what was written to it. -/
theorem Tile.fld_setFld_same (t : Tile) (f : Fld) (v : Nat) (h : f.lsb + f.width ≤ 64) : (t.setFld f v).fld f = v % 2 ^ f.width := by
  simp only [Tile.fld, Tile.setFld, Tile.rd_wr_same]
  rw [toNat_putBits _ _ h, bits_putBits_same]

/-- Every other field of it reads as before. -/
theorem Tile.fld_setFld_other (t : Tile) {f g : Fld} (v : Nat) (h : f.lsb + f.width ≤ 64)
    (d : g.off ≠ f.off ∨ (f.lsb + f.width ≤ g.lsb ∨ g.lsb + g.width ≤ f.lsb)) : (t.setFld f v).fld g = t.fld g := by
  by_cases e : g.off = f.off
  · have d' := d.resolve_left (fun n => n e)
    simp only [Tile.fld, Tile.setFld]
    rw [e, Tile.rd_wr_same, toNat_putBits _ _ h, bits_putBits_other _ _ d']
  · simp only [Tile.fld, Tile.setFld]
    rw [Tile.rd_wr_other t _ e]

end Sys2Proof.Machine
end

