-- ==== Sys2Proof/Laws/State.lean ====
section
/-! SUPPORT. What each update of the state leaves alone, field by field, so that no proof unfolds a record update. -/
namespace Sys2Proof.Machine

@[simp] theorem State.setTile_pending (s : State) (t : Nat) (x : Tile) : (s.setTile t x).pending = s.pending := rfl
@[simp] theorem State.setTile_cycle (s : State) (t : Nat) (x : Tile) : (s.setTile t x).cycle = s.cycle := rfl
@[simp] theorem State.setTile_free (s : State) (t : Nat) (x : Tile) : (s.setTile t x).free = s.free := rfl
@[simp] theorem State.setTile_nextKey (s : State) (t : Nat) (x : Tile) : (s.setTile t x).nextKey = s.nextKey := rfl
@[simp] theorem State.setTile_regs (s : State) (t : Nat) (x : Tile) : (s.setTile t x).regs = s.regs := rfl
@[simp] theorem State.setTile_hbm (s : State) (t : Nat) (x : Tile) : (s.setTile t x).hbm = s.hbm := rfl
@[simp] theorem State.setTile_halo (s : State) (t : Nat) (x : Tile) : (s.setTile t x).halo = s.halo := rfl
@[simp] theorem State.setTile_hbmBad (s : State) (t : Nat) (x : Tile) : (s.setTile t x).hbmBad = s.hbmBad := rfl
@[simp] theorem State.setTile_hbmSoft (s : State) (t : Nat) (x : Tile) : (s.setTile t x).hbmSoft = s.hbmSoft := rfl
@[simp] theorem State.setTile_hbmStacks (s : State) (t : Nat) (x : Tile) : (s.setTile t x).hbmStacks = s.hbmStacks := rfl
@[simp] theorem State.setTile_moved (s : State) (t : Nat) (x : Tile) : (s.setTile t x).moved = s.moved := rfl
@[simp] theorem State.setTile_moves (s : State) (t : Nat) (x : Tile) : (s.setTile t x).moves = s.moves := rfl
@[simp] theorem State.setTile_routers (s : State) (t : Nat) (x : Tile) : (s.setTile t x).routers = s.routers := rfl
@[simp] theorem State.setTile_retired (s : State) (t : Nat) (x : Tile) : (s.setTile t x).retired = s.retired := rfl
@[simp] theorem State.setTile_spares (s : State) (t : Nat) (x : Tile) : (s.setTile t x).spares = s.spares := rfl
@[simp] theorem State.setTile_bcn (s : State) (t : Nat) (x : Tile) : (s.setTile t x).bcn = s.bcn := rfl
@[simp] theorem State.setTile_ports (s : State) (t : Nat) (x : Tile) : (s.setTile t x).ports = s.ports := rfl
@[simp] theorem State.setTile_causes (s : State) (t : Nat) (x : Tile) : (s.setTile t x).causes = s.causes := rfl
@[simp] theorem State.setTile_jobFault (s : State) (t : Nat) (x : Tile) : (s.setTile t x).jobFault = s.jobFault := rfl
@[simp] theorem State.setTile_hif (s : State) (t : Nat) (x : Tile) : (s.setTile t x).hif = s.hif := rfl
@[simp] theorem State.setTile_lh (s : State) (t : Nat) (x : Tile) : (s.setTile t x).lh = s.lh := rfl
@[simp] theorem State.setTile_rel (s : State) (t : Nat) (x : Tile) : (s.setTile t x).rel = s.rel := rfl
@[simp] theorem State.setTile_nl (s : State) (t : Nat) (x : Tile) : (s.setTile t x).nl = s.nl := rfl
@[simp] theorem State.setTile_pwr (s : State) (t : Nat) (x : Tile) : (s.setTile t x).pwr = s.pwr := rfl
@[simp] theorem State.setTile_pins (s : State) (t : Nat) (x : Tile) : (s.setTile t x).pins = s.pins := rfl
@[simp] theorem State.setTile_colls (s : State) (t : Nat) (x : Tile) : (s.setTile t x).colls = s.colls := rfl
@[simp] theorem State.setTile_collSigs (s : State) (t : Nat) (x : Tile) : (s.setTile t x).collSigs = s.collSigs := rfl
@[simp] theorem State.setTile_collOut (s : State) (t : Nat) (x : Tile) : (s.setTile t x).collOut = s.collOut := rfl
@[simp] theorem State.setTile_collHeld (s : State) (t : Nat) (x : Tile) : (s.setTile t x).collHeld = s.collHeld := rfl
@[simp] theorem State.setTile_collAnchors (s : State) (t : Nat) (x : Tile) : (s.setTile t x).collAnchors = s.collAnchors := rfl

@[simp] theorem State.onTile_pending (s : State) (t : Nat) (f : Tile → Tile) : (s.onTile t f).pending = s.pending := rfl
@[simp] theorem State.onTile_cycle (s : State) (t : Nat) (f : Tile → Tile) : (s.onTile t f).cycle = s.cycle := rfl
@[simp] theorem State.onTile_free (s : State) (t : Nat) (f : Tile → Tile) : (s.onTile t f).free = s.free := rfl
@[simp] theorem State.onTile_nextKey (s : State) (t : Nat) (f : Tile → Tile) : (s.onTile t f).nextKey = s.nextKey := rfl
@[simp] theorem State.onTile_regs (s : State) (t : Nat) (f : Tile → Tile) : (s.onTile t f).regs = s.regs := rfl
@[simp] theorem State.onTile_hbm (s : State) (t : Nat) (f : Tile → Tile) : (s.onTile t f).hbm = s.hbm := rfl
@[simp] theorem State.onTile_halo (s : State) (t : Nat) (f : Tile → Tile) : (s.onTile t f).halo = s.halo := rfl
@[simp] theorem State.onTile_hbmBad (s : State) (t : Nat) (f : Tile → Tile) : (s.onTile t f).hbmBad = s.hbmBad := rfl
@[simp] theorem State.onTile_hbmSoft (s : State) (t : Nat) (f : Tile → Tile) : (s.onTile t f).hbmSoft = s.hbmSoft := rfl
@[simp] theorem State.onTile_hbmStacks (s : State) (t : Nat) (f : Tile → Tile) : (s.onTile t f).hbmStacks = s.hbmStacks := rfl
@[simp] theorem State.onTile_moved (s : State) (t : Nat) (f : Tile → Tile) : (s.onTile t f).moved = s.moved := rfl
@[simp] theorem State.onTile_moves (s : State) (t : Nat) (f : Tile → Tile) : (s.onTile t f).moves = s.moves := rfl
@[simp] theorem State.onTile_routers (s : State) (t : Nat) (f : Tile → Tile) : (s.onTile t f).routers = s.routers := rfl
@[simp] theorem State.onTile_retired (s : State) (t : Nat) (f : Tile → Tile) : (s.onTile t f).retired = s.retired := rfl
@[simp] theorem State.onTile_spares (s : State) (t : Nat) (f : Tile → Tile) : (s.onTile t f).spares = s.spares := rfl
@[simp] theorem State.onTile_bcn (s : State) (t : Nat) (f : Tile → Tile) : (s.onTile t f).bcn = s.bcn := rfl
@[simp] theorem State.onTile_ports (s : State) (t : Nat) (f : Tile → Tile) : (s.onTile t f).ports = s.ports := rfl
@[simp] theorem State.onTile_causes (s : State) (t : Nat) (f : Tile → Tile) : (s.onTile t f).causes = s.causes := rfl
@[simp] theorem State.onTile_jobFault (s : State) (t : Nat) (f : Tile → Tile) : (s.onTile t f).jobFault = s.jobFault := rfl
@[simp] theorem State.onTile_hif (s : State) (t : Nat) (f : Tile → Tile) : (s.onTile t f).hif = s.hif := rfl
@[simp] theorem State.onTile_lh (s : State) (t : Nat) (f : Tile → Tile) : (s.onTile t f).lh = s.lh := rfl
@[simp] theorem State.onTile_rel (s : State) (t : Nat) (f : Tile → Tile) : (s.onTile t f).rel = s.rel := rfl
@[simp] theorem State.onTile_nl (s : State) (t : Nat) (f : Tile → Tile) : (s.onTile t f).nl = s.nl := rfl
@[simp] theorem State.onTile_pwr (s : State) (t : Nat) (f : Tile → Tile) : (s.onTile t f).pwr = s.pwr := rfl
@[simp] theorem State.onTile_pins (s : State) (t : Nat) (f : Tile → Tile) : (s.onTile t f).pins = s.pins := rfl
@[simp] theorem State.onTile_colls (s : State) (t : Nat) (f : Tile → Tile) : (s.onTile t f).colls = s.colls := rfl
@[simp] theorem State.onTile_collSigs (s : State) (t : Nat) (f : Tile → Tile) : (s.onTile t f).collSigs = s.collSigs := rfl
@[simp] theorem State.onTile_collOut (s : State) (t : Nat) (f : Tile → Tile) : (s.onTile t f).collOut = s.collOut := rfl
@[simp] theorem State.onTile_collHeld (s : State) (t : Nat) (f : Tile → Tile) : (s.onTile t f).collHeld = s.collHeld := rfl
@[simp] theorem State.onTile_collAnchors (s : State) (t : Nat) (f : Tile → Tile) : (s.onTile t f).collAnchors = s.collAnchors := rfl

@[simp] theorem State.wr_pending (s : State) (off : Nat) (v : Word) : (s.wr off v).pending = s.pending := rfl
@[simp] theorem State.wr_cycle (s : State) (off : Nat) (v : Word) : (s.wr off v).cycle = s.cycle := rfl
@[simp] theorem State.wr_free (s : State) (off : Nat) (v : Word) : (s.wr off v).free = s.free := rfl
@[simp] theorem State.wr_nextKey (s : State) (off : Nat) (v : Word) : (s.wr off v).nextKey = s.nextKey := rfl
@[simp] theorem State.wr_tiles (s : State) (off : Nat) (v : Word) : (s.wr off v).tiles = s.tiles := rfl
@[simp] theorem State.wr_hbm (s : State) (off : Nat) (v : Word) : (s.wr off v).hbm = s.hbm := rfl
@[simp] theorem State.wr_halo (s : State) (off : Nat) (v : Word) : (s.wr off v).halo = s.halo := rfl
@[simp] theorem State.wr_hbmBad (s : State) (off : Nat) (v : Word) : (s.wr off v).hbmBad = s.hbmBad := rfl
@[simp] theorem State.wr_hbmSoft (s : State) (off : Nat) (v : Word) : (s.wr off v).hbmSoft = s.hbmSoft := rfl
@[simp] theorem State.wr_hbmStacks (s : State) (off : Nat) (v : Word) : (s.wr off v).hbmStacks = s.hbmStacks := rfl
@[simp] theorem State.wr_moved (s : State) (off : Nat) (v : Word) : (s.wr off v).moved = s.moved := rfl
@[simp] theorem State.wr_moves (s : State) (off : Nat) (v : Word) : (s.wr off v).moves = s.moves := rfl
@[simp] theorem State.wr_routers (s : State) (off : Nat) (v : Word) : (s.wr off v).routers = s.routers := rfl
@[simp] theorem State.wr_retired (s : State) (off : Nat) (v : Word) : (s.wr off v).retired = s.retired := rfl
@[simp] theorem State.wr_spares (s : State) (off : Nat) (v : Word) : (s.wr off v).spares = s.spares := rfl
@[simp] theorem State.wr_bcn (s : State) (off : Nat) (v : Word) : (s.wr off v).bcn = s.bcn := rfl
@[simp] theorem State.wr_ports (s : State) (off : Nat) (v : Word) : (s.wr off v).ports = s.ports := rfl
@[simp] theorem State.wr_causes (s : State) (off : Nat) (v : Word) : (s.wr off v).causes = s.causes := rfl
@[simp] theorem State.wr_jobFault (s : State) (off : Nat) (v : Word) : (s.wr off v).jobFault = s.jobFault := rfl
@[simp] theorem State.wr_hif (s : State) (off : Nat) (v : Word) : (s.wr off v).hif = s.hif := rfl
@[simp] theorem State.wr_lh (s : State) (off : Nat) (v : Word) : (s.wr off v).lh = s.lh := rfl
@[simp] theorem State.wr_rel (s : State) (off : Nat) (v : Word) : (s.wr off v).rel = s.rel := rfl
@[simp] theorem State.wr_nl (s : State) (off : Nat) (v : Word) : (s.wr off v).nl = s.nl := rfl
@[simp] theorem State.wr_pwr (s : State) (off : Nat) (v : Word) : (s.wr off v).pwr = s.pwr := rfl
@[simp] theorem State.wr_pins (s : State) (off : Nat) (v : Word) : (s.wr off v).pins = s.pins := rfl
@[simp] theorem State.wr_colls (s : State) (off : Nat) (v : Word) : (s.wr off v).colls = s.colls := rfl
@[simp] theorem State.wr_collSigs (s : State) (off : Nat) (v : Word) : (s.wr off v).collSigs = s.collSigs := rfl
@[simp] theorem State.wr_collOut (s : State) (off : Nat) (v : Word) : (s.wr off v).collOut = s.collOut := rfl
@[simp] theorem State.wr_collHeld (s : State) (off : Nat) (v : Word) : (s.wr off v).collHeld = s.collHeld := rfl
@[simp] theorem State.wr_collAnchors (s : State) (off : Nat) (v : Word) : (s.wr off v).collAnchors = s.collAnchors := rfl

@[simp] theorem State.setFld_pending (s : State) (f : Fld) (v : Nat) : (s.setFld f v).pending = s.pending := rfl
@[simp] theorem State.setFld_cycle (s : State) (f : Fld) (v : Nat) : (s.setFld f v).cycle = s.cycle := rfl
@[simp] theorem State.setFld_free (s : State) (f : Fld) (v : Nat) : (s.setFld f v).free = s.free := rfl
@[simp] theorem State.setFld_nextKey (s : State) (f : Fld) (v : Nat) : (s.setFld f v).nextKey = s.nextKey := rfl
@[simp] theorem State.setFld_tiles (s : State) (f : Fld) (v : Nat) : (s.setFld f v).tiles = s.tiles := rfl
@[simp] theorem State.setFld_hbm (s : State) (f : Fld) (v : Nat) : (s.setFld f v).hbm = s.hbm := rfl
@[simp] theorem State.setFld_halo (s : State) (f : Fld) (v : Nat) : (s.setFld f v).halo = s.halo := rfl
@[simp] theorem State.setFld_hbmBad (s : State) (f : Fld) (v : Nat) : (s.setFld f v).hbmBad = s.hbmBad := rfl
@[simp] theorem State.setFld_hbmSoft (s : State) (f : Fld) (v : Nat) : (s.setFld f v).hbmSoft = s.hbmSoft := rfl
@[simp] theorem State.setFld_hbmStacks (s : State) (f : Fld) (v : Nat) : (s.setFld f v).hbmStacks = s.hbmStacks := rfl
@[simp] theorem State.setFld_moved (s : State) (f : Fld) (v : Nat) : (s.setFld f v).moved = s.moved := rfl
@[simp] theorem State.setFld_moves (s : State) (f : Fld) (v : Nat) : (s.setFld f v).moves = s.moves := rfl
@[simp] theorem State.setFld_routers (s : State) (f : Fld) (v : Nat) : (s.setFld f v).routers = s.routers := rfl
@[simp] theorem State.setFld_retired (s : State) (f : Fld) (v : Nat) : (s.setFld f v).retired = s.retired := rfl
@[simp] theorem State.setFld_spares (s : State) (f : Fld) (v : Nat) : (s.setFld f v).spares = s.spares := rfl
@[simp] theorem State.setFld_bcn (s : State) (f : Fld) (v : Nat) : (s.setFld f v).bcn = s.bcn := rfl
@[simp] theorem State.setFld_ports (s : State) (f : Fld) (v : Nat) : (s.setFld f v).ports = s.ports := rfl
@[simp] theorem State.setFld_causes (s : State) (f : Fld) (v : Nat) : (s.setFld f v).causes = s.causes := rfl
@[simp] theorem State.setFld_jobFault (s : State) (f : Fld) (v : Nat) : (s.setFld f v).jobFault = s.jobFault := rfl
@[simp] theorem State.setFld_hif (s : State) (f : Fld) (v : Nat) : (s.setFld f v).hif = s.hif := rfl
@[simp] theorem State.setFld_lh (s : State) (f : Fld) (v : Nat) : (s.setFld f v).lh = s.lh := rfl
@[simp] theorem State.setFld_rel (s : State) (f : Fld) (v : Nat) : (s.setFld f v).rel = s.rel := rfl
@[simp] theorem State.setFld_nl (s : State) (f : Fld) (v : Nat) : (s.setFld f v).nl = s.nl := rfl
@[simp] theorem State.setFld_pwr (s : State) (f : Fld) (v : Nat) : (s.setFld f v).pwr = s.pwr := rfl
@[simp] theorem State.setFld_pins (s : State) (f : Fld) (v : Nat) : (s.setFld f v).pins = s.pins := rfl
@[simp] theorem State.setFld_colls (s : State) (f : Fld) (v : Nat) : (s.setFld f v).colls = s.colls := rfl
@[simp] theorem State.setFld_collSigs (s : State) (f : Fld) (v : Nat) : (s.setFld f v).collSigs = s.collSigs := rfl
@[simp] theorem State.setFld_collOut (s : State) (f : Fld) (v : Nat) : (s.setFld f v).collOut = s.collOut := rfl
@[simp] theorem State.setFld_collHeld (s : State) (f : Fld) (v : Nat) : (s.setFld f v).collHeld = s.collHeld := rfl
@[simp] theorem State.setFld_collAnchors (s : State) (f : Fld) (v : Nat) : (s.setFld f v).collAnchors = s.collAnchors := rfl

@[simp] theorem State.bumpFld_pending (s : State) (f : Fld) : (s.bumpFld f).pending = s.pending := rfl
@[simp] theorem State.bumpFld_cycle (s : State) (f : Fld) : (s.bumpFld f).cycle = s.cycle := rfl
@[simp] theorem State.bumpFld_free (s : State) (f : Fld) : (s.bumpFld f).free = s.free := rfl
@[simp] theorem State.bumpFld_nextKey (s : State) (f : Fld) : (s.bumpFld f).nextKey = s.nextKey := rfl
@[simp] theorem State.bumpFld_tiles (s : State) (f : Fld) : (s.bumpFld f).tiles = s.tiles := rfl
@[simp] theorem State.bumpFld_hbm (s : State) (f : Fld) : (s.bumpFld f).hbm = s.hbm := rfl
@[simp] theorem State.bumpFld_halo (s : State) (f : Fld) : (s.bumpFld f).halo = s.halo := rfl
@[simp] theorem State.bumpFld_hbmBad (s : State) (f : Fld) : (s.bumpFld f).hbmBad = s.hbmBad := rfl
@[simp] theorem State.bumpFld_hbmSoft (s : State) (f : Fld) : (s.bumpFld f).hbmSoft = s.hbmSoft := rfl
@[simp] theorem State.bumpFld_hbmStacks (s : State) (f : Fld) : (s.bumpFld f).hbmStacks = s.hbmStacks := rfl
@[simp] theorem State.bumpFld_moved (s : State) (f : Fld) : (s.bumpFld f).moved = s.moved := rfl
@[simp] theorem State.bumpFld_moves (s : State) (f : Fld) : (s.bumpFld f).moves = s.moves := rfl
@[simp] theorem State.bumpFld_routers (s : State) (f : Fld) : (s.bumpFld f).routers = s.routers := rfl
@[simp] theorem State.bumpFld_retired (s : State) (f : Fld) : (s.bumpFld f).retired = s.retired := rfl
@[simp] theorem State.bumpFld_spares (s : State) (f : Fld) : (s.bumpFld f).spares = s.spares := rfl
@[simp] theorem State.bumpFld_bcn (s : State) (f : Fld) : (s.bumpFld f).bcn = s.bcn := rfl
@[simp] theorem State.bumpFld_ports (s : State) (f : Fld) : (s.bumpFld f).ports = s.ports := rfl
@[simp] theorem State.bumpFld_causes (s : State) (f : Fld) : (s.bumpFld f).causes = s.causes := rfl
@[simp] theorem State.bumpFld_jobFault (s : State) (f : Fld) : (s.bumpFld f).jobFault = s.jobFault := rfl
@[simp] theorem State.bumpFld_hif (s : State) (f : Fld) : (s.bumpFld f).hif = s.hif := rfl
@[simp] theorem State.bumpFld_lh (s : State) (f : Fld) : (s.bumpFld f).lh = s.lh := rfl
@[simp] theorem State.bumpFld_rel (s : State) (f : Fld) : (s.bumpFld f).rel = s.rel := rfl
@[simp] theorem State.bumpFld_nl (s : State) (f : Fld) : (s.bumpFld f).nl = s.nl := rfl
@[simp] theorem State.bumpFld_pwr (s : State) (f : Fld) : (s.bumpFld f).pwr = s.pwr := rfl
@[simp] theorem State.bumpFld_pins (s : State) (f : Fld) : (s.bumpFld f).pins = s.pins := rfl
@[simp] theorem State.bumpFld_colls (s : State) (f : Fld) : (s.bumpFld f).colls = s.colls := rfl
@[simp] theorem State.bumpFld_collSigs (s : State) (f : Fld) : (s.bumpFld f).collSigs = s.collSigs := rfl
@[simp] theorem State.bumpFld_collOut (s : State) (f : Fld) : (s.bumpFld f).collOut = s.collOut := rfl
@[simp] theorem State.bumpFld_collHeld (s : State) (f : Fld) : (s.bumpFld f).collHeld = s.collHeld := rfl
@[simp] theorem State.bumpFld_collAnchors (s : State) (f : Fld) : (s.bumpFld f).collAnchors = s.collAnchors := rfl

@[simp] theorem State.addCause_pending (s : State) (c : Cause) : (s.addCause c).pending = s.pending := rfl
@[simp] theorem State.addCause_cycle (s : State) (c : Cause) : (s.addCause c).cycle = s.cycle := rfl
@[simp] theorem State.addCause_free (s : State) (c : Cause) : (s.addCause c).free = s.free := rfl
@[simp] theorem State.addCause_nextKey (s : State) (c : Cause) : (s.addCause c).nextKey = s.nextKey := rfl
@[simp] theorem State.addCause_tiles (s : State) (c : Cause) : (s.addCause c).tiles = s.tiles := rfl
@[simp] theorem State.addCause_regs (s : State) (c : Cause) : (s.addCause c).regs = s.regs := rfl
@[simp] theorem State.addCause_hbm (s : State) (c : Cause) : (s.addCause c).hbm = s.hbm := rfl
@[simp] theorem State.addCause_halo (s : State) (c : Cause) : (s.addCause c).halo = s.halo := rfl
@[simp] theorem State.addCause_hbmBad (s : State) (c : Cause) : (s.addCause c).hbmBad = s.hbmBad := rfl
@[simp] theorem State.addCause_hbmSoft (s : State) (c : Cause) : (s.addCause c).hbmSoft = s.hbmSoft := rfl
@[simp] theorem State.addCause_hbmStacks (s : State) (c : Cause) : (s.addCause c).hbmStacks = s.hbmStacks := rfl
@[simp] theorem State.addCause_moved (s : State) (c : Cause) : (s.addCause c).moved = s.moved := rfl
@[simp] theorem State.addCause_moves (s : State) (c : Cause) : (s.addCause c).moves = s.moves := rfl
@[simp] theorem State.addCause_routers (s : State) (c : Cause) : (s.addCause c).routers = s.routers := rfl
@[simp] theorem State.addCause_retired (s : State) (c : Cause) : (s.addCause c).retired = s.retired := rfl
@[simp] theorem State.addCause_spares (s : State) (c : Cause) : (s.addCause c).spares = s.spares := rfl
@[simp] theorem State.addCause_bcn (s : State) (c : Cause) : (s.addCause c).bcn = s.bcn := rfl
@[simp] theorem State.addCause_ports (s : State) (c : Cause) : (s.addCause c).ports = s.ports := rfl
@[simp] theorem State.addCause_jobFault (s : State) (c : Cause) : (s.addCause c).jobFault = s.jobFault := rfl
@[simp] theorem State.addCause_hif (s : State) (c : Cause) : (s.addCause c).hif = s.hif := rfl
@[simp] theorem State.addCause_lh (s : State) (c : Cause) : (s.addCause c).lh = s.lh := rfl
@[simp] theorem State.addCause_rel (s : State) (c : Cause) : (s.addCause c).rel = s.rel := rfl
@[simp] theorem State.addCause_nl (s : State) (c : Cause) : (s.addCause c).nl = s.nl := rfl
@[simp] theorem State.addCause_pwr (s : State) (c : Cause) : (s.addCause c).pwr = s.pwr := rfl
@[simp] theorem State.addCause_pins (s : State) (c : Cause) : (s.addCause c).pins = s.pins := rfl
@[simp] theorem State.addCause_colls (s : State) (c : Cause) : (s.addCause c).colls = s.colls := rfl
@[simp] theorem State.addCause_collSigs (s : State) (c : Cause) : (s.addCause c).collSigs = s.collSigs := rfl
@[simp] theorem State.addCause_collOut (s : State) (c : Cause) : (s.addCause c).collOut = s.collOut := rfl
@[simp] theorem State.addCause_collHeld (s : State) (c : Cause) : (s.addCause c).collHeld = s.collHeld := rfl
@[simp] theorem State.addCause_collAnchors (s : State) (c : Cause) : (s.addCause c).collAnchors = s.collAnchors := rfl

@[simp] theorem State.endJob_pending (s : State) (c : BitVec 16) : (s.endJob c).pending = s.pending := rfl
@[simp] theorem State.endJob_cycle (s : State) (c : BitVec 16) : (s.endJob c).cycle = s.cycle := rfl
@[simp] theorem State.endJob_free (s : State) (c : BitVec 16) : (s.endJob c).free = s.free := rfl
@[simp] theorem State.endJob_nextKey (s : State) (c : BitVec 16) : (s.endJob c).nextKey = s.nextKey := rfl
@[simp] theorem State.endJob_tiles (s : State) (c : BitVec 16) : (s.endJob c).tiles = s.tiles := rfl
@[simp] theorem State.endJob_regs (s : State) (c : BitVec 16) : (s.endJob c).regs = s.regs := rfl
@[simp] theorem State.endJob_hbm (s : State) (c : BitVec 16) : (s.endJob c).hbm = s.hbm := rfl
@[simp] theorem State.endJob_halo (s : State) (c : BitVec 16) : (s.endJob c).halo = s.halo := rfl
@[simp] theorem State.endJob_hbmBad (s : State) (c : BitVec 16) : (s.endJob c).hbmBad = s.hbmBad := rfl
@[simp] theorem State.endJob_hbmSoft (s : State) (c : BitVec 16) : (s.endJob c).hbmSoft = s.hbmSoft := rfl
@[simp] theorem State.endJob_hbmStacks (s : State) (c : BitVec 16) : (s.endJob c).hbmStacks = s.hbmStacks := rfl
@[simp] theorem State.endJob_moved (s : State) (c : BitVec 16) : (s.endJob c).moved = s.moved := rfl
@[simp] theorem State.endJob_moves (s : State) (c : BitVec 16) : (s.endJob c).moves = s.moves := rfl
@[simp] theorem State.endJob_routers (s : State) (c : BitVec 16) : (s.endJob c).routers = s.routers := rfl
@[simp] theorem State.endJob_retired (s : State) (c : BitVec 16) : (s.endJob c).retired = s.retired := rfl
@[simp] theorem State.endJob_spares (s : State) (c : BitVec 16) : (s.endJob c).spares = s.spares := rfl
@[simp] theorem State.endJob_bcn (s : State) (c : BitVec 16) : (s.endJob c).bcn = s.bcn := rfl
@[simp] theorem State.endJob_ports (s : State) (c : BitVec 16) : (s.endJob c).ports = s.ports := rfl
@[simp] theorem State.endJob_causes (s : State) (c : BitVec 16) : (s.endJob c).causes = s.causes := rfl
@[simp] theorem State.endJob_hif (s : State) (c : BitVec 16) : (s.endJob c).hif = s.hif := rfl
@[simp] theorem State.endJob_lh (s : State) (c : BitVec 16) : (s.endJob c).lh = s.lh := rfl
@[simp] theorem State.endJob_rel (s : State) (c : BitVec 16) : (s.endJob c).rel = s.rel := rfl
@[simp] theorem State.endJob_nl (s : State) (c : BitVec 16) : (s.endJob c).nl = s.nl := rfl
@[simp] theorem State.endJob_pwr (s : State) (c : BitVec 16) : (s.endJob c).pwr = s.pwr := rfl
@[simp] theorem State.endJob_pins (s : State) (c : BitVec 16) : (s.endJob c).pins = s.pins := rfl
@[simp] theorem State.endJob_colls (s : State) (c : BitVec 16) : (s.endJob c).colls = s.colls := rfl
@[simp] theorem State.endJob_collSigs (s : State) (c : BitVec 16) : (s.endJob c).collSigs = s.collSigs := rfl
@[simp] theorem State.endJob_collOut (s : State) (c : BitVec 16) : (s.endJob c).collOut = s.collOut := rfl
@[simp] theorem State.endJob_collHeld (s : State) (c : BitVec 16) : (s.endJob c).collHeld = s.collHeld := rfl
@[simp] theorem State.endJob_collAnchors (s : State) (c : BitVec 16) : (s.endJob c).collAnchors = s.collAnchors := rfl

@[simp] theorem State.send_pending (s : State) (t : Nat) (m : Msg) : (s.send t m).pending = s.pending := rfl
@[simp] theorem State.send_cycle (s : State) (t : Nat) (m : Msg) : (s.send t m).cycle = s.cycle := rfl
@[simp] theorem State.send_free (s : State) (t : Nat) (m : Msg) : (s.send t m).free = s.free := rfl
@[simp] theorem State.send_nextKey (s : State) (t : Nat) (m : Msg) : (s.send t m).nextKey = s.nextKey := rfl
@[simp] theorem State.send_regs (s : State) (t : Nat) (m : Msg) : (s.send t m).regs = s.regs := rfl
@[simp] theorem State.send_hbm (s : State) (t : Nat) (m : Msg) : (s.send t m).hbm = s.hbm := rfl
@[simp] theorem State.send_halo (s : State) (t : Nat) (m : Msg) : (s.send t m).halo = s.halo := rfl
@[simp] theorem State.send_hbmBad (s : State) (t : Nat) (m : Msg) : (s.send t m).hbmBad = s.hbmBad := rfl
@[simp] theorem State.send_hbmSoft (s : State) (t : Nat) (m : Msg) : (s.send t m).hbmSoft = s.hbmSoft := rfl
@[simp] theorem State.send_hbmStacks (s : State) (t : Nat) (m : Msg) : (s.send t m).hbmStacks = s.hbmStacks := rfl
@[simp] theorem State.send_moved (s : State) (t : Nat) (m : Msg) : (s.send t m).moved = s.moved := rfl
@[simp] theorem State.send_moves (s : State) (t : Nat) (m : Msg) : (s.send t m).moves = s.moves := rfl
@[simp] theorem State.send_routers (s : State) (t : Nat) (m : Msg) : (s.send t m).routers = s.routers := rfl
@[simp] theorem State.send_retired (s : State) (t : Nat) (m : Msg) : (s.send t m).retired = s.retired := rfl
@[simp] theorem State.send_spares (s : State) (t : Nat) (m : Msg) : (s.send t m).spares = s.spares := rfl
@[simp] theorem State.send_bcn (s : State) (t : Nat) (m : Msg) : (s.send t m).bcn = s.bcn := rfl
@[simp] theorem State.send_ports (s : State) (t : Nat) (m : Msg) : (s.send t m).ports = s.ports := rfl
@[simp] theorem State.send_causes (s : State) (t : Nat) (m : Msg) : (s.send t m).causes = s.causes := rfl
@[simp] theorem State.send_jobFault (s : State) (t : Nat) (m : Msg) : (s.send t m).jobFault = s.jobFault := rfl
@[simp] theorem State.send_hif (s : State) (t : Nat) (m : Msg) : (s.send t m).hif = s.hif := rfl
@[simp] theorem State.send_lh (s : State) (t : Nat) (m : Msg) : (s.send t m).lh = s.lh := rfl
@[simp] theorem State.send_rel (s : State) (t : Nat) (m : Msg) : (s.send t m).rel = s.rel := rfl
@[simp] theorem State.send_nl (s : State) (t : Nat) (m : Msg) : (s.send t m).nl = s.nl := rfl
@[simp] theorem State.send_pwr (s : State) (t : Nat) (m : Msg) : (s.send t m).pwr = s.pwr := rfl
@[simp] theorem State.send_pins (s : State) (t : Nat) (m : Msg) : (s.send t m).pins = s.pins := rfl
@[simp] theorem State.send_colls (s : State) (t : Nat) (m : Msg) : (s.send t m).colls = s.colls := rfl
@[simp] theorem State.send_collSigs (s : State) (t : Nat) (m : Msg) : (s.send t m).collSigs = s.collSigs := rfl
@[simp] theorem State.send_collOut (s : State) (t : Nat) (m : Msg) : (s.send t m).collOut = s.collOut := rfl
@[simp] theorem State.send_collHeld (s : State) (t : Nat) (m : Msg) : (s.send t m).collHeld = s.collHeld := rfl
@[simp] theorem State.send_collAnchors (s : State) (t : Nat) (m : Msg) : (s.send t m).collAnchors = s.collAnchors := rfl

@[simp] theorem State.setUnit_pending (s : State) (u : Nat) (e : UnitEntry) : (s.setUnit u e).pending = s.pending := rfl
@[simp] theorem State.setUnit_cycle (s : State) (u : Nat) (e : UnitEntry) : (s.setUnit u e).cycle = s.cycle := rfl
@[simp] theorem State.setUnit_free (s : State) (u : Nat) (e : UnitEntry) : (s.setUnit u e).free = s.free := rfl
@[simp] theorem State.setUnit_nextKey (s : State) (u : Nat) (e : UnitEntry) : (s.setUnit u e).nextKey = s.nextKey := rfl
@[simp] theorem State.setUnit_tiles (s : State) (u : Nat) (e : UnitEntry) : (s.setUnit u e).tiles = s.tiles := rfl
@[simp] theorem State.setUnit_regs (s : State) (u : Nat) (e : UnitEntry) : (s.setUnit u e).regs = s.regs := rfl
@[simp] theorem State.setUnit_hbm (s : State) (u : Nat) (e : UnitEntry) : (s.setUnit u e).hbm = s.hbm := rfl
@[simp] theorem State.setUnit_halo (s : State) (u : Nat) (e : UnitEntry) : (s.setUnit u e).halo = s.halo := rfl
@[simp] theorem State.setUnit_hbmBad (s : State) (u : Nat) (e : UnitEntry) : (s.setUnit u e).hbmBad = s.hbmBad := rfl
@[simp] theorem State.setUnit_hbmSoft (s : State) (u : Nat) (e : UnitEntry) : (s.setUnit u e).hbmSoft = s.hbmSoft := rfl
@[simp] theorem State.setUnit_hbmStacks (s : State) (u : Nat) (e : UnitEntry) : (s.setUnit u e).hbmStacks = s.hbmStacks := rfl
@[simp] theorem State.setUnit_moved (s : State) (u : Nat) (e : UnitEntry) : (s.setUnit u e).moved = s.moved := rfl
@[simp] theorem State.setUnit_moves (s : State) (u : Nat) (e : UnitEntry) : (s.setUnit u e).moves = s.moves := rfl
@[simp] theorem State.setUnit_routers (s : State) (u : Nat) (e : UnitEntry) : (s.setUnit u e).routers = s.routers := rfl
@[simp] theorem State.setUnit_retired (s : State) (u : Nat) (e : UnitEntry) : (s.setUnit u e).retired = s.retired := rfl
@[simp] theorem State.setUnit_spares (s : State) (u : Nat) (e : UnitEntry) : (s.setUnit u e).spares = s.spares := rfl
@[simp] theorem State.setUnit_bcn (s : State) (u : Nat) (e : UnitEntry) : (s.setUnit u e).bcn = s.bcn := rfl
@[simp] theorem State.setUnit_ports (s : State) (u : Nat) (e : UnitEntry) : (s.setUnit u e).ports = s.ports := rfl
@[simp] theorem State.setUnit_causes (s : State) (u : Nat) (e : UnitEntry) : (s.setUnit u e).causes = s.causes := rfl
@[simp] theorem State.setUnit_jobFault (s : State) (u : Nat) (e : UnitEntry) : (s.setUnit u e).jobFault = s.jobFault := rfl
@[simp] theorem State.setUnit_hif (s : State) (u : Nat) (e : UnitEntry) : (s.setUnit u e).hif = s.hif := rfl
@[simp] theorem State.setUnit_lh (s : State) (u : Nat) (e : UnitEntry) : (s.setUnit u e).lh = s.lh := rfl
@[simp] theorem State.setUnit_nl (s : State) (u : Nat) (e : UnitEntry) : (s.setUnit u e).nl = s.nl := rfl
@[simp] theorem State.setUnit_pwr (s : State) (u : Nat) (e : UnitEntry) : (s.setUnit u e).pwr = s.pwr := rfl
@[simp] theorem State.setUnit_pins (s : State) (u : Nat) (e : UnitEntry) : (s.setUnit u e).pins = s.pins := rfl
@[simp] theorem State.setUnit_colls (s : State) (u : Nat) (e : UnitEntry) : (s.setUnit u e).colls = s.colls := rfl
@[simp] theorem State.setUnit_collSigs (s : State) (u : Nat) (e : UnitEntry) : (s.setUnit u e).collSigs = s.collSigs := rfl
@[simp] theorem State.setUnit_collOut (s : State) (u : Nat) (e : UnitEntry) : (s.setUnit u e).collOut = s.collOut := rfl
@[simp] theorem State.setUnit_collHeld (s : State) (u : Nat) (e : UnitEntry) : (s.setUnit u e).collHeld = s.collHeld := rfl
@[simp] theorem State.setUnit_collAnchors (s : State) (u : Nat) (e : UnitEntry) : (s.setUnit u e).collAnchors = s.collAnchors := rfl

@[simp] theorem State.setPort_pending (s : State) (p : Nat) (q : Port) : (s.setPort p q).pending = s.pending := rfl
@[simp] theorem State.setPort_cycle (s : State) (p : Nat) (q : Port) : (s.setPort p q).cycle = s.cycle := rfl
@[simp] theorem State.setPort_free (s : State) (p : Nat) (q : Port) : (s.setPort p q).free = s.free := rfl
@[simp] theorem State.setPort_nextKey (s : State) (p : Nat) (q : Port) : (s.setPort p q).nextKey = s.nextKey := rfl
@[simp] theorem State.setPort_tiles (s : State) (p : Nat) (q : Port) : (s.setPort p q).tiles = s.tiles := rfl
@[simp] theorem State.setPort_regs (s : State) (p : Nat) (q : Port) : (s.setPort p q).regs = s.regs := rfl
@[simp] theorem State.setPort_hbm (s : State) (p : Nat) (q : Port) : (s.setPort p q).hbm = s.hbm := rfl
@[simp] theorem State.setPort_halo (s : State) (p : Nat) (q : Port) : (s.setPort p q).halo = s.halo := rfl
@[simp] theorem State.setPort_hbmBad (s : State) (p : Nat) (q : Port) : (s.setPort p q).hbmBad = s.hbmBad := rfl
@[simp] theorem State.setPort_hbmSoft (s : State) (p : Nat) (q : Port) : (s.setPort p q).hbmSoft = s.hbmSoft := rfl
@[simp] theorem State.setPort_hbmStacks (s : State) (p : Nat) (q : Port) : (s.setPort p q).hbmStacks = s.hbmStacks := rfl
@[simp] theorem State.setPort_moved (s : State) (p : Nat) (q : Port) : (s.setPort p q).moved = s.moved := rfl
@[simp] theorem State.setPort_moves (s : State) (p : Nat) (q : Port) : (s.setPort p q).moves = s.moves := rfl
@[simp] theorem State.setPort_routers (s : State) (p : Nat) (q : Port) : (s.setPort p q).routers = s.routers := rfl
@[simp] theorem State.setPort_retired (s : State) (p : Nat) (q : Port) : (s.setPort p q).retired = s.retired := rfl
@[simp] theorem State.setPort_spares (s : State) (p : Nat) (q : Port) : (s.setPort p q).spares = s.spares := rfl
@[simp] theorem State.setPort_bcn (s : State) (p : Nat) (q : Port) : (s.setPort p q).bcn = s.bcn := rfl
@[simp] theorem State.setPort_causes (s : State) (p : Nat) (q : Port) : (s.setPort p q).causes = s.causes := rfl
@[simp] theorem State.setPort_jobFault (s : State) (p : Nat) (q : Port) : (s.setPort p q).jobFault = s.jobFault := rfl
@[simp] theorem State.setPort_hif (s : State) (p : Nat) (q : Port) : (s.setPort p q).hif = s.hif := rfl
@[simp] theorem State.setPort_lh (s : State) (p : Nat) (q : Port) : (s.setPort p q).lh = s.lh := rfl
@[simp] theorem State.setPort_rel (s : State) (p : Nat) (q : Port) : (s.setPort p q).rel = s.rel := rfl
@[simp] theorem State.setPort_nl (s : State) (p : Nat) (q : Port) : (s.setPort p q).nl = s.nl := rfl
@[simp] theorem State.setPort_pwr (s : State) (p : Nat) (q : Port) : (s.setPort p q).pwr = s.pwr := rfl
@[simp] theorem State.setPort_pins (s : State) (p : Nat) (q : Port) : (s.setPort p q).pins = s.pins := rfl
@[simp] theorem State.setPort_colls (s : State) (p : Nat) (q : Port) : (s.setPort p q).colls = s.colls := rfl
@[simp] theorem State.setPort_collSigs (s : State) (p : Nat) (q : Port) : (s.setPort p q).collSigs = s.collSigs := rfl
@[simp] theorem State.setPort_collOut (s : State) (p : Nat) (q : Port) : (s.setPort p q).collOut = s.collOut := rfl
@[simp] theorem State.setPort_collHeld (s : State) (p : Nat) (q : Port) : (s.setPort p q).collHeld = s.collHeld := rfl
@[simp] theorem State.setPort_collAnchors (s : State) (p : Nat) (q : Port) : (s.setPort p q).collAnchors = s.collAnchors := rfl

@[simp] theorem State.setStack_pending (s : State) (k : Nat) (x : Stack) : (s.setStack k x).pending = s.pending := rfl
@[simp] theorem State.setStack_cycle (s : State) (k : Nat) (x : Stack) : (s.setStack k x).cycle = s.cycle := rfl
@[simp] theorem State.setStack_free (s : State) (k : Nat) (x : Stack) : (s.setStack k x).free = s.free := rfl
@[simp] theorem State.setStack_nextKey (s : State) (k : Nat) (x : Stack) : (s.setStack k x).nextKey = s.nextKey := rfl
@[simp] theorem State.setStack_tiles (s : State) (k : Nat) (x : Stack) : (s.setStack k x).tiles = s.tiles := rfl
@[simp] theorem State.setStack_regs (s : State) (k : Nat) (x : Stack) : (s.setStack k x).regs = s.regs := rfl
@[simp] theorem State.setStack_hbm (s : State) (k : Nat) (x : Stack) : (s.setStack k x).hbm = s.hbm := rfl
@[simp] theorem State.setStack_halo (s : State) (k : Nat) (x : Stack) : (s.setStack k x).halo = s.halo := rfl
@[simp] theorem State.setStack_hbmBad (s : State) (k : Nat) (x : Stack) : (s.setStack k x).hbmBad = s.hbmBad := rfl
@[simp] theorem State.setStack_hbmSoft (s : State) (k : Nat) (x : Stack) : (s.setStack k x).hbmSoft = s.hbmSoft := rfl
@[simp] theorem State.setStack_moved (s : State) (k : Nat) (x : Stack) : (s.setStack k x).moved = s.moved := rfl
@[simp] theorem State.setStack_moves (s : State) (k : Nat) (x : Stack) : (s.setStack k x).moves = s.moves := rfl
@[simp] theorem State.setStack_routers (s : State) (k : Nat) (x : Stack) : (s.setStack k x).routers = s.routers := rfl
@[simp] theorem State.setStack_retired (s : State) (k : Nat) (x : Stack) : (s.setStack k x).retired = s.retired := rfl
@[simp] theorem State.setStack_spares (s : State) (k : Nat) (x : Stack) : (s.setStack k x).spares = s.spares := rfl
@[simp] theorem State.setStack_bcn (s : State) (k : Nat) (x : Stack) : (s.setStack k x).bcn = s.bcn := rfl
@[simp] theorem State.setStack_ports (s : State) (k : Nat) (x : Stack) : (s.setStack k x).ports = s.ports := rfl
@[simp] theorem State.setStack_causes (s : State) (k : Nat) (x : Stack) : (s.setStack k x).causes = s.causes := rfl
@[simp] theorem State.setStack_jobFault (s : State) (k : Nat) (x : Stack) : (s.setStack k x).jobFault = s.jobFault := rfl
@[simp] theorem State.setStack_hif (s : State) (k : Nat) (x : Stack) : (s.setStack k x).hif = s.hif := rfl
@[simp] theorem State.setStack_lh (s : State) (k : Nat) (x : Stack) : (s.setStack k x).lh = s.lh := rfl
@[simp] theorem State.setStack_rel (s : State) (k : Nat) (x : Stack) : (s.setStack k x).rel = s.rel := rfl
@[simp] theorem State.setStack_nl (s : State) (k : Nat) (x : Stack) : (s.setStack k x).nl = s.nl := rfl
@[simp] theorem State.setStack_pwr (s : State) (k : Nat) (x : Stack) : (s.setStack k x).pwr = s.pwr := rfl
@[simp] theorem State.setStack_pins (s : State) (k : Nat) (x : Stack) : (s.setStack k x).pins = s.pins := rfl
@[simp] theorem State.setStack_colls (s : State) (k : Nat) (x : Stack) : (s.setStack k x).colls = s.colls := rfl
@[simp] theorem State.setStack_collSigs (s : State) (k : Nat) (x : Stack) : (s.setStack k x).collSigs = s.collSigs := rfl
@[simp] theorem State.setStack_collOut (s : State) (k : Nat) (x : Stack) : (s.setStack k x).collOut = s.collOut := rfl
@[simp] theorem State.setStack_collHeld (s : State) (k : Nat) (x : Stack) : (s.setStack k x).collHeld = s.collHeld := rfl
@[simp] theorem State.setStack_collAnchors (s : State) (k : Nat) (x : Stack) : (s.setStack k x).collAnchors = s.collAnchors := rfl

@[simp] theorem State.setHalo_pending (s : State) (b : Nat) (h : BitVec 256) : (s.setHalo b h).pending = s.pending := rfl
@[simp] theorem State.setHalo_cycle (s : State) (b : Nat) (h : BitVec 256) : (s.setHalo b h).cycle = s.cycle := rfl
@[simp] theorem State.setHalo_free (s : State) (b : Nat) (h : BitVec 256) : (s.setHalo b h).free = s.free := rfl
@[simp] theorem State.setHalo_nextKey (s : State) (b : Nat) (h : BitVec 256) : (s.setHalo b h).nextKey = s.nextKey := rfl
@[simp] theorem State.setHalo_tiles (s : State) (b : Nat) (h : BitVec 256) : (s.setHalo b h).tiles = s.tiles := rfl
@[simp] theorem State.setHalo_regs (s : State) (b : Nat) (h : BitVec 256) : (s.setHalo b h).regs = s.regs := rfl
@[simp] theorem State.setHalo_hbm (s : State) (b : Nat) (h : BitVec 256) : (s.setHalo b h).hbm = s.hbm := rfl
@[simp] theorem State.setHalo_hbmBad (s : State) (b : Nat) (h : BitVec 256) : (s.setHalo b h).hbmBad = s.hbmBad := rfl
@[simp] theorem State.setHalo_hbmSoft (s : State) (b : Nat) (h : BitVec 256) : (s.setHalo b h).hbmSoft = s.hbmSoft := rfl
@[simp] theorem State.setHalo_hbmStacks (s : State) (b : Nat) (h : BitVec 256) : (s.setHalo b h).hbmStacks = s.hbmStacks := rfl
@[simp] theorem State.setHalo_moved (s : State) (b : Nat) (h : BitVec 256) : (s.setHalo b h).moved = s.moved := rfl
@[simp] theorem State.setHalo_moves (s : State) (b : Nat) (h : BitVec 256) : (s.setHalo b h).moves = s.moves := rfl
@[simp] theorem State.setHalo_routers (s : State) (b : Nat) (h : BitVec 256) : (s.setHalo b h).routers = s.routers := rfl
@[simp] theorem State.setHalo_retired (s : State) (b : Nat) (h : BitVec 256) : (s.setHalo b h).retired = s.retired := rfl
@[simp] theorem State.setHalo_spares (s : State) (b : Nat) (h : BitVec 256) : (s.setHalo b h).spares = s.spares := rfl
@[simp] theorem State.setHalo_bcn (s : State) (b : Nat) (h : BitVec 256) : (s.setHalo b h).bcn = s.bcn := rfl
@[simp] theorem State.setHalo_ports (s : State) (b : Nat) (h : BitVec 256) : (s.setHalo b h).ports = s.ports := rfl
@[simp] theorem State.setHalo_causes (s : State) (b : Nat) (h : BitVec 256) : (s.setHalo b h).causes = s.causes := rfl
@[simp] theorem State.setHalo_jobFault (s : State) (b : Nat) (h : BitVec 256) : (s.setHalo b h).jobFault = s.jobFault := rfl
@[simp] theorem State.setHalo_hif (s : State) (b : Nat) (h : BitVec 256) : (s.setHalo b h).hif = s.hif := rfl
@[simp] theorem State.setHalo_lh (s : State) (b : Nat) (h : BitVec 256) : (s.setHalo b h).lh = s.lh := rfl
@[simp] theorem State.setHalo_rel (s : State) (b : Nat) (h : BitVec 256) : (s.setHalo b h).rel = s.rel := rfl
@[simp] theorem State.setHalo_nl (s : State) (b : Nat) (h : BitVec 256) : (s.setHalo b h).nl = s.nl := rfl
@[simp] theorem State.setHalo_pwr (s : State) (b : Nat) (h : BitVec 256) : (s.setHalo b h).pwr = s.pwr := rfl
@[simp] theorem State.setHalo_pins (s : State) (b : Nat) (h : BitVec 256) : (s.setHalo b h).pins = s.pins := rfl
@[simp] theorem State.setHalo_colls (s : State) (b : Nat) (h : BitVec 256) : (s.setHalo b h).colls = s.colls := rfl
@[simp] theorem State.setHalo_collSigs (s : State) (b : Nat) (h : BitVec 256) : (s.setHalo b h).collSigs = s.collSigs := rfl
@[simp] theorem State.setHalo_collOut (s : State) (b : Nat) (h : BitVec 256) : (s.setHalo b h).collOut = s.collOut := rfl
@[simp] theorem State.setHalo_collHeld (s : State) (b : Nat) (h : BitVec 256) : (s.setHalo b h).collHeld = s.collHeld := rfl
@[simp] theorem State.setHalo_collAnchors (s : State) (b : Nat) (h : BitVec 256) : (s.setHalo b h).collAnchors = s.collAnchors := rfl

@[simp] theorem State.setJob_pending (s : State) (j : Job) : (s.setJob j).pending = s.pending := rfl
@[simp] theorem State.setJob_cycle (s : State) (j : Job) : (s.setJob j).cycle = s.cycle := rfl
@[simp] theorem State.setJob_free (s : State) (j : Job) : (s.setJob j).free = s.free := rfl
@[simp] theorem State.setJob_nextKey (s : State) (j : Job) : (s.setJob j).nextKey = s.nextKey := rfl
@[simp] theorem State.setJob_tiles (s : State) (j : Job) : (s.setJob j).tiles = s.tiles := rfl
@[simp] theorem State.setJob_regs (s : State) (j : Job) : (s.setJob j).regs = s.regs := rfl
@[simp] theorem State.setJob_hbm (s : State) (j : Job) : (s.setJob j).hbm = s.hbm := rfl
@[simp] theorem State.setJob_halo (s : State) (j : Job) : (s.setJob j).halo = s.halo := rfl
@[simp] theorem State.setJob_hbmBad (s : State) (j : Job) : (s.setJob j).hbmBad = s.hbmBad := rfl
@[simp] theorem State.setJob_hbmSoft (s : State) (j : Job) : (s.setJob j).hbmSoft = s.hbmSoft := rfl
@[simp] theorem State.setJob_hbmStacks (s : State) (j : Job) : (s.setJob j).hbmStacks = s.hbmStacks := rfl
@[simp] theorem State.setJob_moved (s : State) (j : Job) : (s.setJob j).moved = s.moved := rfl
@[simp] theorem State.setJob_moves (s : State) (j : Job) : (s.setJob j).moves = s.moves := rfl
@[simp] theorem State.setJob_routers (s : State) (j : Job) : (s.setJob j).routers = s.routers := rfl
@[simp] theorem State.setJob_retired (s : State) (j : Job) : (s.setJob j).retired = s.retired := rfl
@[simp] theorem State.setJob_spares (s : State) (j : Job) : (s.setJob j).spares = s.spares := rfl
@[simp] theorem State.setJob_bcn (s : State) (j : Job) : (s.setJob j).bcn = s.bcn := rfl
@[simp] theorem State.setJob_ports (s : State) (j : Job) : (s.setJob j).ports = s.ports := rfl
@[simp] theorem State.setJob_causes (s : State) (j : Job) : (s.setJob j).causes = s.causes := rfl
@[simp] theorem State.setJob_jobFault (s : State) (j : Job) : (s.setJob j).jobFault = s.jobFault := rfl
@[simp] theorem State.setJob_hif (s : State) (j : Job) : (s.setJob j).hif = s.hif := rfl
@[simp] theorem State.setJob_rel (s : State) (j : Job) : (s.setJob j).rel = s.rel := rfl
@[simp] theorem State.setJob_nl (s : State) (j : Job) : (s.setJob j).nl = s.nl := rfl
@[simp] theorem State.setJob_pwr (s : State) (j : Job) : (s.setJob j).pwr = s.pwr := rfl
@[simp] theorem State.setJob_pins (s : State) (j : Job) : (s.setJob j).pins = s.pins := rfl
@[simp] theorem State.setJob_colls (s : State) (j : Job) : (s.setJob j).colls = s.colls := rfl
@[simp] theorem State.setJob_collSigs (s : State) (j : Job) : (s.setJob j).collSigs = s.collSigs := rfl
@[simp] theorem State.setJob_collOut (s : State) (j : Job) : (s.setJob j).collOut = s.collOut := rfl
@[simp] theorem State.setJob_collHeld (s : State) (j : Job) : (s.setJob j).collHeld = s.collHeld := rfl
@[simp] theorem State.setJob_collAnchors (s : State) (j : Job) : (s.setJob j).collAnchors = s.collAnchors := rfl

@[simp] theorem State.setSem_pending (s : State) (home entry : Nat) (e : Sem) : (s.setSem home entry e).pending = s.pending := rfl
@[simp] theorem State.setSem_cycle (s : State) (home entry : Nat) (e : Sem) : (s.setSem home entry e).cycle = s.cycle := rfl
@[simp] theorem State.setSem_free (s : State) (home entry : Nat) (e : Sem) : (s.setSem home entry e).free = s.free := rfl
@[simp] theorem State.setSem_nextKey (s : State) (home entry : Nat) (e : Sem) : (s.setSem home entry e).nextKey = s.nextKey := rfl
@[simp] theorem State.setSem_regs (s : State) (home entry : Nat) (e : Sem) : (s.setSem home entry e).regs = s.regs := rfl
@[simp] theorem State.setSem_hbm (s : State) (home entry : Nat) (e : Sem) : (s.setSem home entry e).hbm = s.hbm := rfl
@[simp] theorem State.setSem_halo (s : State) (home entry : Nat) (e : Sem) : (s.setSem home entry e).halo = s.halo := rfl
@[simp] theorem State.setSem_hbmBad (s : State) (home entry : Nat) (e : Sem) : (s.setSem home entry e).hbmBad = s.hbmBad := rfl
@[simp] theorem State.setSem_hbmSoft (s : State) (home entry : Nat) (e : Sem) : (s.setSem home entry e).hbmSoft = s.hbmSoft := rfl
@[simp] theorem State.setSem_hbmStacks (s : State) (home entry : Nat) (e : Sem) : (s.setSem home entry e).hbmStacks = s.hbmStacks := rfl
@[simp] theorem State.setSem_moved (s : State) (home entry : Nat) (e : Sem) : (s.setSem home entry e).moved = s.moved := rfl
@[simp] theorem State.setSem_moves (s : State) (home entry : Nat) (e : Sem) : (s.setSem home entry e).moves = s.moves := rfl
@[simp] theorem State.setSem_routers (s : State) (home entry : Nat) (e : Sem) : (s.setSem home entry e).routers = s.routers := rfl
@[simp] theorem State.setSem_retired (s : State) (home entry : Nat) (e : Sem) : (s.setSem home entry e).retired = s.retired := rfl
@[simp] theorem State.setSem_spares (s : State) (home entry : Nat) (e : Sem) : (s.setSem home entry e).spares = s.spares := rfl
@[simp] theorem State.setSem_bcn (s : State) (home entry : Nat) (e : Sem) : (s.setSem home entry e).bcn = s.bcn := rfl
@[simp] theorem State.setSem_ports (s : State) (home entry : Nat) (e : Sem) : (s.setSem home entry e).ports = s.ports := rfl
@[simp] theorem State.setSem_causes (s : State) (home entry : Nat) (e : Sem) : (s.setSem home entry e).causes = s.causes := rfl
@[simp] theorem State.setSem_jobFault (s : State) (home entry : Nat) (e : Sem) : (s.setSem home entry e).jobFault = s.jobFault := rfl
@[simp] theorem State.setSem_hif (s : State) (home entry : Nat) (e : Sem) : (s.setSem home entry e).hif = s.hif := rfl
@[simp] theorem State.setSem_lh (s : State) (home entry : Nat) (e : Sem) : (s.setSem home entry e).lh = s.lh := rfl
@[simp] theorem State.setSem_rel (s : State) (home entry : Nat) (e : Sem) : (s.setSem home entry e).rel = s.rel := rfl
@[simp] theorem State.setSem_nl (s : State) (home entry : Nat) (e : Sem) : (s.setSem home entry e).nl = s.nl := rfl
@[simp] theorem State.setSem_pwr (s : State) (home entry : Nat) (e : Sem) : (s.setSem home entry e).pwr = s.pwr := rfl
@[simp] theorem State.setSem_pins (s : State) (home entry : Nat) (e : Sem) : (s.setSem home entry e).pins = s.pins := rfl
@[simp] theorem State.setSem_colls (s : State) (home entry : Nat) (e : Sem) : (s.setSem home entry e).colls = s.colls := rfl
@[simp] theorem State.setSem_collSigs (s : State) (home entry : Nat) (e : Sem) : (s.setSem home entry e).collSigs = s.collSigs := rfl
@[simp] theorem State.setSem_collOut (s : State) (home entry : Nat) (e : Sem) : (s.setSem home entry e).collOut = s.collOut := rfl
@[simp] theorem State.setSem_collHeld (s : State) (home entry : Nat) (e : Sem) : (s.setSem home entry e).collHeld = s.collHeld := rfl
@[simp] theorem State.setSem_collAnchors (s : State) (home entry : Nat) (e : Sem) : (s.setSem home entry e).collAnchors = s.collAnchors := rfl

@[simp] theorem State.setRing_pending (s : State) (n : Nat) (r : Ring) : (s.setRing n r).pending = s.pending := rfl
@[simp] theorem State.setRing_cycle (s : State) (n : Nat) (r : Ring) : (s.setRing n r).cycle = s.cycle := rfl
@[simp] theorem State.setRing_free (s : State) (n : Nat) (r : Ring) : (s.setRing n r).free = s.free := rfl
@[simp] theorem State.setRing_nextKey (s : State) (n : Nat) (r : Ring) : (s.setRing n r).nextKey = s.nextKey := rfl
@[simp] theorem State.setRing_tiles (s : State) (n : Nat) (r : Ring) : (s.setRing n r).tiles = s.tiles := rfl
@[simp] theorem State.setRing_regs (s : State) (n : Nat) (r : Ring) : (s.setRing n r).regs = s.regs := rfl
@[simp] theorem State.setRing_hbm (s : State) (n : Nat) (r : Ring) : (s.setRing n r).hbm = s.hbm := rfl
@[simp] theorem State.setRing_halo (s : State) (n : Nat) (r : Ring) : (s.setRing n r).halo = s.halo := rfl
@[simp] theorem State.setRing_hbmBad (s : State) (n : Nat) (r : Ring) : (s.setRing n r).hbmBad = s.hbmBad := rfl
@[simp] theorem State.setRing_hbmSoft (s : State) (n : Nat) (r : Ring) : (s.setRing n r).hbmSoft = s.hbmSoft := rfl
@[simp] theorem State.setRing_hbmStacks (s : State) (n : Nat) (r : Ring) : (s.setRing n r).hbmStacks = s.hbmStacks := rfl
@[simp] theorem State.setRing_moved (s : State) (n : Nat) (r : Ring) : (s.setRing n r).moved = s.moved := rfl
@[simp] theorem State.setRing_moves (s : State) (n : Nat) (r : Ring) : (s.setRing n r).moves = s.moves := rfl
@[simp] theorem State.setRing_routers (s : State) (n : Nat) (r : Ring) : (s.setRing n r).routers = s.routers := rfl
@[simp] theorem State.setRing_retired (s : State) (n : Nat) (r : Ring) : (s.setRing n r).retired = s.retired := rfl
@[simp] theorem State.setRing_spares (s : State) (n : Nat) (r : Ring) : (s.setRing n r).spares = s.spares := rfl
@[simp] theorem State.setRing_bcn (s : State) (n : Nat) (r : Ring) : (s.setRing n r).bcn = s.bcn := rfl
@[simp] theorem State.setRing_ports (s : State) (n : Nat) (r : Ring) : (s.setRing n r).ports = s.ports := rfl
@[simp] theorem State.setRing_causes (s : State) (n : Nat) (r : Ring) : (s.setRing n r).causes = s.causes := rfl
@[simp] theorem State.setRing_jobFault (s : State) (n : Nat) (r : Ring) : (s.setRing n r).jobFault = s.jobFault := rfl
@[simp] theorem State.setRing_lh (s : State) (n : Nat) (r : Ring) : (s.setRing n r).lh = s.lh := rfl
@[simp] theorem State.setRing_rel (s : State) (n : Nat) (r : Ring) : (s.setRing n r).rel = s.rel := rfl
@[simp] theorem State.setRing_nl (s : State) (n : Nat) (r : Ring) : (s.setRing n r).nl = s.nl := rfl
@[simp] theorem State.setRing_pwr (s : State) (n : Nat) (r : Ring) : (s.setRing n r).pwr = s.pwr := rfl
@[simp] theorem State.setRing_pins (s : State) (n : Nat) (r : Ring) : (s.setRing n r).pins = s.pins := rfl
@[simp] theorem State.setRing_colls (s : State) (n : Nat) (r : Ring) : (s.setRing n r).colls = s.colls := rfl
@[simp] theorem State.setRing_collSigs (s : State) (n : Nat) (r : Ring) : (s.setRing n r).collSigs = s.collSigs := rfl
@[simp] theorem State.setRing_collOut (s : State) (n : Nat) (r : Ring) : (s.setRing n r).collOut = s.collOut := rfl
@[simp] theorem State.setRing_collHeld (s : State) (n : Nat) (r : Ring) : (s.setRing n r).collHeld = s.collHeld := rfl
@[simp] theorem State.setRing_collAnchors (s : State) (n : Nat) (r : Ring) : (s.setRing n r).collAnchors = s.collAnchors := rfl

@[simp] theorem State.setColls_pending (s : State) (a : Nat) (l : List Coll) : (s.setColls a l).pending = s.pending := rfl
@[simp] theorem State.setColls_cycle (s : State) (a : Nat) (l : List Coll) : (s.setColls a l).cycle = s.cycle := rfl
@[simp] theorem State.setColls_free (s : State) (a : Nat) (l : List Coll) : (s.setColls a l).free = s.free := rfl
@[simp] theorem State.setColls_nextKey (s : State) (a : Nat) (l : List Coll) : (s.setColls a l).nextKey = s.nextKey := rfl
@[simp] theorem State.setColls_tiles (s : State) (a : Nat) (l : List Coll) : (s.setColls a l).tiles = s.tiles := rfl
@[simp] theorem State.setColls_regs (s : State) (a : Nat) (l : List Coll) : (s.setColls a l).regs = s.regs := rfl
@[simp] theorem State.setColls_hbm (s : State) (a : Nat) (l : List Coll) : (s.setColls a l).hbm = s.hbm := rfl
@[simp] theorem State.setColls_halo (s : State) (a : Nat) (l : List Coll) : (s.setColls a l).halo = s.halo := rfl
@[simp] theorem State.setColls_hbmBad (s : State) (a : Nat) (l : List Coll) : (s.setColls a l).hbmBad = s.hbmBad := rfl
@[simp] theorem State.setColls_hbmSoft (s : State) (a : Nat) (l : List Coll) : (s.setColls a l).hbmSoft = s.hbmSoft := rfl
@[simp] theorem State.setColls_hbmStacks (s : State) (a : Nat) (l : List Coll) : (s.setColls a l).hbmStacks = s.hbmStacks := rfl
@[simp] theorem State.setColls_moved (s : State) (a : Nat) (l : List Coll) : (s.setColls a l).moved = s.moved := rfl
@[simp] theorem State.setColls_moves (s : State) (a : Nat) (l : List Coll) : (s.setColls a l).moves = s.moves := rfl
@[simp] theorem State.setColls_routers (s : State) (a : Nat) (l : List Coll) : (s.setColls a l).routers = s.routers := rfl
@[simp] theorem State.setColls_retired (s : State) (a : Nat) (l : List Coll) : (s.setColls a l).retired = s.retired := rfl
@[simp] theorem State.setColls_spares (s : State) (a : Nat) (l : List Coll) : (s.setColls a l).spares = s.spares := rfl
@[simp] theorem State.setColls_bcn (s : State) (a : Nat) (l : List Coll) : (s.setColls a l).bcn = s.bcn := rfl
@[simp] theorem State.setColls_ports (s : State) (a : Nat) (l : List Coll) : (s.setColls a l).ports = s.ports := rfl
@[simp] theorem State.setColls_causes (s : State) (a : Nat) (l : List Coll) : (s.setColls a l).causes = s.causes := rfl
@[simp] theorem State.setColls_jobFault (s : State) (a : Nat) (l : List Coll) : (s.setColls a l).jobFault = s.jobFault := rfl
@[simp] theorem State.setColls_hif (s : State) (a : Nat) (l : List Coll) : (s.setColls a l).hif = s.hif := rfl
@[simp] theorem State.setColls_lh (s : State) (a : Nat) (l : List Coll) : (s.setColls a l).lh = s.lh := rfl
@[simp] theorem State.setColls_rel (s : State) (a : Nat) (l : List Coll) : (s.setColls a l).rel = s.rel := rfl
@[simp] theorem State.setColls_nl (s : State) (a : Nat) (l : List Coll) : (s.setColls a l).nl = s.nl := rfl
@[simp] theorem State.setColls_pwr (s : State) (a : Nat) (l : List Coll) : (s.setColls a l).pwr = s.pwr := rfl
@[simp] theorem State.setColls_pins (s : State) (a : Nat) (l : List Coll) : (s.setColls a l).pins = s.pins := rfl
@[simp] theorem State.setColls_collSigs (s : State) (a : Nat) (l : List Coll) : (s.setColls a l).collSigs = s.collSigs := rfl
@[simp] theorem State.setColls_collOut (s : State) (a : Nat) (l : List Coll) : (s.setColls a l).collOut = s.collOut := rfl
@[simp] theorem State.setColls_collHeld (s : State) (a : Nat) (l : List Coll) : (s.setColls a l).collHeld = s.collHeld := rfl
@[simp] theorem State.setColls_collAnchors (s : State) (a : Nat) (l : List Coll) : (s.setColls a l).collAnchors = s.collAnchors := rfl

@[simp] theorem State.hostWrite_pending (s : State) (a : Nat) (bs : List Byte) : (s.hostWrite a bs).pending = s.pending := rfl
@[simp] theorem State.hostWrite_cycle (s : State) (a : Nat) (bs : List Byte) : (s.hostWrite a bs).cycle = s.cycle := rfl
@[simp] theorem State.hostWrite_free (s : State) (a : Nat) (bs : List Byte) : (s.hostWrite a bs).free = s.free := rfl
@[simp] theorem State.hostWrite_nextKey (s : State) (a : Nat) (bs : List Byte) : (s.hostWrite a bs).nextKey = s.nextKey := rfl
@[simp] theorem State.hostWrite_tiles (s : State) (a : Nat) (bs : List Byte) : (s.hostWrite a bs).tiles = s.tiles := rfl
@[simp] theorem State.hostWrite_regs (s : State) (a : Nat) (bs : List Byte) : (s.hostWrite a bs).regs = s.regs := rfl
@[simp] theorem State.hostWrite_hbm (s : State) (a : Nat) (bs : List Byte) : (s.hostWrite a bs).hbm = s.hbm := rfl
@[simp] theorem State.hostWrite_halo (s : State) (a : Nat) (bs : List Byte) : (s.hostWrite a bs).halo = s.halo := rfl
@[simp] theorem State.hostWrite_hbmBad (s : State) (a : Nat) (bs : List Byte) : (s.hostWrite a bs).hbmBad = s.hbmBad := rfl
@[simp] theorem State.hostWrite_hbmSoft (s : State) (a : Nat) (bs : List Byte) : (s.hostWrite a bs).hbmSoft = s.hbmSoft := rfl
@[simp] theorem State.hostWrite_hbmStacks (s : State) (a : Nat) (bs : List Byte) : (s.hostWrite a bs).hbmStacks = s.hbmStacks := rfl
@[simp] theorem State.hostWrite_moved (s : State) (a : Nat) (bs : List Byte) : (s.hostWrite a bs).moved = s.moved := rfl
@[simp] theorem State.hostWrite_moves (s : State) (a : Nat) (bs : List Byte) : (s.hostWrite a bs).moves = s.moves := rfl
@[simp] theorem State.hostWrite_routers (s : State) (a : Nat) (bs : List Byte) : (s.hostWrite a bs).routers = s.routers := rfl
@[simp] theorem State.hostWrite_retired (s : State) (a : Nat) (bs : List Byte) : (s.hostWrite a bs).retired = s.retired := rfl
@[simp] theorem State.hostWrite_spares (s : State) (a : Nat) (bs : List Byte) : (s.hostWrite a bs).spares = s.spares := rfl
@[simp] theorem State.hostWrite_bcn (s : State) (a : Nat) (bs : List Byte) : (s.hostWrite a bs).bcn = s.bcn := rfl
@[simp] theorem State.hostWrite_ports (s : State) (a : Nat) (bs : List Byte) : (s.hostWrite a bs).ports = s.ports := rfl
@[simp] theorem State.hostWrite_causes (s : State) (a : Nat) (bs : List Byte) : (s.hostWrite a bs).causes = s.causes := rfl
@[simp] theorem State.hostWrite_jobFault (s : State) (a : Nat) (bs : List Byte) : (s.hostWrite a bs).jobFault = s.jobFault := rfl
@[simp] theorem State.hostWrite_lh (s : State) (a : Nat) (bs : List Byte) : (s.hostWrite a bs).lh = s.lh := rfl
@[simp] theorem State.hostWrite_rel (s : State) (a : Nat) (bs : List Byte) : (s.hostWrite a bs).rel = s.rel := rfl
@[simp] theorem State.hostWrite_nl (s : State) (a : Nat) (bs : List Byte) : (s.hostWrite a bs).nl = s.nl := rfl
@[simp] theorem State.hostWrite_pwr (s : State) (a : Nat) (bs : List Byte) : (s.hostWrite a bs).pwr = s.pwr := rfl
@[simp] theorem State.hostWrite_pins (s : State) (a : Nat) (bs : List Byte) : (s.hostWrite a bs).pins = s.pins := rfl
@[simp] theorem State.hostWrite_colls (s : State) (a : Nat) (bs : List Byte) : (s.hostWrite a bs).colls = s.colls := rfl
@[simp] theorem State.hostWrite_collSigs (s : State) (a : Nat) (bs : List Byte) : (s.hostWrite a bs).collSigs = s.collSigs := rfl
@[simp] theorem State.hostWrite_collOut (s : State) (a : Nat) (bs : List Byte) : (s.hostWrite a bs).collOut = s.collOut := rfl
@[simp] theorem State.hostWrite_collHeld (s : State) (a : Nat) (bs : List Byte) : (s.hostWrite a bs).collHeld = s.collHeld := rfl
@[simp] theorem State.hostWrite_collAnchors (s : State) (a : Nat) (bs : List Byte) : (s.hostWrite a bs).collAnchors = s.collAnchors := rfl

@[simp] theorem State.draw_pending (s : State) (w : Nat) : (s.draw w).2.pending = s.pending := rfl
@[simp] theorem State.draw_cycle (s : State) (w : Nat) : (s.draw w).2.cycle = s.cycle := rfl
@[simp] theorem State.draw_nextKey (s : State) (w : Nat) : (s.draw w).2.nextKey = s.nextKey := rfl
@[simp] theorem State.draw_tiles (s : State) (w : Nat) : (s.draw w).2.tiles = s.tiles := rfl
@[simp] theorem State.draw_regs (s : State) (w : Nat) : (s.draw w).2.regs = s.regs := rfl
@[simp] theorem State.draw_hbm (s : State) (w : Nat) : (s.draw w).2.hbm = s.hbm := rfl
@[simp] theorem State.draw_halo (s : State) (w : Nat) : (s.draw w).2.halo = s.halo := rfl
@[simp] theorem State.draw_hbmBad (s : State) (w : Nat) : (s.draw w).2.hbmBad = s.hbmBad := rfl
@[simp] theorem State.draw_hbmSoft (s : State) (w : Nat) : (s.draw w).2.hbmSoft = s.hbmSoft := rfl
@[simp] theorem State.draw_hbmStacks (s : State) (w : Nat) : (s.draw w).2.hbmStacks = s.hbmStacks := rfl
@[simp] theorem State.draw_moved (s : State) (w : Nat) : (s.draw w).2.moved = s.moved := rfl
@[simp] theorem State.draw_moves (s : State) (w : Nat) : (s.draw w).2.moves = s.moves := rfl
@[simp] theorem State.draw_routers (s : State) (w : Nat) : (s.draw w).2.routers = s.routers := rfl
@[simp] theorem State.draw_retired (s : State) (w : Nat) : (s.draw w).2.retired = s.retired := rfl
@[simp] theorem State.draw_spares (s : State) (w : Nat) : (s.draw w).2.spares = s.spares := rfl
@[simp] theorem State.draw_bcn (s : State) (w : Nat) : (s.draw w).2.bcn = s.bcn := rfl
@[simp] theorem State.draw_ports (s : State) (w : Nat) : (s.draw w).2.ports = s.ports := rfl
@[simp] theorem State.draw_causes (s : State) (w : Nat) : (s.draw w).2.causes = s.causes := rfl
@[simp] theorem State.draw_jobFault (s : State) (w : Nat) : (s.draw w).2.jobFault = s.jobFault := rfl
@[simp] theorem State.draw_hif (s : State) (w : Nat) : (s.draw w).2.hif = s.hif := rfl
@[simp] theorem State.draw_lh (s : State) (w : Nat) : (s.draw w).2.lh = s.lh := rfl
@[simp] theorem State.draw_rel (s : State) (w : Nat) : (s.draw w).2.rel = s.rel := rfl
@[simp] theorem State.draw_nl (s : State) (w : Nat) : (s.draw w).2.nl = s.nl := rfl
@[simp] theorem State.draw_pwr (s : State) (w : Nat) : (s.draw w).2.pwr = s.pwr := rfl
@[simp] theorem State.draw_pins (s : State) (w : Nat) : (s.draw w).2.pins = s.pins := rfl
@[simp] theorem State.draw_colls (s : State) (w : Nat) : (s.draw w).2.colls = s.colls := rfl
@[simp] theorem State.draw_collSigs (s : State) (w : Nat) : (s.draw w).2.collSigs = s.collSigs := rfl
@[simp] theorem State.draw_collOut (s : State) (w : Nat) : (s.draw w).2.collOut = s.collOut := rfl
@[simp] theorem State.draw_collHeld (s : State) (w : Nat) : (s.draw w).2.collHeld = s.collHeld := rfl
@[simp] theorem State.draw_collAnchors (s : State) (w : Nat) : (s.draw w).2.collAnchors = s.collAnchors := rfl
@[simp] theorem State.key_pending (s : State) : (s.key).2.pending = s.pending := rfl
@[simp] theorem State.key_cycle (s : State) : (s.key).2.cycle = s.cycle := rfl
@[simp] theorem State.key_free (s : State) : (s.key).2.free = s.free := rfl
@[simp] theorem State.key_tiles (s : State) : (s.key).2.tiles = s.tiles := rfl
@[simp] theorem State.key_regs (s : State) : (s.key).2.regs = s.regs := rfl
@[simp] theorem State.key_hbm (s : State) : (s.key).2.hbm = s.hbm := rfl
@[simp] theorem State.key_halo (s : State) : (s.key).2.halo = s.halo := rfl
@[simp] theorem State.key_hbmBad (s : State) : (s.key).2.hbmBad = s.hbmBad := rfl
@[simp] theorem State.key_hbmSoft (s : State) : (s.key).2.hbmSoft = s.hbmSoft := rfl
@[simp] theorem State.key_hbmStacks (s : State) : (s.key).2.hbmStacks = s.hbmStacks := rfl
@[simp] theorem State.key_moved (s : State) : (s.key).2.moved = s.moved := rfl
@[simp] theorem State.key_moves (s : State) : (s.key).2.moves = s.moves := rfl
@[simp] theorem State.key_routers (s : State) : (s.key).2.routers = s.routers := rfl
@[simp] theorem State.key_retired (s : State) : (s.key).2.retired = s.retired := rfl
@[simp] theorem State.key_spares (s : State) : (s.key).2.spares = s.spares := rfl
@[simp] theorem State.key_bcn (s : State) : (s.key).2.bcn = s.bcn := rfl
@[simp] theorem State.key_ports (s : State) : (s.key).2.ports = s.ports := rfl
@[simp] theorem State.key_causes (s : State) : (s.key).2.causes = s.causes := rfl
@[simp] theorem State.key_jobFault (s : State) : (s.key).2.jobFault = s.jobFault := rfl
@[simp] theorem State.key_hif (s : State) : (s.key).2.hif = s.hif := rfl
@[simp] theorem State.key_lh (s : State) : (s.key).2.lh = s.lh := rfl
@[simp] theorem State.key_rel (s : State) : (s.key).2.rel = s.rel := rfl
@[simp] theorem State.key_nl (s : State) : (s.key).2.nl = s.nl := rfl
@[simp] theorem State.key_pwr (s : State) : (s.key).2.pwr = s.pwr := rfl
@[simp] theorem State.key_pins (s : State) : (s.key).2.pins = s.pins := rfl
@[simp] theorem State.key_colls (s : State) : (s.key).2.colls = s.colls := rfl
@[simp] theorem State.key_collSigs (s : State) : (s.key).2.collSigs = s.collSigs := rfl
@[simp] theorem State.key_collOut (s : State) : (s.key).2.collOut = s.collOut := rfl
@[simp] theorem State.key_collHeld (s : State) : (s.key).2.collHeld = s.collHeld := rfl
@[simp] theorem State.key_collAnchors (s : State) : (s.key).2.collAnchors = s.collAnchors := rfl
@[simp] theorem State.draw_free (s : State) (w : Nat) : (s.draw w).2.free = s.free + 1 := rfl
@[simp] theorem State.key_nextKey (s : State) : (s.key).2.nextKey = s.nextKey + 1 := rfl

@[simp] theorem Tile.wr_s (t : Tile) (off : Nat) (v : Word) : (t.wr off v).s = t.s := rfl
@[simp] theorem Tile.wr_p (t : Tile) (off : Nat) (v : Word) : (t.wr off v).p = t.p := rfl
@[simp] theorem Tile.wr_v (t : Tile) (off : Nat) (v : Word) : (t.wr off v).v = t.v := rfl
@[simp] theorem Tile.wr_acc (t : Tile) (off : Nat) (v : Word) : (t.wr off v).acc = t.acc := rfl
@[simp] theorem Tile.wr_pc (t : Tile) (off : Nat) (v : Word) : (t.wr off v).pc = t.pc := rfl
@[simp] theorem Tile.wr_ibuf (t : Tile) (off : Nat) (v : Word) : (t.wr off v).ibuf = t.ibuf := rfl
@[simp] theorem Tile.wr_stall (t : Tile) (off : Nat) (v : Word) : (t.wr off v).stall = t.stall := rfl
@[simp] theorem Tile.wr_busy (t : Tile) (off : Nat) (v : Word) : (t.wr off v).busy = t.busy := rfl
@[simp] theorem Tile.wr_vbusy (t : Tile) (off : Nat) (v : Word) : (t.wr off v).vbusy = t.vbusy := rfl
@[simp] theorem Tile.wr_vecs (t : Tile) (off : Nat) (v : Word) : (t.wr off v).vecs = t.vecs := rfl
@[simp] theorem Tile.wr_mats (t : Tile) (off : Nat) (v : Word) : (t.wr off v).mats = t.mats := rfl
@[simp] theorem Tile.wr_vq (t : Tile) (off : Nat) (v : Word) : (t.wr off v).vq = t.vq := rfl
@[simp] theorem Tile.wr_stages (t : Tile) (off : Nat) (v : Word) : (t.wr off v).stages = t.stages := rfl
@[simp] theorem Tile.wr_mq (t : Tile) (off : Nat) (v : Word) : (t.wr off v).mq = t.mq := rfl
@[simp] theorem Tile.wr_xq (t : Tile) (off : Nat) (v : Word) : (t.wr off v).xq = t.xq := rfl
@[simp] theorem Tile.wr_dma (t : Tile) (off : Nat) (v : Word) : (t.wr off v).dma = t.dma := rfl
@[simp] theorem Tile.wr_dmaNext (t : Tile) (off : Nat) (v : Word) : (t.wr off v).dmaNext = t.dmaNext := rfl
@[simp] theorem Tile.wr_dmaStatus (t : Tile) (off : Nat) (v : Word) : (t.wr off v).dmaStatus = t.dmaStatus := rfl
@[simp] theorem Tile.wr_dmaFails (t : Tile) (off : Nat) (v : Word) : (t.wr off v).dmaFails = t.dmaFails := rfl
@[simp] theorem Tile.wr_sigs (t : Tile) (off : Nat) (v : Word) : (t.wr off v).sigs = t.sigs := rfl
@[simp] theorem Tile.wr_sigsOut (t : Tile) (off : Nat) (v : Word) : (t.wr off v).sigsOut = t.sigsOut := rfl
@[simp] theorem Tile.wr_grantsOut (t : Tile) (off : Nat) (v : Word) : (t.wr off v).grantsOut = t.grantsOut := rfl
@[simp] theorem Tile.wr_txns (t : Tile) (off : Nat) (v : Word) : (t.wr off v).txns = t.txns := rfl
@[simp] theorem Tile.wr_spad (t : Tile) (off : Nat) (v : Word) : (t.wr off v).spad = t.spad := rfl
@[simp] theorem Tile.wr_tags (t : Tile) (off : Nat) (v : Word) : (t.wr off v).tags = t.tags := rfl
@[simp] theorem Tile.wr_dark (t : Tile) (off : Nat) (v : Word) : (t.wr off v).dark = t.dark := rfl
@[simp] theorem Tile.wr_eccSingle (t : Tile) (off : Nat) (v : Word) : (t.wr off v).eccSingle = t.eccSingle := rfl
@[simp] theorem Tile.wr_eccDouble (t : Tile) (off : Nat) (v : Word) : (t.wr off v).eccDouble = t.eccDouble := rfl
@[simp] theorem Tile.wr_tagParity (t : Tile) (off : Nat) (v : Word) : (t.wr off v).tagParity = t.tagParity := rfl
@[simp] theorem Tile.wr_parked (t : Tile) (off : Nat) (v : Word) : (t.wr off v).parked = t.parked := rfl
@[simp] theorem Tile.wr_wins (t : Tile) (off : Nat) (v : Word) : (t.wr off v).wins = t.wins := rfl
@[simp] theorem Tile.wr_credits (t : Tile) (off : Nat) (v : Word) : (t.wr off v).credits = t.credits := rfl
@[simp] theorem Tile.wr_writes (t : Tile) (off : Nat) (v : Word) : (t.wr off v).writes = t.writes := rfl
@[simp] theorem Tile.wr_heldWrites (t : Tile) (off : Nat) (v : Word) : (t.wr off v).heldWrites = t.heldWrites := rfl
@[simp] theorem Tile.wr_reads (t : Tile) (off : Nat) (v : Word) : (t.wr off v).reads = t.reads := rfl
@[simp] theorem Tile.wr_mail (t : Tile) (off : Nat) (v : Word) : (t.wr off v).mail = t.mail := rfl
@[simp] theorem Tile.wr_sems (t : Tile) (off : Nat) (v : Word) : (t.wr off v).sems = t.sems := rfl
@[simp] theorem Tile.wr_semOps (t : Tile) (off : Nat) (v : Word) : (t.wr off v).semOps = t.semOps := rfl
@[simp] theorem Tile.wr_resetAt (t : Tile) (off : Nat) (v : Word) : (t.wr off v).resetAt = t.resetAt := rfl
@[simp] theorem Tile.wr_rtrResetAt (t : Tile) (off : Nat) (v : Word) : (t.wr off v).rtrResetAt = t.rtrResetAt := rfl
@[simp] theorem Tile.wr_rtrReady (t : Tile) (off : Nat) (v : Word) : (t.wr off v).rtrReady = t.rtrReady := rfl
@[simp] theorem Tile.wr_lists (t : Tile) (off : Nat) (v : Word) : (t.wr off v).lists = t.lists := rfl
@[simp] theorem Tile.wr_running (t : Tile) (off : Nat) (v : Word) : (t.wr off v).running = t.running := rfl
@[simp] theorem Tile.wr_astWait (t : Tile) (off : Nat) (v : Word) : (t.wr off v).astWait = t.astWait := rfl
@[simp] theorem Tile.wr_lastBackward (t : Tile) (off : Nat) (v : Word) : (t.wr off v).lastBackward = t.lastBackward := rfl
@[simp] theorem Tile.wr_terms (t : Tile) (off : Nat) (v : Word) : (t.wr off v).terms = t.terms := rfl
@[simp] theorem Tile.wr_phase (t : Tile) (off : Nat) (v : Word) : (t.wr off v).phase = t.phase := rfl
@[simp] theorem Tile.wr_recv0 (t : Tile) (off : Nat) (v : Word) : (t.wr off v).recv0 = t.recv0 := rfl
@[simp] theorem Tile.wr_early (t : Tile) (off : Nat) (v : Word) : (t.wr off v).early = t.early := rfl
@[simp] theorem Tile.wr_recv1 (t : Tile) (off : Nat) (v : Word) : (t.wr off v).recv1 = t.recv1 := rfl
@[simp] theorem Tile.wr_picks (t : Tile) (off : Nat) (v : Word) : (t.wr off v).picks = t.picks := rfl
@[simp] theorem Tile.wr_mcasts (t : Tile) (off : Nat) (v : Word) : (t.wr off v).mcasts = t.mcasts := rfl
@[simp] theorem Tile.wr_closing (t : Tile) (off : Nat) (v : Word) : (t.wr off v).closing = t.closing := rfl
@[simp] theorem Tile.wr_xsend (t : Tile) (off : Nat) (v : Word) : (t.wr off v).xsend = t.xsend := rfl
@[simp] theorem Tile.wr_creditWait (t : Tile) (off : Nat) (v : Word) : (t.wr off v).creditWait = t.creditWait := rfl
@[simp] theorem Tile.wr_startHeld (t : Tile) (off : Nat) (v : Word) : (t.wr off v).startHeld = t.startHeld := rfl
@[simp] theorem Tile.wr_halted (t : Tile) (off : Nat) (v : Word) : (t.wr off v).halted = t.halted := rfl
@[simp] theorem Tile.wr_ended (t : Tile) (off : Nat) (v : Word) : (t.wr off v).ended = t.ended := rfl
@[simp] theorem Tile.wr_haltReported (t : Tile) (off : Nat) (v : Word) : (t.wr off v).haltReported = t.haltReported := rfl

@[simp] theorem Tile.setFld_s (t : Tile) (f : Fld) (v : Nat) : (t.setFld f v).s = t.s := rfl
@[simp] theorem Tile.setFld_p (t : Tile) (f : Fld) (v : Nat) : (t.setFld f v).p = t.p := rfl
@[simp] theorem Tile.setFld_v (t : Tile) (f : Fld) (v : Nat) : (t.setFld f v).v = t.v := rfl
@[simp] theorem Tile.setFld_acc (t : Tile) (f : Fld) (v : Nat) : (t.setFld f v).acc = t.acc := rfl
@[simp] theorem Tile.setFld_pc (t : Tile) (f : Fld) (v : Nat) : (t.setFld f v).pc = t.pc := rfl
@[simp] theorem Tile.setFld_ibuf (t : Tile) (f : Fld) (v : Nat) : (t.setFld f v).ibuf = t.ibuf := rfl
@[simp] theorem Tile.setFld_stall (t : Tile) (f : Fld) (v : Nat) : (t.setFld f v).stall = t.stall := rfl
@[simp] theorem Tile.setFld_busy (t : Tile) (f : Fld) (v : Nat) : (t.setFld f v).busy = t.busy := rfl
@[simp] theorem Tile.setFld_vbusy (t : Tile) (f : Fld) (v : Nat) : (t.setFld f v).vbusy = t.vbusy := rfl
@[simp] theorem Tile.setFld_vecs (t : Tile) (f : Fld) (v : Nat) : (t.setFld f v).vecs = t.vecs := rfl
@[simp] theorem Tile.setFld_mats (t : Tile) (f : Fld) (v : Nat) : (t.setFld f v).mats = t.mats := rfl
@[simp] theorem Tile.setFld_vq (t : Tile) (f : Fld) (v : Nat) : (t.setFld f v).vq = t.vq := rfl
@[simp] theorem Tile.setFld_stages (t : Tile) (f : Fld) (v : Nat) : (t.setFld f v).stages = t.stages := rfl
@[simp] theorem Tile.setFld_mq (t : Tile) (f : Fld) (v : Nat) : (t.setFld f v).mq = t.mq := rfl
@[simp] theorem Tile.setFld_xq (t : Tile) (f : Fld) (v : Nat) : (t.setFld f v).xq = t.xq := rfl
@[simp] theorem Tile.setFld_dma (t : Tile) (f : Fld) (v : Nat) : (t.setFld f v).dma = t.dma := rfl
@[simp] theorem Tile.setFld_dmaNext (t : Tile) (f : Fld) (v : Nat) : (t.setFld f v).dmaNext = t.dmaNext := rfl
@[simp] theorem Tile.setFld_dmaStatus (t : Tile) (f : Fld) (v : Nat) : (t.setFld f v).dmaStatus = t.dmaStatus := rfl
@[simp] theorem Tile.setFld_dmaFails (t : Tile) (f : Fld) (v : Nat) : (t.setFld f v).dmaFails = t.dmaFails := rfl
@[simp] theorem Tile.setFld_sigs (t : Tile) (f : Fld) (v : Nat) : (t.setFld f v).sigs = t.sigs := rfl
@[simp] theorem Tile.setFld_sigsOut (t : Tile) (f : Fld) (v : Nat) : (t.setFld f v).sigsOut = t.sigsOut := rfl
@[simp] theorem Tile.setFld_grantsOut (t : Tile) (f : Fld) (v : Nat) : (t.setFld f v).grantsOut = t.grantsOut := rfl
@[simp] theorem Tile.setFld_txns (t : Tile) (f : Fld) (v : Nat) : (t.setFld f v).txns = t.txns := rfl
@[simp] theorem Tile.setFld_spad (t : Tile) (f : Fld) (v : Nat) : (t.setFld f v).spad = t.spad := rfl
@[simp] theorem Tile.setFld_tags (t : Tile) (f : Fld) (v : Nat) : (t.setFld f v).tags = t.tags := rfl
@[simp] theorem Tile.setFld_dark (t : Tile) (f : Fld) (v : Nat) : (t.setFld f v).dark = t.dark := rfl
@[simp] theorem Tile.setFld_eccSingle (t : Tile) (f : Fld) (v : Nat) : (t.setFld f v).eccSingle = t.eccSingle := rfl
@[simp] theorem Tile.setFld_eccDouble (t : Tile) (f : Fld) (v : Nat) : (t.setFld f v).eccDouble = t.eccDouble := rfl
@[simp] theorem Tile.setFld_tagParity (t : Tile) (f : Fld) (v : Nat) : (t.setFld f v).tagParity = t.tagParity := rfl
@[simp] theorem Tile.setFld_parked (t : Tile) (f : Fld) (v : Nat) : (t.setFld f v).parked = t.parked := rfl
@[simp] theorem Tile.setFld_wins (t : Tile) (f : Fld) (v : Nat) : (t.setFld f v).wins = t.wins := rfl
@[simp] theorem Tile.setFld_credits (t : Tile) (f : Fld) (v : Nat) : (t.setFld f v).credits = t.credits := rfl
@[simp] theorem Tile.setFld_writes (t : Tile) (f : Fld) (v : Nat) : (t.setFld f v).writes = t.writes := rfl
@[simp] theorem Tile.setFld_heldWrites (t : Tile) (f : Fld) (v : Nat) : (t.setFld f v).heldWrites = t.heldWrites := rfl
@[simp] theorem Tile.setFld_reads (t : Tile) (f : Fld) (v : Nat) : (t.setFld f v).reads = t.reads := rfl
@[simp] theorem Tile.setFld_mail (t : Tile) (f : Fld) (v : Nat) : (t.setFld f v).mail = t.mail := rfl
@[simp] theorem Tile.setFld_sems (t : Tile) (f : Fld) (v : Nat) : (t.setFld f v).sems = t.sems := rfl
@[simp] theorem Tile.setFld_semOps (t : Tile) (f : Fld) (v : Nat) : (t.setFld f v).semOps = t.semOps := rfl
@[simp] theorem Tile.setFld_resetAt (t : Tile) (f : Fld) (v : Nat) : (t.setFld f v).resetAt = t.resetAt := rfl
@[simp] theorem Tile.setFld_rtrResetAt (t : Tile) (f : Fld) (v : Nat) : (t.setFld f v).rtrResetAt = t.rtrResetAt := rfl
@[simp] theorem Tile.setFld_rtrReady (t : Tile) (f : Fld) (v : Nat) : (t.setFld f v).rtrReady = t.rtrReady := rfl
@[simp] theorem Tile.setFld_lists (t : Tile) (f : Fld) (v : Nat) : (t.setFld f v).lists = t.lists := rfl
@[simp] theorem Tile.setFld_running (t : Tile) (f : Fld) (v : Nat) : (t.setFld f v).running = t.running := rfl
@[simp] theorem Tile.setFld_astWait (t : Tile) (f : Fld) (v : Nat) : (t.setFld f v).astWait = t.astWait := rfl
@[simp] theorem Tile.setFld_lastBackward (t : Tile) (f : Fld) (v : Nat) : (t.setFld f v).lastBackward = t.lastBackward := rfl
@[simp] theorem Tile.setFld_terms (t : Tile) (f : Fld) (v : Nat) : (t.setFld f v).terms = t.terms := rfl
@[simp] theorem Tile.setFld_phase (t : Tile) (f : Fld) (v : Nat) : (t.setFld f v).phase = t.phase := rfl
@[simp] theorem Tile.setFld_recv0 (t : Tile) (f : Fld) (v : Nat) : (t.setFld f v).recv0 = t.recv0 := rfl
@[simp] theorem Tile.setFld_early (t : Tile) (f : Fld) (v : Nat) : (t.setFld f v).early = t.early := rfl
@[simp] theorem Tile.setFld_recv1 (t : Tile) (f : Fld) (v : Nat) : (t.setFld f v).recv1 = t.recv1 := rfl
@[simp] theorem Tile.setFld_picks (t : Tile) (f : Fld) (v : Nat) : (t.setFld f v).picks = t.picks := rfl
@[simp] theorem Tile.setFld_mcasts (t : Tile) (f : Fld) (v : Nat) : (t.setFld f v).mcasts = t.mcasts := rfl
@[simp] theorem Tile.setFld_closing (t : Tile) (f : Fld) (v : Nat) : (t.setFld f v).closing = t.closing := rfl
@[simp] theorem Tile.setFld_xsend (t : Tile) (f : Fld) (v : Nat) : (t.setFld f v).xsend = t.xsend := rfl
@[simp] theorem Tile.setFld_creditWait (t : Tile) (f : Fld) (v : Nat) : (t.setFld f v).creditWait = t.creditWait := rfl
@[simp] theorem Tile.setFld_startHeld (t : Tile) (f : Fld) (v : Nat) : (t.setFld f v).startHeld = t.startHeld := rfl
@[simp] theorem Tile.setFld_halted (t : Tile) (f : Fld) (v : Nat) : (t.setFld f v).halted = t.halted := rfl
@[simp] theorem Tile.setFld_ended (t : Tile) (f : Fld) (v : Nat) : (t.setFld f v).ended = t.ended := rfl
@[simp] theorem Tile.setFld_haltReported (t : Tile) (f : Fld) (v : Nat) : (t.setFld f v).haltReported = t.haltReported := rfl

@[simp] theorem Tile.bumpFld_s (t : Tile) (f : Fld) : (t.bumpFld f).s = t.s := rfl
@[simp] theorem Tile.bumpFld_p (t : Tile) (f : Fld) : (t.bumpFld f).p = t.p := rfl
@[simp] theorem Tile.bumpFld_v (t : Tile) (f : Fld) : (t.bumpFld f).v = t.v := rfl
@[simp] theorem Tile.bumpFld_acc (t : Tile) (f : Fld) : (t.bumpFld f).acc = t.acc := rfl
@[simp] theorem Tile.bumpFld_pc (t : Tile) (f : Fld) : (t.bumpFld f).pc = t.pc := rfl
@[simp] theorem Tile.bumpFld_ibuf (t : Tile) (f : Fld) : (t.bumpFld f).ibuf = t.ibuf := rfl
@[simp] theorem Tile.bumpFld_stall (t : Tile) (f : Fld) : (t.bumpFld f).stall = t.stall := rfl
@[simp] theorem Tile.bumpFld_busy (t : Tile) (f : Fld) : (t.bumpFld f).busy = t.busy := rfl
@[simp] theorem Tile.bumpFld_vbusy (t : Tile) (f : Fld) : (t.bumpFld f).vbusy = t.vbusy := rfl
@[simp] theorem Tile.bumpFld_vecs (t : Tile) (f : Fld) : (t.bumpFld f).vecs = t.vecs := rfl
@[simp] theorem Tile.bumpFld_mats (t : Tile) (f : Fld) : (t.bumpFld f).mats = t.mats := rfl
@[simp] theorem Tile.bumpFld_vq (t : Tile) (f : Fld) : (t.bumpFld f).vq = t.vq := rfl
@[simp] theorem Tile.bumpFld_stages (t : Tile) (f : Fld) : (t.bumpFld f).stages = t.stages := rfl
@[simp] theorem Tile.bumpFld_mq (t : Tile) (f : Fld) : (t.bumpFld f).mq = t.mq := rfl
@[simp] theorem Tile.bumpFld_xq (t : Tile) (f : Fld) : (t.bumpFld f).xq = t.xq := rfl
@[simp] theorem Tile.bumpFld_dma (t : Tile) (f : Fld) : (t.bumpFld f).dma = t.dma := rfl
@[simp] theorem Tile.bumpFld_dmaNext (t : Tile) (f : Fld) : (t.bumpFld f).dmaNext = t.dmaNext := rfl
@[simp] theorem Tile.bumpFld_dmaStatus (t : Tile) (f : Fld) : (t.bumpFld f).dmaStatus = t.dmaStatus := rfl
@[simp] theorem Tile.bumpFld_dmaFails (t : Tile) (f : Fld) : (t.bumpFld f).dmaFails = t.dmaFails := rfl
@[simp] theorem Tile.bumpFld_sigs (t : Tile) (f : Fld) : (t.bumpFld f).sigs = t.sigs := rfl
@[simp] theorem Tile.bumpFld_sigsOut (t : Tile) (f : Fld) : (t.bumpFld f).sigsOut = t.sigsOut := rfl
@[simp] theorem Tile.bumpFld_grantsOut (t : Tile) (f : Fld) : (t.bumpFld f).grantsOut = t.grantsOut := rfl
@[simp] theorem Tile.bumpFld_txns (t : Tile) (f : Fld) : (t.bumpFld f).txns = t.txns := rfl
@[simp] theorem Tile.bumpFld_spad (t : Tile) (f : Fld) : (t.bumpFld f).spad = t.spad := rfl
@[simp] theorem Tile.bumpFld_tags (t : Tile) (f : Fld) : (t.bumpFld f).tags = t.tags := rfl
@[simp] theorem Tile.bumpFld_dark (t : Tile) (f : Fld) : (t.bumpFld f).dark = t.dark := rfl
@[simp] theorem Tile.bumpFld_eccSingle (t : Tile) (f : Fld) : (t.bumpFld f).eccSingle = t.eccSingle := rfl
@[simp] theorem Tile.bumpFld_eccDouble (t : Tile) (f : Fld) : (t.bumpFld f).eccDouble = t.eccDouble := rfl
@[simp] theorem Tile.bumpFld_tagParity (t : Tile) (f : Fld) : (t.bumpFld f).tagParity = t.tagParity := rfl
@[simp] theorem Tile.bumpFld_parked (t : Tile) (f : Fld) : (t.bumpFld f).parked = t.parked := rfl
@[simp] theorem Tile.bumpFld_wins (t : Tile) (f : Fld) : (t.bumpFld f).wins = t.wins := rfl
@[simp] theorem Tile.bumpFld_credits (t : Tile) (f : Fld) : (t.bumpFld f).credits = t.credits := rfl
@[simp] theorem Tile.bumpFld_writes (t : Tile) (f : Fld) : (t.bumpFld f).writes = t.writes := rfl
@[simp] theorem Tile.bumpFld_heldWrites (t : Tile) (f : Fld) : (t.bumpFld f).heldWrites = t.heldWrites := rfl
@[simp] theorem Tile.bumpFld_reads (t : Tile) (f : Fld) : (t.bumpFld f).reads = t.reads := rfl
@[simp] theorem Tile.bumpFld_mail (t : Tile) (f : Fld) : (t.bumpFld f).mail = t.mail := rfl
@[simp] theorem Tile.bumpFld_sems (t : Tile) (f : Fld) : (t.bumpFld f).sems = t.sems := rfl
@[simp] theorem Tile.bumpFld_semOps (t : Tile) (f : Fld) : (t.bumpFld f).semOps = t.semOps := rfl
@[simp] theorem Tile.bumpFld_resetAt (t : Tile) (f : Fld) : (t.bumpFld f).resetAt = t.resetAt := rfl
@[simp] theorem Tile.bumpFld_rtrResetAt (t : Tile) (f : Fld) : (t.bumpFld f).rtrResetAt = t.rtrResetAt := rfl
@[simp] theorem Tile.bumpFld_rtrReady (t : Tile) (f : Fld) : (t.bumpFld f).rtrReady = t.rtrReady := rfl
@[simp] theorem Tile.bumpFld_lists (t : Tile) (f : Fld) : (t.bumpFld f).lists = t.lists := rfl
@[simp] theorem Tile.bumpFld_running (t : Tile) (f : Fld) : (t.bumpFld f).running = t.running := rfl
@[simp] theorem Tile.bumpFld_astWait (t : Tile) (f : Fld) : (t.bumpFld f).astWait = t.astWait := rfl
@[simp] theorem Tile.bumpFld_lastBackward (t : Tile) (f : Fld) : (t.bumpFld f).lastBackward = t.lastBackward := rfl
@[simp] theorem Tile.bumpFld_terms (t : Tile) (f : Fld) : (t.bumpFld f).terms = t.terms := rfl
@[simp] theorem Tile.bumpFld_phase (t : Tile) (f : Fld) : (t.bumpFld f).phase = t.phase := rfl
@[simp] theorem Tile.bumpFld_recv0 (t : Tile) (f : Fld) : (t.bumpFld f).recv0 = t.recv0 := rfl
@[simp] theorem Tile.bumpFld_early (t : Tile) (f : Fld) : (t.bumpFld f).early = t.early := rfl
@[simp] theorem Tile.bumpFld_recv1 (t : Tile) (f : Fld) : (t.bumpFld f).recv1 = t.recv1 := rfl
@[simp] theorem Tile.bumpFld_picks (t : Tile) (f : Fld) : (t.bumpFld f).picks = t.picks := rfl
@[simp] theorem Tile.bumpFld_mcasts (t : Tile) (f : Fld) : (t.bumpFld f).mcasts = t.mcasts := rfl
@[simp] theorem Tile.bumpFld_closing (t : Tile) (f : Fld) : (t.bumpFld f).closing = t.closing := rfl
@[simp] theorem Tile.bumpFld_xsend (t : Tile) (f : Fld) : (t.bumpFld f).xsend = t.xsend := rfl
@[simp] theorem Tile.bumpFld_creditWait (t : Tile) (f : Fld) : (t.bumpFld f).creditWait = t.creditWait := rfl
@[simp] theorem Tile.bumpFld_startHeld (t : Tile) (f : Fld) : (t.bumpFld f).startHeld = t.startHeld := rfl
@[simp] theorem Tile.bumpFld_halted (t : Tile) (f : Fld) : (t.bumpFld f).halted = t.halted := rfl
@[simp] theorem Tile.bumpFld_ended (t : Tile) (f : Fld) : (t.bumpFld f).ended = t.ended := rfl
@[simp] theorem Tile.bumpFld_haltReported (t : Tile) (f : Fld) : (t.bumpFld f).haltReported = t.haltReported := rfl

@[simp] theorem Tile.setTags_s (t : Tile) (slot k : Nat) (v : Bool) : (t.setTags slot k v).s = t.s := rfl
@[simp] theorem Tile.setTags_p (t : Tile) (slot k : Nat) (v : Bool) : (t.setTags slot k v).p = t.p := rfl
@[simp] theorem Tile.setTags_v (t : Tile) (slot k : Nat) (v : Bool) : (t.setTags slot k v).v = t.v := rfl
@[simp] theorem Tile.setTags_acc (t : Tile) (slot k : Nat) (v : Bool) : (t.setTags slot k v).acc = t.acc := rfl
@[simp] theorem Tile.setTags_pc (t : Tile) (slot k : Nat) (v : Bool) : (t.setTags slot k v).pc = t.pc := rfl
@[simp] theorem Tile.setTags_ibuf (t : Tile) (slot k : Nat) (v : Bool) : (t.setTags slot k v).ibuf = t.ibuf := rfl
@[simp] theorem Tile.setTags_stall (t : Tile) (slot k : Nat) (v : Bool) : (t.setTags slot k v).stall = t.stall := rfl
@[simp] theorem Tile.setTags_busy (t : Tile) (slot k : Nat) (v : Bool) : (t.setTags slot k v).busy = t.busy := rfl
@[simp] theorem Tile.setTags_vbusy (t : Tile) (slot k : Nat) (v : Bool) : (t.setTags slot k v).vbusy = t.vbusy := rfl
@[simp] theorem Tile.setTags_vecs (t : Tile) (slot k : Nat) (v : Bool) : (t.setTags slot k v).vecs = t.vecs := rfl
@[simp] theorem Tile.setTags_mats (t : Tile) (slot k : Nat) (v : Bool) : (t.setTags slot k v).mats = t.mats := rfl
@[simp] theorem Tile.setTags_vq (t : Tile) (slot k : Nat) (v : Bool) : (t.setTags slot k v).vq = t.vq := rfl
@[simp] theorem Tile.setTags_stages (t : Tile) (slot k : Nat) (v : Bool) : (t.setTags slot k v).stages = t.stages := rfl
@[simp] theorem Tile.setTags_mq (t : Tile) (slot k : Nat) (v : Bool) : (t.setTags slot k v).mq = t.mq := rfl
@[simp] theorem Tile.setTags_xq (t : Tile) (slot k : Nat) (v : Bool) : (t.setTags slot k v).xq = t.xq := rfl
@[simp] theorem Tile.setTags_dma (t : Tile) (slot k : Nat) (v : Bool) : (t.setTags slot k v).dma = t.dma := rfl
@[simp] theorem Tile.setTags_dmaNext (t : Tile) (slot k : Nat) (v : Bool) : (t.setTags slot k v).dmaNext = t.dmaNext := rfl
@[simp] theorem Tile.setTags_dmaStatus (t : Tile) (slot k : Nat) (v : Bool) : (t.setTags slot k v).dmaStatus = t.dmaStatus := rfl
@[simp] theorem Tile.setTags_dmaFails (t : Tile) (slot k : Nat) (v : Bool) : (t.setTags slot k v).dmaFails = t.dmaFails := rfl
@[simp] theorem Tile.setTags_sigs (t : Tile) (slot k : Nat) (v : Bool) : (t.setTags slot k v).sigs = t.sigs := rfl
@[simp] theorem Tile.setTags_sigsOut (t : Tile) (slot k : Nat) (v : Bool) : (t.setTags slot k v).sigsOut = t.sigsOut := rfl
@[simp] theorem Tile.setTags_grantsOut (t : Tile) (slot k : Nat) (v : Bool) : (t.setTags slot k v).grantsOut = t.grantsOut := rfl
@[simp] theorem Tile.setTags_txns (t : Tile) (slot k : Nat) (v : Bool) : (t.setTags slot k v).txns = t.txns := rfl
@[simp] theorem Tile.setTags_spad (t : Tile) (slot k : Nat) (v : Bool) : (t.setTags slot k v).spad = t.spad := rfl
@[simp] theorem Tile.setTags_dark (t : Tile) (slot k : Nat) (v : Bool) : (t.setTags slot k v).dark = t.dark := rfl
@[simp] theorem Tile.setTags_eccSingle (t : Tile) (slot k : Nat) (v : Bool) : (t.setTags slot k v).eccSingle = t.eccSingle := rfl
@[simp] theorem Tile.setTags_eccDouble (t : Tile) (slot k : Nat) (v : Bool) : (t.setTags slot k v).eccDouble = t.eccDouble := rfl
@[simp] theorem Tile.setTags_tagParity (t : Tile) (slot k : Nat) (v : Bool) : (t.setTags slot k v).tagParity = t.tagParity := rfl
@[simp] theorem Tile.setTags_parked (t : Tile) (slot k : Nat) (v : Bool) : (t.setTags slot k v).parked = t.parked := rfl
@[simp] theorem Tile.setTags_wins (t : Tile) (slot k : Nat) (v : Bool) : (t.setTags slot k v).wins = t.wins := rfl
@[simp] theorem Tile.setTags_credits (t : Tile) (slot k : Nat) (v : Bool) : (t.setTags slot k v).credits = t.credits := rfl
@[simp] theorem Tile.setTags_writes (t : Tile) (slot k : Nat) (v : Bool) : (t.setTags slot k v).writes = t.writes := rfl
@[simp] theorem Tile.setTags_heldWrites (t : Tile) (slot k : Nat) (v : Bool) : (t.setTags slot k v).heldWrites = t.heldWrites := rfl
@[simp] theorem Tile.setTags_reads (t : Tile) (slot k : Nat) (v : Bool) : (t.setTags slot k v).reads = t.reads := rfl
@[simp] theorem Tile.setTags_mail (t : Tile) (slot k : Nat) (v : Bool) : (t.setTags slot k v).mail = t.mail := rfl
@[simp] theorem Tile.setTags_sems (t : Tile) (slot k : Nat) (v : Bool) : (t.setTags slot k v).sems = t.sems := rfl
@[simp] theorem Tile.setTags_semOps (t : Tile) (slot k : Nat) (v : Bool) : (t.setTags slot k v).semOps = t.semOps := rfl
@[simp] theorem Tile.setTags_regs (t : Tile) (slot k : Nat) (v : Bool) : (t.setTags slot k v).regs = t.regs := rfl
@[simp] theorem Tile.setTags_resetAt (t : Tile) (slot k : Nat) (v : Bool) : (t.setTags slot k v).resetAt = t.resetAt := rfl
@[simp] theorem Tile.setTags_rtrResetAt (t : Tile) (slot k : Nat) (v : Bool) : (t.setTags slot k v).rtrResetAt = t.rtrResetAt := rfl
@[simp] theorem Tile.setTags_rtrReady (t : Tile) (slot k : Nat) (v : Bool) : (t.setTags slot k v).rtrReady = t.rtrReady := rfl
@[simp] theorem Tile.setTags_lists (t : Tile) (slot k : Nat) (v : Bool) : (t.setTags slot k v).lists = t.lists := rfl
@[simp] theorem Tile.setTags_running (t : Tile) (slot k : Nat) (v : Bool) : (t.setTags slot k v).running = t.running := rfl
@[simp] theorem Tile.setTags_astWait (t : Tile) (slot k : Nat) (v : Bool) : (t.setTags slot k v).astWait = t.astWait := rfl
@[simp] theorem Tile.setTags_lastBackward (t : Tile) (slot k : Nat) (v : Bool) : (t.setTags slot k v).lastBackward = t.lastBackward := rfl
@[simp] theorem Tile.setTags_terms (t : Tile) (slot k : Nat) (v : Bool) : (t.setTags slot k v).terms = t.terms := rfl
@[simp] theorem Tile.setTags_phase (t : Tile) (slot k : Nat) (v : Bool) : (t.setTags slot k v).phase = t.phase := rfl
@[simp] theorem Tile.setTags_recv0 (t : Tile) (slot k : Nat) (v : Bool) : (t.setTags slot k v).recv0 = t.recv0 := rfl
@[simp] theorem Tile.setTags_early (t : Tile) (slot k : Nat) (v : Bool) : (t.setTags slot k v).early = t.early := rfl
@[simp] theorem Tile.setTags_recv1 (t : Tile) (slot k : Nat) (v : Bool) : (t.setTags slot k v).recv1 = t.recv1 := rfl
@[simp] theorem Tile.setTags_picks (t : Tile) (slot k : Nat) (v : Bool) : (t.setTags slot k v).picks = t.picks := rfl
@[simp] theorem Tile.setTags_mcasts (t : Tile) (slot k : Nat) (v : Bool) : (t.setTags slot k v).mcasts = t.mcasts := rfl
@[simp] theorem Tile.setTags_closing (t : Tile) (slot k : Nat) (v : Bool) : (t.setTags slot k v).closing = t.closing := rfl
@[simp] theorem Tile.setTags_xsend (t : Tile) (slot k : Nat) (v : Bool) : (t.setTags slot k v).xsend = t.xsend := rfl
@[simp] theorem Tile.setTags_creditWait (t : Tile) (slot k : Nat) (v : Bool) : (t.setTags slot k v).creditWait = t.creditWait := rfl
@[simp] theorem Tile.setTags_startHeld (t : Tile) (slot k : Nat) (v : Bool) : (t.setTags slot k v).startHeld = t.startHeld := rfl
@[simp] theorem Tile.setTags_halted (t : Tile) (slot k : Nat) (v : Bool) : (t.setTags slot k v).halted = t.halted := rfl
@[simp] theorem Tile.setTags_ended (t : Tile) (slot k : Nat) (v : Bool) : (t.setTags slot k v).ended = t.ended := rfl
@[simp] theorem Tile.setTags_haltReported (t : Tile) (slot k : Nat) (v : Bool) : (t.setTags slot k v).haltReported = t.haltReported := rfl

/-- A tile reads as it was last set, every other tile as before. -/
@[simp] theorem State.tile_setTile_same (s : State) (t : Nat) (x : Tile) : (s.setTile t x).tile t = x := by
  simp [State.tile, State.setTile]

theorem State.tile_setTile_other (s : State) (x : Tile) {t i : Nat} (h : i ≠ t) : (s.setTile t x).tile i = s.tile i := by
  simp [State.tile, State.setTile, Map.get_set_other _ _ _ _ h]

@[simp] theorem State.tile_onTile_same (s : State) (t : Nat) (f : Tile → Tile) : (s.onTile t f).tile t = f (s.tile t) := by
  simp [State.onTile]

theorem State.tile_onTile_other (s : State) (f : Tile → Tile) {t i : Nat} (h : i ≠ t) : (s.onTile t f).tile i = s.tile i := by
  simp [State.onTile, State.tile_setTile_other s _ h]

/-- Register updates leave the tiles, tile updates leave the module's registers. -/
@[simp] theorem State.tile_setFld (s : State) (f : Fld) (v t : Nat) : (s.setFld f v).tile t = s.tile t := rfl
@[simp] theorem State.rd_setTile (s : State) (t : Nat) (x : Tile) (off : Nat) : (s.setTile t x).rd off = s.rd off := rfl
@[simp] theorem State.fld_setTile (s : State) (t : Nat) (x : Tile) (f : Fld) : (s.setTile t x).fld f = s.fld f := rfl
@[simp] theorem State.fld_onTile (s : State) (t : Nat) (g : Tile → Tile) (f : Fld) : (s.onTile t g).fld f = s.fld f := rfl
@[simp] theorem State.count_setTile (s : State) (t : Nat) (x : Tile) : (s.setTile t x).count = s.count := rfl
@[simp] theorem State.fld_addCause (s : State) (c : Cause) (f : Fld) : (s.addCause c).fld f = s.fld f := rfl
@[simp] theorem State.tileCount_setTile (s : State) (t : Nat) (x : Tile) : (s.setTile t x).tileCount = s.tileCount := rfl

end Sys2Proof.Machine
end

