-- ==== Sys2Proof/Laws/Issue.lean ====
section
/-! SUPPORT. What the issue of a tile instruction can do, said once. -/
namespace Sys2Proof.Machine

/-- An instruction that issues and acts has its own effect. -/
theorem issue_runs {t : Nat} {w : BitVec 52} {f : Form} {s : State} (body : BitVec 20 → State → State) (h : Issues t w f s) :
    issue t w f body s = .next (body (s.tile t).pc (s.issued t)) := by
  obtain ⟨h1, h2, h3, h4, h5, h6, h7, h8, h9⟩ := h
  have hp : (!f.vector && !((s.tile t).pred w).getLsbD 0) = false := by
    rcases h9 with h | h <;> simp [h]
  simp only [issue, if_neg (Nat.not_le.2 h1), h2, h3, h4, h5, h6, h7, h8, hp, State.issued]
  rfl

/-- A tile that does not exist cannot be commanded. -/
theorem issue_fault {t : Nat} {w : BitVec 52} {f : Form} {s : State} (body : BitVec 20 → State → State) (h : s.tileCount ≤ t) :
    issue t w f body s = .fault .noSuchUnit := by simp only [issue, if_pos h]

/-- Everything the issue of an instruction of a tile that exists can answer: nothing yet, PC_FAULT, INSN_FIELD, a PC that moves
on over a false predicate, or the instruction's own effect. -/
theorem issue_cases {t : Nat} {w : BitVec 52} {f : Form} {s : State} (body : BitVec 20 → State → State) (h : t < s.tileCount) :
    issue t w f body s = .next s
    ∨ issue t w f body s = .next (s.record t Status.PC_FAULT (s.tile t).pc)
    ∨ issue t w f body s = .next ((s.setTile t { (s.tile t) with ibuf := takeInsn (s.tile t).pc (s.tile t).ibuf }).record t
        Status.INSN_FIELD (s.tile t).pc)
    ∨ issue t w f body s = .next (s.issued t)
    ∨ issue t w f body s = .next (body (s.tile t).pc (s.issued t)) := by
  simp only [issue, if_neg (Nat.not_le.2 h), State.issued]
  split
  · exact .inl rfl
  · split
    · exact .inr (.inl rfl)
    · split
      · exact .inr (.inr (.inl rfl))
      · split
        · exact .inr (.inr (.inr (.inl rfl)))
        · exact .inr (.inr (.inr (.inr rfl)))

/-- The issue of an instruction of a tile that exists goes on. -/
theorem issue_completes {t : Nat} {w : BitVec 52} {f : Form} {s : State} (body : BitVec 20 → State → State) (h : t < s.tileCount) :
    ∃ s', issue t w f body s = .next s' := by
  rcases issue_cases (w := w) (f := f) body h with h | h | h | h | h <;> exact ⟨_, h⟩

/-- The tile after an issue; the other tiles and the rest of the state stay. -/
@[simp] theorem State.issued_tile (s : State) (t : Nat) :
    (s.issued t).tile t = { (s.tile t) with ibuf := takeInsn (s.tile t).pc (s.tile t).ibuf, pc := (s.tile t).pc + 8 } := by
  simp [State.issued]

theorem State.issued_tile_other (s : State) {t u : Nat} (h : u ≠ t) : (s.issued t).tile u = s.tile u :=
  State.tile_setTile_other s _ h

@[simp] theorem State.issued_regs (s : State) (t : Nat) : (s.issued t).regs = s.regs := rfl
@[simp] theorem State.issued_hbm (s : State) (t : Nat) : (s.issued t).hbm = s.hbm := rfl
@[simp] theorem State.issued_hif (s : State) (t : Nat) : (s.issued t).hif = s.hif := rfl
@[simp] theorem State.issued_fld (s : State) (t : Nat) (f : Fld) : (s.issued t).fld f = s.fld f := rfl
@[simp] theorem State.issued_count (s : State) (t : Nat) : (s.issued t).count = s.count := rfl
@[simp] theorem State.issued_tileCount (s : State) (t : Nat) : (s.issued t).tileCount = s.tileCount := rfl

/-- An s register after a write: s0 stays 0 and the others stay. -/
@[simp] theorem Tile.getS_putS (x : Tile) (r i : Nat) (v : Word) :
    (x.putS r v).getS i = if i = r ∧ i ≠ 0 then v else x.getS i := by
  unfold Tile.getS Tile.putS
  by_cases hr : r = 0
  · subst hr
    by_cases hi : i = 0
    · simp [hi]
    · simp [hi]
  · by_cases hi : i = 0
    · simp [hi]
    · by_cases h : i = r
      · subst h; simp [hr]
      · simp [hr, hi, h, Map.get_set_other _ _ _ _ h]

/-- A predicate register after a write: p0 stays all ones and the others stay. -/
@[simp] theorem Tile.getP_putP (x : Tile) (r i : Nat) (v : BitVec 256) :
    (x.putP r v).getP i = if i = r ∧ i ≠ 0 then v else x.getP i := by
  unfold Tile.getP Tile.putP
  by_cases hr : r = 0
  · subst hr
    by_cases hi : i = 0
    · simp [hi]
    · simp [hi]
  · by_cases hi : i = 0
    · simp [hi]
    · by_cases h : i = r
      · subst h; simp [hr]
      · simp [hr, hi, h, Map.get_set_other _ _ _ _ h]

@[simp] theorem Tile.getV_putV (x : Tile) (r i : Nat) (v : BitVec 8192) :
    (x.putV r v).getV i = if i = r then v else x.getV i := by
  unfold Tile.getV Tile.putV
  simp [Map.get_set]

end Sys2Proof.Machine
end

