-- ==== Sys2Proof/Laws/Memory.lean ====
section
/-! SUPPORT. Runs of bytes: a read after a write, what a write leaves alone, and the canonical form that every memory
operation keeps. -/
namespace Sys2Proof.Machine

variable {α : Type} [DecidableEq α]

omit [DecidableEq α] in
theorem get_append (d : α) (m n : Map α) (k : Nat) :
    Map.get d (m ++ n) k = if m.any (fun e => decide (e.1 = k)) then Map.get d m k else Map.get d n k := by
  induction m with
  | nil => simp
  | cons e m ih =>
    obtain ⟨j, u⟩ := e
    by_cases h : k = j
    · simp [Map.get, h]
    · have h' : ¬j = k := fun c => h c.symm
      rw [List.cons_append, Map.get, if_neg h, ih, List.any_cons, decide_eq_false h', Bool.false_or, Map.get, if_neg h]

omit [DecidableEq α] in
theorem get_filter (d : α) (m : Map α) (p : Nat → Bool) (k : Nat) :
    Map.get d (m.filter (fun e => p e.1)) k = if p k then Map.get d m k else d := by
  induction m with
  | nil => simp
  | cons e m ih =>
    obtain ⟨j, u⟩ := e
    by_cases hj : p j = true
    · by_cases h : k = j
      · subst h; simp [List.filter, hj, Map.get]
      · simp [List.filter, hj, Map.get, h, ih]
    · by_cases h : k = j
      · subst h; simp [List.filter, hj, ih]
      · simp [List.filter, hj, Map.get, h, ih]

theorem mem_listRun {d : α} {a : Nat} {vs : List α} {e : Nat × α} (h : e ∈ listRun d a vs) :
    a ≤ e.1 ∧ e.1 < a + vs.length ∧ e.2 ≠ d := by
  induction vs generalizing a with
  | nil => simp [listRun] at h
  | cons v vs ih =>
    simp only [listRun] at h
    split at h
    · have := ih h
      exact ⟨by omega, by simp only [List.length_cons]; omega, this.2.2⟩
    · rename_i hv
      rcases List.mem_cons.1 h with h | h
      · subst h; simp [hv]
      · have := ih h
        exact ⟨by omega, by simp only [List.length_cons]; omega, this.2.2⟩

theorem get_listRun (d : α) (a : Nat) (vs : List α) (k : Nat) :
    Map.get d (listRun d a vs) k = if a ≤ k then vs.getD (k - a) d else d := by
  induction vs generalizing a with
  | nil => simp [listRun]
  | cons v vs ih =>
    by_cases h : k = a
    · subst h
      by_cases hv : v = d
      · simp [listRun, hv, ih]
      · simp [listRun, hv, Map.get]
    · have e : a ≤ k → k - a = k - (a + 1) + 1 := by omega
      by_cases hk : a ≤ k
      · by_cases hv : v = d
        · simp [listRun, hv, ih, hk, e hk]; omega
        · simp [listRun, hv, ih, Map.get, h, hk, e hk]; omega
      · by_cases hv : v = d
        · simp [listRun, hv, ih, hk]; omega
        · simp [listRun, hv, ih, Map.get, h, hk]; omega

omit [DecidableEq α] in
theorem get_unlisted (d : α) (m : Map α) (k : Nat) (h : ∀ e ∈ m, e.1 ≠ k) : Map.get d m k = d := by
  induction m with
  | nil => rfl
  | cons e m ih =>
    obtain ⟨j, u⟩ := e
    have hj : k ≠ j := fun c => h _ List.mem_cons_self c.symm
    simp only [Map.get, if_neg hj]
    exact ih (fun e he => h e (List.mem_cons_of_mem _ he))

omit [DecidableEq α] in
theorem get_of_any_false (d : α) (m : Map α) (k : Nat) (h : m.any (fun e => decide (e.1 = k)) = false) : Map.get d m k = d := by
  apply get_unlisted
  intro e he c
  have := List.any_eq_false.1 h e he
  simp [c] at this

omit [DecidableEq α] in
theorem get_append_of_nil (d : α) (m n : Map α) (k : Nat) (h : Map.get d n k = d) : Map.get d (m ++ n) k = Map.get d m k := by
  rw [get_append]
  split
  · rfl
  · rename_i ha
    rw [h, get_of_any_false d m k (Bool.eq_false_iff.2 ha)]

/-- A key after a run was written: the value written to it, or what it read as before. -/
theorem get_writeRun (d : α) (m : Map α) (a : Nat) (vs : List α) (k : Nat) :
    Map.get d (writeRun d m a vs) k = if a ≤ k ∧ k < a + vs.length then vs.getD (k - a) d else Map.get d m k := by
  unfold writeRun
  have hl := get_filter d m (fun j => decide (j < a)) k
  have hr := get_filter d m (fun j => decide (a + vs.length ≤ j)) k
  have hv := get_listRun d a vs k
  by_cases h1 : a ≤ k
  · by_cases h2 : k < a + vs.length
    · rw [get_append_of_nil _ _ _ _ (by rw [hr, if_neg (by simp; omega)]), get_append, if_neg, hv, if_pos h1, if_pos ⟨h1, h2⟩]
      simp only [List.any_filter, Bool.not_eq_true, List.any_eq_false, Bool.and_eq_true, decide_eq_true_eq]
      intro e _ c; omega
    · rw [get_append, if_neg, hr, if_pos (by simp; omega), if_neg (by omega)]
      simp only [List.any_append, List.any_filter, Bool.or_eq_true, List.any_eq_true, Bool.and_eq_true, decide_eq_true_eq]
      rintro (⟨e, _, c⟩ | ⟨e, he, c⟩)
      · omega
      · have := mem_listRun he; omega
  · rw [get_append_of_nil _ _ _ _ (by rw [hr, if_neg (by simp; omega)]), get_append_of_nil _ _ _ _ (by rw [hv, if_neg h1]), hl,
      if_pos (by simp; omega), if_neg (by omega)]

theorem get_writeRun_other (d : α) (m : Map α) (a : Nat) (vs : List α) {k : Nat} (h : k < a ∨ a + vs.length ≤ k) :
    Map.get d (writeRun d m a vs) k = Map.get d m k := by
  rw [get_writeRun, if_neg (by omega)]

theorem get_fillRun (d : α) (m : Map α) (a n : Nat) (v : α) (k : Nat) :
    Map.get d (fillRun d m a n v) k = if a ≤ k ∧ k < a + n then v else Map.get d m k := by
  simp only [fillRun, get_writeRun, List.length_replicate]
  split
  · rename_i h
    have : k - a < n := by omega
    simp [List.getD, this]
  · rfl

omit [DecidableEq α] in
theorem risesFrom_append {lo b : Nat} {m n : Map α} (hm : Map.risesFrom lo m = true) (hb : ∀ e ∈ m, e.1 < b) (hlo : lo ≤ b)
    (hn : Map.risesFrom b n = true) : Map.risesFrom lo (m ++ n) = true := by
  induction m generalizing lo with
  | nil => exact Map.risesFrom_mono hlo hn
  | cons e m ih =>
    obtain ⟨j, u⟩ := e
    simp only [Map.risesFrom, Bool.and_eq_true, decide_eq_true_eq, List.cons_append] at hm ⊢
    exact ⟨hm.1, ih hm.2 (fun e he => hb e (List.mem_cons_of_mem _ he)) (hb _ List.mem_cons_self)⟩

omit [DecidableEq α] in
theorem risesFrom_filter {lo : Nat} {m : Map α} (p : Nat × α → Bool) (w : Map.risesFrom lo m = true) :
    Map.risesFrom lo (m.filter p) = true := by
  induction m generalizing lo with
  | nil => rfl
  | cons e m ih =>
    obtain ⟨j, u⟩ := e
    simp only [Map.risesFrom, Bool.and_eq_true, decide_eq_true_eq] at w
    by_cases h : p (j, u) = true
    · simp only [List.filter, h, Map.risesFrom, Bool.and_eq_true, decide_eq_true_eq]
      exact ⟨w.1, ih w.2⟩
    · simp only [List.filter, h]
      exact Map.risesFrom_mono (by omega) (ih w.2)

omit [DecidableEq α] in
theorem risesFrom_raise {lo b : Nat} {m : Map α} (w : Map.risesFrom lo m = true) (h : ∀ e ∈ m, b ≤ e.1) : Map.risesFrom b m = true := by
  cases m with
  | nil => rfl
  | cons e m =>
    obtain ⟨j, u⟩ := e
    simp only [Map.risesFrom, Bool.and_eq_true, decide_eq_true_eq] at w ⊢
    exact ⟨h _ List.mem_cons_self, w.2⟩

theorem risesFrom_listRun (d : α) (a : Nat) (vs : List α) : Map.risesFrom a (listRun d a vs) = true := by
  induction vs generalizing a with
  | nil => rfl
  | cons v vs ih =>
    simp only [listRun]
    split
    · exact Map.risesFrom_mono (by omega) (ih (a + 1))
    · simp [Map.risesFrom, ih]

/-- A run written to a map in canonical form leaves it in canonical form. -/
theorem wf_writeRun (d : α) (m : Map α) (a : Nat) (vs : List α) (w : Map.wf d m = true) : Map.wf d (writeRun d m a vs) = true := by
  simp only [Map.wf, Bool.and_eq_true, List.all_eq_true, decide_eq_true_eq] at w ⊢
  constructor
  · have h3 : Map.risesFrom (a + vs.length) (m.filter (fun e => decide (a + vs.length ≤ e.1))) = true :=
      risesFrom_raise (risesFrom_filter _ w.1) (fun e he => by simpa using (List.mem_filter.1 he).2)
    have h1 : Map.risesFrom 0 (m.filter (fun e => decide (e.1 < a))) = true := risesFrom_filter _ w.1
    have h2 := risesFrom_append h1 (fun e he => by simpa using (List.mem_filter.1 he).2) (Nat.zero_le a) (risesFrom_listRun d a vs)
    exact risesFrom_append h2 (fun e he => by
      rcases List.mem_append.1 he with he | he
      · have : e.1 < a := by simpa using (List.mem_filter.1 he).2
        omega
      · have := mem_listRun he; omega) (Nat.zero_le _) h3
  · intro e he
    simp only [writeRun, List.mem_append, List.mem_filter] at he
    rcases he with (he | he) | he
    · exact w.2 e he.1
    · exact (mem_listRun he).2.2
    · exact w.2 e he.1

theorem wf_fillRun (d : α) (m : Map α) (a n : Nat) (v : α) (w : Map.wf d m = true) : Map.wf d (fillRun d m a n v) = true :=
  wf_writeRun d m a _ w

omit [DecidableEq α] in
theorem get_dropWhile (d : α) (m : Map α) {a k lo : Nat} (w : Map.risesFrom lo m = true) (h : a ≤ k) :
    Map.get d (m.dropWhile (fun e => decide (e.1 < a))) k = Map.get d m k := by
  induction m generalizing lo with
  | nil => rfl
  | cons e m ih =>
    obtain ⟨j, u⟩ := e
    simp only [Map.risesFrom, Bool.and_eq_true, decide_eq_true_eq] at w
    by_cases hj : j < a
    · have : k ≠ j := by omega
      simp [List.dropWhile, hj, Map.get, this, ih w.2]
    · simp [List.dropWhile, hj]

omit [DecidableEq α] in
theorem risesFrom_dropWhile {lo : Nat} {m : Map α} (p : Nat × α → Bool) (w : Map.risesFrom lo m = true) :
    Map.risesFrom lo (m.dropWhile p) = true := by
  induction m generalizing lo with
  | nil => rfl
  | cons e m ih =>
    obtain ⟨j, u⟩ := e
    have w' := w
    simp only [Map.risesFrom, Bool.and_eq_true, decide_eq_true_eq] at w
    by_cases h : p (j, u) = true
    · simp only [List.dropWhile, h]
      exact Map.risesFrom_mono (by omega) (ih w.2)
    · simp only [List.dropWhile, h]; exact w'

omit [DecidableEq α] in
theorem head_dropWhile (d : α) (m : Map α) {lo : Nat} (a : Nat) (w : Map.risesFrom lo m = true) :
    (match m.dropWhile (fun e => decide (e.1 < a)) with
      | (j, v) :: _ => if j = a then v else d
      | [] => d) = Map.get d m a := by
  induction m generalizing lo with
  | nil => rfl
  | cons e m ih =>
    obtain ⟨j, u⟩ := e
    simp only [Map.risesFrom, Bool.and_eq_true, decide_eq_true_eq] at w
    by_cases hj : j < a
    · have : a ≠ j := by omega
      simp only [List.dropWhile, hj, decide_true, Map.get, if_neg this]
      exact ih w.2
    · simp only [List.dropWhile, hj, decide_false, Map.get]
      by_cases e : j = a
      · simp [e]
      · rw [if_neg e, if_neg (fun c => e c.symm), get_unlisted]
        intro e' he'
        have := risesFrom_mem w.2 he'
        omega
where
  risesFrom_mem {α : Type} {lo : Nat} {m : Map α} (w : Map.risesFrom lo m = true) {e : Nat × α} (h : e ∈ m) : lo ≤ e.1 := by
    induction m generalizing lo with
    | nil => simp at h
    | cons x m ih =>
      obtain ⟨j, u⟩ := x
      simp only [Map.risesFrom, Bool.and_eq_true, decide_eq_true_eq] at w
      rcases List.mem_cons.1 h with h | h
      · subst h; exact w.1
      · have := ih w.2 h; omega

omit [DecidableEq α] in
/-- A run read from a map in canonical form is its entries one by one. -/
theorem readRun_eq (d : α) (m : Map α) {lo : Nat} (a n : Nat) (w : Map.risesFrom lo m = true) :
    readRun d m a n = (List.range n).map (fun i => Map.get d m (a + i)) := by
  induction n generalizing a m with
  | zero => rfl
  | succ n ih =>
    rw [List.range_succ_eq_map, List.map_cons, List.map_map]
    simp only [readRun]
    congr 1
    · exact head_dropWhile d m a w
    · rw [ih _ (a + 1) (risesFrom_dropWhile _ w)]
      apply List.map_congr_left
      intro i _
      rw [get_dropWhile d m w (by omega)]
      simp only [Function.comp]
      congr 1; omega

omit [DecidableEq α] in
@[simp] theorem length_readRun (d : α) (m : Map α) (a n : Nat) : (readRun d m a n).length = n := by
  induction n generalizing a m with
  | zero => rfl
  | succ n ih => simp [readRun, ih]

/-- What was written is what is read. -/
theorem readRun_writeRun_same (d : α) (m : Map α) (a : Nat) (vs : List α) (w : Map.wf d m = true) :
    readRun d (writeRun d m a vs) a vs.length = vs := by
  have w' := wf_writeRun d m a vs w
  simp only [Map.wf, Bool.and_eq_true] at w'
  rw [readRun_eq d _ a _ w'.1]
  apply List.ext_getElem (by simp)
  intro i h1 h2
  simp only [List.getElem_map, List.getElem_range, get_writeRun]
  rw [if_pos (by omega), Nat.add_sub_cancel_left]
  simp [List.getD, h2]

/-- Bytes elsewhere read as before. -/
theorem readRun_writeRun_other (d : α) (m : Map α) (a b n : Nat) (vs : List α) (w : Map.wf d m = true)
    (h : b + n ≤ a ∨ a + vs.length ≤ b) : readRun d (writeRun d m a vs) b n = readRun d m b n := by
  have w' := wf_writeRun d m a vs w
  simp only [Map.wf, Bool.and_eq_true] at w w'
  rw [readRun_eq d _ b _ w'.1, readRun_eq d _ b _ w.1]
  apply List.map_congr_left
  intro i hi
  exact get_writeRun_other d m a vs (by have := List.mem_range.1 hi; omega)

/-! ### The operations that write a memory keep its form -/

theorem Memory.wf_writeRun (m : Map Byte) (a : Nat) (bs : List Byte) (w : Memory.wf m = true) : Memory.wf (writeRun 0 m a bs) = true :=
  Machine.wf_writeRun 0 m a bs w

theorem Memory.wf_empty : Memory.wf [] = true := rfl

theorem Tile.correct_spad (t : Tile) (a n : Nat) : (t.correct a n).spad = t.spad := by
  unfold Tile.correct
  dsimp only
  split
  · rfl
  · exact Tile.setFld_spad _ _ _

theorem Tile.foldl_correct_spad (ws : List Nat) (t : Tile) : (ws.foldl (fun t w => t.correct w 1) t).spad = t.spad := by
  induction ws generalizing t with
  | nil => rfl
  | cons w ws ih => rw [List.foldl_cons, ih, Tile.correct_spad]

/-- What a write of scratchpad bytes does to them: with SPAD_UE nothing, else the run. -/
theorem Tile.spadWrite_spad (t : Tile) (off : Nat) (bs : List Byte) :
    (t.spadWrite off bs).1.spad = if (t.spadWrite off bs).2 = 0 then writeRun 0 t.spad off bs else t.spad := by
  simp only [Tile.spadWrite]
  split
  · rfl
  · split
    · rfl
    · rw [if_pos rfl, Tile.foldl_correct_spad]

theorem Tile.spadWrite_wf (t : Tile) (off : Nat) (bs : List Byte) (w : Memory.wf t.spad = true) :
    Memory.wf (t.spadWrite off bs).1.spad = true := by
  rw [Tile.spadWrite_spad]; split
  · exact Memory.wf_writeRun _ _ _ w
  · exact w

/-- A read changes no byte. -/
theorem Tile.spadRead_spad (t : Tile) (off n : Nat) : (t.spadRead off n).1.spad = t.spad := by
  unfold Tile.spadRead
  split
  · rfl
  · dsimp only
    split
    · exact Tile.setFld_spad _ _ _
    · exact Tile.correct_spad _ _ _

theorem Tile.writeSlots_wf (t : Tile) (xs : List Nat) (bs : List Byte) (w : Memory.wf t.spad = true) :
    Memory.wf (t.writeSlots xs bs).spad = true := by
  induction xs generalizing t bs with
  | nil => exact w
  | cons x xs ih => exact ih _ _ (Memory.wf_writeRun _ _ _ w)

theorem State.hostWrite_wf (s : State) (a : Nat) (bs : List Byte) (w : Memory.wf s.hif.mem = true) :
    Memory.wf (s.hostWrite a bs).hif.mem = true := Memory.wf_writeRun _ _ _ w

/-- What host memory holds after a write. -/
theorem State.hostRead_hostWrite (s : State) (a : Nat) (bs : List Byte) (w : Memory.wf s.hif.mem = true) :
    (s.hostWrite a bs).hostRead a bs.length = bs := readRun_writeRun_same 0 _ a bs w

end Sys2Proof.Machine
end

