-- ==== Sys2Proof/Laws/PerInstr.lean ====
section
/-! SUPPORT. What holds of each command as syntax, one lemma a constructor. -/

/-- The fields of a tile instruction's word name the tile that the command names, and its tile number is all that can make it
ill-formed: every value of every field is a command. -/
def Sys2Proof.Laws.TileField.Statement (i : Sys2Proof.Instr) : Prop :=
  ∀ f, Sys2Proof.tileWordFields i = some f → i.wf = decide (f.1 < 2880)

namespace Sys2Proof.Laws.TileField

theorem add (t : Nat) (w : BitVec 52) : Statement (.add t w) := by intro f h; cases h; rfl
theorem sub (t : Nat) (w : BitVec 52) : Statement (.sub t w) := by intro f h; cases h; rfl
theorem mul (t : Nat) (w : BitVec 52) : Statement (.mul t w) := by intro f h; cases h; rfl
theorem mulh (t : Nat) (w : BitVec 52) : Statement (.mulh t w) := by intro f h; cases h; rfl
theorem and (t : Nat) (w : BitVec 52) : Statement (.and t w) := by intro f h; cases h; rfl
theorem or (t : Nat) (w : BitVec 52) : Statement (.or t w) := by intro f h; cases h; rfl
theorem xor (t : Nat) (w : BitVec 52) : Statement (.xor t w) := by intro f h; cases h; rfl
theorem shl (t : Nat) (w : BitVec 52) : Statement (.shl t w) := by intro f h; cases h; rfl
theorem shr (t : Nat) (w : BitVec 52) : Statement (.shr t w) := by intro f h; cases h; rfl
theorem sra (t : Nat) (w : BitVec 52) : Statement (.sra t w) := by intro f h; cases h; rfl
theorem cmp (t : Nat) (w : BitVec 52) : Statement (.cmp t w) := by intro f h; cases h; rfl
theorem addi (t : Nat) (w : BitVec 52) : Statement (.addi t w) := by intro f h; cases h; rfl
theorem movi (t : Nat) (w : BitVec 52) : Statement (.movi t w) := by intro f h; cases h; rfl
theorem movhi (t : Nat) (w : BitVec 52) : Statement (.movhi t w) := by intro f h; cases h; rfl
theorem br (t : Nat) (w : BitVec 52) : Statement (.br t w) := by intro f h; cases h; rfl
theorem bri (t : Nat) (w : BitVec 52) : Statement (.bri t w) := by intro f h; cases h; rfl
theorem call (t : Nat) (w : BitVec 52) : Statement (.call t w) := by intro f h; cases h; rfl
theorem ret (t : Nat) (w : BitVec 52) : Statement (.ret t w) := by intro f h; cases h; rfl
theorem ld (t : Nat) (w : BitVec 52) : Statement (.ld t w) := by intro f h; cases h; rfl
theorem st (t : Nat) (w : BitVec 52) : Statement (.st t w) := by intro f h; cases h; rfl
theorem vld (t : Nat) (w : BitVec 52) : Statement (.vld t w) := by intro f h; cases h; rfl
theorem vst (t : Nat) (w : BitVec 52) : Statement (.vst t w) := by intro f h; cases h; rfl
theorem dmast (t : Nat) (w : BitVec 52) : Statement (.dmast t w) := by intro f h; cases h; rfl
theorem dmawt (t : Nat) (w : BitVec 52) : Statement (.dmawt t w) := by intro f h; cases h; rfl
theorem dmacan (t : Nat) (w : BitVec 52) : Statement (.dmacan t w) := by intro f h; cases h; rfl
theorem xstart (t : Nat) (w : BitVec 52) : Statement (.xstart t w) := by intro f h; cases h; rfl
theorem xwait (t : Nat) (w : BitVec 52) : Statement (.xwait t w) := by intro f h; cases h; rfl
theorem xsend (t : Nat) (w : BitVec 52) : Statement (.xsend t w) := by intro f h; cases h; rfl
theorem wopen (t : Nat) (w : BitVec 52) : Statement (.wopen t w) := by intro f h; cases h; rfl
theorem wclose (t : Nat) (w : BitVec 52) : Statement (.wclose t w) := by intro f h; cases h; rfl
theorem wgrant (t : Nat) (w : BitVec 52) : Statement (.wgrant t w) := by intro f h; cases h; rfl
theorem sig (t : Nat) (w : BitVec 52) : Statement (.sig t w) := by intro f h; cases h; rfl
theorem swait (t : Nat) (w : BitVec 52) : Statement (.swait t w) := by intro f h; cases h; rfl
theorem sdec (t : Nat) (w : BitVec 52) : Statement (.sdec t w) := by intro f h; cases h; rfl
theorem flare (t : Nat) (w : BitVec 52) : Statement (.flare t w) := by intro f h; cases h; rfl
theorem sread (t : Nat) (w : BitVec 52) : Statement (.sread t w) := by intro f h; cases h; rfl
theorem fence (t : Nat) (w : BitVec 52) : Statement (.fence t w) := by intro f h; cases h; rfl
theorem txopen (t : Nat) (w : BitVec 52) : Statement (.txopen t w) := by intro f h; cases h; rfl
theorem txrel (t : Nat) (w : BitVec 52) : Statement (.txrel t w) := by intro f h; cases h; rfl
theorem txcan (t : Nat) (w : BitVec 52) : Statement (.txcan t w) := by intro f h; cases h; rfl
theorem veto (t : Nat) (w : BitVec 52) : Statement (.veto t w) := by intro f h; cases h; rfl
theorem genrd (t : Nat) (w : BitVec 52) : Statement (.genrd t w) := by intro f h; cases h; rfl
theorem nop (t : Nat) (w : BitVec 52) : Statement (.nop t w) := by intro f h; cases h; rfl
theorem wait (t : Nat) (w : BitVec 52) : Statement (.wait t w) := by intro f h; cases h; rfl
theorem bcnrd (t : Nat) (w : BitVec 52) : Statement (.bcnrd t w) := by intro f h; cases h; rfl
theorem halt (t : Nat) (w : BitVec 52) : Statement (.halt t w) := by intro f h; cases h; rfl
theorem illegalOp (t : Nat) (word : BitVec 64) : Statement (.illegalOp t word) := by intro f h; cases h
theorem instructionFetch (t : Nat) : Statement (.instructionFetch t) := by intro f h; cases h
theorem waitWake (t : Nat) : Statement (.waitWake t) := by intro f h; cases h
theorem haltReport (t : Nat) : Statement (.haltReport t) := by intro f h; cases h
theorem fenceComplete (t : Nat) : Statement (.fenceComplete t) := by intro f h; cases h
theorem mma (t : Nat) (w : BitVec 52) : Statement (.mma t w) := by intro f h; cases h; rfl
theorem azero (t : Nat) (w : BitVec 52) : Statement (.azero t w) := by intro f h; cases h; rfl
theorem ald (t : Nat) (w : BitVec 52) : Statement (.ald t w) := by intro f h; cases h; rfl
theorem ast (t : Nat) (w : BitVec 52) : Statement (.ast t w) := by intro f h; cases h; rfl
theorem mrun (t : Nat) (w : BitVec 52) : Statement (.mrun t w) := by intro f h; cases h; rfl
theorem mrunPost (t : Nat) : Statement (.mrunPost t) := by intro f h; cases h
theorem workListReady (t : Nat) : Statement (.workListReady t) := by intro f h; cases h
theorem listStart (t : Nat) : Statement (.listStart t) := by intro f h; cases h
theorem listEnd (t : Nat) : Statement (.listEnd t) := by intro f h; cases h
theorem listTimeout (t : Nat) (i : Nat) : Statement (.listTimeout t i) := by intro f h; cases h
theorem vadd (t : Nat) (w : BitVec 52) : Statement (.vadd t w) := by intro f h; cases h; rfl
theorem vsub (t : Nat) (w : BitVec 52) : Statement (.vsub t w) := by intro f h; cases h; rfl
theorem vmul (t : Nat) (w : BitVec 52) : Statement (.vmul t w) := by intro f h; cases h; rfl
theorem vfma (t : Nat) (w : BitVec 52) : Statement (.vfma t w) := by intro f h; cases h; rfl
theorem vlerp (t : Nat) (w : BitVec 52) : Statement (.vlerp t w) := by intro f h; cases h; rfl
theorem vmin (t : Nat) (w : BitVec 52) : Statement (.vmin t w) := by intro f h; cases h; rfl
theorem vmax (t : Nat) (w : BitVec 52) : Statement (.vmax t w) := by intro f h; cases h; rfl
theorem vabs (t : Nat) (w : BitVec 52) : Statement (.vabs t w) := by intro f h; cases h; rfl
theorem vmov (t : Nat) (w : BitVec 52) : Statement (.vmov t w) := by intro f h; cases h; rfl
theorem vand (t : Nat) (w : BitVec 52) : Statement (.vand t w) := by intro f h; cases h; rfl
theorem vor (t : Nat) (w : BitVec 52) : Statement (.vor t w) := by intro f h; cases h; rfl
theorem vxor (t : Nat) (w : BitVec 52) : Statement (.vxor t w) := by intro f h; cases h; rfl
theorem vcmp (t : Nat) (w : BitVec 52) : Statement (.vcmp t w) := by intro f h; cases h; rfl
theorem vtrn (t : Nat) (w : BitVec 52) : Statement (.vtrn t w) := by intro f h; cases h; rfl
theorem vcvt (t : Nat) (w : BitVec 52) : Statement (.vcvt t w) := by intro f h; cases h; rfl
theorem vdiv (t : Nat) (w : BitVec 52) : Statement (.vdiv t w) := by intro f h; cases h; rfl
theorem vsqrt (t : Nat) (w : BitVec 52) : Statement (.vsqrt t w) := by intro f h; cases h; rfl
theorem vrsqrt (t : Nat) (w : BitVec 52) : Statement (.vrsqrt t w) := by intro f h; cases h; rfl
theorem vrcp (t : Nat) (w : BitVec 52) : Statement (.vrcp t w) := by intro f h; cases h; rfl
theorem vexp (t : Nat) (w : BitVec 52) : Statement (.vexp t w) := by intro f h; cases h; rfl
theorem vexp2 (t : Nat) (w : BitVec 52) : Statement (.vexp2 t w) := by intro f h; cases h; rfl
theorem vlog (t : Nat) (w : BitVec 52) : Statement (.vlog t w) := by intro f h; cases h; rfl
theorem vlog2 (t : Nat) (w : BitVec 52) : Statement (.vlog2 t w) := by intro f h; cases h; rfl
theorem vtanh (t : Nat) (w : BitVec 52) : Statement (.vtanh t w) := by intro f h; cases h; rfl
theorem vlgst (t : Nat) (w : BitVec 52) : Statement (.vlgst t w) := by intro f h; cases h; rfl
theorem verf (t : Nat) (w : BitVec 52) : Statement (.verf t w) := by intro f h; cases h; rfl
theorem vsin (t : Nat) (w : BitVec 52) : Statement (.vsin t w) := by intro f h; cases h; rfl
theorem vcos (t : Nat) (w : BitVec 52) : Statement (.vcos t w) := by intro f h; cases h; rfl
theorem vred (t : Nat) (w : BitVec 52) : Statement (.vred t w) := by intro f h; cases h; rfl
theorem vscan (t : Nat) (w : BitVec 52) : Statement (.vscan t w) := by intro f h; cases h; rfl
theorem vcens (t : Nat) (w : BitVec 52) : Statement (.vcens t w) := by intro f h; cases h; rfl
theorem vscale (t : Nat) (w : BitVec 52) : Statement (.vscale t w) := by intro f h; cases h; rfl
theorem vladd (t : Nat) (w : BitVec 52) : Statement (.vladd t w) := by intro f h; cases h; rfl
theorem graw (t : Nat) (w : BitVec 52) : Statement (.graw t w) := by intro f h; cases h; rfl
theorem guni (t : Nat) (w : BitVec 52) : Statement (.guni t w) := by intro f h; cases h; rfl
theorem guno (t : Nat) (w : BitVec 52) : Statement (.guno t w) := by intro f h; cases h; rfl
theorem gnorm (t : Nat) (w : BitVec 52) : Statement (.gnorm t w) := by intro f h; cases h; rfl
theorem gbern (t : Nat) (w : BitVec 52) : Statement (.gbern t w) := by intro f h; cases h; rfl
theorem ggumb (t : Nat) (w : BitVec 52) : Statement (.ggumb t w) := by intro f h; cases h; rfl
theorem sloc (t : Nat) (w : BitVec 52) : Statement (.sloc t w) := by intro f h; cases h; rfl
theorem smrg (t : Nat) (w : BitVec 52) : Statement (.smrg t w) := by intro f h; cases h; rfl
theorem spick (t : Nat) (w : BitVec 52) : Statement (.spick t w) := by intro f h; cases h; rfl
theorem taggedAccessRecheck (t : Nat) (i : Nat) : Statement (.taggedAccessRecheck t i) := by intro f h; cases h
theorem tagTimeout (t : Nat) (i : Nat) : Statement (.tagTimeout t i) := by intro f h; cases h
theorem remoteWriteCheck (t : Nat) : Statement (.remoteWriteCheck t) := by intro f h; cases h
theorem remoteRead (t : Nat) : Statement (.remoteRead t) := by intro f h; cases h
theorem queueTailAdvance (t : Nat) (win : Nat) : Statement (.queueTailAdvance t win) := by intro f h; cases h
theorem wcloseComplete (t : Nat) (win : Nat) : Statement (.wcloseComplete t win) := by intro f h; cases h
theorem grantMessage (t : Nat) : Statement (.grantMessage t) := by intro f h; cases h
theorem grantReturn (t : Nat) : Statement (.grantReturn t) := by intro f h; cases h
theorem winClosedRefusal (t : Nat) : Statement (.winClosedRefusal t) := by intro f h; cases h
theorem creditTimeout (t : Nat) : Statement (.creditTimeout t) := by intro f h; cases h
theorem replyArrival (t : Nat) : Statement (.replyArrival t) := by intro f h; cases h
theorem semOpAtHome (t : Nat) : Statement (.semOpAtHome t) := by intro f h; cases h
theorem semReleaseDelivery (t : Nat) : Statement (.semReleaseDelivery t) := by intro f h; cases h
theorem returnedRelease (t : Nat) : Statement (.returnedRelease t) := by intro f h; cases h
theorem semTimeout (t : Nat) (entry : Nat) (i : Nat) : Statement (.semTimeout t entry i) := by intro f h; cases h
theorem sigBufferRelease (t : Nat) : Statement (.sigBufferRelease t) := by intro f h; cases h
theorem dmaOpStart (t : Nat) (que : Nat) : Statement (.dmaOpStart t que) := by intro f h; cases h
theorem dmaOpEnd (t : Nat) (que : Nat) : Statement (.dmaOpEnd t que) := by intro f h; cases h
theorem txnReleaseArrival (t : Nat) : Statement (.txnReleaseArrival t) := by intro f h; cases h
theorem txnTimeout (t : Nat) (h : Nat) : Statement (.txnTimeout t h) := by intro f h; cases h
theorem darkCopyDrop (t : Nat) : Statement (.darkCopyDrop t) := by intro f h; cases h
theorem phaseStart (t : Nat) : Statement (.phaseStart t) := by intro f h; cases h
theorem sendRecordIssue (t : Nat) : Statement (.sendRecordIssue t) := by intro f h; cases h
theorem exchAckArrival (t : Nat) : Statement (.exchAckArrival t) := by intro f h; cases h
theorem phaseEnd (t : Nat) : Statement (.phaseEnd t) := by intro f h; cases h
theorem phaseGraceExpiry (t : Nat) : Statement (.phaseGraceExpiry t) := by intro f h; cases h
theorem mcastBranchResume (t : Nat) (id : Nat) : Statement (.mcastBranchResume t id) := by intro f h; cases h
theorem mcastTimeout (t : Nat) (id : Nat) : Statement (.mcastTimeout t id) := by intro f h; cases h
theorem mapChange : Statement .mapChange := by intro f h; cases h
theorem tileSubstitute (row : Nat) (col : Nat) : Statement (.tileSubstitute row col) := by intro f h; cases h
theorem routerFailure (row : Nat) (col : Nat) : Statement (.routerFailure row col) := by intro f h; cases h
theorem routerBypassSwitch (row : Nat) (col : Nat) : Statement (.routerBypassSwitch row col) := by intro f h; cases h
theorem tileCoreReset (t : Nat) : Statement (.tileCoreReset t) := by intro f h; cases h
theorem tileCoreReady (t : Nat) : Statement (.tileCoreReady t) := by intro f h; cases h
theorem routerReset (row : Nat) (col : Nat) : Statement (.routerReset row col) := by intro f h; cases h
theorem routerReady (row : Nat) (col : Nat) : Statement (.routerReady row col) := by intro f h; cases h
theorem beaconEdge : Statement .beaconEdge := by intro f h; cases h
theorem syncFrame (src : Nat) (count : BitVec 64) (term : BitVec 16) (hold : Bool) : Statement (.syncFrame src count term hold) := by intro f h; cases h
theorem tickPeriodChange : Statement .tickPeriodChange := by intro f h; cases h
theorem holdoverEntry : Statement .holdoverEntry := by intro f h; cases h
theorem holdoverSourceSearch (found : Option Nat) : Statement (.holdoverSourceSearch found) := by intro f h; cases h
theorem electionAdvertisement (term : BitVec 16) (prio : BitVec 8) (module : BitVec 14) (floor : BitVec 64) : Statement (.electionAdvertisement term prio module floor) := by intro f h; cases h
theorem electionClose : Statement .electionClose := by intro f h; cases h
theorem holdoverLimit : Statement .holdoverLimit := by intro f h; cases h
theorem beaconRelock (src : Nat) (count : BitVec 64) : Statement (.beaconRelock src count) := by intro f h; cases h
theorem fabricRejoin (src : Nat) (term : BitVec 16) (prio : BitVec 8) (master : BitVec 14) (count : BitVec 64) : Statement (.fabricRejoin src term prio master count) := by intro f h; cases h
theorem treeReductionStart (tree : Nat) (op : Nat) (contribution : BitVec 64) (tc : BitVec 64) (tr : BitVec 64) (level : Nat) (height : Nat) (depth : Nat) : Statement (.treeReductionStart tree op contribution tc tr level height depth) := by intro f h; cases h
theorem treeContribution (tree : Nat) (port : Nat) (value : BitVec 64) (count : Nat) (absent : Option Nat) : Statement (.treeContribution tree port value count absent) := by intro f h; cases h
theorem treeNodeClose (tree : Nat) : Statement (.treeNodeClose tree) := by intro f h; cases h
theorem treeResult (tree : Nat) (value : BitVec 64) (count : Nat) (absent : Option Nat) : Statement (.treeResult tree value count absent) := by intro f h; cases h
theorem collTrigger (axis : Nat) (counter : Nat) (n : Nat) : Statement (.collTrigger axis counter n) := by intro f h; cases h
theorem collContribution (axis : Nat) (header : BitVec 384) (payload : List (BitVec 8)) (cdig : BitVec 64) : Statement (.collContribution axis header payload cdig) := by intro f h; cases h
theorem collEnd (axis : Nat) (d : Nat) : Statement (.collEnd axis d) := by intro f h; cases h
theorem collDeadline (axis : Nat) (d : Nat) : Statement (.collDeadline axis d) := by intro f h; cases h
theorem hbmRead (stack : Nat) (ch : Nat) : Statement (.hbmRead stack ch) := by intro f h; cases h
theorem hbmWrite (stack : Nat) (ch : Nat) : Statement (.hbmWrite stack ch) := by intro f h; cases h
theorem sparingCopyDone (stack : Nat) : Statement (.sparingCopyDone stack) := by intro f h; cases h
theorem channelReset (stack : Nat) (ch : Nat) : Statement (.channelReset stack ch) := by intro f h; cases h
theorem channelReady (stack : Nat) (ch : Nat) : Statement (.channelReady stack ch) := by intro f h; cases h
theorem scrubRead (blk : Nat) : Statement (.scrubRead blk) := by intro f h; cases h
theorem stackTempRead (stack : Nat) (temp : BitVec 8) : Statement (.stackTempRead stack temp) := by intro f h; cases h
theorem stepOpen : Statement .stepOpen := by intro f h; cases h
theorem leaseRelease (i : Nat) : Statement (.leaseRelease i) := by intro f h; cases h
theorem voteTick : Statement .voteTick := by intro f h; cases h
theorem flip : Statement .flip := by intro f h; cases h
theorem stepResultLate : Statement .stepResultLate := by intro f h; cases h
theorem moduleOutOfStep : Statement .moduleOutOfStep := by intro f h; cases h
theorem frameReceive (port : Nat) (header : BitVec 256) (decodes : Bool) (fcrcOk : Bool) (corrected : Bool) : Statement (.frameReceive port header decodes fcrcOk corrected) := by intro f h; cases h
theorem replayTimeout (port : Nat) : Statement (.replayTimeout port) := by intro f h; cases h
theorem creditAudit (port : Nat) (totals : List (Nat × BitVec 16)) : Statement (.creditAudit port totals) := by intro f h; cases h
theorem packetArrival (port : Nat) (header : BitVec 384) (payload : List (BitVec 8)) : Statement (.packetArrival port header payload) := by intro f h; cases h
theorem delayProbe (port : Nat) (roundTrip : Nat) (turnaround : Nat) : Statement (.delayProbe port roundTrip turnaround) := by intro f h; cases h
theorem laneErrorWindow (port : Nat) (bad : BitVec 12) (seq : BitVec 16) : Statement (.laneErrorWindow port bad seq) := by intro f h; cases h
theorem laneSwap (port : Nat) : Statement (.laneSwap port) := by intro f h; cases h
theorem trainingStateDone (port : Nat) (good : BitVec 12) (delay : BitVec 16) : Statement (.trainingStateDone port good delay) := by intro f h; cases h
theorem trainingStateTimeout (port : Nat) : Statement (.trainingStateTimeout port) := by intro f h; cases h
theorem detectRetry (port : Nat) (present : BitVec 12) : Statement (.detectRetry port present) := by intro f h; cases h
theorem identityPacket (port : Nat) (ident : BitVec 256) : Statement (.identityPacket port ident) := by intro f h; cases h
theorem linkLoss (port : Nat) : Statement (.linkLoss port) := by intro f h; cases h
theorem portReset (port : Nat) : Statement (.portReset port) := by intro f h; cases h
theorem portReady (port : Nat) : Statement (.portReady port) := by intro f h; cases h
theorem leaveNotice (port : Nat) : Statement (.leaveNotice port) := by intro f h; cases h
theorem fenceNotice (port : Nat) : Statement (.fenceNotice port) := by intro f h; cases h
theorem portQuiesce (port : Nat) : Statement (.portQuiesce port) := by intro f h; cases h
theorem quiesceDrainEnd (port : Nat) : Statement (.quiesceDrainEnd port) := by intro f h; cases h
theorem portUnquiesce (port : Nat) : Statement (.portUnquiesce port) := by intro f h; cases h
theorem portFence (port : Nat) : Statement (.portFence port) := by intro f h; cases h
theorem portUnfence (port : Nat) : Statement (.portUnfence port) := by intro f h; cases h
theorem portRetrain (port : Nat) : Statement (.portRetrain port) := by intro f h; cases h
theorem portEnable (port : Nat) (enable : Bool) : Statement (.portEnable port enable) := by intro f h; cases h
theorem bfSelfWrite (value : BitVec 64) : Statement (.bfSelfWrite value) := by intro f h; cases h
theorem sqTailDoorbell (ring : Nat) (value : BitVec 32) : Statement (.sqTailDoorbell ring value) := by intro f h; cases h
theorem cqHeadDoorbell (ring : Nat) (value : BitVec 32) : Statement (.cqHeadDoorbell ring value) := by intro f h; cases h
theorem hifReset : Statement .hifReset := by intro f h; cases h
theorem conventionalReset : Statement .conventionalReset := by intro f h; cases h
theorem functionLevelReset : Statement .functionLevelReset := by intro f h; cases h
theorem ringEnable (ring : Nat) (value : BitVec 64) : Statement (.ringEnable ring value) := by intro f h; cases h
theorem ringDisable (ring : Nat) (value : BitVec 64) : Statement (.ringDisable ring value) := by intro f h; cases h
theorem relayTableWrite (k : Nat) (value : BitVec 64) : Statement (.relayTableWrite k value) := by intro f h; cases h
theorem unmappedAccess (offset : Nat) (isWrite : Bool) : Statement (.unmappedAccess offset isWrite) := by intro f h; cases h
theorem registerWrite (offset : Nat) (size : Nat) (value : BitVec 64) : Statement (.registerWrite offset size value) := by intro f h; cases h
theorem fetchBurst : Statement .fetchBurst := by intro f h; cases h
theorem descriptorStart (ring : Nat) : Statement (.descriptorStart ring) := by intro f h; cases h
theorem completionWrite : Statement .completionWrite := by intro f h; cases h
theorem msixInterrupt (ring : Nat) : Statement (.msixInterrupt ring) := by intro f h; cases h
theorem hostMemoryError (ring : Nat) : Statement (.hostMemoryError ring) := by intro f h; cases h
theorem relayForward : Statement .relayForward := by intro f h; cases h
theorem relayPathLoss (k : Nat) : Statement (.relayPathLoss k) := by intro f h; cases h
theorem relayPathRegain (k : Nat) : Statement (.relayPathRegain k) := by intro f h; cases h
theorem nopCmd (ring : Nat) (desc : BitVec 512) : Statement (.nopCmd ring desc) := by intro f h; cases h
theorem identify (ring : Nat) (desc : BitVec 512) : Statement (.identify ring desc) := by intro f h; cases h
theorem regRead (ring : Nat) (desc : BitVec 512) : Statement (.regRead ring desc) := by intro f h; cases h
theorem regWrite (ring : Nat) (desc : BitVec 512) : Statement (.regWrite ring desc) := by intro f h; cases h
theorem stepRecords (ring : Nat) (desc : BitVec 512) : Statement (.stepRecords ring desc) := by intro f h; cases h
theorem copyIn (ring : Nat) (desc : BitVec 512) : Statement (.copyIn ring desc) := by intro f h; cases h
theorem copyOut (ring : Nat) (desc : BitVec 512) : Statement (.copyOut ring desc) := by intro f h; cases h
theorem copyComplete (tag : BitVec 64) : Statement (.copyComplete tag) := by intro f h; cases h
theorem batchPost (ring : Nat) (desc : BitVec 512) : Statement (.batchPost ring desc) := by intro f h; cases h
theorem batchStaged (index : BitVec 64) : Statement (.batchStaged index) := by intro f h; cases h
theorem jobPlace (ring : Nat) (desc : BitVec 512) : Statement (.jobPlace ring desc) := by intro f h; cases h
theorem suspend (ring : Nat) (desc : BitVec 512) : Statement (.suspend ring desc) := by intro f h; cases h
theorem resume (ring : Nat) (desc : BitVec 512) : Statement (.resume ring desc) := by intro f h; cases h
theorem cancel (ring : Nat) (desc : BitVec 512) : Statement (.cancel ring desc) := by intro f h; cases h
theorem opQuery (ring : Nat) (desc : BitVec 512) : Statement (.opQuery ring desc) := by intro f h; cases h
theorem reshard (ring : Nat) (desc : BitVec 512) : Statement (.reshard ring desc) := by intro f h; cases h
theorem checkpoint (ring : Nat) (desc : BitVec 512) : Statement (.checkpoint ring desc) := by intro f h; cases h
theorem ctxSave (ring : Nat) (desc : BitVec 512) : Statement (.ctxSave ring desc) := by intro f h; cases h
theorem pwrReq (ring : Nat) (desc : BitVec 512) : Statement (.pwrReq ring desc) := by intro f h; cases h
theorem fwLoad (ring : Nat) (desc : BitVec 512) : Statement (.fwLoad ring desc) := by intro f h; cases h
theorem fwImageAccept : Statement .fwImageAccept := by intro f h; cases h
theorem attest (ring : Nat) (desc : BitVec 512) : Statement (.attest ring desc) := by intro f h; cases h
theorem nvmStore (ring : Nat) (desc : BitVec 512) : Statement (.nvmStore ring desc) := by intro f h; cases h
theorem nvmStoreDone : Statement .nvmStoreDone := by intro f h; cases h
theorem afterglowRead (ring : Nat) (desc : BitVec 512) : Statement (.afterglowRead ring desc) := by intro f h; cases h
theorem jobDequeue : Statement .jobDequeue := by intro f h; cases h
theorem memberReady (module : Nat) : Statement (.memberReady module) := by intro f h; cases h
theorem placementTimeout : Statement .placementTimeout := by intro f h; cases h
theorem tileStartAtHalt (t : Nat) : Statement (.tileStartAtHalt t) := by intro f h; cases h
theorem checkpointStart : Statement .checkpointStart := by intro f h; cases h
theorem checkpointDone : Statement .checkpointDone := by intro f h; cases h
theorem memberLost (module : Nat) : Statement (.memberLost module) := by intro f h; cases h
theorem recoveryTimeout : Statement .recoveryTimeout := by intro f h; cases h
theorem tilesHeld (module : Nat) : Statement (.tilesHeld module) := by intro f h; cases h
theorem lighthouseReset : Statement .lighthouseReset := by intro f h; cases h
theorem lighthouseReady : Statement .lighthouseReady := by intro f h; cases h
theorem gatewayFailure (g : Nat) : Statement (.gatewayFailure g) := by intro f h; cases h
theorem authorityChange (master : Nat) : Statement (.authorityChange master) := by intro f h; cases h
theorem lockstepDisagree (pair : Nat) : Statement (.lockstepDisagree pair) := by intro f h; cases h
theorem testDue (row : Nat) (col : Nat) : Statement (.testDue row col) := by intro f h; cases h
theorem testMove (row : Nat) (col : Nat) : Statement (.testMove row col) := by intro f h; cases h
theorem tileTestResult (row : Nat) (col : Nat) (pass : Bool) : Statement (.tileTestResult row col pass) := by intro f h; cases h
theorem testForced (row : Nat) (col : Nat) : Statement (.testForced row col) := by intro f h; cases h
theorem linkChannelTest (unit : BitVec 32) (pass : Bool) : Statement (.linkChannelTest unit pass) := by intro f h; cases h
theorem sentinelDigest : Statement .sentinelDigest := by intro f h; cases h
theorem digestReceive (member : Nat) (digest : Option (BitVec 256)) : Statement (.digestReceive member digest) := by intro f h; cases h
theorem replicaVerdict : Statement .replicaVerdict := by intro f h; cases h
theorem verdictReceive (outcome : Nat) : Statement (.verdictReceive outcome) := by intro f h; cases h
theorem mirrorRecord (sstep : BitVec 32) (digest : BitVec 64) (tiles : List (Nat × BitVec 64)) : Statement (.mirrorRecord sstep digest tiles) := by intro f h; cases h
theorem mirrorRebuild : Statement .mirrorRebuild := by intro f h; cases h
theorem domainNotReady (unit : BitVec 32) : Statement (.domainNotReady unit) := by intro f h; cases h
theorem afterglowCommit : Statement .afterglowCommit := by intro f h; cases h
theorem journalCommit : Statement .journalCommit := by intro f h; cases h
theorem nvmRelPolicyWrite (value : BitVec 64) : Statement (.nvmRelPolicyWrite value) := by intro f h; cases h
theorem nvmCalSet (value : BitVec 64) : Statement (.nvmCalSet value) := by intro f h; cases h
theorem presPress : Statement .presPress := by intro f h; cases h
theorem presWindowExpire : Statement .presWindowExpire := by intro f h; cases h
theorem presClose : Statement .presClose := by intro f h; cases h
theorem tamperClr : Statement .tamperClr := by intro f h; cases h
theorem secFloorSet (value : BitVec 32) : Statement (.secFloorSet value) := by intro f h; cases h
theorem secUnitReturn (value : BitVec 32) : Statement (.secUnitReturn value) := by intro f h; cases h
theorem sealSample (isOpen : Bool) : Statement (.sealSample isOpen) := by intro f h; cases h
theorem bootRom : Statement .bootRom := by intro f h; cases h
theorem powerUp (slot : BitVec 3) (board : Bool) (vbatOk : Bool) : Statement (.powerUp slot board vbatOk) := by intro f h; cases h
theorem refClkStable : Statement .refClkStable := by intro f h; cases h
theorem vinSample (vin : Nat) (power : Nat) : Statement (.vinSample vin power) := by intro f h; cases h
theorem inputRangeFault (vin : Nat) : Statement (.inputRangeFault vin) := by intro f h; cases h
theorem inputCollapse (vin : Nat) : Statement (.inputCollapse vin) := by intro f h; cases h
theorem brownout : Statement .brownout := by intro f h; cases h
theorem capControl (mean : Nat) (mean100 : Nat) : Statement (.capControl mean mean100) := by intro f h; cases h
theorem tjSample (tj : Nat) : Statement (.tjSample tj) := by intro f h; cases h
theorem hbmLevel3Timeout (stack : Nat) : Statement (.hbmLevel3Timeout stack) := by intro f h; cases h
theorem powerEntry : Statement .powerEntry := by intro f h; cases h
theorem wakeN : Statement .wakeN := by intro f h; cases h
theorem wakeAtCount : Statement .wakeAtCount := by intro f h; cases h
theorem wakeAtUtc : Statement .wakeAtUtc := by intro f h; cases h
theorem wakeComplete : Statement .wakeComplete := by intro f h; cases h
theorem pllLockLoss (pll : Nat) (unit : Nat) : Statement (.pllLockLoss pll unit) := by intro f h; cases h
theorem pwrRstN : Statement .pwrRstN := by intro f h; cases h
theorem pwrRstRelease : Statement .pwrRstRelease := by intro f h; cases h
theorem bcnTokenPass (slot : BitVec 3) : Statement (.bcnTokenPass slot) := by intro f h; cases h
theorem bcnTokenTakeover : Statement .bcnTokenTakeover := by intro f h; cases h
theorem bcnWordReceive (word : BitVec 96) (sync : Bool) : Statement (.bcnWordReceive word sync) := by intro f h; cases h
theorem clearFaults (pec : Option Bool) : Statement (.clearFaults pec) := by intro f h; cases h
theorem statusWord (pec : Option Bool) : Statement (.statusWord pec) := by intro f h; cases h
theorem readVin (pec : Option Bool) : Statement (.readVin pec) := by intro f h; cases h
theorem readIin (pec : Option Bool) : Statement (.readIin pec) := by intro f h; cases h
theorem readTemperature1 (pec : Option Bool) : Statement (.readTemperature1 pec) := by intro f h; cases h
theorem readPin (pec : Option Bool) : Statement (.readPin pec) := by intro f h; cases h
theorem pmbusRevision (pec : Option Bool) : Statement (.pmbusRevision pec) := by intro f h; cases h
theorem mfrWake (data : BitVec 8) (pec : Option Bool) : Statement (.mfrWake data pec) := by intro f h; cases h
theorem mfrState (pec : Option Bool) : Statement (.mfrState pec) := by intro f h; cases h
theorem mfrSerial (pec : Option Bool) : Statement (.mfrSerial pec) := by intro f h; cases h
theorem extest (pins : BitVec 64) : Statement (.extest pins) := by intro f h; cases h
theorem samplePreload (pins : BitVec 64) : Statement (.samplePreload pins) := by intro f h; cases h
theorem idcode : Statement .idcode := by intro f h; cases h
theorem clamp (pins : BitVec 64) : Statement (.clamp pins) := by intro f h; cases h
theorem highz (pins : BitVec 64) : Statement (.highz pins) := by intro f h; cases h
theorem bypass : Statement .bypass := by intro f h; cases h
theorem pllRelock (pll : Nat) (unit : Nat) : Statement (.pllRelock pll unit) := by intro f h; cases h
theorem jobSwitchDone : Statement .jobSwitchDone := by intro f h; cases h
theorem memberReturn (module : Nat) : Statement (.memberReturn module) := by intro f h; cases h
theorem inputRemoval : Statement .inputRemoval := by intro f h; cases h
theorem hifPerstNRelease : Statement .hifPerstNRelease := by intro f h; cases h

end Sys2Proof.Laws.TileField
end

