-- ==== Sys2Proof/Laws/Vector.lean ====
section
/-! SUPPORT. What the issue of a vector instruction does where it runs at once, said once. -/
namespace Sys2Proof.Machine

/-- The state in which a vector instruction that runs alone stands in its queue. -/
def State.inQueue (s : State) (t : Nat) (q : QInsn) : State :=
  (s.issued t).setTile t { (s.issued t).tile t with vq := [q], vecs := ((s.issued t).tile t).vecs + 1 }

/-- The state in which it starts: it has left the queue, which is empty. -/
def State.started (s : State) (t : Nat) (q : QInsn) : State :=
  (s.inQueue t q).setTile t { (s.issued t).tile t with vq := [], vecs := ((s.issued t).tile t).vecs + 1, stages := 0 }

@[simp] theorem State.inQueue_tile (s : State) (t : Nat) (q : QInsn) : (s.inQueue t q).tile t =
    { (s.issued t).tile t with vq := [q], vecs := ((s.issued t).tile t).vecs + 1 } := by
  simp only [State.inQueue, State.tile_setTile_same]

@[simp] theorem State.started_tile (s : State) (t : Nat) (q : QInsn) : (s.started t q).tile t =
    { (s.issued t).tile t with vq := [], vecs := ((s.issued t).tile t).vecs + 1, stages := 0 } := by
  simp only [State.started, State.tile_setTile_same]

theorem State.started_tile_other (s : State) {t u : Nat} (q : QInsn) (h : u ≠ t) : (s.started t q).tile u = s.tile u := by
  simp only [State.started, State.inQueue, State.tile_setTile_other _ _ h, State.issued_tile_other _ h]

/-- Where the first stage of a chain stands alone and ends it, the head of the queue is that chain. -/
theorem queueHead_alone {q : QInsn} (hc : q.cls ≠ 2) (hg : fSTG q.w = 0) (he : fEND q.w = true) : queueHead [q] = .chain 1 := by
  simp [queueHead, chainAt, hc, hg, he]

/-- One start of an instruction that stands alone in the queue. -/
theorem vecStep_alone {s : State} {t : Nat} {q : QInsn} (hv : (s.tile t).vq = [q]) (h0 : (s.tile t).stages = 0) (hc : q.cls ≠ 2)
    (hg : fSTG q.w = 0) (he : fEND q.w = true) (hs : (s.tile t).canStart q = true) : s.vecStep t = some (s.runStage t q) := by
  have hh := queueHead_alone hc hg he
  simp only [State.vecStep, hv, h0, hh, hs, ne_eq, not_true_eq_false, if_false, if_true]

/-- The queue of one instruction runs it. -/
theorem drainVec_alone {s : State} {t : Nat} {q : QInsn} (hv : (s.tile t).vq = [q]) (h0 : (s.tile t).stages = 0)
    (hl : s.lanesOn = true) (hc : q.cls ≠ 2) (hg : fSTG q.w = 0) (he : fEND q.w = true) (hs : (s.tile t).canStart q = true) :
    s.drainVec t = s.runStage t q := by
  rw [State.drainVec, if_pos hl, hv]
  show State.vecSteps t 1 s = _
  rw [State.vecSteps, vecStep_alone hv h0 hc hg he hs]
  rfl

/-- A vector instruction that is no access and runs alone runs as a chain of one stage. -/
theorem issueVec_alone {t cls op : Nat} {w : BitVec 52} {f : Form} {s : State} (hc : cls ≠ 2)
    (h : RunsAlone t cls op w { f with room := decide ((s.tile t).vq.length < 16) } s) :
    let q := vecInsn (s.tile t) cls op w (s.tile t).pc
    issueVec t cls op w f s = .next ((s.inQueue t q).runStage t q) := by
  intro q
  obtain ⟨hi, hq, h0, hl, hs, he⟩ := h
  have he := he.resolve_left hc
  rw [issueVec, issue_runs _ hi]
  congr 1
  have hins : vecInsn ((s.issued t).tile t) cls op w (s.tile t).pc = q := by
    rw [State.issued_tile]; rfl
  have hqi : ((s.issued t).tile t).vq = [] := by rw [State.issued_tile]; exact hq
  have hent : enqueueVec t cls op w (s.tile t).pc (s.issued t) = (s.inQueue t q).drainVec t := by
    simp only [enqueueVec, hins, hqi, List.nil_append]; rfl
  rw [hent]
  refine drainVec_alone (by rw [State.inQueue_tile]) ?_ hl hc he.1 he.2 ?_
  · rw [State.inQueue_tile, State.issued_tile]; exact h0
  · rw [State.inQueue_tile, State.issued_tile]; exact hs

/-- What the lane unit computes depends on the v registers and the control block alone. -/
theorem Tile.elemResult_congr {x y : Tile} (hv : x.v = y.v) (hr : x.regs = y.regs) (q : QInsn) (k : Nat) :
    x.elemResult q k = y.elemResult q k := by
  have hg : ∀ r, x.getV r = y.getV r := fun r => by simp only [Tile.getV, hv]
  have hrd : ∀ o, x.rd o = y.rd o := fun o => by simp only [Tile.rd, hr]
  have hf : ∀ f, x.fld f = y.fld f := fun f => by simp only [Tile.fld, hrd]
  simp only [Tile.elemResult, Tile.opB, Tile.opC, Tile.rndCode, Tile.rounding, Tile.roundDraw, Tile.glintAt, Tile.satNarrow, hg, hf, hrd]
  rfl

/-- The operations that act element by element. -/
def elementwiseOps : List Nat := [1, 2, 3, 4, 5, 6, 7, 8, 0xA, 0xB, 0xC, 0x18, 0x19, 0x1A, 0x1B, 0x1C, 0x1D, 0x1E, 0x1F, 0x20, 0x21, 0x22, 0x23, 0x24]

theorem runVector_elementwise (s : State) (t : Nat) {q : QInsn} (hc : q.cls = 3) (ho : q.op ∈ elementwiseOps) :
    s.runVector t q = (s.setTile t ((s.tile t).vecElementwise q), 0) := by
  obtain ⟨cls, op, w, pc, a, b, c, m, r⟩ := q
  simp only at hc ho
  subst hc
  simp only [elementwiseOps, List.mem_cons, List.not_mem_nil, or_false] at ho
  rcases ho with h | h | h | h | h | h | h | h | h | h | h | h | h | h | h | h | h | h | h | h | h | h | h | h <;> subst h <;> rfl

/-- An element of a packed list. -/
theorem packElems_bits (w : Nat) (xs : List Nat) (k : Nat) : packElems w xs / 2 ^ (w * k) % 2 ^ w = xs.getD k 0 % 2 ^ w := by
  have h2 : 0 < 2 ^ w := Nat.two_pow_pos w
  induction xs generalizing k with
  | nil => simp [packElems]
  | cons x xs ih =>
    cases k with
    | zero => simp [packElems, Nat.add_mod]
    | succ k =>
      rw [Nat.mul_succ, Nat.add_comm, Nat.pow_add, ← Nat.div_div_eq_div_mul]
      have : packElems w (x :: xs) / 2 ^ w = packElems w xs := by
        simp only [packElems, List.foldr_cons]
        rw [Nat.add_comm, Nat.add_mul_div_right _ _ h2, Nat.div_eq_of_lt (Nat.mod_lt _ h2), Nat.zero_add]
      rw [this, ih]; simp

theorem packElems_lt (w : Nat) (xs : List Nat) : packElems w xs < 2 ^ (w * xs.length) := by
  have h2 : 0 < 2 ^ w := Nat.two_pow_pos w
  induction xs with
  | nil => simp [packElems]
  | cons x xs ih =>
    simp only [packElems, List.foldr_cons, List.length_cons, Nat.mul_succ, Nat.pow_add]
    have := Nat.mod_lt x h2
    simp only [packElems] at ih
    nlinarith

/-- An element after a write under a predicate. -/
theorem elemOf_writeElems {w : Nat} (hw : w ∣ 8192) (p : BitVec 256) (o : BitVec 8192) (f : Nat → Nat) {k : Nat} (hk : k < viewCount w) :
    elemOf w (writeElems w p o f) k = (if p.getLsbD (laneOf w k) then f k % 2 ^ w else elemOf w o k) := by
  have hw0 : 0 < w := Nat.pos_of_dvd_of_pos hw (by norm_num)
  have h3 : w * viewCount w = 8192 := Nat.mul_div_cancel' hw
  unfold elemOf writeElems bits
  have hl := packElems_lt w ((List.range (viewCount w)).map (fun k => if p.getLsbD (laneOf w k) then f k else elemOf w o k))
  rw [List.length_map, List.length_range, h3] at hl
  rw [BitVec.toNat_ofNat, Nat.mod_eq_of_lt hl, Nat.shiftRight_eq_div_pow, packElems_bits w]
  simp only [List.getD_eq_getElem?_getD, List.getElem?_map, List.getElem?_range hk, Option.map_some, Option.getD_some]
  split
  · rfl
  · simp [elemOf, bits]


/-- An element-wise instruction that runs alone: VD is written and the busy count raised. -/
theorem issueVec_elementwise {t op : Nat} {w : BitVec 52} {f : Form} {s : State} (ho : op ∈ elementwiseOps)
    (h : RunsAlone t 3 op w { f with room := decide ((s.tile t).vq.length < 16) } s) :
    let q := vecInsn (s.tile t) 3 op w (s.tile t).pc
    issueVec t 3 op w f s = .next (((s.started t q).setTile t (((s.started t q).tile t).vecElementwise q)).onTile t
      (fun x => x.countFld ⟨0x158, 0, 48⟩ (((s.started t q).tile t).occupancy q))) := by
  intro q
  have he : fEND w = true := (h.2.2.2.2.2.resolve_left (by decide)).2
  have hs : (s.inQueue t q).setTile t { (s.inQueue t q).tile t with
      vq := ((s.inQueue t q).tile t).vq.drop 1, stages := if fEND q.w then 0 else ((s.inQueue t q).tile t).stages + 1 } = s.started t q := by
    have hw : fEND q.w = true := he
    simp only [State.inQueue_tile, hw, if_true]; rfl
  rw [issueVec_alone (by decide) h]
  simp only [State.runStage]
  rw [hs, runVector_elementwise (s.started t q) t (q := q) rfl ho]
  rfl

end Sys2Proof.Machine
end

