-- ==== Sys2Proof/Tests/Slice0.lean ====
section
/-! SUPPORT. The model's own tests: ill-formed commands, words written out from the encoding tables, worked examples of the
spec, and for every statement a state and operands that meet its hypotheses. -/
namespace Sys2Proof.Tests
set_option Elab.async false
open Sys2Proof Sys2Proof.Machine

/-- The machine after reset with tile 5 out of reset, its fields and module fields set as listed. -/
def ready (f : Tile → Tile) : State := State.reset.onTile 5 (fun x => f (x.setFld TILE.CORE_READY 1))

/-! Ill-formed commands, one for each check of the well-formedness: each names a unit one past the last. -/

theorem test_ill_formed_0 : ([.add 2880 0, .sub 2880 0, .mul 2880 0, .mulh 2880 0, .and 2880 0,
  .or 2880 0, .xor 2880 0, .shl 2880 0, .shr 2880 0, .sra 2880 0,
  .cmp 2880 0, .addi 2880 0, .movi 2880 0, .movhi 2880 0, .br 2880 0,
  .bri 2880 0, .call 2880 0, .ret 2880 0, .ld 2880 0, .st 2880 0,
  .vld 2880 0, .vst 2880 0, .dmast 2880 0, .dmawt 2880 0, .dmacan 2880 0,
  .xstart 2880 0, .xwait 2880 0, .xsend 2880 0, .wopen 2880 0, .wclose 2880 0] : List Instr).all (fun c => !c.wf) = true := by decide
theorem test_ill_formed_1 : ([.wgrant 2880 0, .sig 2880 0, .swait 2880 0, .sdec 2880 0, .flare 2880 0,
  .sread 2880 0, .fence 2880 0, .txopen 2880 0, .txrel 2880 0, .txcan 2880 0,
  .veto 2880 0, .genrd 2880 0, .nop 2880 0, .wait 2880 0, .bcnrd 2880 0,
  .halt 2880 0, .illegalOp 2880 0, .instructionFetch 2880, .waitWake 2880, .haltReport 2880,
  .fenceComplete 2880, .mma 2880 0, .azero 2880 0, .ald 2880 0, .ast 2880 0,
  .mrun 2880 0, .mrunPost 2880, .workListReady 2880, .listStart 2880, .listEnd 2880] : List Instr).all (fun c => !c.wf) = true := by decide
theorem test_ill_formed_2 : ([.listTimeout 2880 0, .vadd 2880 0, .vsub 2880 0, .vmul 2880 0, .vfma 2880 0,
  .vlerp 2880 0, .vmin 2880 0, .vmax 2880 0, .vabs 2880 0, .vmov 2880 0,
  .vand 2880 0, .vor 2880 0, .vxor 2880 0, .vcmp 2880 0, .vtrn 2880 0,
  .vcvt 2880 0, .vdiv 2880 0, .vsqrt 2880 0, .vrsqrt 2880 0, .vrcp 2880 0,
  .vexp 2880 0, .vexp2 2880 0, .vlog 2880 0, .vlog2 2880 0, .vtanh 2880 0,
  .vlgst 2880 0, .verf 2880 0, .vsin 2880 0, .vcos 2880 0, .vred 2880 0] : List Instr).all (fun c => !c.wf) = true := by decide
theorem test_ill_formed_3 : ([.vscan 2880 0, .vcens 2880 0, .vscale 2880 0, .vladd 2880 0, .graw 2880 0,
  .guni 2880 0, .guno 2880 0, .gnorm 2880 0, .gbern 2880 0, .ggumb 2880 0,
  .sloc 2880 0, .smrg 2880 0, .spick 2880 0, .taggedAccessRecheck 2880 0, .tagTimeout 2880 0,
  .remoteWriteCheck 2880, .remoteRead 2880, .queueTailAdvance 2880 0, .queueTailAdvance 0 64, .wcloseComplete 2880 0,
  .wcloseComplete 0 64, .grantMessage 2880, .grantReturn 2880, .winClosedRefusal 2880, .creditTimeout 2880,
  .replyArrival 2880, .semOpAtHome 2880, .semReleaseDelivery 2880, .returnedRelease 2880, .semTimeout 2880 0 0] : List Instr).all (fun c => !c.wf) = true := by decide
theorem test_ill_formed_4 : ([.semTimeout 0 64 0, .sigBufferRelease 2880, .dmaOpStart 2880 0, .dmaOpStart 0 4, .dmaOpEnd 2880 0,
  .dmaOpEnd 0 4, .txnReleaseArrival 2880, .txnTimeout 2880 0, .txnTimeout 0 4, .darkCopyDrop 2880,
  .phaseStart 2880, .sendRecordIssue 2880, .exchAckArrival 2880, .phaseEnd 2880, .phaseGraceExpiry 2880,
  .mcastBranchResume 2880 0, .mcastTimeout 2880 0, .tileSubstitute 48 0, .tileSubstitute 0 64, .routerFailure 48 0,
  .routerFailure 0 64, .routerBypassSwitch 48 0, .routerBypassSwitch 0 64, .tileCoreReset 2880, .tileCoreReady 2880,
  .routerReset 48 0, .routerReset 0 64, .routerReady 48 0, .routerReady 0 64, .syncFrame 9 0 0 false] : List Instr).all (fun c => !c.wf) = true := by decide
theorem test_ill_formed_5 : ([.holdoverSourceSearch (some 9), .beaconRelock 9 0, .fabricRejoin 9 0 0 0 0, .treeReductionStart 16 0 0 0 0 0 0 0, .treeReductionStart 0 4 0 0 0 0 0 0,
  .treeContribution 16 0 0 0 none, .treeContribution 0 8 0 0 none, .treeNodeClose 16, .treeResult 16 0 0 none, .collTrigger 4 0 0,
  .collTrigger 0 64 0, .collContribution 4 0 [] 0, .collEnd 4 0, .collEnd 0 256, .collDeadline 4 0,
  .collDeadline 0 256, .hbmRead 16 0, .hbmRead 0 16, .hbmWrite 16 0, .hbmWrite 0 16,
  .sparingCopyDone 16, .channelReset 16 0, .channelReset 0 16, .channelReady 16 0, .channelReady 0 16,
  .scrubRead 188743680, .stackTempRead 16 0, .frameReceive 8 0 false false false, .replayTimeout 8, .creditAudit 8 []] : List Instr).all (fun c => !c.wf) = true := by decide
theorem test_ill_formed_6 : ([.packetArrival 8 0 [], .delayProbe 8 0 0, .laneErrorWindow 8 0 0, .laneSwap 8, .trainingStateDone 8 0 0,
  .trainingStateTimeout 8, .detectRetry 8 0, .identityPacket 8 0, .linkLoss 8, .portReset 8,
  .portReady 8, .leaveNotice 8, .fenceNotice 8, .portQuiesce 8, .quiesceDrainEnd 8,
  .portUnquiesce 8, .portFence 8, .portUnfence 8, .portRetrain 8, .portEnable 8 false,
  .sqTailDoorbell 64 0, .cqHeadDoorbell 64 0, .ringEnable 64 0, .ringDisable 64 0, .relayTableWrite 64 0,
  .registerWrite 0 5 0, .msixInterrupt 64, .hostMemoryError 64, .relayPathLoss 64, .relayPathRegain 64] : List Instr).all (fun c => !c.wf) = true := by decide
theorem test_ill_formed_7 : ([.memberReady 16384, .tileStartAtHalt 2880, .memberLost 16384, .tilesHeld 16384, .gatewayFailure 2,
  .authorityChange 16384, .lockstepDisagree 4, .testDue 48 0, .testDue 0 64, .testMove 48 0,
  .testMove 0 64, .tileTestResult 48 0 false, .tileTestResult 0 64 false, .testForced 48 0, .testForced 0 64,
  .linkChannelTest 0x50000001 false, .digestReceive 16384 none, .verdictReceive 4, .domainNotReady 0x50000001, .hbmLevel3Timeout 16,
  .pllLockLoss 3 16, .pllRelock 3 16, .memberReturn 16384] : List Instr).all (fun c => !c.wf) = true := by decide
theorem test_units : [0xC00, 0x10000C00, 0x20000100, 0x30000008, 0x40000004, 0x50000001, 0x60000000].all (fun u => !isUnitNumber u) = true
    ∧ [0xBFF, 0x10000BFF, 0x200000FF, 0x30000007, 0x40000003, 0x50000000].all isUnitNumber = true := by decide
theorem test_pll_numbers : isPllNumber 4 8 = false ∧ isPllNumber 0 1 = false ∧ isPllNumber 5 0 = false ∧ isPllNumber 3 15 = true ∧ isPllNumber 4 7 = true := by decide


/-- StepRunsFrontCommand's hypothesis is met. -/
theorem test_front : ({ State.reset with pending := [.beaconEdge] } : State).pending = .beaconEdge :: [] := by decide +kernel

theorem test_idle_queue : State.reset.pending = [] := by decide +kernel
/-- Ring 63 has one descriptor waiting, and a µs ends with the next cycle. -/
def waitingRing : State :=
  let s := (State.reset.setFld (HIF.ENABLE 63) 1).setFld (HIF.SQ_LOG2 63) 6
  { s with cycle := 939, hif := { s.hif with rings := [(63, { tail := 1 })] } }
theorem test_idle_wait : waitingRing.pending = [] ∧ waitingRing.awake = true ∧ (waitingRing.cycle + 1) % 940 = 0
    ∧ waitingRing.fld (HIF.ENABLE 63) = 1 ∧ 0 < waitingRing.waiting 63 := by decide +kernel

theorem test_reset_epoch : (State.reset.tile 0).fld TILE.CORE_EPOCH = 0 := by decide +kernel

theorem test_memory_illformed : Memory.wf [(4, 1), (3, 1)] = false ∧ Memory.wf [(4, 0)] = false := by decide +kernel

/-- A state with a byte in HBM, one in a scratchpad, a saved context and a waiting command. -/
def withMemory : State := { (ready (fun x => { x with spad := [(5, 7)] })) with hbm := [(0, 1), (4096, 255)], pending := [.nop 5 0] }
theorem test_memories : withMemory.memoriesWf = true ∧ { withMemory with hbm := [(1, 0)] }.memoriesWf = false
    ∧ (match step withMemory with | .next s' => decide (s'.memoriesWf = true) | _ => false) = true := by decide +kernel

theorem test_wf_and_no_retired : (Instr.add 2879 0).wf = true ∧ (Instr.portReset 7).wf = true ∧ State.reset.retired = [] := by decide +kernel

theorem test_missing_tile : exec (.nop 2880 0) State.reset matches .fault .noSuchUnit := by decide +kernel

/-- The worked word of the spec, `sig s9, s5, 2, after=q1`, the only NOP word, and the words' fields. -/
theorem test_word_sig : decodeTile 3 0x7010_4940_2000_0002 = .sig 3 0x0_4940_2000_0002 := by decide +kernel
theorem test_word_sig_fields : tileWordFields (.sig 3 0x0_4940_2000_0002) = some (3, 7, 1, 0x0_4940_2000_0002) := by decide +kernel
theorem test_word_nop : decodeTile 0 0x9000_0000_0000_0000 = .nop 0 0 := by decide +kernel
theorem test_word_zero : tileInstr 0 0 = none ∧ decodeTile 0 0 = .illegalOp 0 0 := by decide +kernel
/-- Words written out from the encoding tables: ADD s3, s1, s2; MOVI s1, -1; CMP p1, s2, s3 with condition 4; HALT; AZERO; VADD; GRAW. -/
theorem test_words_listed : decodeTile 0 0x0010_1844_0000_0000 = .add 0 0x0_1844_0000_0000
    ∧ decodeTile 0 0x0210_0800_FFFF_FFFF = .movi 0 0x0_0800_FFFF_FFFF ∧ decodeTile 0 0x00B0_0886_0000_0400 = .cmp 0 0x0_0886_0000_0400
    ∧ decodeTile 0 0x9030_0000_0000_0000 = .halt 0 0 ∧ decodeTile 0 0x4080_0000_0000_0000 = .azero 0 0
    ∧ decodeTile 0 0x3010_0844_011F_0000 = .vadd 0 0x0_0844_011F_0000 ∧ decodeTile 0 0xA010_0844_0A00_0000 = .graw 0 0x0_0844_0A00_0000 := by decide +kernel
theorem test_word_add_fields : fRD 0x0_1844_0000_0000 = 3 ∧ fRA 0x0_1844_0000_0000 = 1 ∧ fRB 0x0_1844_0000_0000 = 2 := by decide +kernel
theorem test_word_vfma : decodeTile 7 0x3040_21E0_411F_1000 = .vfma 7 0x0_21E0_411F_1000 := by decide +kernel

/-- ADD s3, s1, s2 on a tile at PC 0x9_FFF8, the last instruction of the scratchpad. -/
theorem test_issues_alu :
    Issues 5 0x0_1844_0000_0000 (formR 0x0_1844_0000_0000) (ready (fun x => { x with pc := 0x9FFF8 })) := by decide +kernel
/-- MULH of -1 and 2: the high half of -2. -/
theorem test_mulh_negative : (product (-1) 2).extractLsb' 64 64 = -1 := by decide +kernel

theorem test_issues_addi : Issues 5 0x0_0840_FFFF_FFFF (formI 0x0_0840_FFFF_FFFF) (ready id) := by decide +kernel
theorem test_issues_movi : Issues 5 0x0_F800_8000_0000 (formMovi 0x0_F800_8000_0000) (ready id) := by decide +kernel
/-- CMP p7 with condition 5, the last of each range. -/
theorem test_issues_cmp : Issues 5 0x0_3886_0000_0500 (formCmp 0x0_3886_0000_0500) (ready id) := by decide +kernel
theorem test_cmp_holds : (true = true ↔ (5 = 0 ∧ (0 : Word) = 0) ∨ (5 = 5 ∧ (0 : Word).toNat ≤ (0 : Word).toNat)) := by decide +kernel

/-- BR with DISP -1 at PC 0; BRI through s9; CALL; RET. -/
theorem test_issues_br : Issues 5 0x0_0000_FFFF_FFFF formBr (ready id) := by decide +kernel
theorem test_issues_bri : Issues 5 0x0_4800_8000_0000 (formBri 0x0_4800_8000_0000) (ready id) := by decide +kernel
theorem test_issues_ret : Issues 5 0 formRet (ready id) := by decide +kernel
theorem test_issues_call : Issues 5 0x0_0000_0000_0001 formCall (ready id) := by decide +kernel
/-- A backward branch from offset 0 wraps to the top of the 20-bit PC. -/
theorem test_branch_wraps : branchTo 0 0x0_0000_FFFF_FFFF = 0xFFFF8 := by decide +kernel

/-- PNEG = 1 over p0 is false on every lane: one word for each form. -/
def off (w : BitVec 52) (f : Form) : Bool :=
  let s := ready id
  s.clocked && (s.tile 5).canIssue f.regs && (s.tile 5).predsReady w f && pcOk (s.tile 5).pc && unusedZero w f.used && f.legal
    && f.room && !((s.tile 5).pred w).getLsbD 0
theorem test_off_forms : off 0x8_1844_0000_0000 (formR 0x8_1844_0000_0000) = true
    ∧ off 0x8_0840_0000_0001 (formI 0x8_0840_0000_0001) = true ∧ off 0x8_3886_0000_0500 (formCmp 0x8_3886_0000_0500) = true
    ∧ off 0x8_0000_0000_0001 formBr = true ∧ off 0x8_0000_0000_0001 formCall = true := by decide +kernel
theorem test_off_forms_2 : off 0x8_0843_0000_0010 (formMem 0x8_0843_0000_0010) = true
    ∧ off 0x8_4940_2000_0002 (formCount 0x8_4940_2000_0002 true) = true ∧ off 0x8_0840_0000_0000 (formSem 0x8_0840_0000_0000) = true
    ∧ off 0x8_0000_0000_003F (formFence 0x8_0000_0000_003F) = true ∧ off 0x8_0000_0000_0000 { used := [], regs := [] } = true := by decide +kernel

theorem test_pc_bounds : pcOk 0x9FFF8 = true ∧ pcOk 0xA0000 = false ∧ pcOk 4 = false := by decide +kernel
/-- ADD with bit 0 of an unused field set; BR with RA set; the all-zero word. -/
theorem test_unused_fields : unusedZero 0x0_1844_0000_0001 (formR 0x0_1844_0000_0001).used = false
    ∧ unusedZero 0x0_0800_0000_0000 formBr.used = false ∧ tileInstr 0 0 = none := by decide +kernel
theorem test_can_issue : (5 < (ready id).tileCount ∧ (ready id).clocked = true ∧ ((ready id).tile 5).canIssue [] = true
    ∧ ((ready id).tile 5).predsReady 0x0_1844_0000_0001 (formR 0x0_1844_0000_0001) = true) := by decide +kernel

theorem test_issues_nop : Issues 5 0 { used := [], regs := [] } (ready id) := by decide +kernel
theorem test_issues_bcnrd : Issues 5 0x0_F800_0000_0000 { used := [uRD], regs := [fRD 0x0_F800_0000_0000] } (ready id) := by decide +kernel

theorem test_add_next : (match exec (.add 5 0x0_1844_0000_0000) (ready id) with | .next _ => true | _ => false) = true := by decide +kernel

/-- A tile whose s1 names its own scratchpad's last 8 bytes: LD and ST of 8 bytes there. -/
def atTop : State := ready (fun x => { x with s := [(1, 0x1000_0059_FFF8)] })
theorem test_ld_top : Issues 5 0x0_F843_0000_0000 (formMem 0x0_F843_0000_0000) atTop
    ∧ (match atTop.region 0x1000_0059_FFF8 8 with | .spad 5 0x9FFF8 => true | _ => false) = true
    ∧ ((atTop.tile 5).spadRead 0x9FFF8 8).2.1 = 0 ∧ ((atTop.tile 5).spadWrite 0x9FFF8 (bytesOf 0 8)).2 = 0
    ∧ Memory.wf (atTop.tile 5).spad = true := by decide +kernel

/-- s0 + 0 is an HBM address. -/
theorem test_st_hbm : Issues 5 0x0_0003_0000_0000 (formMem 0x0_0003_0000_0000) (ready id)
    ∧ (match (ready id).region (memAddr (((ready id).tile 5).getS 0) 0x0_0003_0000_0000) 8 with | .hbm 0 => true | _ => false) = true := by decide +kernel

/-- VLD consuming and VST tagged of 256 bytes at slot 2559, the last; the slot is full, then empty. -/
def lastSlot (b : Bool) : State := ready (fun x => { x with s := [(1, 0x1000_0059_FF00)], tags := if b then [(2559, true)] else [] })
theorem test_vld_tagged : RunsAlone 5 2 3 0x0_F855_0000_0000 { formAccess 0x0_F855_0000_0000 3 with room := true } (lastSlot true)
    ∧ (match (lastSlot true).region 0x1000_0059_FF00 256 with | .spad 5 0x9FF00 => true | _ => false) = true
    ∧ ((lastSlot true).tile 5).tagReady .consume 2559 1 = true ∧ (((lastSlot true).tile 5).spadRead 0x9FF00 256).2.1 = 0 := by decide +kernel
theorem test_vst_tagged : RunsAlone 5 2 4 0x0_F855_0000_0000 { formAccess 0x0_F855_0000_0000 2 with room := true } (lastSlot false)
    ∧ ((lastSlot false).tile 5).tagReady .store 2559 1 = true ∧ (((lastSlot false).tile 5).spadWrite 0x9FF00 (bytesOf 0 256)).2 = 0 := by decide +kernel

/-- s5 names identifier 0x217, entry 0x17 of the tile's table: TAG 2, KIND 1, HOME 605 (the worked example of R264). -/
def withSem : State := ready (fun x => { x.wr (0x1400 + 8 * 0x17) 0x0000_025D_0100_0002 with s := [(5, 0x217)] })
theorem test_sem_target : (withSem.tile 605).rtrReady = true ∧ (SemRef.here 605 0).isEngine = false
    ∧ withSem.semTarget 5 0x217 true = some (.here 605 0) ∧ withSem.semTarget 5 0x217 false = some (.here 605 0) := by decide +kernel
theorem test_issues_sig : Issues 5 0x0_4940_2000_0002 (formCount 0x0_4940_2000_0002 true) withSem
    ∧ (withSem.tile 5).sigs = [] ∧ (SemRef.here 0xF03 63).isEngine = true ∧ (withSem.tile 5).dma = [] ∧ (withSem.tile 5).dmaFails = [] ∧ fIMM16 0x0_4940_2000_0002 = 2 := by decide +kernel
theorem test_issues_sdec : Issues 5 0x0_4940_0000_FFFF (formCount 0x0_4940_0000_FFFF false) withSem
    ∧ Issues 5 0x0_4940_0000_0000 (formSem 0x0_4940_0000_0000) withSem := by decide +kernel

/-- A SIG of 1 from tile 7 waits at tile 5. -/
def sigFrom7 : SemMsg := ⟨0, ⟨7, 0, 0⟩, 3, .sig 1, 9, none, false, none⟩
def homeWithSig : State := ready (fun x => { x with semOps := [sigFrom7] })
theorem test_home_one : 5 < homeWithSig.tileCount ∧ (homeWithSig.tile 5).rtrReady = true ∧ (homeWithSig.tile 5).semOps = [sigFrom7]
    ∧ sigFrom7.st.tile = 7 ∧ (homeWithSig.sem 5 3).count = 0 := by decide +kernel

/-- The last logical index that the premise admits. -/
theorem test_order_premise : ∀ m ∈ [(⟨0, ⟨4095, 0, 0⟩, 0, .flare, 1, none, false, none⟩ : SemMsg)], m.st.tile < 2 ^ 12 ∧ m.rank = none := by decide +kernel

/-- The four events at tile 5, with entry 63, the last. -/
def waiter5 : Waiter := ⟨0, ⟨5, 0, 0⟩, 9, 24, none⟩
theorem test_release_here : ((ready (fun x => { x with mail := [.semRelease none 7 63 waiter5], stall := .swait 9 })).tile 5).fld TILE.CORE_READY = 1
    ∧ waiter5.st.epoch.toNat = ((ready (fun x => { x with mail := [.semRelease none 7 63 waiter5] })).tile 5).fld TILE.CORE_EPOCH := by decide +kernel
theorem test_release_stale : (waiter5.st.epoch.toNat ≠ ((ready (fun x => x.setFld TILE.CORE_EPOCH 1)).tile 5).fld TILE.CORE_EPOCH) := by decide +kernel
theorem test_sem_returned : ((ready id).sem 5 63).waiters = [] ∧ ((ready id).sem 5 63).count.toNat < 2 ^ 32 - 1
    ∧ ((ready id).sem 5 63).count = 0 ∧ ((ready id).tile 5).rtrReady = true ∧ ((ready id).tile 5).semOps = [] := by decide +kernel
theorem test_sem_waits : ((ready (fun x => { x with sems := [(63, ⟨0, [waiter5]⟩)] })).sem 5 63).waiters[0]? = some waiter5 := by decide +kernel
theorem test_sig_held : ((ready (fun x => { x with sigs := [⟨.here 7 63, .sig 1, 9, [], []⟩] })).tile 5).sigs = [⟨.here 7 63, .sig 1, 9, [], []⟩]
    ∧ ((ready id).tile 7).rtrReady = true := by decide +kernel

theorem test_fence_drained : Issues 5 0x0_0000_0000_003F (formFence 0x0_0000_0000_003F) (ready id)
    ∧ ((ready id).tile 5).drained 0x3F = true := by decide +kernel
theorem test_fence_waits : ((ready (fun x => { x with sigsOut := 1 })).tile 5).drained 0x20 = false := by decide +kernel
theorem test_wait_pending : Issues 5 0x0_4800_0000_0002 { used := [uRD, (32, 1), (0, 7)], regs := [fRD 0x0_4800_0000_0002] } (ready id)
    ∧ ((ready (fun x => x.post 1)).tile 5).fld TILE.PEND &&& (bits (0x0_4800_0000_0002 : BitVec 52).toNat 0 7 ||| 0x20) ≠ 0
    ∧ ((ready id).tile 5).fld TILE.PEND &&& (bits (0x0_4800_0000_0002 : BitVec 52).toNat 0 7 ||| 0x20) = 0 := by decide +kernel
theorem test_halt_report : ((ready (fun x => { x with halted := true, ended := true })).tile 5).enginesEmpty = true := by decide +kernel
theorem test_fetch : ((ready id).tile 5).ibuf = [] ∧ pcOk 0x9FFF8 = true
    ∧ (((ready id).tile 5).spadRead 0x9FFF8 (128 - 0x9FFF8 % 128)).2.1 = 0 := by decide +kernel

theorem test_txopen : Issues 5 0x0_4800_0000_0000 (formTxopen 0x0_4800_0000_0000) (ready id) ∧ ((ready id).tile 5).txn 0 = {} := by decide +kernel
theorem test_tx_full : (List.range 4).all (fun k =>
    decide (((ready (fun x => { x with txns := [(0, { st := .opened }), (1, { st := .opened }), (2, { st := .opened }), (3, { st := .opened })] })).tile 5).txn k ≠ {})) = true := by decide +kernel
def handle3 (y : Txn) : State := ready (fun x => { x with txns := [(3, y)] })
theorem test_txrel : Issues 5 0x0_4800_0000_0003 (formHandle 0x0_4800_0000_0003) (handle3 { st := .opened })
    ∧ ((handle3 { st := .opened }).tile 5).txnUnsent 3 = false ∧ (((handle3 { st := .opened }).tile 5).txn 3).acked = []
    ∧ (((handle3 { st := .opened }).tile 5).txn 3).dropped = false ∧ (handle3 { st := .opened }).txnHolders 5 { st := .opened } = [] := by decide +kernel
theorem test_txrel_cancelled : Issues 5 0x0_4800_0000_0003 (formHandle 0x0_4800_0000_0003) (handle3 { st := .cancelled, status := 7, index := 0xFFF })
    ∧ ((ready id).tile 5).txn 3 = {} := by decide +kernel

theorem test_txn_timeout : (((handle3 { st := .opened, open_ := [9] }).tile 5).txn 3).st = .opened
    ∧ (handle3 { st := .opened, open_ := [9] }).txnHolders 5 { st := .opened, open_ := [9] } = [] := by decide +kernel
/-- A dark slot of a transaction of tile 7 and its release. -/
theorem test_dark_slot : ((ready (fun x => { x with dark := [(2559, some (7, 1))], mail := [.txnRelease 7 1] })).tile 5).darkOf (7, 1) = [2559]
    ∧ ((ready id).tile 7).handleOf 1 = none := by decide +kernel

/-- DMAST of a 32-byte copy within tile 5's scratchpad to queue 3, its descriptor at the last offset that R98 admits. -/
def descBytes : List Byte := bytesOf (0x1000_0050_0000 + 0x1000_0050_1000 * 2 ^ 64 + 32 * 2 ^ 128) 32
def withDesc : State := ready (fun x => { x with s := [(1, 0x9FFE0)], spad := listRun 0 0x9FFE0 descBytes })
theorem test_dmast : Issues 5 0x0_1040_3000_0000 (formDmast (withDesc.tile 5) 0x0_1040_3000_0000) withDesc
    ∧ fSYNCM 0x0_1040_3000_0000 = 0 ∧ fTX 0x0_1040_3000_0000 = false ∧ fSCHED 0x0_1040_3000_0000 = false
    ∧ ((withDesc.tile 5).spadRead 0x9FFE0 32).2.1 = 0
    ∧ withDesc.dmaCheck 5 (BitVec.ofNat 256 (ofBytes (readRun 0 (withDesc.tile 5).spad 0x9FFE0 32))) = 0 := by decide +kernel
theorem test_dmast_sched : Issues 5 0x0_1041_3000_0000 (formDmast (withDesc.tile 5) 0x0_1041_3000_0000) withDesc
    ∧ withDesc.fld BCN.STATE ≠ 5 ∧ tooFar ((withDesc.tile 5).getS 0) withDesc.count = false := by decide +kernel
theorem test_dmawt : Issues 5 0x0_1000_3000_0000 (formDmawt 0x0_1000_3000_0000) (ready id) ∧ ((ready id).tile 5).queued 3 = 0 := by decide +kernel
theorem test_dmacan : Issues 5 0x0_0000_3000_0000 (formDmacan 0x0_0000_3000_0000) (ready id) ∧ ((ready id).tile 5).txn 3 = {} := by decide +kernel

/-- The operation of test_dmast's descriptor in queue 3, waiting and over. -/
def op3 : DmaOp :=
  { id := 1, que := 3, desc := BitVec.ofNat 256 (ofBytes descBytes), sched := none, late := false, syncm := 0, sem := none, txn := none }
def withOp (o : DmaOp) : State := ready (fun x => { x with dma := [o] })
theorem test_dma_start : ((withOp op3).tile 5).current 3 = some op3 ∧ dLen op3.desc = 32
    ∧ (match (withOp op3).region (dSrc op3.desc) 32 with | .spad 5 0 => true | _ => false) = true
    ∧ (match (withOp op3).region (dDst op3.desc) 32 with | .spad 5 0x1000 => true | _ => false) = true
    ∧ (((withOp op3).tile 5).spadRead 0 32).2.1 = 0 ∧ ((withOp op3).tile 5).parked = [] ∧ Memory.wf ((withOp op3).tile 5).spad = true
    ∧ ((((withOp op3).tile 5).spadRead 0 32).1.spadWrite 0x1000 (readRun 0 ((withOp op3).tile 5).spad 0 32)).2 = 0
    ∧ dHalo op3.desc = false ∧ dStag op3.desc = false ∧ dDtag op3.desc = false := by decide +kernel
theorem test_dma_end : ((withOp { op3 with started := true, readDone := true }).tile 5).queued 3 = 1
    ∧ ((withOp { op3 with started := true, readDone := true }).tile 5).current 3 = some { op3 with started := true, readDone := true }
    ∧ ((withOp { op3 with started := true, readDone := true }).tile 5).mail = [] ∧ ((withOp op3).tile 5).txn 3 = {} := by decide +kernel

/-- WOPEN of queue window 63 over slots 2496 to 2559; WCLOSE and WGRANT of it. -/
def winTile (d : Window) : State := ready (fun x => { x with s := [(1, 2496), (2, 64)], wins := [(63, d)] })
def queue63 : Window := { base := 2496, len := 64, queue := true, st := .opened }
theorem test_wopen : Issues 5 0x0_1844_0000_7F00 (formWopen ((winTile { gen := 1 }).tile 5) 0x0_1844_0000_7F00) (winTile { gen := 1 })
    ∧ fIMM12 0x0_1844_0000_7F00 = 127 ∧ (((winTile { gen := 1 }).tile 5).getS 1).toNat + (((winTile { gen := 1 }).tile 5).getS 2).toNat = 2560
    ∧ (∀ e ∈ ((winTile { gen := 1 }).tile 5).wins, e.1 = 63) ∧ (((winTile { gen := 1 }).tile 5).window 63).st = .closed
    ∧ anyRun ((winTile { gen := 1 }).tile 5).tags 2496 64 = false ∧ ((winTile { gen := 1 }).tile 5).xq = []
    ∧ ((winTile { gen := 1 }).tile 5).closing = none := by decide +kernel
/-- The same WOPEN of a window that is open already. -/
theorem test_wopen_refused : Issues 5 0x0_1844_0000_7F00 (formWopen ((winTile queue63).tile 5) 0x0_1844_0000_7F00) (winTile queue63)
    ∧ (((winTile queue63).tile 5).window 63).st ≠ .closed := by decide +kernel
theorem test_wclose : Issues 5 0x0_1800_0000_3F00 (formWclose ((winTile queue63).tile 5) 0x0_1800_0000_3F00) (winTile queue63) := by decide +kernel
/-- A WGRANT of all 64 credits to tile 7. -/
def grantTile (d : Window) (k : Word) : State := (State.reset.onTile 7 (fun x => x.setFld TILE.CORE_READY 1)).onTile 5 (fun x =>
  { x.setFld TILE.CORE_READY 1 with s := [(1, 7), (2, k)], wins := [(63, d)] })
theorem test_wgrant : Issues 5 0x0_1844_0000_3F00 (formWgrant ((grantTile queue63 64).tile 5) 0x0_1844_0000_3F00) (grantTile queue63 64)
    ∧ (((grantTile queue63 64).tile 5).window 63).pool = 64 ∧ (grantTile queue63 64).self.toNat = 0
    ∧ ((grantTile queue63 64).tile 7).fld TILE.CORE_READY = 1 ∧ bits 7 12 4 = 0 ∧ bits 7 16 14 = 0 ∧ bits 7 30 34 = 0 := by decide +kernel
theorem test_wgrant_refused : Issues 5 0x0_1844_0000_3F00 (formWgrant ((grantTile queue63 65).tile 5) 0x0_1844_0000_3F00) (grantTile queue63 65)
    ∧ Issues 5 0x0_1844_0000_3F00 (formWgrant ((grantTile {} 1).tile 5) 0x0_1844_0000_3F00) (grantTile {} 1)
    ∧ (((grantTile queue63 65).tile 5).window 63).pool < 65 ∧ (((grantTile {} 1).tile 5).window 63).queue = false := by decide +kernel

/-- A write of one slot into the last slot of a queue window that has wrapped, into an addressed window, and into a closed one. -/
def write1 (win : Nat) (g : BitVec 16) : RemoteWrite := ⟨.message ⟨7, 0, 0⟩ 1, win, g, 63, false, List.replicate 256 1, none, none⟩
def withWrite (d : Window) (w : RemoteWrite) : State := ready (fun x => { x with wins := [(63, d)], writes := [w] })
theorem test_write_lands : ((withWrite queue63 (write1 63 0)).tile 5).tagParity = [] ∧ [2559].Nodup ∧
    let d := { queue63 with head := 63, occupied := 63 }
    ((withWrite d (write1 63 0)).tile 5).writes = [write1 63 0] ∧ ((withWrite d (write1 63 0)).tile 5).window 63 = d
    ∧ ((withWrite d (write1 63 0)).tile 5).checkWrite d 0 (some 63) 1 = 0 := by decide +kernel
theorem test_write_refused :
    ((ready id).tile 5).checkWrite { queue63 with queue := false } 1 (some 63) 1 = Status.WIN_CLOSED
    ∧ ((ready id).tile 5).checkWrite { queue63 with queue := false } 0 (some 64) 1 = Status.WIN_RANGE
    ∧ ((ready (fun x => { x with tags := [(2559, true)] })).tile 5).checkWrite { queue63 with queue := false } 0 (some 63) 1 = Status.EXCH_OVERRUN
    ∧ ((ready id).tile 5).checkWrite { queue63 with occupied := 64 } 0 (some 0) 1 = Status.QUEUE_OVERRUN := by decide +kernel

theorem test_tail : let d := { queue63 with head := 1, occupied := 1, tail := 63 }
    ((ready (fun x => { x with wins := [(63, d)] })).tile 5).full (d.base + d.tail) = false ∧ 0 < d.occupied ∧ d.occupied + d.granted ≤ d.len := by decide +kernel
theorem test_wclose_done : ((ready (fun x => { x with wins := [(63, { queue63 with st := .closing })], closing := some (63, 9) })).tile 5).window 63
    = { queue63 with st := .closing } := by decide +kernel
theorem test_remote_read : (((ready id).tile 5).spadRead ((0x1000_0059_FFFF : BitVec 48).toNat % 0x10_0000) 1).2.1 = 0 := by decide +kernel

def credit63 : Credit := ⟨0, 7, 63, 0, 1⟩
theorem test_grant_entries : (([] : List Credit).find? (fun c => c.is 0 7 63)) = none ∧ [credit63].find? (fun c => c.is 0 7 63) ≠ none
    ∧ (List.replicate 64 (⟨0, 8, 63, 0, 1⟩ : Credit)).find? (fun c => c.is 0 7 63) = none := by decide +kernel
/-- The mails of the clauses, at a ready tile whose queues are empty. -/
def mailed (st : Stall) (m : Msg) : State := ready (fun x => { x with mail := [m], stall := st })
theorem test_grant_mail : ((mailed .none (.grant 0 7 63 0 1 9 ⟨7, 0, 0⟩ none)).tile 5).mail = [.grant 0 7 63 0 1 9 ⟨7, 0, 0⟩ none]
    ∧ ((mailed .none (.grant 0 7 63 0 1 9 ⟨7, 0, 0⟩ none)).tile 5).fld TILE.CORE_READY = 1
    ∧ ((mailed .none (.winClosed 0 7 63)).tile 5).xq = [] := by decide +kernel
theorem test_stamp_fresh : ((mailed .none (.grantBack 63 0 1 9 ⟨5, 0, 0⟩ Status.CREDIT_TABLE_FULL)).tile 5).stale State.reset.count ⟨5, 0, 0⟩ = false
    ∧ ((mailed (.swait 9) (.reply ⟨5, 0, 0⟩ 9 1 .swait)).tile 5).stall = (if ReplyKind.swait = .swait then .swait 9 else .none)
    ∧ ((mailed (.swait 9) (.reply ⟨5, 0, 0⟩ 9 1 .value)).tile 5).stale State.reset.count ⟨5, 0, 0⟩ = false
    ∧ ((mailed .none (.reply ⟨5, 1, 0⟩ 9 1 .sig)).tile 5).stale State.reset.count ⟨5, 1, 0⟩ = true := by decide +kernel
/-- A unicast XSEND of one slot to tile 7, without credit. -/
def sendBytes : List Byte := bytesOf (0x1000_0050_0000 + (0x1000_0070_0000 + 63 * 2 ^ 48) * 2 ^ 64 + 256 * 2 ^ 128) 32
def send7 : QInsn := { cls := 6, op := 3, w := 0x0_4840_0000_0000, pc := 0, a := 0x9FFE0, b := 0, c := 0 }
def withSend : State := ready (fun x => { x with s := [(1, 0x9FFE0)], spad := listRun 0 0x9FFE0 sendBytes, xq := [send7], creditWait := true })
theorem test_credit_timeout : (withSend.tile 5).xq = [send7] ∧ send7.op = 0x03 ∧ (withSend.tile 5).creditWait = true
    ∧ (withSend.tile 5).stall = .none := by decide +kernel

/-- test_credit_timeout's message with the credit that it lacks, and a multicast with one stalled branch. -/
def withCredit : State := (State.reset.onTile 7 (fun x => x.setFld TILE.CORE_READY 1)).onTile 5 (fun x =>
  { x.setFld TILE.CORE_READY 1 with s := [(1, 0x9FFE0)], spad := listRun 0 0x9FFE0 sendBytes, credits := [credit63] })
theorem test_xsend :
    let d := BitVec.ofNat 256 (ofBytes (readRun 0 (withCredit.tile 5).spad 0x9FFE0 32))
    Issues 5 0x0_4840_0000_0000 (formXsend (withCredit.tile 5) 0x0_4840_0000_0000) withCredit
    ∧ withCredit.credit 5 7 (dWin d) = some credit63 ∧ (dLen d + 255) / 256 ≤ credit63.count
    ∧ dReservedOk d = true ∧ dHalo d = false ∧ dStag d = false ∧ dDtag d = false ∧ dLen d = 256 ∧ dDst d % 256 = 0
    ∧ (match withCredit.region (dDst d) 256 with | .spad 7 0 => true | _ => false) = true
    ∧ (match withCredit.region (dSrc d) 256 with | .spad 5 0 => true | _ => false) = true
    ∧ ((withCredit.tile 5).spadRead 0x9FFE0 32).2.1 = 0 ∧ ((withCredit.tile 5).spadRead 0 256).2.1 = 0
    ∧ (withCredit.tile 7).fld TILE.CORE_READY = 1 ∧ withCredit.mirrored = false ∧ (withCredit.tile 5).mcasts = [] := by decide +kernel
/-- A multicast with a branch to window 63 of tile 7, stalled and then sent. -/
def branch7 : Mcast := ⟨1, true, 9, List.replicate 256 0, 1, [(7, 63)], [], [], none, 0, none⟩
def sent7 (multi : Bool) : Mcast := { branch7 with multi := multi, stalled := [], sent := [(7, 63)] }
def withMcast (m : Mcast) (mail : List Msg) : State := withCredit.onTile 5 (fun x => { x with mcasts := [m], mail := mail })
theorem test_branch : (withMcast branch7 []).credit 5 7 63 = some credit63 ∧ branch7.slots ≤ credit63.count ∧ branch7.data.length ≤ 8192
    ∧ branch7.stalled = [(7, 63)] ∧ ((withMcast branch7 []).tile 5).mcasts = [branch7]
    ∧ (withMcast branch7 []).darkHolders (5, 1) ((branch7.acked ++ branch7.sent).map (·.1)) = [] := by decide +kernel
theorem test_last_ack : ((withMcast (sent7 false) [.answer (.message ⟨5, 0, 0⟩ 1) 7 0 none]).tile 5).stale withCredit.count ⟨5, 0, 0⟩ = false
    ∧ ((withMcast (sent7 true) [.answer (.mcast ⟨5, 0, 0⟩ 1) 7 0 (some (5, 1))]).tile 5).txn 3 = {}
    ∧ (sent7 true).sent = [(7, 63)] ∧ (sent7 false).syncm = 0 := by decide +kernel

/-- An XSTART of an empty program at the last multiple of 64 that holds a header. -/
def withProgram : State := ready (fun x => { x with s := [(1, 0x9FFC0)], spad := [(0x9FFC0, 1)] })
theorem test_xstart : Issues 5 0x0_4841_0000_0000 (formXstart (withProgram.tile 5) 0x0_4841_0000_0000) withProgram
    ∧ withProgram.lh.suspension = none ∧ withProgram.lh.contexts = [] ∧ tooFar 0 withProgram.count = false
    ∧ ofBytes (readRun 0 (withProgram.tile 5).spad 0x9FFC0 64) = 1 ∧ ((withProgram.tile 5).spadRead 0x9FFC0 64).2.1 = 0
    ∧ (withProgram.tile 5).startHeld = none ∧ withProgram.fld BCN.STATE ≠ 5 := by decide +kernel
def phase0 : Phase := { prog := 0x9FFC0, start := 0, late := true, syncm := 0, sem := none }
theorem test_phase_start : ahead phase0.start (ready id).count ≤ 0 ∧ ((ready (fun x => { x with phase := some phase0 })).tile 5).phase = some phase0
    ∧ (ready id).fld BCN.STATE ≠ 5 := by decide +kernel
theorem test_xwait : Issues 5 0x0_4800_0000_0000 { used := [uRD], regs := [fRD 0x0_4800_0000_0000] } (ready id) := by decide +kernel

/-- A running phase with one record, to window 63 of tile 7. -/
def recordBytes : List Byte := bytesOf (63 * 2 ^ 72 + 7 * 2 ^ 128) 32
def running1 : Phase := { phase0 with prog := 0, nsend := 1, started := true }
def withRecord : State := (State.reset.onTile 7 (fun x => x.setFld TILE.CORE_READY 1)).onTile 5 (fun x =>
  { x.setFld TILE.CORE_READY 1 with spad := listRun 0 64 recordBytes, phase := some running1 })
theorem test_record : let r := (withRecord.tile 5).record' running1 0
    bits r 128 12 = 7 ∧ bits r 70 2 = 0 ∧ bit r 154 = false ∧ bits r 20 12 = 0 ∧ bits r 78 2 = 0 ∧ bits r 108 20 = 0 ∧ bits r 140 14 = 0
    ∧ bits r 155 101 = 0 ∧ bits r 0 20 % 64 = 0 ∧ bits r 0 20 + (bits r 64 5 + 1) * 256 ≤ 0xA_0000
    ∧ ((withRecord.tile 5).spadRead 64 32).2.1 = 0 ∧ ((withRecord.tile 5).spadRead 0 256).2.1 = 0
    ∧ withRecord.mirrored = false ∧ (withRecord.tile 5).txn 3 = {} := by decide +kernel
theorem test_record_answered : ((withRecord.onTile 5 (fun x =>
    { x with mail := [.answer (.record ⟨5, 0, 0⟩ 0 0) 7 0 none], phase := some { running1 with issued := [0], waiting := [(0, 7)] } })).tile 5).stale
      withRecord.count ⟨5, 0, 0⟩ = false ∧ (withRecord.tile 5).rd TILE.SSTEP.off = 0 := by decide +kernel
theorem test_phase_over : (withRecord.tile 5).recv0 = running1.nrecv ∧ running1.answered.length ≠ running1.nsend
    ∧ { running1 with issued := [0], answered := [0] }.answered.length = running1.nsend ∧ (withRecord.tile 5).wins = [] := by decide +kernel

/-- A consuming VLD of the last four slots, which are full; a VST of the last, which is empty. -/
def parkedLoad : State := ready (fun x =>
  { x with parked := [⟨3, .consume, 2556, 4, .vld 31 0 0⟩], tags := (List.range 4).map (fun i => (2556 + i, true)) })
theorem test_parked_load : (parkedLoad.tile 5).parked[0]? = some ⟨3, .consume, 2556, 4, .vld 31 0 0⟩
    ∧ allRun (parkedLoad.tile 5).tags 2556 4 = true ∧ Map.wf false (parkedLoad.tile 5).tags = true ∧ (parkedLoad.tile 5).tagParity = []
    ∧ (parkedLoad.tile 5).parked.all (fun r => decide (r.kind ≠ .peek)) = true
    ∧ ((parkedLoad.tile 5).spadRead (2556 * 256) 1024).2.1 = 0 := by decide +kernel
theorem test_parked_store : ((ready (fun x => { x with parked := [⟨3, .store, 2559, 1, .vst 0 0 0⟩] })).tile 5).full 2559 = false
    ∧ ((ready id).tile 5).isDark 2559 = false ∧ (((ready id).tile 5).spadWrite (2559 * 256) (rowBytes 0 256)).2 = 0 := by decide +kernel

/-- RunsAlone as the tests use it: the queue is empty, so that it has room. -/
def alone (op : Nat) (w : BitVec 52) (f : Form) : Bool := decide (RunsAlone 5 3 op w { f with room := true } (ready id))
/-- VD v1, VA v1, VB v2 under p1 negated, FMT FP64, and INT32 with SUB[0]; VC v31 with SUB[1]. -/
theorem test_vec_forms : alone 1 0x9_0844_0001_0000 (formV2 0x9_0844_0001_0000 laneAll) = true
    ∧ alone 1 0x0_F844_0A01_1000 (formV2 0x0_F844_0A01_1000 laneAll) = true
    ∧ alone 0xC 0x0_F844_0A01_1000 (formV2 0x0_F844_0A01_1000 [0xA]) = true
    ∧ alone 4 0x0_0845_F351_F000 (formV3 0x0_0845_F351_F000 4 laneFloats) = true
    ∧ alone 5 0x0_0845_F351_3000 (formV3 0x0_0845_F351_3000 2 laneFloats) = true
    ∧ alone 8 0x0_0840_0A01_0000 (formV1 0x0_0840_0A01_0000 laneAll) = true := by decide +kernel
theorem test_fn_forms : alone 0x18 0x0_0844_0001_0000 (formV2 0x0_0844_0001_0000 laneFloats) = true
    ∧ alone 0x19 0x0_0840_0351_0000 (formV1 0x0_0840_0351_0000 laneFloats) = true
    ∧ alone 0x1A 0x0_0844_0111_0000 (formV2 0x0_0844_0111_0000 [1, 2, 3] (decide (fRND 0x0_0844_0111_0000 ≤ 1))) = true
    ∧ alone 0x1C 0x0_0840_0011_0000 (formFn 0x0_0840_0011_0000 laneFloats) = true
    ∧ alone 0x24 0x0_0840_0301_0000 (formFn 0x0_0840_0301_0000 [1, 2, 3]) = true := by decide +kernel

theorem test_vint_form : alone 6 0x0_F844_0A01_0000 (formV2 0x0_F844_0A01_0000 laneAll) = true
    ∧ fFMT 0x0_F844_0A01_0000 = 0xA ∧ fSUB 0x0_F844_0A01_0000 = 0
    ∧ alone 8 0x0_0840_0A01_0000 (formV1 0x0_0840_0A01_0000 laneAll) = true := by decide +kernel
/-- The absolute value of -2^31 saturates, of -1 is 1. -/
theorem test_vabs_min : intElem 8 (2 ^ 31) 0 = 2 ^ 31 - 1 ∧ intElem 8 (2 ^ 32 - 1) 0 = 1 ∧ intElem 2 0 1 = 2 ^ 32 - 1 := by decide +kernel

/-- VMOV of a scalar; VCMP to p7 with condition 6; VTRN; VCVT of part 0; VRED with a predicate; VSCAN with CARRY. -/
theorem test_vec_others : alone 9 0x0_0802_0901_1000 (formVec 0x0_0802_0901_1000 [uRD, uRB, (12, 1)] [1] [0, 1, 2, 3, 4, 5, 9, 0xA]) = true
    ∧ alone 0xE 0x0_3844_6A01_0000 (formVec 0x0_3844_6A01_0000 [uRD, uRA, uRB, uRC, (12, 1)] [] [0, 1, 0xA] true) = true
    ∧ alone 0xF 0x0_0840_0101_0000 (formV1 0x0_0840_0101_0000 [1, 0xA]) = true
    ∧ alone 0x10 0x0_0840_0101_2000 (formVec 0x0_0840_0101_2000 [uRD, uRA, uRB, uSUB] [] convertible true) = true
    ∧ alone 0x30 0x0_0840_F101_7000 (formVec 0x0_0840_F101_7000 [uRD, uRA, uRC, (12, 3)] [] [0, 1, 0xA] (partOk 0x0_0840_F101_7000)) = true
    ∧ alone 0x31 0x0_0844_0A01_5000 (formVec 0x0_0844_0A01_5000 [uRD, uRA, uRC, (12, 3), uRB] [] [0, 1, 0xA] true) = true := by decide +kernel

/-- A pass that runs at once at tile 5, whose scratchpad is sound. -/
def passTile (xs : List (Nat × Byte)) (s1 : Word) : State := ready (fun x => { x with spad := xs, s := [(1, s1)] })
def passRuns (cls op : Nat) (w : BitVec 52) (g : Form) (s : State) : Bool :=
  decide (RunsAlone 5 cls op w { g with room := true } s) && decide ((s.tile 5).eccDouble = []) && decide ((s.tile 5).tagParity = [])
/-- VCENS at the last record, adding and replacing, and at one past it. -/
theorem test_vcens_runs : passRuns 3 0x38 0x0_0002_0101_0000 (formVec 0x0_0002_0101_0000 [uRA, uRB, (12, 1)] [1] [0, 1, 2, 3, 4, 5, 9]) (passTile [] 0x9FF80) = true
    ∧ passRuns 3 0x38 0x0_0002_0101_1000 (formVec 0x0_0002_0101_1000 [uRA, uRB, (12, 1)] [1] [0, 1, 2, 3, 4, 5, 9]) (passTile [] 0xA0000) = true
    ∧ (((passTile [] 0x9FF80).tile 5).getS (fRB 0x0_0002_0101_0000)).toNat = 0x9FF80 := by decide +kernel
/-- VSCALE of a 16 × 16 FP32 block at 0 to FP8 at 0x10000, its scales at 0x20000, a census at 0x30000. -/
def scaleDesc : List (Nat × Byte) := [(0x1003, 0x4), (0x1005, 0x10), (0x1007, 0x2), (0x1008, 0x90), (0x1012, 0x1), (0x1013, 0x90),
  (0x1017, 0x2), (0x1022, 0x3)]
def vscaleRuns (s : State) : Bool := passRuns 3 0x40 0x0_0040_0101_0000 (formPass 0x0_0040_0101_0000 [uFMT, uRND] (fmtIn 0x0_0040_0101_0000 [1, 2])) s
theorem test_vscale_runs : vscaleRuns (passTile scaleDesc 0x1000) = true ∧ (scaleJob (ofBytes (readRun 0 scaleDesc 0x1000 64)) 1).ok = true
    ∧ (scaleJob (ofBytes (readRun 0 scaleDesc 0x1000 64)) 1).cens = true ∧ fFMT 0x0_0040_0101_0000 = 1 := by decide +kernel
theorem test_vscale_refused : vscaleRuns (passTile [] 32) = true ∧ vscaleRuns (passTile [] 0xA0000) = true ∧ vscaleRuns (passTile [] 0x9FFC0) = true
    ∧ (scaleJob (ofBytes (readRun 0 [] 0x9FFC0 64)) 1).ok = false := by decide +kernel
/-- VLADD of one element from 0 and 0x100 to FP32 at 0x200, and to a long element at 0. -/
def addDesc : List (Nat × Byte) := [(0x1005, 0x01), (0x1009, 0x02), (0x100B, 0x40), (0x100C, 0x01)]
def vladdRuns (s : State) : Bool := passRuns 3 0x41 0x0_0040_0001_0000 (formPass 0x0_0040_0001_0000 [] true) s
theorem test_vladd_runs : vladdRuns (passTile addDesc 0x1000) = true ∧ bits (ofBytes (readRun 0 addDesc 0x1000 32)) 96 16 = 1
    ∧ bits (ofBytes (readRun 0 addDesc 0x1000 32)) 64 20 = 0x200 ∧ bit (ofBytes (readRun 0 addDesc 0x1000 32)) 94 = true
    ∧ overlaps (0, 12) (0x100, 12) = false ∧ overlaps (0x200, 4) (0, 12) = false ∧ overlaps (0, 12) (0, 12) = true
    ∧ vladdRuns (passTile [] 16) = true ∧ vladdRuns (passTile [] 0xA0000) = true ∧ vladdRuns (passTile [] 0x9FFE0) = true := by decide +kernel
/-- SLOC of four FP32 scores, SMRG of one empty frame (K 1), SPICK of one, from 0x100 to 0x200. -/
def locDesc : List (Nat × Byte) := [(0x1001, 0x01), (0x1003, 0x20), (0x1005, 0x01), (0x1008, 0x04), (0x1012, 0x80), (0x1013, 0x3F)]
def mergeDesc : List (Nat × Byte) := [(0x1001, 0x01), (0x1003, 0x20), (0x1008, 0x01)]
def pickDesc : List (Nat × Byte) := [(0x1001, 0x01), (0x1003, 0x20), (0x1016, 0x80), (0x1017, 0x3F)]
def sampleRuns (op : Nat) (s : State) : Bool := passRuns 0xA op 0x0_0040_0001_0000 (formPass 0x0_0040_0001_0000 [] true) s
theorem test_samples_run : sampleRuns 0x10 (passTile locDesc 0x1000) = true ∧ sampleOk 0x10 (ofBytes (readRun 0 locDesc 0x1000 64)) = true
    ∧ sampleRuns 0x11 (passTile mergeDesc 0x1000) = true ∧ sampleOk 0x11 (ofBytes (readRun 0 mergeDesc 0x1000 64)) = true
    ∧ sampleRuns 0x12 (passTile pickDesc 0x1000) = true ∧ sampleOk 0x12 (ofBytes (readRun 0 pickDesc 0x1000 64)) = true := by decide +kernel
theorem test_samples_refused : sampleRuns 0x12 (passTile [] 32) = true ∧ sampleRuns 0x10 (passTile [] 0xA0000) = true
    ∧ sampleRuns 0x11 (passTile [] 0x9FFC0) = true ∧ sampleOk 0x11 0 = false := by decide +kernel
theorem test_vadd_waits : Issues 5 0x0_0844_0A00_0000 { formV2 0x0_0844_0A00_0000 laneAll with room := true } (ready id)
    ∧ fEND 0x0_0844_0A00_0000 = false ∧ fSTG 0x0_0844_0A00_0000 = 0
    ∧ Issues 5 0x0_0844_0A01_0000 { formV2 0x0_0844_0A01_0000 laneAll with room := true } { ready id with pwr := { (ready id).pwr with therm := 0 } }
    ∧ ({ ready id with pwr := { (ready id).pwr with therm := 0 } } : State).lanesOn = false := by decide +kernel

def drawAlone (op : Nat) (w : BitVec 52) (f : Form) : Bool := decide (RunsAlone 5 0xA op w { f with room := true } (ready id))
theorem test_draw_forms : drawAlone 1 0x0_0844_3A01_7000 (formDraw 0x0_0844_3A01_7000 [] [] 3 [0xA]) = false
    ∧ drawAlone 1 0x0_0804_3A01_7000 (formDraw 0x0_0804_3A01_7000 [] [] 3 [0xA]) = true
    ∧ drawAlone 2 0x0_0804_3101_0000 (formDraw 0x0_0804_3101_0000 [] [] 3 [1, 2, 3]) = true
    ∧ drawAlone 3 0x0_0804_3301_0000 (formDraw 0x0_0804_3301_0000 [] [] 3 [1, 2, 3]) = true
    ∧ drawAlone 4 0x0_0804_3201_0000 (formDraw 0x0_0804_3201_0000 [] [] 3 [1, 2, 3]) = true
    ∧ drawAlone 6 0x0_0844_3101_0000 (formDraw 0x0_0844_3101_0000 [uRA] [] 3 [1]) = true
    ∧ drawAlone 5 0x0_3844_3101_F000 (formDraw 0x0_3844_3101_F000 [uRA] [1] 4 [1] true) = true := by decide +kernel

/-- The premises that the matrix engine is free, at tile 5. -/
def matFree (op : Nat) (w : BitVec 52) (regs : List Nat) (s : State) : Bool :=
  let x := s.tile 5
  decide (Issues 5 w { used := matUsed op, regs := regs, legal := matLegal op w, room := true } s) && s.lanesOn
    && decide (x.mq = []) && x.running.isNone && x.astWait.isNone && decide (x.eccDouble = []) && decide (x.tagParity = [])
    && Memory.wf x.spad && Map.wf 0 x.acc
def matInsn (op : Nat) (w : BitVec 52) (s : State) : QInsn :=
  let x := s.tile 5
  { cls := 4, op := op, w := w, pc := x.pc, a := x.getS (xRA w), b := x.getS (xRB w), c := x.getS (xRK w), rows := (x.mask w).1, cols := (x.mask w).2 }
/-- AZERO of a11 and e3. -/
theorem test_azero_free : matFree 8 0x0_B000_0000_0000 [] (ready id) = true ∧ fEXACT 0x0_B000_0000_0000 = false
    ∧ matFree 8 0x0_3000_0040_0000 [] (ready id) = true ∧ fEXACT 0x0_3000_0040_0000 = true := by decide +kernel
/-- ALD of a0 in FP32 and BF16 at offset 0, of e0 in the long format; AST of a0 without TAG and with it at slot 2559, empty and
full, under a mask of MSEL 1 whose row register is 0. -/
def longRk : State := ready (fun x => { x with s := [(3, 8)] })
theorem test_ald_free : matFree 9 0x0_0000_0200_0000 [0, 0] (ready id) = true ∧ accMoveOk (matInsn 9 0x0_0000_0200_0000 (ready id)) = true
    ∧ matFree 9 0x0_0000_0400_0000 [0, 0] (ready id) = true ∧ accMoveOk (matInsn 9 0x0_0000_0400_0000 (ready id)) = true
    ∧ matFree 9 0x0_0000_6040_0000 [0, 3] longRk = true ∧ accMoveOk (matInsn 9 0x0_0000_6040_0000 longRk) = true := by decide +kernel
def tagRk (f : Tile → Tile) : State := ready (fun x => f { x with s := [(3, 0x10 + 2559 * 32)] })
theorem test_ast_free : matFree 0xA 0x0_0000_6201_0000 [0, 3] (tagRk id) = true ∧ accMoveOk (matInsn 0xA 0x0_0000_6201_0000 (tagRk id)) = true
    ∧ kTAG (matInsn 0xA 0x0_0000_6201_0000 (tagRk id)).c = true ∧ ((tagRk id).tile 5).full 2559 = false ∧ ((tagRk id).tile 5).isDark 2559 = false
    ∧ (((tagRk id).tile 5).mask 0x0_0000_6200_0000).1.getLsbD 47 = true ∧ (((tagRk id).tile 5).mask 0x0_0000_6200_0000).2.getLsbD 47 = true
    ∧ matFree 0xA 0x0_0000_6201_0000 [0, 3] (tagRk (fun x => x.setFld (TILE.matRows 1) 1)) = true
    ∧ (((tagRk (fun x => x.setFld (TILE.matRows 1) 1)).tile 5).mask 0x0_0000_6201_0000).1.getLsbD 47 = false := by decide +kernel
theorem test_ast_waits : matFree 0xA 0x0_0000_6200_0000 [0, 3] (tagRk (fun x => x.setTags 2559 1 true)) = true
    ∧ ((tagRk (fun x => x.setTags 2559 1 true)).tile 5).full 2559 = true
    ∧ matFree 0xA 0x0_0000_0200_0000 [0, 0] (ready id) = true ∧ accMoveOk (matInsn 0xA 0x0_0000_0200_0000 (ready id)) = true := by decide +kernel
/-- MMA of a0 and e0 in FP8 at depth 48, in MX at 32 and, refused, 48; with K 0. -/
def depthOf (k : Word) : State := ready (fun x => { x with s := [(3, k)] })
def mmaMeets (w : BitVec 52) (k : Nat) : Bool := matFree 1 w [0, 0, 3] (depthOf (BitVec.ofNat 64 k)) && !fPAIR w
  && streamOk (xFMT w) k (fMX w) 0
theorem test_mma_free : mmaMeets 0x0_0000_6800_0000 48 = true ∧ mmaMeets 0x0_0000_6840_0000 48 = true ∧ mmaMeets 0x0_0000_6800_8000 32 = true
    ∧ mmaMeets 0x0_0000_6800_8000 48 = true ∧ mmaMeets 0x0_0000_7200_0000 48 = true := by decide +kernel
theorem test_mma_refused : matFree 1 0x0_0000_6800_0000 [0, 0, 3] (depthOf 0) = true ∧ ((depthOf 0).tile 5).fld TILE.FAULT_VALID ≠ 1 := by decide +kernel
/-- MRUN of the last block of one item, and of one that passes the scratchpad's end. -/
def runRegs (off : Word) : State := ready (fun x => { x with s := [(1, off), (2, 0x1)] })
theorem test_mrun_free : matFree 0x10 0x0_0088_0000_0000 [1, 2] (runRegs 0x9FFE0) = true ∧ ((runRegs 0x9FFE0).tile 5).lists.length < 16
    ∧ matFree 0x10 0x0_0088_0000_0000 [1, 2] (runRegs 0xA0000) = true := by decide +kernel

/-- Two posted lists, a forward one that is ready and a backward one that waits for slot 9; the same with slot 9 seen full. -/
def listF : WorkList := ⟨0x1000, 1, false, true, 0, false, false, 0, true⟩
def listB (b : Bool) : WorkList := ⟨0x2000, 1, true, true, 9, true, true, 0, b⟩
def posted (b : Bool) : State := ready (fun x => { x with lists := [listF, listB b] })
/-- LIST_START's premises: policy 0, 1 and 2 (after a forward list); a lone forward list with AHEAD 0 below FWD_AHEAD 1. -/
def listFree (s : State) : Bool :=
  let x := s.tile 5
  s.lanesOn && x.running.isNone && x.astWait.isNone && decide (x.mq = []) && decide (x.xq = []) && decide (x.stall = .none)
    && decide (x.fld TILE.CORE_READY ≠ 0) && decide (x.eccDouble = []) && decide (x.tagParity = [])
theorem test_list_free : listFree (posted true) = true ∧ ((posted true).tile 5).fld TILE.MAT_POLICY = 0
    ∧ ((posted true).tile 5).fld TILE.FWD_AHEAD = 0
    ∧ (((posted true).onTile 5 (fun x => x.setFld TILE.MAT_POLICY 1)).tile 5).fld TILE.MAT_POLICY = 1
    ∧ (((posted true).onTile 5 (fun x => x.setFld TILE.MAT_POLICY 2)).tile 5).fld TILE.MAT_POLICY = 2
    ∧ (((posted true).onTile 5 (fun x => x.setFld TILE.FWD_AHEAD 1)).tile 5).fld TILE.FWD_AHEAD = 1
    ∧ ((posted true).tile 5).fld TILE.AHEAD = 0 ∧ ((posted true).tile 5).lastBackward = false := by decide +kernel
theorem test_list_chosen : ((posted true).tile 5).lists = [listF] ++ listB true :: [] ∧ (listB true).ready = true ∧ (listB true).backward = true
    ∧ listF.backward = false ∧ ((posted false).tile 5).lists = [] ++ listF :: [listB false] ∧ (listB false).ready = false := by decide +kernel
/-- The item of listF is AZERO of a11, or no MAT word (zeros). -/
def azeroItem : State := (posted false).onTile 5 (fun x => { x with spad := [(0x1005, 0xB0), (0x1006, 0x80), (0x1007, 0x40)] })
theorem test_list_item : ofBytes (readRun 0 (azeroItem.tile 5).spad listF.off 32) % 2 ^ 64 = 0x4080_0000_0000_0000 + 11 * 2 ^ 44
    ∧ bits (ofBytes (readRun 0 ((posted false).tile 5).spad listF.off 32)) 60 4 ≠ 4 ∧ listFree azeroItem = true := by decide +kernel
def runsList (l : WorkList) : State := ready (fun x => { x with running := some ⟨l, 1, true⟩ })
theorem test_list_ends : ((runsList listF).tile 5).running = some ⟨listF, 1, true⟩ ∧ ((runsList listF).tile 5).mq = [] ∧ listF.last = true
    ∧ ((runsList listF).tile 5).fld TILE.AHEAD < 15 := by decide +kernel
theorem test_list_waits : ((posted false).tile 5).lists[1]? = some (listB false) ∧ (listB false).ready = false := by decide +kernel
def mrunAlone : State := ready (fun x => { x with mq := [{ cls := 4, op := 0x10, w := 0, pc := 0, a := 0x9FFE0, b := 1, c := 0 }] })
theorem test_mrun_waits : (mrunAlone.tile 5).xq = [] ∧ (mrunAlone.tile 5).stall = .none ∧ mrunAlone.lanesOn = true
    ∧ (mrunAlone.tile 5).lists.length < 16 := by decide +kernel

/-- A module of a running job with an empty campaign descriptor, its step as given. -/
def job7 : Job := { id := 7, tag := 9, ring := 0, cid := 0, camp := [], ctx := none, received := 0, state := .running }
def step7 (voted : Bool) (r : Option VoteResult) : OpenStep :=
  { open_ := 0, vote := 0, flip := 0, readOnly := false, eval := false, noSlot := false, pins := [], base := [], snaps := [], voted := voted, result := r }
def inJob (st : Option OpenStep) (o : Option (BitVec 64)) : State :=
  { ready id with lh := { (ready id).lh with jobs := [job7], cur := some 7, step := st, nextOpen := o } }
theorem test_veto_issues : Issues 5 0x0_F800_0000_FFFF { used := [uRD, uIMM32], regs := [fRD 0x0_F800_0000_FFFF] } (inJob (some (step7 false none)) none)
    ∧ ahead (step7 false none).vote (inJob none none).count ≥ 0
    ∧ Issues 5 0x0_F800_0000_FFFF { used := [uRD, uIMM32], regs := [fRD 0x0_F800_0000_FFFF] } (ready id) ∧ (ready id).lh.step = none
    ∧ Issues 5 0x0_F800_0000_0002 { used := [uRD, uIMM32], regs := [fRD 0x0_F800_0000_0002], legal := true } (ready id) := by decide +kernel
theorem test_step_opens : (inJob none (some 0)).job = some job7 ∧ job7.kind = 0 ∧ ahead 0 (inJob none (some 0)).count ≤ 0
    ∧ (inJob none (some 0)).canOpen true job7.trails.length = true ∧ (inJob none (some 0)).fld BCN.STATE ≠ 5
    ∧ (inJob none (some 0)).lh.evalDue = false ∧ (inJob none (some 0)).lh.sweepDue = false ∧ (inJob none (some 0)).lh.suspension = none := by decide +kernel
theorem test_step_flips : (inJob (some (step7 true (some ⟨1, 0, 0⟩))) none).lh.step = some (step7 true (some ⟨1, 0, 0⟩))
    ∧ (inJob none none).count = (step7 true none).flip ∧ (inJob none none).moves = [] ∧ (inJob none none).bcn.pendingTick = none
    ∧ (inJob none none).bcn.trees = [] := by decide +kernel
/-- A flip tick that has passed by one; a lease whose base lies below the superstep counts. -/
theorem test_flip_late : ahead (-1) (inJob none none).count < 0 ∧ ahead (-1 + BitVec.ofNat 64 job7.gap) (inJob none none).count ≤ 0 := by decide +kernel
def ranTiles : Map Tile := (List.range 2880).map (fun t => (t, (({} : Tile).setFld TILE.SSTEP 1)))
def withRan (m : Map Tile) : State := { State.reset with tiles := m }
theorem ranTiles_tile (m : Map Tile) (u : Nat) : (withRan m).tile u = Map.get {} m u := rfl
def leased : State := withRan ranTiles
theorem get_of_same (x : Tile) : ∀ (l : List Nat) (u : Nat), u ∈ l → Map.get {} (l.map (fun t => (t, x))) u = x := by
  intro l u h
  induction l with
  | nil => simp at h
  | cons a l ih => by_cases e : u = a <;> simp_all [Map.get]
theorem test_lease_passed : ∀ u, u < 2880 → (Map.get 0 (⟨0, 0, 0, []⟩ : Lease).base u).toNat + 0 < (leased.tile u).fld TILE.SSTEP := by
  intro u h
  rw [leased, ranTiles_tile, ranTiles, get_of_same _ _ _ (List.mem_range.mpr h), show (Map.get 0 (⟨0, 0, 0, []⟩ : Lease).base u).toNat = 0 from rfl]; decide +kernel

/-- The last place of the grid: physical column 63 of row 47 is a spare; logical column 59 stands in column 62. -/
def movesTo : State := { ready id with moves := [⟨47, 59, 63⟩] }
theorem test_map : movesTo.betweenPhases = true ∧ movesTo.moves = [⟨47, 59, 63⟩] ∧ movesTo.physCol 47 59 = 62 ∧ movesTo.fld BCN.STATE ≠ 5
    ∧ movesTo.tileAt 47 62 = some 2879 ∧ movesTo.colAt 47 62 = some 59 ∧ movesTo.tileAt 47 63 = none := by decide +kernel
theorem test_spare : (ready id).chooseSpare 47 62 = some 63 ∧ (ready id).router 47 63 = .up ∧ (ready id).moves = [] := by decide +kernel
theorem test_phase_runs : (ready (fun x => { x with phase := some ⟨0, 0, false, 0, none, true, 0, 0, 0, 0, [], [], [], none, none⟩ })).betweenPhases = false := by decide +kernel
theorem test_no_spare : ({ ready id with routers := [(15, .failed), (31, .failed), (47, .failed), (63, .failed)] } : State).chooseSpare 0 0 = none := by
  decide +kernel
theorem test_core_off : ((ready (fun x => (x.setFld TILE.CORE_READY 0).setFld TILE.CORE_PWR 0)).tile 5).fld TILE.CORE_PWR = 0
    ∧ ((ready (fun x => (x.setFld TILE.CORE_READY 0).setFld TILE.CORE_PWR 1)).tile 5).fld TILE.CORE_PWR = 1
    ∧ (ready id).pwr.state = .p0 ∧ (ready id).savedTile 5 = none ∧ (ready id).job = none := by decide +kernel
theorem test_router_failed : ({ ready id with routers := [(3071, .failed)] } : State).router 47 63 = .failed := by decide +kernel

/-- A request at the last channel of stack 15; the last bytes of a block. -/
def asked (r : HbmReq) : State := { ready id with hbmStacks := [(15, { queue := [(15, r)] })] }
def readReq : HbmReq := ⟨.message ⟨5, 0, 0⟩ 0, 0x1FF8, 8, none, false, 0, 0, some (.scalar 9), 0, false, 0⟩
theorem test_hbm_asks : ((asked readReq).stack 15).queue = [(15, readReq)] ∧ (asked readReq).fld (HBM.TLEVEL 15) ≠ 3 ∧ (asked readReq).pwr.state = .p0
    ∧ (asked readReq).hbmBad = [] ∧ (asked readReq).hbmSoft = [] ∧ (asked readReq).vregs = [] ∧ Memory.wf (asked readReq).hbm = true
    ∧ (asked readReq).channelLost 1 = false ∧ haloPoison ((asked readReq).haloOf 1) = false := by decide +kernel
theorem test_hbm_poison : haloPoison (((asked readReq).poison 1 0).haloOf 1) = true := by decide +kernel
theorem test_hbm_level3 : ((ready id).setFld (HBM.TLEVEL 15) 3).fld (HBM.TLEVEL 15) = 3 ∧ (ready id).awake = true := by decide +kernel
theorem test_sparing : (({ ready id with hbmStacks := [(15, { copying := some 14 })] } : State).stack 15).copying = some 14 := by decide +kernel
theorem test_channel_not_ready : (ready id).fld (HBM.CH_READY 15 15) = 0 := by decide +kernel
/-- A scrub of block 188,743,679, the last: its channel ready, one single error in its last burst. -/
def scrubbed : State := { (((ready id).setFld HBM.SCRUB_H 24).setFld (HBM.CH_READY 15 14) 1) with hbmSoft := [(188743679 * 128 + 127, true)] }
theorem test_scrub : scrubbed.fld HBM.SCRUB_H ≠ 0 ∧ scrubbed.place 188743679 = (15, 14, 786431) ∧ scrubbed.channelReady 188743679 = true
    ∧ scrubbed.stackAsleep 188743679 = false ∧ scrubbed.channelLost 188743679 = false := by decide +kernel
/-- The worked example: with LOCAL_UNITS 16, address 0x00A0_0000_5000 lies in stack 10, channel 0, row 699,051. -/
theorem test_place_example : placeBlock 16 (0x00A0_0000_5000 / 4096) = (10, 0, 699051) := by decide +kernel
theorem test_levels : nextLevel 0 105 = 3 ∧ nextLevel 3 104 = 3 ∧ nextLevel 3 81 = 0 ∧ nextLevel 1 82 = 0 ∧ nextLevel 1 83 = 1 := by decide +kernel

def beaconAt (st : Nat) (holds : Bool) : State :=
  { (ready (fun x => { x with stall := .wait 1 1 (some 1) 1 })).setFld BCN.STATE st with
    bcn := { (ready id).bcn with holds := holds, pendingTick := some (0, 250), best := some ⟨255, 0⟩ } }
/-- A wait's deadline is due; the tiles listed are not held; one source is left beside port 8. -/
theorem test_edge : (∀ e ∈ (beaconAt 1 true).tiles, e.2.startHeld = none) ∧ ([⟨8, 1⟩, ⟨3, 2⟩] : List EdgeSource).filter (fun e => decide (e.port ≠ 8)) = [⟨3, 2⟩]
    ∧ (beaconAt 1 true).awake = true ∧ ((beaconAt 1 true).tile 5).stall = .wait 1 1 (some 1) 1 ∧ (beaconAt 1 true).fld BCN.STATE ≠ 5
    ∧ ahead 1 ((beaconAt 1 true).count + 1) ≤ 0 := by decide +kernel
theorem test_asleep : ({ ready id with pwr := { (ready id).pwr with state := .s3 } } : State).awake = false := by decide +kernel
theorem test_sync : olderTerm (0xFFFF : BitVec 16).toNat ((beaconAt 3 true).fld BCN.TERM) = true ∧ olderTerm (0x7FFF : BitVec 16).toNat ((beaconAt 3 true).fld BCN.TERM) = false
    ∧ (beaconAt 0 false).bcn.holds = false ∧ (beaconAt 3 true).pwr.locked = none ∧ (beaconAt 1 true).bcn.sources = [] ∧ (beaconAt 1 true).moves = [] := by decide +kernel
theorem test_close : (⟨255, 0⟩ : ElectionKey).module = (beaconAt 4 false).self ∧ (beaconAt 4 false).fld BCN.STATE = 4
    ∧ (beaconAt 2 true).fld BCN.PRIO < (255 : BitVec 8).toNat ∧ (1 : BitVec 16).toNat ≠ (beaconAt 2 true).fld BCN.TERM := by decide +kernel
theorem test_other_wins : (⟨255, 1⟩ : ElectionKey).module ≠ (beaconAt 4 true).self ∧ (beaconAt 5 true).fld BCN.STATE = 5 := by decide +kernel

/-- Tree 15 is configured with a child on port 7; a reduction on it is open, closed or not. -/
def treeAt (c : Bool) (kids : List Contribution) : State :=
  { ((ready id).setFld (BCN.VALID 15) 1).setFld (BCN.CHILDREN 15) 128 with
    bcn := { (ready id).bcn with trees := [(15, some ⟨3, 0, 0, 1, 1, 0, some 5, kids, c, false, none⟩)] } }
theorem test_tree_starts : (treeAt false []).fld (BCN.VALID 15) ≠ 0 ∧ (treeAt false []).fld (BCN.BUSY 15) ≠ 1 ∧ 0 < ahead 1 (treeAt false []).count
    ∧ tooFar 1 (treeAt false []).count = false ∧ (treeAt false []).pendingEvents < 256
    ∧ 0 ≤ (5 - (1 + BitVec.ofNat 64 (2 * (1 + 1) * 1)) : BitVec 64).toInt ∧ (treeAt false []).fld BCN.STATE ≠ 5 := by decide +kernel
theorem test_tree_child : 7 ∈ (treeAt false []).children 15 ∧ ((treeAt true []).tree 15).map (·.closed) = some true
    ∧ ((treeAt false []).tree 15).map (·.closed) = some false := by decide +kernel
theorem test_tree_closes : ((treeAt false [⟨7, 1, 1, none⟩]).children 15) = [7] ∧ ((treeAt false [⟨7, 1, 1, none⟩]).fld (BCN.PARENT 15)) = 15
    ∧ (((ready id).setFld (BCN.PARENT 15) 7).fld (BCN.PARENT 15)) ≠ 15 ∧ (treeAt false []).box.length < 2 ^ 14 := by decide +kernel

/-- A job over a ring of three modules, this one of rank 0, axis 3's descriptor 255 a broadcast from rank 1 that counter 63 starts at 1. -/
def bcast : BitVec 512 := BitVec.ofNat 512 (4 + 63 * 2 ^ 16 + 0xB3_FFFF_FF00 * 2 ^ 80 + 256 * 2 ^ 128 + 1 * 2 ^ 221 + 1 * 2 ^ 240)
def ring3 : State :=
  let s : State := (inJob none none).wr BF.COORD.off (BitVec.ofNat 64 (2 * 2 ^ 45 + 2 ^ 52))
  { ((s.putCollDesc 3 255 bcast).setFld (CE.ARMED 3 63) 255).setFld (CE.ARMED_VALID 3 63) 1 with
    lh := { s.lh with jobs := [{ job7 with box := [0, 1, 2] }] } }
theorem test_coll_armed : ring3.collDesc 3 255 = bcast ∧ cdOp bcast = 4 ∧ cdTrigN bcast = 1 ∧ ring3.extent 3 = 3 ∧ ring3.rank 3 = 0 ∧ cdRoot bcast = 1
    ∧ (ring3.collsOf 3).length < 32 ∧ ring3.collsOf 3 = [] ∧ Map.get [] ring3.collHeld 3 = [] ∧ ring3.fld (CE.ARMED_VALID 3 0) = 0 := by decide +kernel
def running : Coll := { d := 255, desc := bcast, left := 1 }
def ring3Runs (l : Nat) : State := { ring3.setFld (HBM.CH_READY 15 14) 1 with colls := [(3, [{ running with left := l }])] }
/-- The last hop of the block of rank 1, in the + direction: it has come two hops. -/
def hopHeader (lepoch : Nat) : BitVec 384 := ({ type := 7, vc := 2, dst := 0, src := 0, ext := 255 + 2 * 2 ^ 8, lepoch := lepoch } : Hdr).encode
theorem test_coll_lands : bits (hopHeader 0).toNat 312 8 = 255 ∧ (Hdr.decode (hopHeader 0)).lepoch = cdLepoch bcast ∧ (Hdr.decode (hopHeader 1)).lepoch ≠ cdLepoch bcast
    ∧ bits (Hdr.decode (hopHeader 0)).ext 8 16 = 2 ∧ (Hdr.decode (hopHeader 0)).addr = 0 ∧ (Hdr.decode (hopHeader 0)).halo = false
    ∧ hopLimit bcast 3 0 ≤ (0 + 3 - 1) % 3 ∧ halfOff bcast 3 0 = 0 := by decide +kernel
/-- The last 256 bytes of HBM; a stack at level 3 does not serve them. -/
theorem test_coll_lands_at : (ring3Runs 1).collAt 3 255 = some running ∧ (ring3Runs 1).ceWaits bcast ((ring3Runs 1).takeSpans bcast 3 0 (Hdr.decode (hopHeader 0)) 256) = false
    ∧ cdHalo bcast = false ∧ (cdDst bcast + 0) % 4096 + 256 ≤ 4096 ∧ cdDst bcast + 0 + 256 ≤ 0xB4_0000_0000 ∧ (ring3Runs 1).vregs = []
    ∧ (ring3Runs 1).place 188743679 = (15, 14, 786431) ∧ (ring3Runs 1).stackReachable 15 = true ∧ (ring3Runs 1).channelReady 188743679 = true
    ∧ ((ring3Runs 1).stack 15).queue = [] ∧ crc64 (List.replicate 256 (1 : Byte)) ≠ 0
    ∧ ((ring3Runs 1).setFld (HBM.TLEVEL 15) 3).ceWaits bcast (((ring3Runs 1).setFld (HBM.TLEVEL 15) 3).takeSpans bcast 3 0 (Hdr.decode (hopHeader 0)) 256) = true := by decide +kernel
theorem test_coll_ends : cdNextEn bcast = false ∧ ((ring3Runs 0).tile (cdHome bcast)).rtrReady = true ∧ ahead (cdDeadline bcast) (ring3Runs 1).count ≤ 0
    ∧ ((ring3Runs 0).sem (cdHome bcast) (cdEntry bcast)).waiters = [] := by decide +kernel

/-- Port 7 in service, one frame sent and not acknowledged, lanes 0 to 9 data and 10 and 11 spares. -/
def port7 (q : Port) (st : Nat) : State :=
  ((({ ready id with ports := [(7, q)] } : State).setFld (BF.STATE 7) st).setFld (BF.LSTATE 7) (2 ^ 20 + 2 ^ 22)).setFld BF.CFG 1
def sent1 : Port := { replay := [⟨0, 0, []⟩], txSeq := 1, totals := [(4, 1)] }
theorem test_frame_states : (port7 sent1 8).fld (BF.STATE 7) = 8 ∧ ((0 : BitVec 256).extractLsb' 0 16 : BitVec 16) = ((port7 sent1 8).port 7).rxSeq
    ∧ (port7 sent1 8).bcn.holds = false ∧ (port7 sent1 10).fld (BF.STATE 7) = 10
    ∧ 2 ^ 15 ≤ (((port7 sent1 8).port 7).rxSeq - 1).toNat ∧ (((port7 sent1 8).port 7).rxSeq - 0xFFFF).toNat < 2 ^ 15
    ∧ Map.get 0 (port7 sent1 8).rel.fecSince 7 % 32 < 15 ∧ (port7 sent1 8).fld (BF.FEC_FAIL 7) + 1 < 2 ^ 12
    ∧ (port7 sent1 8).fld (BF.REPLAYS 7) + 1 < 2 ^ 12 := by decide +kernel
theorem test_frame_buffers : ((port7 sent1 8).port 7).replay ≠ [] ∧ ((port7 sent1 8).port 7).resends ≠ 7
    ∧ ((port7 { sent1 with resends := 7 } 8).port 7).resends = 7 ∧ Map.get 0 ((port7 sent1 8).port 7).totals 4 = 1
    ∧ Map.get 0 ((port7 sent1 8).port 7).totals 5 ≠ 1 := by decide +kernel
theorem test_lanes : (port7 sent1 8).lanesIn 7 1 = [10, 11] ∧ (maskLanes 0x3).filter (fun k => decide ((port7 sent1 8).lane 7 k = 0)) = [0, 1]
    ∧ ((maskLanes 0x1F).filter (fun k => decide ((port7 sent1 8).lane 7 k = 0))).length = 5 ∧ ((port7 sent1 8).port 7).swap = none
    ∧ ((port7 { sent1 with swap := some (3, 9) } 8).port 7).swap = some (3, 9) := by decide +kernel
theorem test_lanes_good : ((List.range 12).filter (fun k => decide ((port7 sent1 8).lane 7 k ≠ 2) && !([0, 1, 2, 3, 4].contains k))).length = 7
    ∧ ((port7 sent1 8).unit (portUnit 7)).faults = [] ∧ 2 ≤ (port7 sent1 8).policy NVM.FAULT_N := by decide +kernel
def arriving (type vc dstTile : Nat) : BitVec 384 := ({ type := type, vc := vc, dst := 0, src := 0, dstTile := dstTile } : Hdr).encode
theorem test_packets : hcrcOk (arriving 2 1 5) = true ∧ (Hdr.decode (arriving 2 1 5)).type = 2 ∧ (Hdr.decode (arriving 4 1 5)).type = 4
    ∧ (Hdr.decode (arriving 0 2 5)).dstTile = 5 ∧ (Hdr.decode (arriving 0 2 5)).vc = 2 ∧ hcrcOk (arriving 0 2 5) = true ∧ hcrcOk (arriving 4 1 5) = true
    ∧ (Hdr.decode (arriving 0 2 5)).dst = (port7 sent1 8).coord ∧ hcrcOk 1 = false ∧ (port7 sent1 8).pwr.state = .p0
    ∧ 5 < (port7 sent1 8).tileCount ∧ ((port7 sent1 8).tile 5).fld TILE.CORE_READY = 1 := by decide +kernel
/-- A request of this module's tile 5 recorded at port 7: a load, an SREAD, a write. -/
def ownRec (m f : Msg) : AwayRecord := { coord := 0, tile := 5, tag := 0, dirs := 0, own := some (m, f), st := ⟨5, 0, 0⟩, win := 3 }
def askedLoad : AwayRecord := ownRec (.load ⟨5, 0, 0⟩ (.scalar 1) 0 0 []) (.load ⟨5, 0, 0⟩ (.scalar 1) 0 0 [])
def askedWrite : AwayRecord := ownRec (.answer (.message ⟨5, 0, 0⟩ 1) 9 0 none) (.answer (.message ⟨5, 0, 0⟩ 1) 9 0 none)
def askedReply : AwayRecord := ownRec (.reply ⟨5, 0, 0⟩ 1 0 .value) (.reply ⟨5, 0, 0⟩ 1 0 .value)
theorem test_reply_record : (port7 { records := [askedLoad] } 8).fld (BF.ORPHANS 7) = 0
    ∧ [askedLoad, askedWrite, askedReply].all (fun r => decide (((port7 { records := [r] } 8).port 7).records = [r] ∧ r.coord = 0 ∧ r.tile = 5 ∧ r.tag.toNat = 0)) = true
    ∧ (Hdr.decode (arriving 2 1 5)).tag = 0 ∧ (Hdr.decode (arriving 4 1 5)).dst = (port7 { records := [askedLoad] } 8).coord
    ∧ (∀ r ∈ [askedLoad], r.tile ≠ (Hdr.decode (arriving 2 1 6)).dstTile) := by decide +kernel

theorem test_port_states : (List.range 12).all (fun k => decide ((port7 {} k).fld (BF.STATE 7) = k)) = true ∧ (port7 {} 8).awake = true
    ∧ (maskLanes 0x3FF).length = 10 ∧ (maskLanes 0x1FF).length = 9 ∧ (maskLanes 0x1F).length = 5 ∧ (maskLanes 0xF).length = 4
    ∧ (port7 {} 1).fld (BF.ENABLE 7) = 1 := by decide +kernel
theorem test_port_idents : ((BitVec.ofNat 256 (2 ^ 136)).extractLsb' 136 8).toNat = 1 ∧ ((0 : BitVec 256).extractLsb' 136 8).toNat ≠ 1
    ∧ (BitVec.ofNat 256 (2 ^ 136)).getLsbD 67 = false ∧ (BitVec.ofNat 256 (2 ^ 67)).getLsbD 67 = true ∧ (port7 {} 7).fld BF.CFG = 1
    ∧ ((BitVec.ofNat 256 (2 ^ 67)).extractLsb' 64 3).toNat ≠ 7 - 1 ∧ ((port7 { identOk := true } 6).port 7).identOk = true := by decide +kernel
theorem test_port_records : ((port7 { records := [askedLoad], left := true } 8).port 7).records = [askedLoad]
    ∧ ((port7 { left := true } 10).port 7).left = true ∧ ((port7 { inReset := true } 3).port 7).inReset = true
    ∧ ((port7 {} 8).port 7).left = false ∧ ((port7 {} 8).unit (portUnit 7)).faults = [] ∧ 2 ≤ (port7 {} 8).policy NVM.FAULT_N
    ∧ ((port7 {} 9).setFld (BF.FENCE_WHY 7) 1).fld (BF.FENCE_WHY 7) = 1 := by decide +kernel
/-- A job of modules 0 and 1 on axis T uses its port 0 on a machine of the shape 2 × 1 × 1 × 1. -/
def inUse : State :=
  let s : State := (port7 {} 8).wr BF.COORD.off (BitVec.ofNat 64 (2 ^ 24 + 2 ^ 52))
  { s with lh := { s.lh with jobs := [{ job7 with box := [0, 1] }] } }
theorem test_port_in_use : inUse.lh.jobs.any (fun j => j.box.contains inUse.self.toNat
      && j.box.contains (moduleIndex inUse.shape (neighbourOf inUse.shape inUse.coord 0))) = true
    ∧ neighbourOf inUse.shape inUse.coord 0 ≠ inUse.coord ∧ inUse.awake = true ∧ (port7 {} 8).lh.jobs = [] := by decide +kernel
theorem test_self_ok : (∀ a ∈ [0, 1, 2, 3], coordOf (bits (1 + 7 * 2 ^ 24 : BitVec 64).toNat 0 24) a < axisSize (bits (1 + 7 * 2 ^ 24 : BitVec 64).toNat 24 28) a)
    ∧ ([0, 1, 2, 3].map (axisSize (bits (1 + 7 * 2 ^ 24 : BitVec 64).toNat 24 28))).foldl (· * ·) 1 ≤ 10240
    ∧ (port7 {} 8).fld BCN.BOARD = 0 := by decide +kernel

/-- The host interface's ring 63 is enabled with rings of 16 and 32 entries, its state and list fields as given. -/
def ring63 (f : HostIf → HostIf) : State :=
  let s := ((((ready id).setFld (HIF.SQ_LOG2 63) 4).setFld (HIF.CQ_LOG2 63) 5).setFld (HIF.ENABLE 63) 1).setFld (HIF.RSTATE 63) 1
  let s := (((s.setFld (HIF.CLASS 63) 0).setFld (HIF.WEIGHT 63) 1).setFld HIF.EV_ENABLE 1).setFld (HIF.COAL_N 63) 1
  { s with hif := f s.hif }
/-- The first firmware has been accepted; ring 63 is enabled. -/
def up (f : HostIf → HostIf) : State := (ring63 f).setFld HIF.READY 1
def cmd (opc tag arg : Nat) : BitVec 512 := BitVec.ofNat 512 (opc + 7 * 2 ^ 16 + tag * 2 ^ 64 + arg * 2 ^ 192)
def tail5 (h : HostIf) : HostIf := { h with rings := [(63, { tail := 5, coal := 1, share := 3 })] }
theorem test_doorbells : (ring63 id).awake = true ∧ (ring63 id).fld (HIF.ENABLE 63) = 1 ∧ (15 : BitVec 32).toNat < 2 ^ (ring63 id).fld (HIF.SQ_LOG2 63)
    ∧ ¬ (16 : BitVec 32).toNat < 2 ^ (ring63 id).fld (HIF.SQ_LOG2 63) ∧ (0 + 32 - ((ring63 id).ring 63).head) % 32 ≤ ((ring63 id).fld (HIF.CQ_TAIL 63) + 32 - 0) % 32
    ∧ ¬ (1 + 32 - ((ring63 id).ring 63).head) % 32 ≤ ((ring63 id).fld (HIF.CQ_TAIL 63) + 32 - 0) % 32 ∧ (ring63 id).hif.ops = [] := by decide +kernel
theorem test_ring_cfg : (ready id).fld (HIF.ENABLE 63) = 0 ∧ bits (0x1108 : BitVec 64).toNat 1 5 = 4 ∧ bits (0x1108 : BitVec 64).toNat 6 5 = 4
    ∧ bits (0x1108 : BitVec 64).toNat 12 8 = 1 ∧ bits ((ring63 id).rd (HIF.ENABLE 63).off).toNat 1 43 = bits (0x7F01149 : BitVec 64).toNat 1 43
    ∧ bits (0x7F01149 : BitVec 64).toNat 1 5 = 4 ∧ bits (0x7F01149 : BitVec 64).toNat 6 5 = 5 ∧ 1 ≤ bits (0x7F01149 : BitVec 64).toNat 12 8
    ∧ bits (2 ^ 34 : BitVec 64).toNat 34 10 ≠ (ring63 id).fld (HIF.COAL_US 63) ∧ modFields (canonical 0x7000) = none := by decide +kernel
/-- Ring 63 is best-effort and its share of 3 is left. -/
def best63 : State := { (ring63 tail5).setFld (HIF.CLASS 63) 1 with hif := { (ring63 tail5).hif with visit := 63 } }
theorem test_fetch_burst : (ring63 tail5).outstanding = 0 ∧ ((ring63 tail5).ring 63).tail = 5 ∧ (ring63 tail5).fld (HIF.SQ_HEAD 63) = 0
    ∧ (ring63 tail5).fld (HIF.RSTATE 63) = 1 ∧ (ring63 tail5).hif.backlog = [] ∧ (ring63 tail5).fld (HIF.CLASS 63) = 0
    ∧ (List.range 63).all (fun i => decide ((ring63 tail5).fld (HIF.ENABLE i) = 0)) = true ∧ (0 + 63) % 64 = 63 := by decide +kernel
theorem test_fetch_best : best63.fld (HIF.CLASS 63) = 1 ∧ (best63.ring 63).share = 3 ∧ best63.hif.visit = 63 ∧ best63.fld (HIF.ENABLE 63) = 1
    ∧ best63.outstanding = 0 ∧ (best63.ring 63).tail = 5 := by decide +kernel
theorem test_held : 8192 ≤ (ring63 (fun h => { tail5 h with started := List.replicate 8192 ⟨63, 0, true⟩ })).outstanding := by decide +kernel
/-- NOP, CID 7; with SCHED at count 2; for module 9 through the relay. -/
def nop7 (sched via : Nat) : BitVec 512 := BitVec.ofNat 512 (7 * 2 ^ 16 + sched * 2 ^ 10 + via * 2 ^ 46 + 9 * 2 ^ 32 * via + sched * 2 * 2 ^ 128)
theorem test_start : cFence (nop7 0 0) = false ∧ cVia (nop7 0 1) = true ∧ cSched (nop7 1 0) = true ∧ cModule (nop7 0 1) = 9
    ∧ 0 < ahead (cBcn (nop7 1 0)) (ring63 id).count ∧ ahead (cBcn (nop7 1 0)) (ring63 id).count ≤ 2 ^ 31 ∧ (ring63 id).pendingEvents = 0
    ∧ (ring63 id).fld BCN.STATE ≠ 5 ∧ (ring63 id).fld HIF.READY = 0 := by decide +kernel
theorem bare_formed (d : BitVec 512) (h : d.toNat < 2 ^ 192) (h1 : cArg d 11 5 = 0) (h2 : cArg d 47 17 = 0) (h3 : cOpc d = 0) (h4 : cTag d = 0) : Formed d := by
  refine ⟨h1, h2, by rw [h3, h4]; decide, [], by rw [h3]; rfl, fun i hi _ _ => ?_⟩
  rw [BitVec.getLsbD, Nat.testBit_lt_two_pow (Nat.lt_of_lt_of_le h (Nat.pow_le_pow_right (by decide +kernel) hi))]
theorem test_start_checks : Startable 63 (nop7 0 0) (up id) ∧ Startable 63 (nop7 1 0) (up id) ∧ Startable 63 (nop7 0 1) (up id) := by
  refine ⟨⟨by decide +kernel, by decide +kernel, by decide +kernel, bare_formed _ (by decide +kernel) (by decide +kernel) (by decide +kernel) (by decide +kernel) (by decide +kernel), by decide +kernel, by decide +kernel, by decide +kernel⟩,
    ⟨by decide +kernel, by decide +kernel, by decide +kernel, bare_formed _ (by decide +kernel) (by decide +kernel) (by decide +kernel) (by decide +kernel) (by decide +kernel), by decide +kernel, by decide +kernel, by decide +kernel⟩,
    ⟨by decide +kernel, by decide +kernel, by decide +kernel, bare_formed _ (by decide +kernel) (by decide +kernel) (by decide +kernel) (by decide +kernel) (by decide +kernel), by decide +kernel, by decide +kernel, by decide +kernel⟩⟩
theorem test_interrupt : ((ring63 tail5).ring 63).coal = 1 ∧ (ring63 tail5).fld (HIF.COAL_N 63) ≤ 1 ∧ ((ring63 id).setFld (HIF.MSIX_MASK 63) 1).fld (HIF.MSIX_MASK 63) = 1
    ∧ (ring63 id).fld (HIF.CQ_TAIL 63) + 1 ≠ ((ring63 tail5).ring 63).head ∧ (ring63 tail5).fld (HIF.VECTOR 63) = 63
    ∧ ((ring63 id).setFld (HIF.MSIX_MASK 63) 0).fld (HIF.MSIX_MASK 63) = 0 ∧ Memory.wf (ring63 id).hif.mem = true := by decide +kernel
/-- A machine of 16 modules on axis T, port 0 in service to a configured module, module 9 in relay entry 63. -/
def relays (f : HostIf → HostIf) : State :=
  let s := (((up f).wr BF.COORD.off (BitVec.ofNat 64 (15 * 2 ^ 24 + 2 ^ 52))).setFld (BF.STATE 0) 8).setFld (HIF.RMODULE 63) 9
  { (s.setFld (HIF.RVALID 63) 1).setFld (HIF.REACHABLE 63) 1 with ports := [(0, { neighbour := 2 ^ 67 })] }
theorem test_relay : (relays id).fld (HIF.RVALID 63) = 1 ∧ (relays id).fld (HIF.REACHABLE 63) = 1 ∧ (relays id).fld (HIF.RMODULE 63) = 9
    ∧ (List.range 63).all (fun i => decide ((relays id).fld (HIF.RVALID i) = 0) || decide (i = 0)) = true ∧ axisSize (relays id).shape 0 = 16
    ∧ (relays id).self.toNat = 0 ∧ requestPort (relays id).shape (relays id).coord (moduleCoord (relays id).shape 9) = some 0
    ∧ (relays id).portRefuses 0 = 0 ∧ requestPort (relays id).shape (relays id).coord 9 = some 0 ∧ longOpc (cOpc (cmd 0x10 9 0)) = true
    ∧ cModule (BitVec.ofNat 512 (0x10 + 9 * 2 ^ 32)) = 9 := by decide +kernel

/-- A command without ARG bits beyond one number at bit 192 is formed where that number lies within its first field. -/
theorem cmd_formed (opc tag arg k : Nat) (d : BitVec 512) (hd : d = cmd opc tag arg) (h1 : cArg d 11 5 = 0) (h2 : cArg d 47 17 = 0)
    (h3 : longOpc (cOpc d) = true ↔ cTag d ≠ 0) (h0 : cOpc d = opc) (h4 : (argFields opc).isSome = true) (h5 : d.toNat < 2 ^ k)
    (h6 : ∀ i, 192 ≤ i → i < k → (∀ f ∈ (argFields opc).getD [], i < f.1 ∨ f.1 + f.2 ≤ i) → d.getLsbD i = false) : Formed d := by
  subst hd
  obtain ⟨fs, e⟩ := Option.isSome_iff_exists.mp h4
  rw [e] at h6
  refine ⟨h1, h2, h3, fs, by rw [h0]; exact e, fun i hi _ hf => ?_⟩
  by_cases hk : i < k
  · exact h6 i hi hk hf
  · rw [BitVec.getLsbD, Nat.testBit_lt_two_pow (Nat.lt_of_lt_of_le h5 (Nat.pow_le_pow_right (by decide +kernel) (by omega)))]
/-- The descriptors of the witnesses below, with the lowest bit above each. -/
def cmdList : List (Nat × Nat × Nat × Nat) := [(0x01, 0, 4096, 205), (0x02, 0, 0x2000_0000_0000 + hbmBase 0, 238), (0x03, 0, 0x2000_0000_0000 + HBM.LIT.off, 238),
  (0x04, 0, 0, 193), (0x12, 0, 1, 193), (0x51, 0, 8192, 206), (0x52, 0, 0, 193), (0x52, 0, 1, 193), (0x60, 0, 4096, 205), (0x60, 0, 4096 + 2 ^ 128, 321),
  (0x60, 0, 4096 + 2 ^ 144, 337), (0x10, 9, 256 * 2 ^ 112, 313), (0x11, 9, 256 * 2 ^ 112, 313), (0x50, 9, 4097 * 2 ^ 64, 269)]
theorem cmd_list_formed : ∀ c ∈ cmdList, Formed (cmd c.1 c.2.1 c.2.2.1) := by
  intro c hc
  simp only [cmdList, List.mem_cons, List.not_mem_nil, or_false] at hc
  rcases hc with h | h | h | h | h | h | h | h | h | h | h | h | h | h <;> subst h <;>
    exact cmd_formed _ _ _ 340 _ rfl (by decide +kernel) (by decide +kernel) (by decide +kernel) (by decide +kernel) (by decide +kernel) (by decide +kernel) (by decide +kernel)
theorem test_runs : cmdList.all (fun c => let d := cmd c.1 c.2.1 c.2.2.1
    !cNocpl d && decide (cOpc d = c.1) && decide ((up id).fld HIF.READY = 1) && decide ((up id).pwr.state ≠ .s2) && !(up id).lh.inReset
      && decide (cTag d ∉ (up id).liveTags) && decide ((up id).liveTags.length < 4096)) = true := by decide +kernel
theorem test_refusals : (ring63 id).fld HIF.READY = 0 ∧ adminOpc (cOpc (cmd 0x03 0 0)) = true ∧ (⟨0, cmd 0x10 9 0, true⟩ : Started).running = true
    ∧ (9 : BitVec 64) ∈ (up (fun h => { h with ops := [{ tag := 9, ring := 0, desc := 0, state := 1 }] })).liveTags
    ∧ cTag (cmd 0x00 1 0) ≠ 0 ∧ longOpc (cOpc (cmd 0x00 1 0)) = false := by decide +kernel
theorem test_copy : cLen (cmd 0x10 9 (256 * 2 ^ 112)) = 256 ∧ cLen (cmd 0x10 9 0) = 0 ∧ cHalo (cmd 0x10 9 (256 * 2 ^ 112)) = false
    ∧ cDaddr (cmd 0x10 9 (256 * 2 ^ 112)) = 0 ∧ (up id).vregs = [] := by decide +kernel
def copying (opc : Nat) : State :=
  let d := cmd opc 9 (256 * 2 ^ 112)
  (up (fun h => { h with started := [⟨0, d, true⟩], ops := [{ tag := 9, ring := 0, desc := d, state := 1 }] })).setFld (HBM.CH_READY 0 0) 1
theorem test_copy_ends : ((copying 0x11).op 9).map (fun o => (o.moved, o.state)) = some (0, 1) ∧ (copying 0x11).stackAsleep 0 = false
    ∧ (copying 0x11).stackReachable ((copying 0x11).place 0).1 = true ∧ (copying 0x11).channelReady 0 = true ∧ (copying 0x11).channelLost 0 = false
    ∧ haloPoison ((copying 0x11).haloOf 0) = false ∧ cLen (cmd 0x11 9 (256 * 2 ^ 112)) = 256 ∧ (copying 0x10).hbmBad = [] ∧ (copying 0x10).hbmSoft = []
    ∧ Memory.wf (copying 0x10).hbm = true ∧ ((copying 0x10).stack ((copying 0x10).channelOf 0).1).queue = [] := by decide +kernel
/-- A batch of 256 bytes for slot 1 of the module's job, whose staging area lies at 0, slots of 4 KiB. -/
def batchState : State :=
  let c := bytesOf (2 * 2 ^ 2544 + 4096 * 2 ^ 2816) 512
  let s := up id
  { s with lh := { s.lh with cur := some 7, jobs := [{ job7 with camp := c, named := 1 }], batches := [⟨0, 0, job7.id, 1, 0, 256, 0⟩] } }
theorem test_batches : batchState.job.map (fun j => (j.stageN, j.id == job7.id, campFld j.camp 2496 48 + 1 % j.stageN * campFld j.camp 2816 64)) = some (2, true, 4096)
    ∧ batchState.vregs = [] ∧ batchState.lh.startAtHalt = [] ∧ batchState.job.map (fun j => (j.named, campFld j.camp 2816 64)) = some (1, 4096)
    ∧ cArg (cmd 0x12 0 (1 + 256 * 2 ^ 192)) 384 40 = 256 ∧ (up id).job = none ∧ (1 - batchState.lh.lit.cursor).toNat < 2
    ∧ (batchState.lh.batches.filter (fun b => decide (b.job = job7.id))).length < 256 := by decide +kernel
/-- Records 5 and 6 are held; the first page of the factory record cannot be read. -/
def logged : State := { up id with rel := { (up id).rel with fresh := [5, 6], nextSeq := 7 }, nl := { (up id).nl with badPages := [(0, true)] } }
theorem test_log : ((logged.rel.log ++ logged.rel.fresh).filter (fun r => decide (6 ≤ (r.extractLsb' 0 64).toNat))).getLast? = some 6
    ∧ (∃ p, p < 12 ∧ logged.pageBad p = true) ∧ (∀ p, p < 12 → (up id).pageBad p = false) := by
  refine ⟨by decide +kernel, ⟨0, by decide +kernel, by decide +kernel⟩, by decide +kernel⟩
theorem test_store : (up id).nl.storing = none ∧ loosens ((up id).committed (nvmBase + 0x400)) ((up id).staged (nvmBase + 0x400)) = false
    ∧ loosens ((up id).committed (nvmBase + 0x400)) 0 = true ∧ ((up id).wr (nvmBase + 0x400) 0).nl.presUntil = none
    ∧ ((up id).wr (nvmBase + 0x400) 0).staged (nvmBase + 0x400) = 0 ∧ (up id).nl.storesWait = [] ∧ (up id).pwr.state = .p0 := by decide +kernel
/-- An image of one byte, versions 1, signed with root key 0. -/
def imageHead : Nat := 0x07681A7E + 2 ^ 32 + 2 ^ 64 + 2 ^ 96 + 2 ^ 128 + (shakeDigest [0]).toNat * 2 ^ 256
def imaged : State := ring63 (fun h => { h with mem := writeRun 0 [] 0 (bytesOf imageHead 64) })
/-- Every condition of R502 on its form, its rank and its digest holds; whether Falcon-1024 accepts its signature, and which key the
factory record names, the model leaves open. -/
theorem test_load_passes : let h := imaged.hostRead 0 4096
    let f := fun (lsb n : Nat) => bits (ofBytes (h.take 64)) lsb n
    f 0 32 = 0x07681A7E ∧ f 32 8 = 1 ∧ f 47 17 = 0 ∧ f 160 32 = 0 ∧ ((h.drop 1857).take 191).all (fun x => decide (x = 0)) = true
    ∧ ((h.drop 3328).take 768).all (fun x => decide (x = 0)) = true ∧ f 96 32 ≤ f 64 32 ∧ 4097 = 4096 + f 128 32 ∧ (f 43 4).testBit (f 40 2) = false
    ∧ imaged.nl.sec.revoked.getLsbD (f 40 2) = false ∧ imaged.nl.sec.floor.toNat ≤ f 64 32 ∧ f 42 1 ≠ 1 := by decide +kernel
theorem test_load_digest : (shakeDigest (imaged.hostRead 4096 1)).toNat = bits (ofBytes ((imaged.hostRead 0 4096).take 64)) 256 256
    ∧ bits (ofBytes (((up id).hostRead 0 4096).take 64)) 0 32 ≠ 0x07681A7E ∧ ((up id).rel.units.all (fun e => decide (e.2.state ≠ 3))) = true
    ∧ (ring63 id).pwr.bootEvents = [] ∧ (ring63 id).pageBad 12 = false ∧ (ring63 id).pageBad 13 = false := by decide +kernel

theorem test_ops_formed : Formed (cmd 0x21 0 9) ∧ Formed (cmd 0x22 0 9) ∧ Formed (cmd 0x23 0 9) ∧ Formed (cmd 0x24 0 9) ∧ Formed (cmd 0x25 0 9)
    ∧ Formed (cmd 0x26 8 9) ∧ Formed (cmd 0x27 8 9) ∧ Formed (cmd 0x40 0 0) ∧ Formed (cmd 0x40 0 2) ∧ Formed (cmd 0x40 0 3) ∧ Formed (cmd 0x20 8 0) := by
  refine ⟨?_, ?_, ?_, ?_, ?_, ?_, ?_, ?_, ?_, ?_, ?_⟩ <;>
    exact cmd_formed _ _ _ 200 _ rfl (by decide +kernel) (by decide +kernel) (by decide +kernel) (by decide +kernel) (by decide +kernel) (by decide +kernel) (by decide +kernel)
theorem test_ops_run : [(0x21, 0, 9), (0x26, 8, 9), (0x40, 0, 3)].all (fun e => decide ((up id).fld HIF.READY = 1)
      && decide ((up id).pwr.state = .p0) && !(up id).lh.inReset && !cNocpl (cmd e.1 e.2.1 e.2.2) && decide (cTag (cmd e.1 e.2.1 e.2.2) ∉ (up id).liveTags)
      && decide ((up id).liveTags.length < 4096) && decide (cOpc (cmd e.1 e.2.1 e.2.2) = e.1)) = true := by decide +kernel
/-- Operation 9 of ring 0, a job in state `js` or a copy, in operation state `os`. -/
def opState9 (opc os : Nat) (js : JobState) : State :=
  let d := cmd opc 9 0
  let s := up (fun h => { h with started := [⟨0, d, true⟩], ops := [{ tag := 9, ring := 0, desc := d, state := os }] })
  { s with lh := { s.lh with cur := if js = .running then some 7 else none, jobs := [{ job7 with state := js, tag := 9, named := 9 }] } }
theorem test_op_states : ((opState9 0x20 1 .running).hif.ops.find? (fun x => decide (x.tag = 9) && decide (x.ring < 64))).map (·.state) = some 1
    ∧ (up id).hif.ops = [] ∧ (up id).hif.relayed = [] ∧ (up id).hif.relayQueue = []
    ∧ ((opState9 0x20 1 .running).lh.jobs.find? (fun x => decide (x.tag = 9))).map (fun j => (decide ((opState9 0x20 1 .running).lh.cur = some j.id), j.state)) = some (true, .running)
    ∧ (opState9 0x20 1 .running).lh.suspension = none ∧ (opState9 0x20 1 .running).lh.contexts = []
    ∧ ((opState9 0x20 0 .queued).lh.jobs.find? (fun x => decide (x.tag = 9))).map (fun j => (j.box, j.state)) = some ([], .queued)
    ∧ (opState9 0x10 2 .queued).hif.ops.map (fun o => (o.state, cOpc o.desc, decide (cTag o.desc = o.tag))) = [(2, 0x10, true)]
    ∧ (opState9 0x26 1 .queued).hif.ops.map (fun o => cOpc o.desc) = [0x26] := by decide +kernel
theorem test_named : (opState9 0x20 1 .running).job.map (fun j => (j.named, j.host)) = some (9, false) ∧ (up id).job = none
    ∧ (up id).pwr.entering = none ∧ (up id).fld BCN.STATE ≠ 2 ∧ ((up id).setFld BCN.STATE 2).fld BCN.STATE = 2
    ∧ (crc64 (((up id).setFld BCN.STATE 2).hostRead 0 512)).toNat ≠ cArg (cmd 0x20 8 (512 * 2 ^ 64 + 2 ^ 96)) 288 64 := by decide +kernel
theorem test_reshard : regionsOk [] = true ∧ collsOk [] 0 0 = true ∧ (up id).clearOfRegions [] = true
    ∧ (((List.range 1024).filter (fun n => decide ((up id).fld (HBM.SLOTS n) = 0))).take 0).length = 0 := by decide +kernel
theorem test_path : requestPort ((relays id).setFld BCN.MASTER 9).shape (relays id).coord (moduleCoord (relays id).shape 9) = some 0
    ∧ (relays id).portRefuses 0 = 0 := by decide +kernel
theorem test_awake_s2 : ({ up id with pwr := { (up id).pwr with state := .s2 } } : State).awake = true
    ∧ cOpc (cmd 0x40 0 0) ∉ [0x10, 0x11, 0x12, 0x20, 0x25, 0x26, 0x27] := by decide +kernel
/-- A best-effort campaign of 2,688 bytes over one module: one image for tiles 0 to 2,879, no region, one learning rate. -/
def campaign : List (BitVec 8) :=
  let f := fun (lsb v : Nat) => v * 2 ^ lsb
  let head := f 0 1 + f 10 1 + f 32 2688 + f 192 1 + f 384 512 + f 416 1 + f 576 576 + f 672 2624 + f 704 1 + f 2544 2 + f 2816 4096
    + f 1024 1 + f (1024 + 32) 2 + f (1024 + 48) 1 + f (1024 + 68) 1 + f (1024 + 80) 1 + f (1024 + 128) 0x3F800000 + f (1024 + 192) 0x40000000
  bytesOf head 512 ++ bytesOf (f 64 1 + f 116 2879) 64 ++ List.replicate 2112 0
def placeD : BitVec 512 := cmd 0x20 8 (2688 * 2 ^ 64 + (crc64 campaign).toNat * 2 ^ 96)
/-- This module is the master of a machine of one module, its count its own; the campaign lies at 0 of the host's memory; `jobs` are
placed. -/
def master (jobs : List Job) : State :=
  let s := (up (fun h => { h with mem := writeRun 0 [] 0 campaign })).setFld BCN.STATE 2
  { s with lh := { s.lh with jobs := jobs }, bcn := { s.bcn with holds := true } }
theorem test_place : (master []).hostRefuses 0 placeD = 0 ∧ (master []).placeCheck 0 placeD = 0 ∧ (master []).fld BCN.STATE = 2 := by decide +kernel
def campaignJob : Job := { id := 1, tag := 8, named := 8, ring := 0, cid := 7, camp := campaign, ctx := none, received := 0, state := .queued }
theorem test_place_box : ((master []).boxesFor campaignJob).find? (fun b => (master []).boxFree campaignJob b) = some [0] ∧ campaignJob.bestEffort = true
    ∧ ((master [{ job7 with box := [0] }]).boxesFor campaignJob).find? (fun b => (master [{ job7 with box := [0] }]).boxFree campaignJob b) = none := by decide +kernel

/-- The master of a machine of 16 modules, Lighthouse running, one job in the table. -/
def rules16 (j : Job) (f : Lighthouse → Lighthouse) : State :=
  let s := (relays id).setFld BCN.STATE 2
  { s with lh := f { s.lh with jobs := [j] } }
def job9 (st : JobState) : Job := { job7 with state := st, box := [0, 9], ready := [0], camp := bytesOf (2 * 2 ^ 2544 + 2 ^ 416 + 3 * 2 ^ 1056) 512 }
theorem test_rules : (rules16 (job9 .placing) id).awake = true ∧ (rules16 (job9 .placing) id).lh.inReset = false
    ∧ (rules16 (job9 .placing) id).fld BCN.STATE = 2 ∧ 9 ≠ (rules16 (job9 .placing) id).self.toNat
    ∧ ((rules16 (job9 .placing) id).lh.jobs.find? (fun x => decide (x.state = .placing) && x.box.contains 9)).map (·.ready) = some [0]
    ∧ (∀ x ∈ (job9 .placing).box, x = 9 ∨ x ∈ (job9 .placing).ready) ∧ (∃ x ∈ (job9 .placing).box, x ∉ (job9 .placing).ready)
    ∧ (job9 .placing).host = false ∧ (rules16 (job9 .placing) id).lh.contexts = [] := by decide +kernel
theorem test_dequeue : ((master [{ job7 with state := .queued }]).boxesFor { job7 with state := .queued }).find? (fun x =>
      (master [{ job7 with state := .queued }]).boxFree { job7 with state := .queued } x) = some [0]
    ∧ (({ job7 with state := .queued } : Job).box, ({ job7 with state := .queued } : Job).host, ({ job7 with state := .queued } : Job).priority) = ([], false, none)
    ∧ (master []).lh.jobs = [] ∧ (master []).fld BCN.STATE = 2 := by decide +kernel
def held9 (u : Suspension) : State := rules16 (job9 .running) (fun l => { l with cur := some 7, suspension := some u })
def stop9 : Suspension := { job := 7, stop := 1, why := 0, ring := 0, cid := 0, held := [0] }
theorem test_held_job : (held9 stop9).job.map (·.id) = some 7 ∧ (∀ x ∈ (job9 .running).box, x = 9 ∨ x ∈ stop9.held) ∧ (job9 .running).flipOff = 3
    ∧ (held9 stop9).fld (BCN.BUSY (job9 .running).voteTree) = 0 ∧ 0 ≤ (1000 - ((held9 stop9).count + 64 + 3) : BitVec 64).toInt := by decide +kernel
/-- Every tile's stream has halted. -/
def haltedTiles : Map Tile := (List.range 2880).map (fun t => (t, { halted := true }))
def withTiles (m : Map Tile) (s : State) : State := { s with tiles := m }
theorem withTiles_tile (m : Map Tile) (s : State) (t : Nat) : (withTiles m s).tile t = Map.get {} m t := rfl
def allHalted : State := withTiles haltedTiles (held9 stop9)
theorem get_same (x : Tile) (l : List Nat) (k : Nat) (h : k ∈ l) : Map.get {} (l.map (fun t => (t, x))) k = x := by
  induction l with
  | nil => cases h
  | cons a l ih =>
    rw [List.map_cons, Map.get]
    split
    · rfl
    · rcases List.mem_cons.mp h with (e | e)
      · simp_all
      · exact ih e
theorem test_all_held : allHalted.lh.step = none ∧ ∀ i, i < allHalted.tileCount → (allHalted.tile i).halted = true ∧ (allHalted.tile i).dma = []
    ∧ (allHalted.tile i).lists = [] ∧ (allHalted.tile i).running = none ∧ (allHalted.tile i).astWait = none ∧ (allHalted.tile i).phase = none
    ∧ (allHalted.tile i).vq = [] ∧ (allHalted.tile i).mq = [] := by
  refine ⟨by decide +kernel, fun i hi => ?_⟩
  have hc : allHalted.tileCount = 2880 := by decide +kernel
  have ht : allHalted.tile i = { halted := true } := by
    rw [allHalted, withTiles_tile, haltedTiles]; exact get_same _ _ _ (List.mem_range.mpr (hc ▸ hi))
  rw [ht]; exact ⟨rfl, rfl, rfl, rfl, rfl, rfl, rfl, rfl⟩
/-- Tile 5 has a DMA operation under way. -/
def dmaHeld : State := (held9 stop9).onTile 5 (fun x => { x with dma := [{ id := 1, que := 0, desc := 0, sched := none, late := false, syncm := 0, sem := none, txn := none }] })
theorem test_not_held : (dmaHeld.tile 5).dma ≠ [] ∧ 5 < dmaHeld.tileCount ∧ dmaHeld.lh.suspension.map (·.job) = some 7 := by decide +kernel
theorem test_start_image : (job9 .running).batches = 0 ∧ ((job9 .running).image 0 0).isSome = true
    ∧ Map.get 0 (held9 stop9).lh.uses 0 = (held9 stop9).use ∧ 0 < (held9 stop9).tileCount ∧ (held9 stop9).lh.sweepDue = false := by decide +kernel
/-- A checkpoint of one block of region 0, slot 0, is due or under way. -/
def ckptState (c : Option Checkpoint) : State :=
  let s := (held9 stop9).setFld (HBM.SLOTS 0) 2
  let s := (((s.setFld (HBM.LEN_BLK 0) 1).setFld (HBM.GEN 0 0) 5).setFld (HBM.FREE 0) 6).setFld HBM.LIT 5
  { s with lh := { s.lh with ckpt := c, ckptDue := true } }
def ckptRuns : Checkpoint := { buffer := 0, pins := [(0, 0)], step := 4, gen := 5, lepoch := 0, asked := [(0, cmd 0x26 8 9)], last := false }
theorem test_ckpt : (ckptState none).vregs = [0] ∧ (ckptState none).litSlot 0 = some 0 ∧ (ckptState none).fld (HBM.PIN 0 0) < 65535
    ∧ (ckptState none).moves = [] ∧ (ckptState none).bcn.pendingTick = none ∧ (ckptState none).bcn.trees = [] ∧ (ckptState none).lh.step = none
    ∧ (ckptState none).lh.lit.draw.length ≤ 8 ∧ (ckptState none).fld BCN.STATE ≠ 5 := by decide +kernel
theorem test_ckpt_done : (ckptState (some ckptRuns)).slotBlocks 0 0 = [0] ∧ haloPoison ((ckptState (some ckptRuns)).haloOf 0) = false
    ∧ (ckptState (some ckptRuns)).channelLost 0 = false ∧ ((ckptState (some ckptRuns)).stack ((ckptState (some ckptRuns)).channelOf 0).1).queue = []
    ∧ (ckptState (some ckptRuns)).hbmBad = [] ∧ (ckptState (some ckptRuns)).rel.forced = [] ∧ cNocpl (cmd 0x26 8 9) = false := by decide +kernel
theorem test_recovering : ((rules16 { job9 .recovering with lost := [9] } id).lh.jobs.find? (fun x => decide (x.state = .recovering) && x.lost.contains 9)).map (·.mirror) = some false
    ∧ (0 : Nat) ∉ [9] ∧ (rules16 (job9 .running) (fun l => { l with gatewaysDown := [1] })).lh.gatewaysDown = [1 - 0] := by decide +kernel

theorem test_due : (ready id).awake = true ∧ (ready id).moves = [] ∧ (ready id).bcn.pendingTick = none ∧ (ready id).bcn.trees = [] ∧ (ready id).lh.ckptDue = false
    ∧ (ready id).lh.step = none ∧ (ready id).isDue (47 * 64 + 63) = true ∧ (ready id).tileAt 47 63 = none ∧ (ready id).tileAt 47 62 = some 2879
    ∧ (ready id).isDue (47 * 64 + 62) = true ∧ (ready id).lh.cur = none ∧ (ready id).rel.forced = [] := by decide +kernel
/-- The deferred test of the last tile has reached its days. -/
def waits : State := { (ready id).setFld NVM.CAL 8640000000 with rel := { (ready id).rel with deferred := [(47 * 64 + 62, 1)] } }
theorem test_overdue : waits.overdue (47 * 64 + 62) = true ∧ waits.isDue (47 * 64 + 62) = true ∧ waits.lh.cur = none := by decide +kernel
/-- A job holds the module; the unit's test is deferred or runs, its row has no free spare. -/
def testState (f : Reliability → Reliability) : State := { held9 stop9 with rel := f (held9 stop9).rel }
def noSpares (r : Reliability) : Reliability := { r with units := [(15, { state := 3 }), (31, { state := 3 }), (47, { state := 3 }), (63, { state := 3 })] }
theorem test_spares : (List.range 64).all (fun q => !(testState noSpares).spareFree 0 q) = true ∧ (testState noSpares).isDue 0 = true
    ∧ (testState noSpares).tileAt 0 0 = some 0 ∧ (testState noSpares).lh.cur.isSome = true ∧ (testState noSpares).awake = true
    ∧ (testState noSpares).deferredFrom 0 = 0 ∧ (testState id).noTest = false ∧ (testState noSpares).moves = [] ∧ (testState noSpares).bcn.trees = []
    ∧ (testState noSpares).bcn.pendingTick = none ∧ (testState noSpares).lh.ckptDue = false
    ∧ (testState noSpares).lh.step.all (fun st => decide (st.result = none)) = true := by decide +kernel
theorem test_overdue_held : let s : State := { (testState noSpares).setFld NVM.CAL 8640000000 with rel := { (testState noSpares).rel with deferred := [(0, 1)] } }
    s.overdue 0 = true ∧ s.isDue 0 = true ∧ s.rel.forced = [] ∧ (List.range 64).all (fun q => !s.spareFree 0 q) = true := by decide +kernel
theorem test_no_test : ({ testState id with lh := { (testState id).lh with noTestUntil := 1 } } : State).noTest = true
    ∧ ({ testState id with lh := { (testState id).lh with noTestUntil := 1 } } : State).isDue 0 = true := by decide +kernel
/-- The last column of the last row in use moves onto the spare of its own group. -/
theorem test_move : (testState id).isDue (47 * 64 + 62) = true ∧ (testState id).tileAt 47 62 = some 2879 ∧ (testState id).colAt 47 62 = some 59
    ∧ (List.range 64).filter ((testState id).spareFree 47) = [15, 31, 47, 63] ∧ (testState id).retired = [] ∧ (testState id).fld BCN.STATE ≠ 5
    ∧ (testState id).betweenPhases = true ∧ (testState id).noTest = false := by decide +kernel
theorem test_results : ({ ready id with rel := { (ready id).rel with testing := [(5, some true)] } } : State).underTest 5 = some true
    ∧ ({ ready id with rel := { (ready id).rel with testing := [(5, some false)] } } : State).underTest 5 = some false ∧ (ready id).lh.cur = none
    ∧ (ready id).rel.excluded = false ∧ (ready id).rel.mirrorTests = [] ∧ 2 ≤ (ready id).policy NVM.FAULT_N ∧ (ready id).underTest 0x3000_0007 = none
    ∧ isUnit 0x3000_0007 = true ∧ ((ready id).unit 0x3000_0007).state = 0 ∧ ((ready id).unit (pairUnit 3)).state = 0
    ∧ ((ready id).unit (pairUnit 3)).faults = [] := by decide +kernel
/-- The first step of a job on one module is open and a sentinel (K is 1); digests have come. -/
def voting (ds : List (Nat × Option (BitVec 256))) (box : List Nat) : State :=
  let s := (relays id).setFld BCN.STATE 2
  { s with lh := { s.lh with cur := some 7, jobs := [{ job7 with box := box, voteK := 1 }], step := some (step7 false none) }
           rel := { s.rel with digests := ds } }
theorem test_sentinel : (voting [] [0]).sentinel = true ∧ (voting [] [0]).replicas = [0] ∧ (voting [] [0]).self = 0 ∧ (voting [] [0]).awake = true
    ∧ (voting [] [0]).rel.verdict = none ∧ (voting [] [0]).rel.ownDigest = false ∧ (step7 false none).voted = false
    ∧ ahead ((step7 false none).vote - BitVec.ofNat 64 ((voting [] [0]).policy NVM.LEAD_BT)) (voting [] [0]).count ≤ 0 := by decide +kernel
theorem test_final : (voting [] [0]).sentinelFinal (step7 false none) = true
    ∧ (List.range 2880).all (fun t => (List.range 4).all (fun k => decide (((voting [] [0]).tile t).fld (TILE.SENT_VALID k) = 0))) = true := by decide +kernel
/-- Tile 5 names the last block of HBM in its last range. -/
def oneRange : State := (voting [] [0]).onTile 5 (fun x => ((x.setFld (TILE.SENT_VALID 3) 1).setFld (TILE.SENT_BLK 3) 188743679).setFld (TILE.SENT_NBLK 3) 1)
theorem test_range : (oneRange.tile 5).fld (TILE.SENT_VALID 3) = 1 ∧ (oneRange.tile 5).fld (TILE.SENT_NBLK 3) = 1
    ∧ (oneRange.tile 5).fld (TILE.SENT_BLK 3) + 1 ≤ 720 * 2 ^ 18 ∧ oneRange.vregs = []
    ∧ (List.range 2880).all (fun t => (List.range 4).all (fun k => decide ((t, k) = (5, 3)) || decide ((oneRange.tile t).fld (TILE.SENT_VALID k) = 0))) = true := by decide +kernel
def dRing (ds : List (Nat × Option (BitVec 256))) : State :=
  { voting ds [0, 1, 2] with regs := Map.set 0 (voting [] []).regs BF.COORD.off (BitVec.ofNat 64 (2 * 2 ^ 45 + 2 ^ 52)) }
/-- The leader is in the majority, in the minority, absent, without a range, and without a majority. -/
theorem test_replicas : (dRing []).replicas = [0, 1, 2] ∧ (dRing []).self = 0
    ∧ verdicts [0, 1, 2] [(0, some 1), (1, some 1), (2, some 2)] = [(0, 0), (1, 0), (2, 1)]
    ∧ verdicts [0, 1, 2] [(0, some 1), (1, some 2), (2, some 2)] = [(0, 1), (1, 0), (2, 0)]
    ∧ verdicts [0, 1, 2] [(1, some 2), (2, some 2)] = [(0, 2), (1, 0), (2, 0)] ∧ verdicts [0, 1, 2] [(0, none), (1, some 2), (2, some 2)] = [(0, 0), (1, 0), (2, 0)]
    ∧ verdicts [0, 1, 2] [(0, some 1), (1, some 2), (2, some 3)] = [(0, 3), (1, 3), (2, 3)] := by decide +kernel
def mirror (own : Option (BitVec 64 × List (Nat × BitVec 64))) : State :=
  let s := voting [] [0, 1]
  { s with lh := { s.lh with jobs := [{ job7 with box := [0, 1], camp := [0, 0x40, 0, 0], state := .recovering }], rebuild := some 1, step := none },
           rel := { s.rel with mirrorOwn := [(3, own)] } }
theorem test_mirror : Map.get none (mirror (some (1, [(5, 1)]))).rel.mirrorOwn 3 = some (1, [(5, 1)]) ∧ Map.get none (mirror none).rel.mirrorOwn 3 = none
    ∧ (mirror none).job.map (fun j => bit (ofBytes (j.camp.take 4)) 14) = some true ∧ (mirror none).awake = true := by decide +kernel
theorem test_rebuild : let s := (mirror none).setFld BCN.STATE 1
    s.awake = true ∧ s.lh.rebuild = some 1 ∧ s.lh.step = none ∧ s.self = 0 ∧ s.fld BCN.STATE ≠ 2
    ∧ (s.lh.jobs.find? (fun j => j.mirror && decide (j.state = .recovering) && j.lost.isEmpty && j.box.contains 1)).isSome = true := by decide +kernel
theorem test_in_reset : (ready id).domainInReset 0 = false ∧ ((ready id).setFld (HBM.CH_READY 15 15) 0).domainInReset 0x2000_00FF = true
    ∧ ((ready id).unit 0x2000_00FF).state = 0 ∧ isUnit 0x2000_00FF = true ∧ isUnit 0 = true := by decide +kernel

def policyWord (faultN windowD : Nat) : Nat := faultN + windowD * 2 ^ 2 + 1 * 2 ^ 11 + 1 * 2 ^ 16 + 1 * 2 ^ 24 + 16 * 2 ^ 37
theorem test_policy : (ready id).committed (nvmBase + 0x400) = (ready id).staged (nvmBase + 0x400)
    ∧ loosens ((ready id).committed (nvmBase + 0x400)) (BitVec.ofNat 64 (policyWord 1 365)) = false
    ∧ loosens ((ready id).committed (nvmBase + 0x400)) (BitVec.ofNat 64 (policyWord 1 1)) = true ∧ bits (policyWord 1 365) 2 9 = 365 := by decide +kernel
def inWindow : State := { (ready id).setFld NVM.CAL 301 with nl := { (ready id).nl with presUntil := some 361, sealOpen := true } }
theorem test_window : inWindow.present = true ∧ inWindow.utc = 301 ∧ (ready id).present = false ∧ (0 : BitVec 64).toNat + 300 < inWindow.utc
    ∧ inWindow.utc ≤ (1 : BitVec 64).toNat + 300 ∧ (ready id).nl.sealOpen = false ∧ (ready id).pwr.state = .p0 ∧ (ready id).fld HIF.READY = 0 := by decide +kernel
theorem test_floor_set : (ready id).nl.sec.floor.toNat < (5 : BitVec 32).toNat ∧ (5 : BitVec 32).toNat ≤ ((ready id).setFld SEC.SVN 5).fld SEC.SVN
    ∧ (ready id).fld SEC.SVN < (5 : BitVec 32).toNat := by decide +kernel
theorem test_return : isUnit (0x3000_0007 : BitVec 32).toNat = true ∧ isUnit (0x3000_0008 : BitVec 32).toNat = false
    ∧ (({ ready id with rel := { (ready id).rel with units := [(0x3000_0007, { state := 3 })] } } : State).unit 0x3000_0007).state = 3 := by decide +kernel
theorem test_pages : (∀ p ∈ [12, 13, 14, 15], (ready id).pageBad p = false)
    ∧ ({ ready id with nl := { (ready id).nl with badPages := [(14, true)] } } : State).pageBad 14 = true := by decide +kernel
theorem test_seal : (ready id).nl.sealOpen = false ∧ (ready id).fld (NVM.LIFE 5) + 1 < 2 ^ 64 ∧ (ready id).fld (NVM.LIFE 6) + 1 < 2 ^ 64
    ∧ (ready id).pwr.state = .p0 ∧ (ready id).pwr.perst = false ∧ ({ ready id with pwr := { (ready id).pwr with perst := true } } : State).pwr.state = .p0
    ∧ ({ ready id with pwr := { (ready id).pwr with state := .off } } : State).pwr.state = .off := by decide +kernel

def powered (f : Power → Power) (next : Nat) : State := let s := (up id).setFld PWR.NEXT next; { s with pwr := f s.pwr }
theorem test_entry : (powered id 2).mayEnter = true ∧ (powered id 3).mayEnter = true ∧ (powered id 0).mayEnter = false ∧ (powered id 2).awake = true
    ∧ (powered id 2).fld PWR.NEXT = 2 ∧ (powered (fun p => { p with state := .s3 }) 0).awake = false ∧ (powered id 2).moves = []
    ∧ (powered id 2).bcn.pendingTick = none ∧ (powered id 2).bcn.trees = [] ∧ (powered id 2).lh.step = none ∧ (powered id 2).lh.cur = none
    ∧ (powered id 2).hif.ops = [] ∧ (powered id 2).fld BCN.STATE ≠ 5 ∧ (powered id 3).lh.jobs = [] ∧ (powered id 2).pwr.state = .p0 := by decide +kernel
/-- A PWR_REQ to S2, 63 its ring. -/
def asks2 : State :=
  let d : BitVec 512 := 0x40 + 0x1234 * 2 ^ 16
  let s := powered (fun p => { p with entering := some (2, some (63, d)) }) 2
  { s with hif := { s.hif with started := [⟨63, d, true⟩] } }
theorem test_asked : cNocpl (0x40 + 0x1234 * 2 ^ 16) = false ∧ asks2.mayEnter = true ∧ asks2.pwr.entering.isSome = true := by decide +kernel
theorem test_wake : ((powered id 0).setFld PWR.WAKE_EN 15).fld PWR.WAKE_EN = 15 ∧ (powered (fun p => { p with state := .s2, wake := true }) 2).pwr.shutdown = false
    ∧ (powered id 2).fld BCN.COUNT = (powered id 2).fld PWR.WAKE_AT ∧ ((powered id 2).setFld PWR.WAKE_UTC 1).fld PWR.WAKE_UTC ≠ 0
    ∧ ((powered id 2).setFld PWR.WAKE_UTC 1).utc ≠ 1 ∧ (((powered id 2).setFld PWR.WAKE_UTC 1).setFld NVM.CAL 1).utc = 1
    ∧ (powered id 2).pwr.refStable = true ∧ (powered id 2).pwr.rst = false ∧ (powered id 2).pwr.wakeAsked = [] ∧ ((powered id 2).unit 62).state < 2 := by decide +kernel
/-- In S2 with the job's context saved. -/
def slept : State :=
  let s := { (inJob none none) with pwr := { (inJob none none).pwr with state := .s2, wake := true } }
  { s with lh := { s.lh with contexts := [{ job := 7, tiles := [], step := none, stopped := 0, stop := 0 }] } }
theorem test_slept : slept.job.map (·.id) = some 7 ∧ slept.pwr.wakeAsked = [] ∧ slept.tileCount = 2880 := by decide +kernel
theorem test_limits : (powered id 0).pwr.stopped = false ∧ (powered id 0).pwr.band = 0 ∧ (powered id 0).fld PWR.CAP_W = 2400 ∧ (powered id 0).pwr.cap = 16
    ∧ (powered id 0).fld PWR.STOPS = 0 ∧ (powered id 0).fld PWR.THROTTLES = 0 ∧ (powered id 0).fld PWR.CAP_ENTRIES = 0 ∧ (powered id 0).fld PWR.BROWNOUTS = 0
    ∧ (powered id 0).fld (NVM.LIFE 7) + 1 < 2 ^ 64 ∧ ((powered id 0).setFld (HBM.TLEVEL 15) 3).fld (HBM.TLEVEL 15) = 3
    ∧ (powered id 0).fld (HBM.TLEVEL 15) ≠ 3 := by decide +kernel
theorem test_engines_idle : (powered (fun p => { p with stopped := true, therm := 0 }) 0).tiles.all (fun e => e.2.vq.isEmpty && e.2.mq.isEmpty && e.2.xq.isEmpty) = true
    ∧ ({} : Tile).vq = [] ∧ ({} : Tile).mq = [] ∧ ({} : Tile).xq = [] := by decide +kernel
theorem test_stopped : (powered (fun p => { p with stopped := true }) 0).awake = true ∧ (powered (fun p => { p with cap := 1, oneFor := 99 }) 0).pwr.oneFor = 99
    ∧ (powered (fun p => { p with state := .s3 }) 0).pwr.state = .s3 ∧ ((powered (fun p => { p with state := .s3 }) 0).setFld PWR.LOWPOWER 1).fld PWR.LOWPOWER = 1
    ∧ (powered (fun p => { p with state := .s3, cold := true, wake := true }) 0).pwr.refStable = true
    ∧ (powered (fun p => { p with state := .off }) 0).pwr.state = .off := by decide +kernel
theorem test_plls : isPll 3 15 = true ∧ isPll 3 16 = false ∧ isPll 4 7 = true ∧ isPll 4 8 = false ∧ isPll 2 0 = true ∧ isPll 5 0 = false
    ∧ (powered (fun p => { p with unlocked := [(1, 0)], locked := some (1, 8) }) 0).pwr.locked = some (1, 8)
    ∧ ((powered (fun p => { p with unlocked := [(1, 0)], locked := some (1, 8) }) 0).setFld BCN.STATE 3).fld BCN.STATE = 3
    ∧ ((powered id 0).setFld BCN.STATE 2).fld BCN.STATE = 2 ∧ ((powered id 0).fld (HBM.FAILED 15)).testBit 15 = false := by decide +kernel
theorem test_perst : let s := ((powered (fun p => { p with perst := true }) 0).setFld HIF.READY 0).setFld HIF.BOOT_WAIT 0
    s.pwr.perst = true ∧ s.pwr.state = .p0 ∧ s.fld HIF.READY = 0 ∧ s.fld HIF.BOOT_WAIT = 0 := by decide +kernel

/-- On a board, locked to the pins, in slot 3. -/
def onBoard (token driving : Nat) : State := (((((((up id).setFld BCN.BOARD 1).setFld BCN.SLOT 3).setFld BCN.STATE 1).setFld BCN.SRC 8).setFld BCN.TOKEN token).setFld
  BCN.DRIVING driving)
theorem test_board : (onBoard 0 0).awake = true ∧ (onBoard 0 0).mayDrive = true ∧ (onBoard 1 0).fld BCN.TOKEN = 1 ∧ (onBoard 0 1).fld BCN.DRIVING = 1
    ∧ (onBoard 0 1).fld BCN.SLOT = 3 ∧ (onBoard 0 1).fld BCN.BOARD = 1 ∧ (up id).mayDrive = false ∧ (onBoard 0 0).fld BCN.SRC = 8 := by decide +kernel
/-- A word of slot 3 with count bits 0, a word of slot 2, a broken word. -/
def busWord (drv : Nat) : BitVec 96 := BitVec.ofNat 96 (drv * 2 ^ 16 + crc8 0 [0, 0, BitVec.ofNat 8 drv] * 2 ^ 24)
theorem test_words : busCrcOk (busWord 3) false = true ∧ busCrcOk (busWord 2) false = true ∧ busCrcOk (busWord 2 ^^^ 1) false = false
    ∧ bits (busWord 3).toNat 16 3 = 3 ∧ bits (busWord 2).toNat 16 3 = 2 ∧ (busWord 3).toNat.testBit 19 = false ∧ bits (busWord 3).toNat 0 16 = 0
    ∧ (onBoard 0 0).fld BCN.COUNT % 2 ^ 16 = 0 := by decide +kernel
theorem test_scan : (up id).pwr.state = .p0 ∧ (up id).fld HIF.READY = 1 ∧ State.reset.fld HIF.READY = 0 ∧ State.reset.pwr.state = .p0
    ∧ ((up id).setFld PWR.WAKE_EN 4).fld PWR.WAKE_EN = 4 := by decide +kernel

/-- An offset of 0x9FF01, one length of 128 bytes; test_vld_tagged and test_vst_tagged meet the whole-slot clause. -/
def offSlot : State := ready (fun x => { x with s := [(1, 0x1000_0059_FE01)] })
theorem test_tag_align : RunsAlone 5 2 3 0x0_F855_0000_0000 { formAccess 0x0_F855_0000_0000 3 with room := true } offSlot
    ∧ RunsAlone 5 2 4 0x0_F854_0000_00FF { formAccess 0x0_F854_0000_00FF 2 with room := true } offSlot
    ∧ fTAGM 0x0_F855_0000_0000 = 1 ∧ lenBytes (fLEN 0x0_F855_0000_0000) = 256
    ∧ fTAGM 0x0_F854_0000_00FF = 1 ∧ lenBytes (fLEN 0x0_F854_0000_00FF) = 128
    ∧ (match offSlot.region 0x1000_0059_FE01 256 with | .spad 5 0x9FE01 => true | _ => false) = true
    ∧ (match offSlot.region (memAddr 0x1000_0059_FE01 0x0_F854_0000_00FF) 128 with | .spad 5 0x9FF00 => true | _ => false) = true := by decide +kernel

/-- Both ends of the range. -/
theorem test_stamp_range : ahead (0x8000_0000 : BitVec 64) 0 = 2 ^ 31 ∧ ahead (0 - 0x7FFF_FFFF : BitVec 64) 0 = -(2 ^ 31 - 1)
    ∧ extend 0x8000_0000 0 = 0x8000_0000 ∧ extend 0x8000_0001 0 = 0 - 0x7FFF_FFFF := by decide +kernel

end Sys2Proof.Tests
end

section
/-! LEMMAS. A control packet may name a sync tree that the module does not have: the module then stops. -/
namespace Sys2Proof.Machine
open Host

/-- After reset, with port 0 ACTIVE (STATE 8). -/
def portZeroUp : State := State.reset.setFld (BF.STATE 0) 8

/-- A packet of type 10 on port 0 with a valid header: the contribution of a child to sync tree 16, where the module has trees 0 to 15. -/
def strayContribution : Instr :=
  .packetArrival 0 (Hdr.encode { type := 10, vc := 0, dst := 0, src := 0 }) [4, 16]

theorem strayContribution_wf : strayContribution.wf = true := rfl

theorem portZeroUp_retired : portZeroUp.retired = [] := rfl

theorem eq_fault_of_matches {r : Result} (h : (r matches .fault .noSuchUnit) = true) : r = .fault .noSuchUnit := by
  cases r with
  | fault f => cases f; rfl
  | next | refused => cases h

theorem exec_strayContribution : exec strayContribution portZeroUp = .fault .noSuchUnit :=
  eq_fault_of_matches (by decide +kernel)

end Sys2Proof.Machine
end

section
/-! PROOFS. Totality of the commands. -/
namespace Sys2Proof.Machine

/-- Settles O4: every memory of the reset state is empty. -/
theorem resetMemoriesCanonical : Obligations.ResetMemoriesCanonical := by
  unfold Obligations.ResetMemoriesCanonical
  decide +kernel

/-- Refutes O6: PACKET_ARRIVAL of a control packet for sync tree 16 names a port of the module, and TREE_CONTRIBUTION stops
on the tree's number, which comes from the packet's first payload byte and is never checked before. -/
theorem not_wellFormedCommandCompletes : ¬ Obligations.WellFormedCommandCompletes := by
  unfold Obligations.WellFormedCommandCompletes
  intro h
  obtain ⟨s', e⟩ := h strayContribution portZeroUp strayContribution_wf portZeroUp_retired
  rw [exec_strayContribution] at e
  cases e

/-- Refutes O7: the same packet stops a well-formed command of a module that has retired no row. -/
theorem not_commandStopsOnlyWithoutUnit : ¬ Obligations.CommandStopsOnlyWithoutUnit := by
  unfold Obligations.CommandStopsOnlyWithoutUnit
  rintro ⟨-, stops⟩
  obtain ⟨-, illFormed | retired⟩ := stops _ _ _ exec_strayContribution
  · rw [strayContribution_wf] at illFormed
    cases illFormed
  · exact retired portZeroUp_retired

end Sys2Proof.Machine
end

section
/-! LEMMAS. States whose memories are in canonical form: the predicate as structures, what an update of a
record leaves of
it, and the rules for the model's control flow (O5). -/

namespace Sys2Proof.Machine

/-- A tile's stores are in canonical form. -/
structure TCanon (x : Tile) : Prop where
  spad : Memory.wf x.spad = true
  acc : Map.wf 0 x.acc = true
  tags : Map.wf false x.tags = true

/-- A saved context's memories are in canonical form. -/
structure CCanon (c : Context) : Prop where
  hbm : Memory.wf c.hbm = true
  tiles : ∀ e ∈ c.tiles, TCanon e.2

/-- The state's memories are in canonical form. -/
structure Canon (s : State) : Prop where
  hbm : Memory.wf s.hbm = true
  mem : Memory.wf s.hif.mem = true
  sram : Memory.wf s.lh.sram = true
  tiles : ∀ e ∈ s.tiles, TCanon e.2
  contexts : ∀ c ∈ s.lh.contexts, CCanon c
  written : ∀ e ∈ s.lh.written, CCanon e.2

theorem storesWf_iff {x : Tile} : x.storesWf = true ↔ TCanon x := by
  simp only [Tile.storesWf, Bool.and_eq_true]
  exact ⟨fun h => ⟨h.1.1, h.1.2, h.2⟩, fun h => ⟨⟨h.spad, h.acc⟩, h.tags⟩⟩

theorem contextWf_iff {c : Context} : c.memoriesWf = true ↔ CCanon c := by
  simp only [Context.memoriesWf, Bool.and_eq_true, List.all_eq_true, storesWf_iff]
  exact ⟨fun h => ⟨h.1, h.2⟩, fun h => ⟨h.hbm, h.tiles⟩⟩

theorem memoriesWf_iff {s : State} : s.memoriesWf = true ↔ Canon s := by
  simp only [State.memoriesWf, Bool.and_eq_true, List.all_eq_true, storesWf_iff, contextWf_iff]
  exact ⟨fun ⟨⟨⟨⟨⟨h1, h2⟩, h3⟩, h4⟩, h5⟩, h6⟩ => ⟨h1, h2, h3, h4, h5, h6⟩,
    fun h => ⟨⟨⟨⟨⟨h.hbm, h.mem⟩, h.sram⟩, h.tiles⟩, h.contexts⟩, h.written⟩⟩

/-- An update of the state that leaves HBM, the tiles, the host interface and Lighthouse. -/
theorem Canon.upd {s : State} (h : Canon s) {pending cycle free nextKey regs halo hbmBad hbmSoft hbmStacks moved
      moves routers retired spares bcn ports causes jobFault rel nl pwr pins colls collSigs collOut collHeld
      collAnchors} :
    Canon { s with
      pending := pending, cycle := cycle, free := free, nextKey := nextKey, regs := regs, halo := halo,
      hbmBad := hbmBad, hbmSoft := hbmSoft, hbmStacks := hbmStacks, moved := moved, moves := moves,
      routers := routers
      retired := retired, spares := spares, bcn := bcn, ports := ports, causes := causes, jobFault := jobFault, rel
      := rel, nl := nl, pwr := pwr, pins := pins, colls := colls, collSigs := collSigs, collOut := collOut, collHeld
      := collHeld, collAnchors := collAnchors } :=
  ⟨h.hbm, h.mem, h.sram, h.tiles, h.contexts, h.written⟩

/-- Such an update, and one of the host interface that leaves the host's memory. -/
theorem Canon.updHif {s : State} (h : Canon s) {pending cycle free nextKey regs halo hbmBad hbmSoft hbmStacks moved
      moves routers retired spares bcn ports causes jobFault rel nl pwr pins colls collSigs collOut collHeld
      collAnchors rings started backlog latency visit ops relayQueue relayed relayKeep relaySent relayIn gateways} :
    Canon { s with
      pending := pending, cycle := cycle, free := free, nextKey := nextKey, regs := regs, halo := halo,
      hbmBad := hbmBad, hbmSoft := hbmSoft, hbmStacks := hbmStacks, moved := moved, moves := moves,
      routers := routers
      retired := retired, spares := spares, bcn := bcn, ports := ports, causes := causes, jobFault := jobFault, rel
      := rel, nl := nl, pwr := pwr, pins := pins, colls := colls, collSigs := collSigs, collOut := collOut, collHeld
      := collHeld, collAnchors := collAnchors
      hif := { s.hif with
        rings := rings, started := started, backlog := backlog, latency := latency, visit := visit, ops := ops,
        relayQueue := relayQueue, relayed := relayed, relayKeep := relayKeep, relaySent := relaySent,
        relayIn := relayIn, gateways := gateways } } :=
  ⟨h.hbm, h.mem, h.sram, h.tiles, h.contexts, h.written⟩

/-- Such an update, and one of Lighthouse that leaves its SRAM and its contexts. -/
theorem Canon.updLh {s : State} (h : Canon s) {pending cycle free nextKey regs halo hbmBad hbmSoft hbmStacks moved
      moves routers retired spares bcn ports causes jobFault rel nl pwr pins colls collSigs collOut collHeld
      collAnchors firmware resetAt inReset copy0 copy1 copy2 sel step nextOpen leases records openings sweepDue jobs
      lastId cur unfit startAtHalt reload uses suspension ckpt ckptWait nextBuffer ckptAsked ckptDue ckptDone
      batches staged evalDue evalAt reshard noTestUntil rebuild asleep gatewaysDown} :
    Canon { s with
      pending := pending, cycle := cycle, free := free, nextKey := nextKey, regs := regs, halo := halo,
      hbmBad := hbmBad, hbmSoft := hbmSoft, hbmStacks := hbmStacks, moved := moved, moves := moves,
      routers := routers
      retired := retired, spares := spares, bcn := bcn, ports := ports, causes := causes, jobFault := jobFault, rel
      := rel, nl := nl, pwr := pwr, pins := pins, colls := colls, collSigs := collSigs, collOut := collOut, collHeld
      := collHeld, collAnchors := collAnchors
      lh := { s.lh with
        firmware := firmware, resetAt := resetAt, inReset := inReset, copy0 := copy0, copy1 := copy1,
        copy2 := copy2, sel := sel, step := step, nextOpen := nextOpen, leases := leases, records := records,
        openings := openings, sweepDue := sweepDue, jobs := jobs, lastId := lastId, cur := cur, unfit := unfit,
        startAtHalt := startAtHalt, reload := reload, uses := uses, suspension := suspension, ckpt := ckpt,
        ckptWait := ckptWait, nextBuffer := nextBuffer, ckptAsked := ckptAsked, ckptDue := ckptDue,
        ckptDone := ckptDone, batches := batches, staged := staged, evalDue := evalDue, evalAt := evalAt,
        reshard := reshard, noTestUntil := noTestUntil, rebuild := rebuild, asleep := asleep,
        gatewaysDown := gatewaysDown } } :=
  ⟨h.hbm, h.mem, h.sram, h.tiles, h.contexts, h.written⟩

/-- An update of Lighthouse by a function that leaves its memories. -/
theorem Canon.setLh {s : State} {l : Lighthouse} (h : Canon s) (hr : l.sram = s.lh.sram)
    (hc : l.contexts = s.lh.contexts) (hw : l.written = s.lh.written) : Canon { s with lh := l } :=
  ⟨h.hbm, h.mem, hr ▸ h.sram, h.tiles, hc ▸ h.contexts, hw ▸ h.written⟩

theorem TCanon.upd {x : Tile} (h : TCanon x)
    {s p v pc ibuf stall busy vbusy vecs mats vq stages mq xq dma dmaNext dmaStatus dmaFails sigs sigsOut
      grantsOut txns dark eccSingle eccDouble tagParity parked wins credits writes heldWrites reads mail sems
      semOps regs resetAt rtrResetAt rtrReady lists running astWait lastBackward terms phase recv0 early recv1
      picks mcasts closing xsend creditWait startHeld halted ended haltReported} :
    TCanon { x with
      s := s, p := p, v := v, pc := pc, ibuf := ibuf, stall := stall, busy := busy, vbusy := vbusy, vecs := vecs,
      mats := mats, vq := vq, stages := stages, mq := mq, xq := xq, dma := dma, dmaNext := dmaNext,
      dmaStatus := dmaStatus, dmaFails := dmaFails, sigs := sigs, sigsOut := sigsOut, grantsOut := grantsOut,
      txns := txns, dark := dark, eccSingle := eccSingle, eccDouble := eccDouble, tagParity := tagParity,
      parked := parked, wins := wins, credits := credits, writes := writes, heldWrites := heldWrites,
      reads := reads, mail := mail, sems := sems, semOps := semOps, regs := regs, resetAt := resetAt,
      rtrResetAt := rtrResetAt, rtrReady := rtrReady, lists := lists, running := running, astWait := astWait,
      lastBackward := lastBackward, terms := terms, phase := phase, recv0 := recv0, early := early, recv1 := recv1,
      picks := picks, mcasts := mcasts, closing := closing, xsend := xsend, creditWait := creditWait,
      startHeld := startHeld, halted := halted, ended := ended, haltReported := haltReported } :=
  ⟨h.spad, h.acc, h.tags⟩

theorem Map.get_mem {α : Type} {P : α → Prop} {d : α} (hd : P d) (m : Map α) (k : Nat) (h : ∀ e ∈ m, P e.2) : P
    (Map.get d m k) := by
  induction m with
  | nil => exact hd
  | cons e m ih =>
    simp only [Map.get]
    split
    · exact h _ List.mem_cons_self
    · exact ih fun e he => h e (List.mem_cons_of_mem _ he)

theorem wf_listRun {α : Type} [DecidableEq α] (d : α) (a : Nat) (vs : List α) : Map.wf d (listRun d a vs) = true := by
  simp only [Map.wf, Bool.and_eq_true, List.all_eq_true, decide_eq_true_eq]
  exact ⟨Map.risesFrom_mono (Nat.zero_le a) (risesFrom_listRun d a vs), fun e he => (mem_listRun he).2.2⟩

theorem wf_foldl_set {α : Type} [DecidableEq α] {d : α} (xs : List Nat) (v : α) (m : Map α) (w : Map.wf d m = true) :
    Map.wf d (xs.foldl (fun m x => Map.set d m x v) m) = true := by
  induction xs generalizing m with
  | nil => exact w
  | cons x xs ih => exact ih _ (Map.wf_set d v m x w)

theorem TCanon.lose {x : Tile} {bs : List Byte} {ws : List (BitVec 32)} {s p v} (h : TCanon x) :
    TCanon { x with spad := listRun 0 0 bs, s := s, p := p, v := v, acc := listRun 0 0 ws } :=
  ⟨wf_listRun _ _ _, wf_listRun _ _ _, h.tags⟩

theorem wf_filterMap {α : Type} [DecidableEq α] {d : α} (f : Nat × α → Option (Nat × α))
    (hf : ∀ e e', e.2 ≠ d → f e = some e' → e'.1 = e.1 ∧ e'.2 ≠ d) {m : Map α} (w : Map.wf d m = true) :
    Map.wf d (m.filterMap f) = true := by
  simp only [Map.wf, Bool.and_eq_true, List.all_eq_true, decide_eq_true_eq] at w ⊢
  refine ⟨?_, fun e he => ?_⟩
  · have rises : ∀ (m : Map α) lo, (∀ e ∈ m, e.2 ≠ d) → Map.risesFrom lo m = true →
        Map.risesFrom lo (m.filterMap f) = true := by
      intro m
      induction m with
      | nil => exact fun _ _ _ => rfl
      | cons e m ih =>
        intro lo hd h
        obtain ⟨j, v⟩ := e
        obtain ⟨hv, hm⟩ := List.forall_mem_cons.1 hd
        simp only [Map.risesFrom, Bool.and_eq_true, decide_eq_true_eq] at h
        rw [List.filterMap_cons]
        split
        · exact Map.risesFrom_mono (by omega) (ih _ hm h.2)
        next e' he =>
          obtain ⟨k, u⟩ := e'
          obtain rfl : k = j := (hf _ _ hv he).1
          simp only [Map.risesFrom, Bool.and_eq_true, decide_eq_true_eq]
          exact ⟨h.1, ih _ hm h.2⟩
    exact rises m 0 w.2 w.1
  · obtain ⟨e', he', he⟩ := List.mem_filterMap.1 he
    exact (hf _ _ (w.2 e' he') he).2

theorem wf_filter {α : Type} [DecidableEq α] {d : α} (p : Nat × α → Bool) {m : Map α} (w : Map.wf d m = true) :
    Map.wf d (m.filter p) = true := by
  rw [← List.filterMap_eq_filter]
  refine wf_filterMap _ (fun e e' hd he => ?_) w
  obtain ⟨rfl, -⟩ := Option.guard_eq_some_iff.1 he
  exact ⟨rfl, hd⟩

theorem TCanon.default : TCanon {} := ⟨rfl, rfl, rfl⟩

theorem TCanon.tile {s : State} {t : Nat} (h : Canon s) : TCanon (s.tile t) := Map.get_mem .default _ _ h.tiles

theorem Canon.writeHbm {s : State} {a : Nat} {bs : List Byte} {bad : Map Bool} (h : Canon s) :
    Canon { s with hbm := writeRun 0 s.hbm a bs, hbmBad := bad } :=
  ⟨wf_writeRun _ _ _ _ h.hbm, h.mem, h.sram, h.tiles, h.contexts, h.written⟩

theorem Canon.setTile {s : State} {t : Nat} {x : Tile} (h : Canon s) (hx : TCanon x) : Canon (s.setTile t x) := by
  refine ⟨h.hbm, h.mem, h.sram, fun e he => ?_, h.contexts, h.written⟩
  simp only [State.setTile, Map.set] at he
  split at he
  · exact h.tiles e (Map.mem_erase he)
  · rcases Map.mem_insert he with rfl | he
    · exact hx
    · exact h.tiles e he

theorem Canon.onTile {s : State} {t : Nat} {f : Tile → Tile} (h : Canon s) (hf : ∀ x, TCanon x → TCanon (f x)) :
    Canon (s.onTile t f) :=
  .setTile h (hf _ (.tile h))

theorem Canon.ite {c : Prop} [Decidable c] {a b : State} (ha : Canon a) (hb : Canon b) : Canon
    (if c then a else b) := by
  split <;> assumption

theorem Canon.foldl {α : Type} {f : State → α → State} {xs : List α} {s : State} (h : Canon s)
    (hf : ∀ s x, Canon s → Canon (f s x)) :
    Canon (xs.foldl f s) := by
  induction xs generalizing s with
  | nil => exact h
  | cons x xs ih => exact ih (hf _ _ h)

theorem Canon.iteOf {β : Type} {p : β → State} {c : Prop} [Decidable c] {a b : β} (ha : Canon (p a))
    (hb : Canon (p b)) :
    Canon (p (if c then a else b)) := by
  split <;> assumption

theorem TCanon.ite {c : Prop} [Decidable c] {a b : Tile} (ha : TCanon a) (hb : TCanon b) : TCanon
    (if c then a else b) := by
  split <;> assumption

theorem TCanon.iteOf {β : Type} {p : β → Tile} {c : Prop} [Decidable c] {a b : β} (ha : TCanon (p a))
    (hb : TCanon (p b)) :
    TCanon (p (if c then a else b)) := by
  split <;> assumption

theorem TCanon.foldl {α : Type} {f : Tile → α → Tile} {xs : List α} {x : Tile} (h : TCanon x)
    (hf : ∀ x a, TCanon x → TCanon (f x a)) :
    TCanon (xs.foldl f x) := by
  induction xs generalizing x with
  | nil => exact h
  | cons a xs ih => exact ih (hf _ _ h)

theorem Canon.foldlOf {α β : Type} {p : β → State} {f : β → α → β} {xs : List α} {r : β} (h : Canon (p r))
    (hf : ∀ r x, Canon (p r) → Canon (p (f r x))) : Canon (p (xs.foldl f r)) := by
  induction xs generalizing r with
  | nil => exact h
  | cons x xs ih => exact ih (hf _ _ h)

theorem TCanon.foldlOf {α β : Type} {p : β → Tile} {f : β → α → β} {xs : List α} {r : β} (h : TCanon (p r))
    (hf : ∀ r x, TCanon (p r) → TCanon (p (f r x))) : TCanon (p (xs.foldl f r)) := by
  induction xs generalizing r with
  | nil => exact h
  | cons x xs ih => exact ih (hf _ _ h)

/-- The state after a turn of the exchange queue. -/
def Turn.state : Turn → State
  | .over s => s
  | .waits s => s

theorem TCanon.putRun {x : Tile} {a : Nat} {bs : List Byte} (h : TCanon x) : TCanon
    { x with spad := writeRun 0 x.spad a bs } :=
  ⟨wf_writeRun _ _ _ _ h.spad, h.acc, h.tags⟩

theorem Canon.pair {α : Type} {s : State} {a : α} (h : Canon s) : Canon (s, a).1 := h

theorem TCanon.pair {α : Type} {x : Tile} {a : α} (h : TCanon x) : TCanon (x, a).1 := h

/-- A pair whose state is in canonical form, under a name of its own: the kernel then compares two such
statements by their pairs and does not evaluate the pairs' branches. -/
def FirstCanon {α : Type} (r : State × α) : Prop := Canon r.1

theorem FirstCanon.mk {α : Type} {s : State} {a : α} (h : Canon s) : FirstCanon (s, a) := h

theorem FirstCanon.of {α : Type} {r : State × α} (h : Canon r.1) : FirstCanon r := h

theorem FirstCanon.fst {α : Type} {r : State × α} (h : FirstCanon r) : Canon r.1 := h

theorem FirstCanon.ite {α : Type} {c : Prop} [Decidable c] {a b : State × α} (ha : FirstCanon a) (hb : FirstCanon b) :
    FirstCanon (if c then a else b) := by
  split <;> assumption

theorem Canon.setPwr {s : State} {p : Power} (h : Canon s) : Canon { s with pwr := p } :=
  ⟨h.hbm, h.mem, h.sram, h.tiles, h.contexts, h.written⟩

theorem Lighthouse.setCopy_sram (l : Lighthouse) (i : Nat) (x : StepState) : (l.setCopy i x).sram = l.sram := by
  unfold Lighthouse.setCopy
  split <;> rfl

theorem Lighthouse.setCopy_contexts (l : Lighthouse) (i : Nat) (x : StepState) :
    (l.setCopy i x).contexts = l.contexts := by
  unfold Lighthouse.setCopy
  split <;> rfl

theorem Lighthouse.setCopy_written (l : Lighthouse) (i : Nat) (x : StepState) :
    (l.setCopy i x).written = l.written := by
  unfold Lighthouse.setCopy
  split <;> rfl

theorem Canon.savedTile {s : State} {t : Nat} {x : Tile} (hs : Canon s) (e : s.savedTile t = some x) : TCanon x := by
  unfold State.savedTile at e
  split at e
  · cases e
  split at e
  next c he =>
    obtain ⟨p, hp, rfl⟩ := Option.map_eq_some_iff.1 e
    exact (hs.contexts c (List.mem_of_find?_eq_some he)).tiles p (List.mem_of_find?_eq_some hp)
  next => cases e

theorem Canon.contextAt {s : State} {a n : Nat} {c : Context} (hs : Canon s) (e : s.contextAt a n = some c) :
    CCanon c := by
  obtain ⟨p, hp, rfl⟩ := Option.map_eq_some_iff.1 e
  exact hs.written p (List.mem_of_find?_eq_some hp)

theorem CCanon.withJob {c : Context} {j : BitVec 64} (hc : CCanon c) : CCanon { c with job := j } :=
    ⟨hc.hbm, hc.tiles⟩

theorem Canon.addContext {s : State} {c : Context} {ids : List Nat} (hs : Canon s) (hc : CCanon c) :
    Canon { s with lh := { s.lh with reload := ids, contexts := s.lh.contexts ++ [c] } } :=
  ⟨hs.hbm, hs.mem, hs.sram, hs.tiles, fun x hx => (List.mem_append.1 hx).elim (hs.contexts x) fun h =>
    List.mem_singleton.1 h ▸ hc, hs.written⟩

end Sys2Proof.Machine
end

section
/-! LEMMAS. Every operation of the model on tiles and states keeps the memories in canonical form: one lemma
per function,
in the order of the model's files, each from those of the functions that it calls. -/

namespace Sys2Proof.Machine

/-! ### Functions of `Machine/TileRegs` -/
theorem TCanon.wr {t : Tile} {off : Nat} {v : Word} (ht : TCanon t) : TCanon (t.wr off v) :=
  .upd ht

theorem TCanon.setFld {t : Tile} {f : Fld} {v : Nat} (ht : TCanon t) : TCanon (t.setFld f v) :=
  .wr ht

theorem TCanon.bumpFld {t : Tile} {f : Fld} (ht : TCanon t) : TCanon (t.bumpFld f) :=
  .setFld ht

theorem TCanon.countFld {t : Tile} {f : Fld} {n : Nat} (ht : TCanon t) : TCanon (t.countFld f n) :=
  .ite (.setFld (.setFld ht)) (.setFld ht)

theorem TCanon.setWindow {t : Tile} {w : Nat} {d : Window} (ht : TCanon t) : TCanon (t.setWindow w d) :=
  .upd ht

theorem TCanon.writeReg {t : Tile} {off new mask : Nat} (ht : TCanon t) : TCanon (t.writeReg off new mask).1 := by
  unfold Tile.writeReg
  split
  · exact ht
  · exact .wr ht

/-! ### Functions of `Machine/ModRegs` -/
theorem Canon.wr {s : State} {off : Nat} {v : Word} (hs : Canon s) : Canon (s.wr off v) :=
  .upd hs

theorem Canon.setFld {s : State} {f : Fld} {v : Nat} (hs : Canon s) : Canon (s.setFld f v) :=
  .wr hs

theorem Canon.bumpFld {s : State} {f : Fld} (hs : Canon s) : Canon (s.bumpFld f) :=
  .setFld hs

/-! ### Functions of `Machine/Packets` -/
theorem Canon.setPort {s : State} {p : Nat} {q : Port} (hs : Canon s) : Canon (s.setPort p q) :=
  .upd hs

theorem Canon.transmit {s : State} {p : Nat} {h : Hdr} {payload : List Byte} (hs : Canon s) : Canon (s.transmit p h
    payload) :=
  .setPort hs

theorem Canon.forward {s : State} {p : Nat} {r : AwayRecord} {h : Hdr} {payload : List Byte} (hs : Canon s) : Canon
    (s.forward p r h payload) :=
  .ite (.setPort hs) (.transmit (.setPort hs))

theorem Canon.sendReply {s : State} {h : Hdr} {payload : List Byte} (hs : Canon s) : Canon (s.sendReply h payload) :=
    by
  unfold State.sendReply
  split
  · exact hs
  · exact .ite (.transmit hs) hs

/-! ### Functions of `Machine/ModTables` -/
theorem Canon.writeMod {s : State} {off new mask : Nat} (hs : Canon s) : Canon (s.writeMod off new mask).1 := by
  unfold State.writeMod
  split
  · exact hs
  · exact .wr hs

/-! ### Functions of `Machine/Base` -/
theorem Canon.draw {s : State} {w : Nat} (hs : Canon s) : Canon (s.draw w).2 :=
  .upd hs

theorem Canon.drawBytes {s : State} {n : Nat} (hs : Canon s) : Canon (s.drawBytes n).2 := by
  induction n generalizing s with
  | zero => exact hs
  | succ n ih => exact ih (.draw hs)

theorem Canon.key {s : State} (hs : Canon s) : Canon s.key.2 :=
  .upd hs

theorem Canon.addCause {s : State} {c : Cause} (hs : Canon s) : Canon (s.addCause c) :=
  .upd hs

theorem Canon.endJob {s : State} {c : BitVec 16} (hs : Canon s) : Canon (s.endJob c) :=
  .upd hs

theorem Canon.send {s : State} {t : Nat} {m : Msg} (hs : Canon s) : Canon (s.send t m) :=
  .onTile hs fun _ h => .upd h

theorem Canon.answerTo {s : State} {dest : Sender} {target : Nat} {c : BitVec 16} {dark : Option (Nat × Nat)} (hs :
    Canon s) : Canon (s.answerTo dest target c dark) := by
  unfold State.answerTo
  split
  · exact .send hs
  · exact .send hs
  · exact .send hs
  · exact .send hs
  · exact .sendReply hs
  · exact hs

theorem Canon.setSem {s : State} {home entry : Nat} {e : Sem} (hs : Canon s) : Canon (s.setSem home entry e) :=
  .onTile hs fun _ h => .upd h

theorem Canon.semAnswer {s : State} {m : SemMsg} {v : Word} (hs : Canon s) : Canon (s.semAnswer m v) := by
  refine .ite hs ?_
  split
  · exact .send hs
  · exact .sendReply hs

theorem Canon.post {s : State} {e : Entry} (hs : Canon s) : Canon (s.post e) :=
  .ite (.updHif (.setFld hs)) (.updHif hs)

theorem Canon.postFor {s : State} {ring : Nat} {e : Entry} (hs : Canon s) : Canon (s.postFor ring e) :=
  .ite (.post hs) (.updHif hs)

theorem Canon.resultOf {s : State} {r : Option (BitVec 64)} (hs : Canon s) : Canon (s.resultOf r).2 := by
  unfold State.resultOf
  split
  · exact hs
  · exact .draw hs

theorem Canon.finish {s : State} {ring : Nat} {d : BitVec 512} {c : BitVec 16} {result : Option (BitVec 64)} (hs :
    Canon s) : Canon (s.finish ring d c result) := by
  unfold State.finish
  split
  · exact hs
  · exact .ite (.updHif hs) (.postFor (.resultOf (.updHif hs)))

theorem Canon.interim {s : State} {tag : BitVec 64} {c : BitVec 16} {result : Option (BitVec 64)} (hs : Canon s) :
    Canon (s.interim tag c result) := by
  unfold State.interim
  split
  · exact hs
  · exact .postFor (.updHif (.resultOf hs))

theorem Canon.event {s : State} {kind code port : Nat} {c : BitVec 16} {detail : Nat} (hs : Canon s) : Canon (s.event
    kind code port c detail) :=
  .ite hs (.post hs)

theorem Canon.report {s : State} {c : BitVec 16} {detail : Nat} (hs : Canon s) : Canon (s.report c detail) :=
  .event hs

theorem Canon.raised {r : State × BitVec 16} (hr : Canon r.1) : Canon (raised r) :=
  .ite hr (.report hr)

theorem Canon.hostWrite {s : State} {a : Nat} {bs : List Byte} (hs : Canon s) : Canon (s.hostWrite a bs) :=
  ⟨hs.hbm, wf_writeRun _ _ _ _ hs.mem, hs.sram, hs.tiles, hs.contexts, hs.written⟩

theorem Canon.writePages {s : State} {ls : List Nat} (hs : Canon s) : Canon (s.writePages ls) :=
  .upd hs

theorem Canon.commitGlow {s : State} (hs : Canon s) : Canon s.commitGlow :=
  .writePages (.upd hs)

theorem Canon.logGlow {s : State} {kind : Nat} {c : BitVec 16} {unit detail : Nat} (hs : Canon s) : Canon (s.logGlow
    kind c unit detail) :=
  .event (.ite (.commitGlow (.upd hs)) (.upd hs))

theorem Canon.setUnit {s : State} {u : Nat} {e : UnitEntry} (hs : Canon s) : Canon (s.setUnit u e) :=
  .upd hs

/-! ### Functions of `Machine/Scratch` -/
theorem TCanon.correct {t : Tile} {a n : Nat} (ht : TCanon t) : TCanon (t.correct a n) :=
  .ite ht (.setFld (.upd ht))

theorem TCanon.spadRead {t : Tile} {off n : Nat} (ht : TCanon t) : TCanon (t.spadRead off n).1 :=
  .iteOf ht (.iteOf (.bumpFld ht) (.correct ht))

theorem TCanon.spadWrite {t : Tile} {off : Nat} {bs : List Byte} (ht : TCanon t) : TCanon (t.spadWrite off bs).1 := by
  unfold Tile.spadWrite
  refine .iteOf ht (.iteOf (.bumpFld ht) ?_)
  have h : TCanon ((partWords off bs.length).foldl (fun t w => t.correct w 1) t) := .foldl ht fun _ _ h => .correct h
  exact ⟨wf_writeRun _ _ _ _ h.spad, h.acc, h.tags⟩

theorem TCanon.setTags {t : Tile} {slot k : Nat} {v : Bool} (ht : TCanon t) : TCanon (t.setTags slot k v) :=
  ⟨ht.spad, ht.acc, wf_fillRun _ _ _ _ _ ht.tags⟩

theorem TCanon.writeSlots {t : Tile} {xs : List Nat} {bs : List Byte} (ht : TCanon t) : TCanon (t.writeSlots xs bs) :=
    by
  induction xs generalizing t bs with
  | nil => exact ht
  | cons x xs ih => exact ih ⟨wf_writeRun _ _ _ _ ht.spad, ht.acc, ht.tags⟩

theorem TCanon.fillTags {t : Tile} {xs : List Nat} (ht : TCanon t) : TCanon (t.fillTags xs) :=
  ⟨ht.spad, ht.acc, wf_foldl_set _ _ _ ht.tags⟩

theorem TCanon.setDark {t : Tile} {xs : List Nat} {v : Option (Nat × Nat)} (ht : TCanon t) : TCanon (t.setDark xs v)
    :=
  .upd ht

/-! ### Functions of `Machine/GridOps` -/
theorem Canon.setSpare {s : State} {u : Nat} {x : SpareUnit} (hs : Canon s) : Canon (s.setSpare u x) :=
  .upd hs

theorem TCanon.onUnit {x : Tile} {u : SpareUnit} (hx : TCanon x) : TCanon (x.onUnit u) :=
  .upd (.setFld (.setFld (.ite (.setFld (.setFld hx)) hx)))

theorem Canon.applyMove {s : State} {m : MapMove} (hs : Canon s) : Canon (s.applyMove m) := by
  unfold State.applyMove
  extract_lets +onlyGivenNames old to' t? s₁
  have h₁ : Canon s₁ := .upd hs
  clear_value s₁ t?
  split
  · exact h₁
  · exact .setTile (.setSpare (.setSpare h₁)) (.upd (.onUnit (.tile h₁)))

theorem Canon.answerHeld {s : State} {t : Nat} {ws : List RemoteWrite} {rs : List ReadReq} (hs : Canon s) : Canon
    (s.answerHeld t ws rs) := by
  refine .foldl (.foldl hs fun _ _ h0 => .answerTo h0) fun _ _ h1 => ?_
  split
  · exact .send h1
  · exact .sendReply h1
  · exact h1

theorem Canon.dropCopies {s : State} {t : Nat} {x : Tile} (hs : Canon s) : Canon (s.dropCopies t x) :=
  .foldl hs fun _ _ h0 => .foldl h0 fun _ _ h1 => .send h1

theorem Canon.answerGrant {s : State} {st : Stamp} {away : Option (Nat × BitVec 24 × BitVec 16)} {c : BitVec 16} {m :
    Msg} (hs : Canon s) : Canon (s.answerGrant st away c m) := by
  unfold State.answerGrant
  split
  · exact .send hs
  · exact .sendReply hs

theorem Canon.answerGrants {s : State} {ms : List Msg} (hs : Canon s) : Canon (s.answerGrants ms) := by
  refine .foldl hs fun _ _ h => ?_
  split
  · exact .answerGrant h
  · exact h

theorem TCanon.closeAll {t : Tile} (ht : TCanon t) : TCanon t.closeAll :=
  .upd ht

theorem TCanon.afterReset {t : Tile} {now : BitVec 64} : TCanon (t.afterReset now) :=
  .foldl (.wr (.setFld (.setFld (.upd .default)))) fun _ _ h => .setFld h

theorem Canon.loseContents {s : State} {t : Nat} (hs : Canon s) : Canon (s.loseContents t) := by
  unfold State.loseContents
  exact .onTile (.draw (.draw (.draw (.draw (.draw hs))))) fun _ h => .lose h

theorem Canon.resetCore {s : State} {t : Nat} (hs : Canon s) : Canon (s.resetCore t) :=
  .loseContents (.dropCopies (.answerGrants (.answerHeld (.setTile hs .afterReset))))

theorem TCanon.savedRegs {now saved : Tile} (hsaved : TCanon saved) : TCanon (now.savedRegs saved) :=
  .foldl (.wr (.wr (.wr (.wr (.wr hsaved))))) fun _ _ h => .setFld h

theorem TCanon.restore {now saved : Tile} (hsaved : TCanon saved) : TCanon (now.restore saved) :=
  .upd (.savedRegs hsaved)

theorem Canon.resetSpareCore {s : State} {u : Nat} (hs : Canon s) : Canon (s.resetSpareCore u) :=
  .setSpare hs

theorem Canon.resetSpareRouter {s : State} {u : Nat} (hs : Canon s) : Canon (s.resetSpareRouter u) :=
  .setSpare hs

theorem Canon.spareRouterReady {s : State} {u : Nat} (hs : Canon s) : Canon (s.spareRouterReady u) :=
  .setSpare hs

theorem Canon.resetRouter {s : State} {t : Nat} (hs : Canon s) : Canon (s.resetRouter t) :=
  .foldl (.foldl (.setTile hs (.upd (.setFld (.tile hs)))) fun _ _ h0 => .foldl h0 fun _ _ h1 => .semAnswer h1) fun _
    _ h2 => .semAnswer h2

theorem Canon.resetSpares {s : State} (hs : Canon s) : Canon s.resetSpares :=
  .foldl hs fun _ _ h => .resetSpareRouter (.resetSpareCore h)

theorem Canon.retireRow {s : State} {r : Nat} (hs : Canon s) : Canon (s.retireRow r) := by
  unfold State.retireRow
  refine .ite hs ?_
  extract_lets s₁ s₂ s₃
  have h₃ : Canon s₃ := .foldl (.upd (.endJob (.addCause hs))) fun _ _ h => .setSpare h
  split
  · refine ⟨h₃.hbm, h₃.mem, h₃.sram, fun e he => ?_, h₃.contexts, h₃.written⟩
    rcases List.mem_append.1 he with he | he
    · exact h₃.tiles e (List.mem_filter.1 he).1
    · obtain ⟨e', he', rfl⟩ := List.mem_map.1 he
      exact h₃.tiles e' (List.mem_filter.1 he').1
  · exact .logGlow (.updLh h₃)

/-! ### Functions of `Machine/PortOps` -/
theorem Canon.control {s : State} {p : Nat} {k : Control} {bs : List Byte} (hs : Canon s) : Canon (s.control p k bs)
    :=
  .ite (.transmit hs) hs

theorem Canon.controlTo {s : State} {m : Nat} {k : Control} {bs : List Byte} (hs : Canon s) : Canon (s.controlTo m k
    bs) := by
  unfold State.controlTo
  extract_lets
  split
  · exact hs
  · exact .ite (.transmit hs) hs

theorem Canon.portEvent {s : State} {p value : Nat} {c : BitVec 16} (hs : Canon s) : Canon (s.portEvent p value c) :=
  .event (.logGlow hs)

theorem Canon.answerRecord {s : State} {c : BitVec 16} {r : AwayRecord} (hs : Canon s) : Canon (s.answerRecord c r) :=
    by
  unfold State.answerRecord
  split
  · exact .send hs
  · exact .sendReply hs

theorem Canon.relayAnswered {s : State} {p : Nat} {r : AwayRecord} {acked : Bool} (hs : Canon s) : Canon
    (s.relayAnswered p r acked) :=
  .ite (.updHif hs) hs

theorem Canon.answerRecords {s : State} {p : Nat} {c : BitVec 16} (hs : Canon s) : Canon (s.answerRecords p c) :=
  .foldl (.setPort (.foldl hs fun _ _ h0 => .relayAnswered h0)) fun _ _ h1 => .answerRecord h1

theorem Canon.setColls {s : State} {a : Nat} {l : List Coll} (hs : Canon s) : Canon (s.setColls a l) :=
  .upd hs

theorem Canon.collStop {s : State} {a d : Nat} {c : BitVec 16} (hs : Canon s) : Canon (s.collStop a d c) :=
  .addCause (.setFld (.setFld (.setColls hs)))

theorem Canon.failColls {s : State} {p : Nat} {c : BitVec 16} (hs : Canon s) : Canon (s.failColls p c) :=
  .foldl hs fun _ _ h => .collStop h

theorem Canon.loseChild {s : State} {p : Nat} (hs : Canon s) : Canon (s.loseChild p) :=
  .upd hs

theorem Canon.dropSource {s : State} {p : Nat} (hs : Canon s) : Canon (s.dropSource p) :=
  .upd hs

theorem Canon.resetPort {s : State} {p : Nat} {full : Bool} (hs : Canon s) : Canon (s.resetPort p full) :=
  .loseChild (.failColls (.ite (.setFld (.setPort (.answerRecords hs))) (.setFld (.setFld (.setPort (.answerRecords
    hs))))))

theorem Canon.fencePort {s : State} {p why : Nat} (hs : Canon s) : Canon (s.fencePort p why) :=
  .dropSource (.loseChild (.failColls (.setFld (.setFld (.setPort (.answerRecords (.control hs)))))))

theorem Canon.trainPort {s : State} {p : Nat} (hs : Canon s) : Canon (s.trainPort p) :=
  .setFld (.setFld (.setFld (.setPort hs)))

theorem Canon.sendFrame {s : State} {p : Nat} (hs : Canon s) : Canon (s.sendFrame p) :=
  .ite (.control (.setPort (.iteOf (.draw hs) hs))) (.setPort (.iteOf (.draw hs) hs))

theorem Canon.sendFrames {s : State} (hs : Canon s) : Canon s.sendFrames :=
  .foldl hs fun _ _ h => .ite (.sendFrame h) h

theorem Canon.markEdges {s : State} (hs : Canon s) : Canon s.markEdges :=
  .ite hs (.foldl hs fun _ _ h => .ite (.setPort h) h)

/-! ### Functions of `Machine/Regions` -/
theorem Canon.setStack {s : State} {k : Nat} {x : Stack} (hs : Canon s) : Canon (s.setStack k x) :=
  .upd hs

theorem Canon.enqueueHbm {s : State} {r : HbmReq} {near : Bool} (hs : Canon s) : Canon (s.enqueueHbm r near) :=
  .setStack hs

theorem Canon.takeHbm {s s' : State} {k ch : Nat} {r : HbmReq} (hs : Canon s) (e : s.takeHbm k ch = some (r, s')) :
    Canon s' := by
  unfold State.takeHbm at e
  extract_lets at e
  split at e
  · cases e
  · cases e
    exact .setStack hs

/-! ### Functions of `Machine/Charge` -/
theorem Canon.refuseHbm {s : State} {r : HbmReq} {c : BitVec 16} (hs : Canon s) : Canon (s.refuseHbm r c) := by
  unfold State.refuseHbm
  split
  · exact .send hs
  · exact .sendReply hs
  · exact .answerTo hs

theorem Canon.resetChannel {s : State} {k ch : Nat} (hs : Canon s) : Canon (s.resetChannel k ch) :=
  .foldl (.setFld (.setFld (.setStack hs))) fun _ _ h => .refuseHbm h

theorem Canon.eclipseChannel {s : State} {k ch : Nat} (hs : Canon s) : Canon (s.eclipseChannel k ch) :=
  .ite hs (.ite (.setFld (.setStack (.setFld hs))) (.ite (.setFld hs) (.logGlow (.updLh (.setFld hs)))))

theorem Canon.loseMember {s : State} {m : Nat} (hs : Canon s) : Canon (s.loseMember m) :=
  .updLh hs

theorem Canon.eclipseTile {s : State} {phys : Nat} (hs : Canon s) : Canon (s.eclipseTile phys).1 := by
  unfold State.eclipseTile
  extract_lets
  split
  · exact .setSpare hs
  · extract_lets
    split
    · exact .retireRow (.onTile (.resetCore hs) fun _ h0 => .setFld h0)
    · split
      · exact .upd (.onTile (.resetCore hs) fun _ h1 => .setFld h1)
      · exact .onTile (.resetCore hs) fun _ h2 => .setFld h2

theorem Canon.failGateway {s : State} {g : Nat} (hs : Canon s) : Canon (s.failGateway g) :=
  .ite hs (.ite (.updLh hs) (.loseMember (.logGlow (.draw (.draw (.updLh hs))))))

theorem Canon.failRouter {s : State} {phys : Nat} (hs : Canon s) : Canon (s.failRouter phys) := by
  refine .ite hs (.ite (.retireRow (.foldl (.foldl (.foldl (.logGlow (.eclipseTile (.setUnit ?_))) fun _ _ h1 =>
    .setFld h1) fun _ _ h2 => .fencePort h2) fun _ _ h3 => .failGateway h3)) (.foldl (.foldl (.foldl (.logGlow
    (.eclipseTile (.setUnit ?_))) fun _ _ h5 => .setFld h5) fun _ _ h6 => .fencePort h6) fun _ _ h7 => .failGateway
    h7))
  · split
    · exact .onTile (.resetRouter (.upd hs)) fun _ h0 => .upd h0
    · exact .upd hs
  · split
    · exact .onTile (.resetRouter (.upd hs)) fun _ h4 => .upd h4
    · exact .upd hs

theorem Canon.exclude {s : State} (hs : Canon s) : Canon s.exclude := by
  unfold State.exclude
  extract_lets us s₁
  have h₁ : Canon s₁ := .foldl hs fun _ _ h => .setUnit h
  clear_value s₁
  exact .updLh h₁

theorem Canon.eclipse {s : State} {u : Nat} {permanent : Bool} (hs : Canon s) : Canon (s.eclipse u permanent) := by
  unfold State.eclipse
  extract_lets
  split
  · exact .logGlow (.eclipseTile (.setUnit hs))
  · exact .logGlow (.failRouter (.setUnit hs))
  · exact .logGlow (.eclipseChannel (.resetChannel (.setUnit hs)))
  · exact .logGlow (.fencePort (.resetPort (.setUnit hs)))
  · exact .ite (.loseMember (.logGlow (.setUnit hs))) (.logGlow (.setUnit hs))
  · exact .logGlow (.exclude (.setUnit hs))

theorem Canon.makePermanent {s : State} {u rule : Nat} {c : BitVec 16} (hs : Canon s) : Canon (s.makePermanent u rule
    c) :=
  .ite hs (.eclipse (.upd (.setUnit (.logGlow hs))))

theorem Canon.charge {s : State} {u : Nat} {c : BitVec 16} (hs : Canon s) : Canon (s.charge u c) :=
  .ite (.makePermanent (.setUnit hs)) (.logGlow (.setUnit hs))

theorem Canon.chargeTile {s : State} {t : Nat} {c : BitVec 16} (hs : Canon s) : Canon (s.chargeTile t c) :=
  .charge hs

theorem Canon.chargeChannel {s : State} {k ch : Nat} {c : BitVec 16} (hs : Canon s) : Canon (s.chargeChannel k ch c)
    :=
  .charge hs

/-! ### Functions of `Machine/Ops` -/
theorem TCanon.putS {t : Tile} {r : Nat} {v : Word} (ht : TCanon t) : TCanon (t.putS r v) :=
  .ite ht (.upd ht)

theorem TCanon.putP {t : Tile} {r : Nat} {v : BitVec 256} (ht : TCanon t) : TCanon (t.putP r v) :=
  .ite ht (.upd ht)

theorem TCanon.putV {t : Tile} {r : Nat} {v : BitVec 8192} (ht : TCanon t) : TCanon (t.putV r v) :=
  .upd ht

theorem TCanon.hold {t : Tile} {r : Nat} (ht : TCanon t) : TCanon (t.hold r) :=
  .ite ht (.upd ht)

theorem TCanon.release {t : Tile} {r : Nat} (ht : TCanon t) : TCanon (t.release r) :=
  .upd ht

theorem TCanon.complete {t : Tile} {r : Nat} {v : Word} (ht : TCanon t) : TCanon (t.complete r v) :=
  .release (.putS ht)

theorem TCanon.post {t : Tile} {ev : Nat} (ht : TCanon t) : TCanon (t.post ev) :=
  .setFld ht

theorem TCanon.latch {t : Tile} {c : BitVec 16} {pc : BitVec 20} (ht : TCanon t) : TCanon (t.latch c pc) :=
  .ite ht (.setFld (.setFld (.setFld ht)))

theorem TCanon.record {t : Tile} {c : BitVec 16} {pc : BitVec 20} (ht : TCanon t) : TCanon (t.record c pc) :=
  .ite (.upd (.latch ht)) (.ite (.post (.latch ht)) (.latch ht))

theorem Canon.recordReply {s : State} {t : Nat} {c : BitVec 16} {pc : BitVec 20} (hs : Canon s) : Canon (s.recordReply
    t c pc) :=
  .ite (.endJob (.setTile hs (.record (.tile hs)))) (.setTile hs (.record (.tile hs)))

theorem Canon.chargeSpad {s : State} {t : Nat} {c : BitVec 16} (hs : Canon s) : Canon (s.chargeSpad t c) :=
  .ite (.chargeTile hs) hs

theorem Canon.record {s : State} {t : Nat} {c : BitVec 16} {pc : BitVec 20} (hs : Canon s) : Canon (s.record t c pc)
    :=
  .chargeSpad (.recordReply hs)

theorem Canon.faultAt {s : State} {t : Nat} {c : BitVec 16} {pc : BitVec 20} (hs : Canon s) : Canon (s.faultAt t c pc)
    :=
  .ite (.onTile (.record hs) fun _ h => .upd h) (.record hs)

theorem Canon.faultReply {s : State} {t : Nat} {c : BitVec 16} {pc : BitVec 20} (hs : Canon s) : Canon (s.faultReply t
    c pc) :=
  .ite (.onTile (.recordReply hs) fun _ h => .upd h) (.recordReply hs)

theorem Canon.putS {s : State} {t r : Nat} {v : Word} (hs : Canon s) : Canon (s.putS t r v) :=
  .onTile hs fun _ h => .putS h

theorem Canon.putStatus {s : State} {t r : Nat} {c : BitVec 16} (hs : Canon s) : Canon (s.putStatus t r c) :=
  .putS hs

theorem Canon.tickSecond {s : State} (hs : Canon s) : Canon s.tickSecond :=
  .ite hs (.ite (.bumpFld (.bumpFld hs)) (.bumpFld hs))

theorem Canon.subtick {s : State} (hs : Canon s) : Canon s.subtick :=
  .ite (.setFld hs) hs

/-! ### Functions of `Machine/SemOps` -/
theorem Canon.sendRequest {s : State} {t : Nat} {h : Hdr} {payload : List Byte} {ok no : Msg} (hs : Canon s) : Canon
    (s.sendRequest t h payload ok no) := by
  unfold State.sendRequest
  split
  · exact .send hs
  · exact .ite (.send hs) (.forward (.setPort hs))

theorem Canon.semSend {s : State} {t : Nat} {ref : SemRef} {op : SemOp} {rd : Nat} {plain : Bool} (hs : Canon s) :
    Canon (s.semSend t ref op rd plain) := by
  unfold State.semSend
  extract_lets
  split
  · refine .ite ?_ (.ite (.onTile hs fun _ h => .upd h) (.ite hs (.send hs)))
    split
    · exact .ite (.upd hs) (.send (.upd hs))
    · exact .send hs
  · exact .sendRequest hs
  · refine .ite ?_ (.send ?_)
    · split
      · exact .setFld hs
      · exact hs
    · split
      · exact .setFld hs
      · exact hs

theorem Canon.signal {s : State} {t : Nat} {ref : Option SemRef} (hs : Canon s) : Canon (s.signal t ref) := by
  unfold State.signal
  split
  · exact .semSend hs
  · exact hs

theorem Canon.releaseWaiter {s : State} {home entry : Nat} {w : Waiter} (hs : Canon s) : Canon (s.releaseWaiter home
    entry w) := by
  unfold State.releaseWaiter
  split
  · exact .send hs
  · exact .sendReply hs

theorem Canon.semApply {s : State} {home : Nat} {m : SemMsg} (hs : Canon s) : Canon (s.semApply home m) := by
  unfold State.semApply
  extract_lets
  split
  · exact .ite (.semAnswer hs) (.semAnswer (.foldl (.setSem hs) fun _ _ h0 => .releaseWaiter h0))
  · exact .semAnswer (.foldl (.setSem hs) fun _ _ h1 => .releaseWaiter h1)
  · exact .ite (.semAnswer hs) (.semAnswer (.setSem hs))
  · exact .ite (.semAnswer (.setSem hs)) (.ite (.semAnswer hs) (.setSem hs))
  · exact .semAnswer hs

theorem Canon.sigDrain {s : State} {t : Nat} {hh : List HeldSig} (hs : Canon s) : Canon (s.sigDrain t hh) := by
  induction hh generalizing s with
  | nil => exact .onTile hs fun _ h => .upd h
  | cons h hh ih =>
    unfold State.sigDrain
    refine .ite (.onTile hs fun _ h => .upd h) ?_
    split
    · exact ih (.semSend hs)
    · exact ih (.onTile hs fun _ h => .upd (.complete h))

theorem Canon.semIssue {s : State} {t : Nat} {ref : SemRef} {op : SemOp} {rd : Nat} (hs : Canon s) : Canon (s.semIssue
    t ref op rd) :=
  .ite (.onTile hs fun _ h => .upd h) (.semSend hs)

theorem TCanon.sigOpGone {t : Tile} {id : Nat} {c : Option (BitVec 16)} (ht : TCanon t) : TCanon (t.sigOpGone id c) :=
  .upd ht

/-! ### Functions of `Machine/HbmOps` -/
theorem Canon.setHalo {s : State} {blk : Nat} {h : BitVec 256} (hs : Canon s) : Canon (s.setHalo blk h) :=
  .upd hs

theorem Canon.poison {s : State} {blk origin : Nat} (hs : Canon s) : Canon (s.poison blk origin) :=
  .ite hs (.setHalo hs)

theorem Canon.badBurst {s : State} {u : Nat} (hs : Canon s) : Canon (s.badBurst u) := by
  unfold State.badBurst
  exact .chargeChannel (.poison (.bumpFld (.writeHbm (.drawBytes hs))))

theorem Canon.softBurst {s : State} {u : Nat} (hs : Canon s) : Canon (s.softBurst u) :=
  .bumpFld (.upd hs)

theorem Canon.checkBursts {s : State} {a n : Nat} (hs : Canon s) : Canon (s.checkBursts a n) :=
  .foldl (.foldl hs fun _ _ h0 => .softBurst h0) fun _ _ h1 => .badBurst h1

theorem Canon.coverBursts {s : State} {a n : Nat} (hs : Canon s) : Canon (s.coverBursts a n) :=
  .checkBursts (.upd hs)

theorem Canon.readPart {s : State} {a n : Nat} (hs : Canon s) : Canon (s.readPart a n).st :=
  .ite (.poison (.checkBursts hs)) (.checkBursts hs)

theorem Canon.crcFailed {s : State} {blk : Nat} (hs : Canon s) : Canon (s.crcFailed blk) :=
  .chargeChannel (.logGlow (.poison (.bumpFld hs)))

theorem Canon.readBlock {s : State} {blk g lepoch : Nat} (hs : Canon s) : Canon (s.readBlock blk g lepoch).st := by
  refine .iteOf hs ?_
  extract_lets
  split
  · exact .iteOf (.ite (.crcFailed (.ite (.poison (.checkBursts hs)) (.checkBursts hs))) (.ite (.poison (.checkBursts
    hs)) (.checkBursts hs))) (.ite (.crcFailed (.ite (.poison (.checkBursts hs)) (.checkBursts hs))) (.ite (.poison
    (.checkBursts hs)) (.checkBursts hs)))
  · exact .iteOf (.addCause (.ite (.crcFailed (.ite (.poison (.checkBursts hs)) (.checkBursts hs))) (.ite (.poison
    (.checkBursts hs)) (.checkBursts hs)))) (.iteOf (.iteOf (.ite (.crcFailed (.ite (.poison (.checkBursts hs))
    (.checkBursts hs))) (.ite (.poison (.checkBursts hs)) (.checkBursts hs))) (.ite (.crcFailed (.ite (.poison
    (.checkBursts hs)) (.checkBursts hs))) (.ite (.poison (.checkBursts hs)) (.checkBursts hs)))) (.iteOf (.ite
    (.crcFailed (.ite (.poison (.checkBursts hs)) (.checkBursts hs))) (.ite (.poison (.checkBursts hs)) (.checkBursts
    hs))) (.iteOf (.crcFailed (.ite (.crcFailed (.ite (.poison (.checkBursts hs)) (.checkBursts hs))) (.ite (.poison
    (.checkBursts hs)) (.checkBursts hs)))) (.ite (.crcFailed (.ite (.poison (.checkBursts hs)) (.checkBursts hs)))
    (.ite (.poison (.checkBursts hs)) (.checkBursts hs))))))

theorem Canon.clearPoison {s : State} {blk : Nat} (hs : Canon s) : Canon (s.clearPoison blk) :=
  .ite (.setHalo (.logGlow (.bumpFld hs))) hs

theorem Canon.writePart {s : State} {a : Nat} {bs : List Byte} (hs : Canon s) : Canon (s.writePart a bs) := by
  unfold State.writePart
  exact .setHalo (.writeHbm (.ite (.clearPoison (.coverBursts hs)) (.coverBursts hs)))

theorem Canon.storeBlock {s : State} {blk : Nat} {bs : List Byte} {h : BitVec 256} (hs : Canon s) : Canon
    (s.storeBlock blk bs h) := by
  unfold State.storeBlock
  exact .setHalo (.writeHbm (.clearPoison (.coverBursts hs)))

theorem Canon.writeBlock {s : State} {blk : Nat} {bs : List Byte} {g lepoch : Nat} {poison : Option Nat} (hs : Canon
    s) :
    Canon (s.writeBlock blk bs g lepoch poison).1 := by
  unfold State.writeBlock
  extract_lets put
  have hput : ∀ {s b att}, Canon s → Canon (put s b att) := fun h => by
    unfold put
    extract_lets s₁
    have h₁ : Canon s₁ := .storeBlock h
    split
    · exact .poison h₁
    · exact h₁
  split
  · exact hput hs
  · refine .iteOf hs (.iteOf hs ?_)
    split
    · exact hs
    · exact .ite (.setFld (hput hs)) (hput hs)

/-! ### Functions of `Machine/MemOps` -/
theorem TCanon.writeTcb {t : Tile} {off : Nat} {bs : List Byte} (ht : TCanon t) : TCanon (t.writeTcb off bs).1 :=
  .foldlOf ht fun _ _ h => .writeReg h

theorem TCanon.fillLoad {t : Tile} {d : LoadDst} {bs : List Byte} (ht : TCanon t) : TCanon (t.fillLoad d bs) := by
  unfold Tile.fillLoad
  split
  · exact .putS ht
  · exact .putV ht

theorem TCanon.holdV {t : Tile} {vd ord : Nat} (ht : TCanon t) : TCanon (t.holdV vd ord) :=
  .upd ht

theorem TCanon.releaseV {t : Tile} {vd : Nat} (ht : TCanon t) : TCanon (t.releaseV vd) :=
  .upd ht

theorem TCanon.holdLoad {t : Tile} {d : LoadDst} {ord : Nat} (ht : TCanon t) : TCanon (t.holdLoad d ord) := by
  unfold Tile.holdLoad
  split
  · exact .hold ht
  · exact .holdV ht

theorem TCanon.releaseLoad {t : Tile} {d : LoadDst} (ht : TCanon t) : TCanon (t.releaseLoad d) := by
  unfold Tile.releaseLoad
  split
  · exact .release ht
  · exact .releaseV ht

theorem Canon.askHbm {s : State} {t : Nat} {r : HbmReq} {st : Stamp} {d : LoadDst} (hs : Canon s) : Canon (s.askHbm t
    r st d) :=
  .ite (.enqueueHbm hs) (.send hs)

theorem Canon.loseLoad {s : State} {t : Nat} {d : LoadDst} (hs : Canon s) : Canon (s.loseLoad t d) := by
  unfold State.loseLoad
  split
  · exact hs
  · exact .onTile (.drawBytes hs) fun _ h => .putV h

theorem Canon.loseBytes {s : State} {t off n : Nat} (hs : Canon s) : Canon (s.loseBytes t off n) := by
  unfold State.loseBytes
  exact .onTile (.drawBytes hs) fun _ h => .putRun h

theorem Canon.plainLoad {s : State} {t : Nat} {pc : BitVec 20} {a n : Nat} {d : LoadDst} {ord : Nat} (hs : Canon s) :
    Canon (s.plainLoad t pc a n d ord) := by
  unfold State.plainLoad
  extract_lets
  split
  · exact .faultAt hs
  · exact .ite (.ite (.setTile hs (.fillLoad (.spadRead (.tile hs)))) (.faultAt (.loseLoad (.setTile hs (.spadRead
    (.tile hs)))))) (.ite (.onTile (.setTile hs (.holdLoad (.tile hs))) fun _ h0 => .upd h0) (.send (.setTile hs
    (.holdLoad (.tile hs)))))
  · exact .ite (.setTile hs (.fillLoad (.tile hs))) (.faultAt hs)
  · exact .ite (.faultAt hs) (.askHbm (.setTile hs (.holdLoad (.tile hs))))
  · exact .ite (.setTile (.ite (.setFld hs) hs) (.fillLoad (.tile hs))) (.ite (.onTile (.setFld hs) fun _ h1 =>
    .fillLoad h1) (.faultAt hs))

theorem Canon.plainStore {s : State} {t : Nat} {pc : BitVec 20} {a : Nat} {bs : List Byte} {vector : Bool} (hs : Canon
    s) : Canon (s.plainStore t pc a bs vector) := by
  unfold State.plainStore
  extract_lets
  split
  · exact .ite (.ite (.setTile hs (.spadWrite (.tile hs))) (.ite (.faultAt (.loseBytes (.setTile hs (.spadWrite (.tile
    hs))))) (.faultAt (.setTile hs (.spadWrite (.tile hs)))))) (.faultAt hs)
  · exact .ite (.ite (.faultAt (.setTile hs (.writeTcb (.tile hs)))) (.setTile hs (.writeTcb (.tile hs)))) (.faultAt
    hs)
  · exact .faultAt hs

theorem Canon.serveLoad {s : State} {t : Nat} {kind : TagKind} {slot k vd : Nat} {pc : BitVec 20} (hs : Canon s) :
    Canon (s.serveLoad t kind slot k vd pc) :=
  .ite (.faultAt (.loseLoad (.setTile hs (.spadRead (.tile hs))))) (.setTile hs (.ite (.setTags (.putV (.spadRead
    (.tile hs)))) (.putV (.spadRead (.tile hs)))))

theorem Canon.serveStore {s : State} {t slot k : Nat} {bs : List Byte} (hs : Canon s) : Canon (s.serveStore t slot k
    bs).1 :=
  .iteOf (.setTile hs (.spadWrite (.tile hs))) (.setTile hs (.setTags (.spadWrite (.tile hs))))

theorem Canon.serveVst {s : State} {t slot k : Nat} {v : BitVec 8192} {pc : BitVec 20} (hs : Canon s) : Canon
    (s.serveVst t slot k v pc) :=
  .ite (.serveStore hs) (.faultAt (.loseBytes (.serveStore hs)))

theorem Canon.startVld {s : State} {t : Nat} {q : QInsn} (hs : Canon s) : Canon (s.startVld t q) :=
  .ite (.plainLoad hs) (.ite (.faultAt hs) (.ite (.serveLoad hs) (.onTile hs fun _ h => .upd (.holdV h))))

theorem Canon.startVst {s : State} {t : Nat} {q : QInsn} (hs : Canon s) : Canon (s.startVst t q) :=
  .ite (.plainStore hs) (.ite (.faultAt hs) (.ite (.serveVst hs) (.onTile hs fun _ h => .upd h)))

/-! ### Functions of `Machine/JobOps` -/
theorem Canon.setJob {s : State} {j : Job} (hs : Canon s) : Canon (s.setJob j) :=
  .updLh hs

theorem Canon.sramSet {s : State} {off : Nat} {b : Byte} (hs : Canon s) : Canon (s.sramSet off b) := by
  have plain : Canon { s with lh := { s.lh with sram := Map.set 0 s.lh.sram off b } } :=
    ⟨hs.hbm, hs.mem, Map.wf_set _ _ _ _ hs.sram, hs.tiles, hs.contexts, hs.written⟩
  unfold State.sramSet
  refine .ite (.updLh hs) ?_
  split
  · exact .ite (.setJob hs) plain
  · exact plain

theorem Canon.sramWrite {s : State} {off : Nat} {bs : List Byte} (hs : Canon s) : Canon (s.sramWrite off bs) :=
  .foldl hs fun _ _ h => .sramSet h

theorem Canon.loadImage {s : State} {j : Job} {use t : Nat} (hs : Canon s) : Canon (s.loadImage j use t) := by
  unfold State.loadImage
  split
  · exact hs
  · exact .updLh (.onTile hs fun _ h => .spadWrite h)

theorem Canon.startTile {s : State} {j : Job} {use t : Nat} (hs : Canon s) : Canon (s.startTile j use t) := by
  unfold State.startTile
  split
  · exact hs
  · exact .onTile (.ite hs (.loadImage hs)) fun _ h => .upd h

theorem Canon.startTiles {s : State} (hs : Canon s) : Canon s.startTiles := by
  unfold State.startTiles
  split
  · exact .ite (.foldl (.updLh hs) fun _ _ h => .ite (.startTile (.updLh h)) h) (.updLh hs)
  · exact hs

theorem Canon.coreReady {s : State} {t : Nat} (hs : Canon s) : Canon (s.coreReady t) := by
  unfold State.coreReady
  extract_lets +onlyGivenNames x y s₁
  have hy : TCanon y := by
    unfold y
    split
    next e => exact .restore (hs.savedTile e)
    next => exact .tile hs
  have h₁ : Canon s₁ := .setTile hs (.setFld hy)
  split
  · exact h₁
  · exact .ite (.ite (.startTile (.updLh (.loadImage (.updLh h₁)))) (.loadImage (.updLh h₁))) h₁

/-! ### Functions of `Machine/VecOps` -/
theorem TCanon.vecElementwise {t : Tile} {q : QInsn} (ht : TCanon t) : TCanon (t.vecElementwise q) :=
  .putV ht

theorem TCanon.vecMove {t : Tile} {q : QInsn} {byte : Nat} (ht : TCanon t) : TCanon (t.vecMove q byte) :=
  .putV ht

theorem TCanon.vecCompare {t : Tile} {q : QInsn} (ht : TCanon t) : TCanon (t.vecCompare q) :=
  .putP ht

theorem TCanon.vecTranspose {t : Tile} {q : QInsn} (ht : TCanon t) : TCanon (t.vecTranspose q) :=
  .putV ht

theorem TCanon.vecConvert {t : Tile} {q : QInsn} (ht : TCanon t) : TCanon (t.vecConvert q) :=
  .putV ht

theorem TCanon.vecReduce {t : Tile} {q : QInsn} (ht : TCanon t) : TCanon (t.vecReduce q) :=
  .putV ht

theorem TCanon.vecScan {t : Tile} {q : QInsn} (ht : TCanon t) : TCanon (t.vecScan q) :=
  .putV ht

/-! ### Functions of `Machine/VecPass` -/
theorem Canon.scramble {s : State} {t : Nat} {rs : List (Nat × Nat)} (hs : Canon s) : Canon (s.scramble t rs) :=
  .foldl hs fun _ _ h => .onTile (.drawBytes h) fun _ h => .putRun h

theorem Canon.writeAll {s : State} {t : Nat} {ws : List (Nat × List Byte)} (hs : Canon s) : Canon (s.writeAll t ws).1
    :=
  .iteOf (.foldlOf hs fun _ _ h0 => .iteOf h0 (.setTile h0 (.spadWrite (.tile h0)))) (.scramble (.foldlOf hs fun _ _
    h1 => .iteOf h1 (.setTile h1 (.spadWrite (.tile h1)))))

theorem TCanon.readAll {t : Tile} {rs : List (Nat × Nat)} (ht : TCanon t) : TCanon (t.readAll rs).1 :=
  .foldlOf ht fun _ _ h => .iteOf h (.spadRead h)

theorem Canon.putCensus {s : State} {t off : Nat} {add pass : Bool} {counts : List Nat} {fmt : Nat} {scaled : Bool}
    (hs : Canon s) : Canon (s.putCensus t off add pass counts fmt scaled).1 :=
  .iteOf (.setTile hs (.spadRead (.tile hs))) (.setTile hs (.ite (.setFld (.spadWrite (.spadRead (.tile hs))))
    (.spadWrite (.spadRead (.tile hs)))))

theorem Canon.vecCensus {s : State} {t : Nat} {q : QInsn} (hs : Canon s) : Canon (s.vecCensus t q).1 :=
  .iteOf hs (.putCensus hs)

theorem Canon.vecScale {s : State} {t : Nat} {q : QInsn} (hs : Canon s) : Canon (s.vecScale t q).1 := by
  refine FirstCanon.fst ?_
  unfold State.vecScale
  refine .ite hs (.ite hs ?_)
  have hd : TCanon ((s.tile t).spadRead q.a.toNat 64).1 := .spadRead (.tile hs)
  generalize (s.tile t).spadRead q.a.toNat 64 = d at hd ⊢
  have h : Canon (s.setTile t d.1) := .setTile hs hd
  have h' : ∀ rs, Canon (s.setTile t (d.1.readAll rs).1) := fun _ => .setTile hs (.readAll hd)
  exact .ite (.mk h) (.ite (.mk h) (.ite (.mk (.scramble (h' _)))
    (.ite (.of (.writeAll (h' _))) (.of (.putCensus (.writeAll (h' _)))))))

theorem Canon.vecLongAdd {s : State} {t : Nat} {q : QInsn} (hs : Canon s) : Canon (s.vecLongAdd t q).1 := by
  refine FirstCanon.fst ?_
  unfold State.vecLongAdd
  refine .ite (.mk hs) (.ite (.mk hs) ?_)
  have hd : TCanon ((s.tile t).spadRead q.a.toNat 32).1 := .spadRead (.tile hs)
  generalize (s.tile t).spadRead q.a.toNat 32 = d at hd ⊢
  have h : Canon (s.setTile t d.1) := .setTile hs hd
  have h' : ∀ rs, Canon ((s.setTile t d.1).setTile t (((s.setTile t d.1).tile t).readAll rs).1) :=
    fun _ => .setTile h (.readAll (.tile h))
  have hw : ∀ s ws, Canon s → FirstCanon (s.writeAll t ws) := fun _ _ h => .of (.writeAll h)
  refine .ite (.mk h) (.ite (.mk h) (.ite (.mk (.scramble (h' _))) (.ite (hw _ _ (h' _)) ?_)))
  exact hw _ _ (.ite (.onTile (.writeAll (h' _)) fun _ h => .setFld h) (.writeAll (h' _)))

/-! ### Functions of `Machine/StepOps` -/
theorem Canon.setPin {s : State} {n k v : Nat} (hs : Canon s) : Canon (s.setPin n k v) :=
  .setFld hs

theorem Canon.freeIt {s : State} {n k : Nat} (hs : Canon s) : Canon (s.freeIt n k) :=
  .setFld hs

theorem Canon.retireSlots {s : State} (hs : Canon s) : Canon s.retireSlots :=
  .foldl hs fun _ _ h0 => .foldl h0 fun _ _ h1 => .ite (.freeIt h1) h1

theorem Canon.unpin {s : State} {pins : List (Nat × Nat)} (hs : Canon s) : Canon (s.unpin pins) :=
  .retireSlots (.foldl hs fun _ _ h => .setPin h)

theorem Canon.sweepHalos {s : State} (hs : Canon s) : Canon s.sweepHalos :=
  .updLh hs

theorem Canon.openShadow {s : State} (hs : Canon s) : Canon s.openShadow :=
  .updLh (.foldl (.setFld (.setFld (.setFld hs))) fun _ _ h => by
    split
    · exact .setFld (.setFld (.setFld h))
    · exact h)

theorem Canon.placePins {s : State} {trails : Nat} (hs : Canon s) : Canon (s.placePins trails).1 := by
  refine .foldlOf hs fun _ _ h => ?_
  split
  · exact .setPin h
  · exact h

theorem Canon.dropShadow {s : State} {pins : List (Nat × Nat)} (hs : Canon s) : Canon (s.dropShadow pins) := by
  refine .unpin (.ite (.setFld (.foldl hs fun _ _ h => ?_)) hs)
  split
  · exact .freeIt h
  · exact h

theorem Canon.clearFallback {s : State} (hs : Canon s) : Canon s.clearFallback :=
  .foldl (.foldl hs fun _ _ h0 => .setFld h0) fun _ _ h1 => .onTile h1 fun _ h2 => .setFld (.setFld h2)

theorem Canon.formVote {s : State} {j : Job} {st : OpenStep} (hs : Canon s) : Canon (s.formVote j st) :=
  .updLh (.ite (.clearFallback (.foldl (.ite (.upd (.logGlow hs)) hs) fun _ _ h0 => .ite (.onTile h0 fun _ h1 =>
    .setTags h1) h0)) (.foldl (.ite (.upd (.logGlow hs)) hs) fun _ _ h2 => .ite (.onTile h2 fun _ h3 => .setTags h3)
    h2))

theorem Canon.takeVote {s : State} {j : Job} {st : OpenStep} {r : VoteResult} (hs : Canon s) : Canon (s.takeVote j st
    r) :=
  .setLh hs (by simp only [Lighthouse.setCopy_sram]) (by simp only [Lighthouse.setCopy_contexts])
    (by simp only [Lighthouse.setCopy_written])

theorem Canon.clearBlockTag {s : State} {j : Job} (hs : Canon s) : Canon (s.clearBlockTag j) :=
  .foldl hs fun _ _ h0 => .onTile h0 fun _ h1 => .setTags h1

theorem Canon.writeDraws {s : State} {x : StepState} (hs : Canon s) : Canon (s.writeDraws x) :=
  .foldl hs fun _ _ h0 => .onTile h0 fun _ h1 => .foldl h1 fun _ _ h2 => .setFld h2

theorem Canon.switchLayout {s : State} {j : Job} {r : Reshard} (hs : Canon s) : Canon (s.switchLayout j r) :=
  .updLh (.setJob (.foldl (.foldl hs fun _ _ h0 => .setFld h0) fun _ _ h1 => .setFld h1))

theorem Canon.flipMemory {s : State} {j : Job} {st : OpenStep} {commit : Bool} {reshard : Option Reshard} (hs : Canon
    s) : Canon (s.flipMemory j st commit reshard) := by
  refine .ite (.unpin hs) (.ite (.unpin (.updLh ?_)) (.ite (.updLh (.dropShadow hs)) (.dropShadow hs)))
  split
  · exact .switchLayout (.setFld (.setFld hs))
  · exact .setFld (.setFld hs)

theorem Canon.opState {s : State} {tag : BitVec 64} {v : Nat} (hs : Canon s) : Canon (s.opState tag v) :=
  .updHif hs

theorem Canon.freeModule {s : State} (hs : Canon s) : Canon s.freeModule := by
  unfold State.freeModule
  extract_lets s₁
  have h₁ : Canon s₁ := .foldl hs fun _ _ h => .wr h
  refine ⟨h₁.hbm, h₁.mem, h₁.sram, h₁.tiles, ?_, h₁.written⟩
  dsimp only
  split
  · exact fun c hc => h₁.contexts c (List.mem_filter.1 hc).1
  · exact h₁.contexts

theorem Canon.endWaiters {s : State} {j : Job} (hs : Canon s) : Canon (s.endWaiters j) := by
  unfold State.endWaiters
  extract_lets s₁ s₂ s₃
  have h₁ : Canon s₁ := .foldl hs fun _ _ h => .finish h
  have h₂ : Canon s₂ := .foldl h₁ fun _ _ h => .foldl h fun _ _ h => .finish h
  have h₃ : Canon s₃ := .foldl h₂ fun _ _ h => .finish h
  split
  · extract_lets s₄
    have h₄ : Canon s₄ := .ite (.foldl h₃ fun _ _ h => .finish h) h₃
    exact .ite (.finish h₄) (.ite (.finish h₄) h₄)
  · exact h₃

theorem Canon.closeJob {s : State} {j : Job} {c : BitVec 16} {result : Option (BitVec 64)} (hs : Canon s) :
    Canon (s.closeJob j c result) := by
  unfold State.closeJob
  extract_lets s₁ s₂
  have h₁ : Canon s₁ := by
    unfold s₁
    split
    · exact .finish hs
    · exact hs
  have h₂ : Canon s₂ := .ite (.freeModule (.endWaiters h₁)) h₁
  exact ⟨h₂.hbm, h₂.mem, h₂.sram, h₂.tiles, fun c hc => h₂.contexts c (List.mem_filter.1 hc).1, h₂.written⟩

theorem Canon.afterFlip {s : State} {j : Job} {st : OpenStep} {x : StepState} {commit : Bool} (hs : Canon s) :
    Canon (s.afterFlip j st x commit) := by
  unfold State.afterFlip
  extract_lets +onlyGivenNames counted split s₁ _ s₂ s₃
  have h₂ : Canon s₂ := .upd (.ite (.endJob hs) hs)
  have h₃ : Canon s₃ := .ite (.loseMember h₂) h₂
  clear_value s₃
  split
  · exact .closeJob h₃
  · exact .ite (.report (.opState (.setJob (.updLh h₃)))) (.updLh h₃)

theorem Canon.servedResults {s : State} {j : Job} {cursor : BitVec 64} (hs : Canon s) : Canon (s.servedResults j
    cursor) := by
  unfold State.servedResults
  split
  · exact .interim (.hostWrite hs)
  · exact hs

theorem Canon.evalOutput {s : State} {j : Job} (hs : Canon s) : Canon (s.evalOutput j) :=
  .updLh (.hostWrite (.hostWrite (.drawBytes (.draw hs))))

theorem Canon.applyFlip {s : State} {j : Job} {st : OpenStep} {late : Bool} (hs : Canon s) : Canon (s.applyFlip j st
    late) :=
  .afterFlip (.upd (.ite (.ite (.report (.ite (.report (.ite (.report (.updLh (.ite (.updLh (.ite (.evalOutput (.ite
    (.servedResults (.writeDraws (.clearBlockTag (.ite (.bumpFld (.updLh (.flipMemory hs))) (.updLh (.flipMemory
    hs)))))) (.writeDraws (.clearBlockTag (.ite (.bumpFld (.updLh (.flipMemory hs))) (.updLh (.flipMemory hs)))))))
    (.ite (.servedResults (.writeDraws (.clearBlockTag (.ite (.bumpFld (.updLh (.flipMemory hs))) (.updLh (.flipMemory
    hs)))))) (.writeDraws (.clearBlockTag (.ite (.bumpFld (.updLh (.flipMemory hs))) (.updLh (.flipMemory hs))))))))
    (.updLh (.foldl (.foldl (.ite (.evalOutput (.ite (.servedResults (.writeDraws (.clearBlockTag (.ite (.bumpFld
    (.updLh (.flipMemory hs))) (.updLh (.flipMemory hs)))))) (.writeDraws (.clearBlockTag (.ite (.bumpFld (.updLh
    (.flipMemory hs))) (.updLh (.flipMemory hs))))))) (.ite (.servedResults (.writeDraws (.clearBlockTag (.ite
    (.bumpFld (.updLh (.flipMemory hs))) (.updLh (.flipMemory hs)))))) (.writeDraws (.clearBlockTag (.ite (.bumpFld
    (.updLh (.flipMemory hs))) (.updLh (.flipMemory hs))))))) fun _ _ h0 => .resetCore h0) fun _ _ h1 => .foldl h1 fun
    _ _ h2 => .setFld h2))))) (.updLh (.ite (.updLh (.ite (.evalOutput (.ite (.servedResults (.writeDraws
    (.clearBlockTag (.ite (.bumpFld (.updLh (.flipMemory hs))) (.updLh (.flipMemory hs)))))) (.writeDraws
    (.clearBlockTag (.ite (.bumpFld (.updLh (.flipMemory hs))) (.updLh (.flipMemory hs))))))) (.ite (.servedResults
    (.writeDraws (.clearBlockTag (.ite (.bumpFld (.updLh (.flipMemory hs))) (.updLh (.flipMemory hs)))))) (.writeDraws
    (.clearBlockTag (.ite (.bumpFld (.updLh (.flipMemory hs))) (.updLh (.flipMemory hs)))))))) (.updLh (.foldl (.foldl
    (.ite (.evalOutput (.ite (.servedResults (.writeDraws (.clearBlockTag (.ite (.bumpFld (.updLh (.flipMemory hs)))
    (.updLh (.flipMemory hs)))))) (.writeDraws (.clearBlockTag (.ite (.bumpFld (.updLh (.flipMemory hs))) (.updLh
    (.flipMemory hs))))))) (.ite (.servedResults (.writeDraws (.clearBlockTag (.ite (.bumpFld (.updLh (.flipMemory
    hs))) (.updLh (.flipMemory hs)))))) (.writeDraws (.clearBlockTag (.ite (.bumpFld (.updLh (.flipMemory hs)))
    (.updLh (.flipMemory hs))))))) fun _ _ h3 => .resetCore h3) fun _ _ h4 => .foldl h4 fun _ _ h5 => .setFld h5))))))
    (.ite (.report (.updLh (.ite (.updLh (.ite (.evalOutput (.ite (.servedResults (.writeDraws (.clearBlockTag (.ite
    (.bumpFld (.updLh (.flipMemory hs))) (.updLh (.flipMemory hs)))))) (.writeDraws (.clearBlockTag (.ite (.bumpFld
    (.updLh (.flipMemory hs))) (.updLh (.flipMemory hs))))))) (.ite (.servedResults (.writeDraws (.clearBlockTag (.ite
    (.bumpFld (.updLh (.flipMemory hs))) (.updLh (.flipMemory hs)))))) (.writeDraws (.clearBlockTag (.ite (.bumpFld
    (.updLh (.flipMemory hs))) (.updLh (.flipMemory hs)))))))) (.updLh (.foldl (.foldl (.ite (.evalOutput (.ite
    (.servedResults (.writeDraws (.clearBlockTag (.ite (.bumpFld (.updLh (.flipMemory hs))) (.updLh (.flipMemory
    hs)))))) (.writeDraws (.clearBlockTag (.ite (.bumpFld (.updLh (.flipMemory hs))) (.updLh (.flipMemory hs)))))))
    (.ite (.servedResults (.writeDraws (.clearBlockTag (.ite (.bumpFld (.updLh (.flipMemory hs))) (.updLh (.flipMemory
    hs)))))) (.writeDraws (.clearBlockTag (.ite (.bumpFld (.updLh (.flipMemory hs))) (.updLh (.flipMemory hs)))))))
    fun _ _ h6 => .resetCore h6) fun _ _ h7 => .foldl h7 fun _ _ h8 => .setFld h8))))) (.updLh (.ite (.updLh (.ite
    (.evalOutput (.ite (.servedResults (.writeDraws (.clearBlockTag (.ite (.bumpFld (.updLh (.flipMemory hs))) (.updLh
    (.flipMemory hs)))))) (.writeDraws (.clearBlockTag (.ite (.bumpFld (.updLh (.flipMemory hs))) (.updLh (.flipMemory
    hs))))))) (.ite (.servedResults (.writeDraws (.clearBlockTag (.ite (.bumpFld (.updLh (.flipMemory hs))) (.updLh
    (.flipMemory hs)))))) (.writeDraws (.clearBlockTag (.ite (.bumpFld (.updLh (.flipMemory hs))) (.updLh (.flipMemory
    hs)))))))) (.updLh (.foldl (.foldl (.ite (.evalOutput (.ite (.servedResults (.writeDraws (.clearBlockTag (.ite
    (.bumpFld (.updLh (.flipMemory hs))) (.updLh (.flipMemory hs)))))) (.writeDraws (.clearBlockTag (.ite (.bumpFld
    (.updLh (.flipMemory hs))) (.updLh (.flipMemory hs))))))) (.ite (.servedResults (.writeDraws (.clearBlockTag (.ite
    (.bumpFld (.updLh (.flipMemory hs))) (.updLh (.flipMemory hs)))))) (.writeDraws (.clearBlockTag (.ite (.bumpFld
    (.updLh (.flipMemory hs))) (.updLh (.flipMemory hs))))))) fun _ _ h9 => .resetCore h9) fun _ _ h10 => .foldl h10
    fun _ _ h11 => .setFld h11))))))) (.ite (.report (.ite (.report (.updLh (.ite (.updLh (.ite (.evalOutput (.ite
    (.servedResults (.writeDraws (.clearBlockTag (.ite (.bumpFld (.updLh (.flipMemory hs))) (.updLh (.flipMemory
    hs)))))) (.writeDraws (.clearBlockTag (.ite (.bumpFld (.updLh (.flipMemory hs))) (.updLh (.flipMemory hs)))))))
    (.ite (.servedResults (.writeDraws (.clearBlockTag (.ite (.bumpFld (.updLh (.flipMemory hs))) (.updLh (.flipMemory
    hs)))))) (.writeDraws (.clearBlockTag (.ite (.bumpFld (.updLh (.flipMemory hs))) (.updLh (.flipMemory hs))))))))
    (.updLh (.foldl (.foldl (.ite (.evalOutput (.ite (.servedResults (.writeDraws (.clearBlockTag (.ite (.bumpFld
    (.updLh (.flipMemory hs))) (.updLh (.flipMemory hs)))))) (.writeDraws (.clearBlockTag (.ite (.bumpFld (.updLh
    (.flipMemory hs))) (.updLh (.flipMemory hs))))))) (.ite (.servedResults (.writeDraws (.clearBlockTag (.ite
    (.bumpFld (.updLh (.flipMemory hs))) (.updLh (.flipMemory hs)))))) (.writeDraws (.clearBlockTag (.ite (.bumpFld
    (.updLh (.flipMemory hs))) (.updLh (.flipMemory hs))))))) fun _ _ h12 => .resetCore h12) fun _ _ h13 => .foldl h13
    fun _ _ h14 => .setFld h14))))) (.updLh (.ite (.updLh (.ite (.evalOutput (.ite (.servedResults (.writeDraws
    (.clearBlockTag (.ite (.bumpFld (.updLh (.flipMemory hs))) (.updLh (.flipMemory hs)))))) (.writeDraws
    (.clearBlockTag (.ite (.bumpFld (.updLh (.flipMemory hs))) (.updLh (.flipMemory hs))))))) (.ite (.servedResults
    (.writeDraws (.clearBlockTag (.ite (.bumpFld (.updLh (.flipMemory hs))) (.updLh (.flipMemory hs)))))) (.writeDraws
    (.clearBlockTag (.ite (.bumpFld (.updLh (.flipMemory hs))) (.updLh (.flipMemory hs)))))))) (.updLh (.foldl (.foldl
    (.ite (.evalOutput (.ite (.servedResults (.writeDraws (.clearBlockTag (.ite (.bumpFld (.updLh (.flipMemory hs)))
    (.updLh (.flipMemory hs)))))) (.writeDraws (.clearBlockTag (.ite (.bumpFld (.updLh (.flipMemory hs))) (.updLh
    (.flipMemory hs))))))) (.ite (.servedResults (.writeDraws (.clearBlockTag (.ite (.bumpFld (.updLh (.flipMemory
    hs))) (.updLh (.flipMemory hs)))))) (.writeDraws (.clearBlockTag (.ite (.bumpFld (.updLh (.flipMemory hs)))
    (.updLh (.flipMemory hs))))))) fun _ _ h15 => .resetCore h15) fun _ _ h16 => .foldl h16 fun _ _ h17 => .setFld
    h17)))))) (.ite (.report (.updLh (.ite (.updLh (.ite (.evalOutput (.ite (.servedResults (.writeDraws
    (.clearBlockTag (.ite (.bumpFld (.updLh (.flipMemory hs))) (.updLh (.flipMemory hs)))))) (.writeDraws
    (.clearBlockTag (.ite (.bumpFld (.updLh (.flipMemory hs))) (.updLh (.flipMemory hs))))))) (.ite (.servedResults
    (.writeDraws (.clearBlockTag (.ite (.bumpFld (.updLh (.flipMemory hs))) (.updLh (.flipMemory hs)))))) (.writeDraws
    (.clearBlockTag (.ite (.bumpFld (.updLh (.flipMemory hs))) (.updLh (.flipMemory hs)))))))) (.updLh (.foldl (.foldl
    (.ite (.evalOutput (.ite (.servedResults (.writeDraws (.clearBlockTag (.ite (.bumpFld (.updLh (.flipMemory hs)))
    (.updLh (.flipMemory hs)))))) (.writeDraws (.clearBlockTag (.ite (.bumpFld (.updLh (.flipMemory hs))) (.updLh
    (.flipMemory hs))))))) (.ite (.servedResults (.writeDraws (.clearBlockTag (.ite (.bumpFld (.updLh (.flipMemory
    hs))) (.updLh (.flipMemory hs)))))) (.writeDraws (.clearBlockTag (.ite (.bumpFld (.updLh (.flipMemory hs)))
    (.updLh (.flipMemory hs))))))) fun _ _ h18 => .resetCore h18) fun _ _ h19 => .foldl h19 fun _ _ h20 => .setFld
    h20))))) (.updLh (.ite (.updLh (.ite (.evalOutput (.ite (.servedResults (.writeDraws (.clearBlockTag (.ite
    (.bumpFld (.updLh (.flipMemory hs))) (.updLh (.flipMemory hs)))))) (.writeDraws (.clearBlockTag (.ite (.bumpFld
    (.updLh (.flipMemory hs))) (.updLh (.flipMemory hs))))))) (.ite (.servedResults (.writeDraws (.clearBlockTag (.ite
    (.bumpFld (.updLh (.flipMemory hs))) (.updLh (.flipMemory hs)))))) (.writeDraws (.clearBlockTag (.ite (.bumpFld
    (.updLh (.flipMemory hs))) (.updLh (.flipMemory hs)))))))) (.updLh (.foldl (.foldl (.ite (.evalOutput (.ite
    (.servedResults (.writeDraws (.clearBlockTag (.ite (.bumpFld (.updLh (.flipMemory hs))) (.updLh (.flipMemory
    hs)))))) (.writeDraws (.clearBlockTag (.ite (.bumpFld (.updLh (.flipMemory hs))) (.updLh (.flipMemory hs)))))))
    (.ite (.servedResults (.writeDraws (.clearBlockTag (.ite (.bumpFld (.updLh (.flipMemory hs))) (.updLh (.flipMemory
    hs)))))) (.writeDraws (.clearBlockTag (.ite (.bumpFld (.updLh (.flipMemory hs))) (.updLh (.flipMemory hs)))))))
    fun _ _ h21 => .resetCore h21) fun _ _ h22 => .foldl h22 fun _ _ h23 => .setFld h23))))))) (.foldl (.ite (.report
    (.ite (.report (.ite (.report (.updLh (.ite (.updLh (.ite (.evalOutput (.ite (.servedResults (.writeDraws
    (.clearBlockTag (.ite (.bumpFld (.updLh (.flipMemory hs))) (.updLh (.flipMemory hs)))))) (.writeDraws
    (.clearBlockTag (.ite (.bumpFld (.updLh (.flipMemory hs))) (.updLh (.flipMemory hs))))))) (.ite (.servedResults
    (.writeDraws (.clearBlockTag (.ite (.bumpFld (.updLh (.flipMemory hs))) (.updLh (.flipMemory hs)))))) (.writeDraws
    (.clearBlockTag (.ite (.bumpFld (.updLh (.flipMemory hs))) (.updLh (.flipMemory hs)))))))) (.updLh (.foldl (.foldl
    (.ite (.evalOutput (.ite (.servedResults (.writeDraws (.clearBlockTag (.ite (.bumpFld (.updLh (.flipMemory hs)))
    (.updLh (.flipMemory hs)))))) (.writeDraws (.clearBlockTag (.ite (.bumpFld (.updLh (.flipMemory hs))) (.updLh
    (.flipMemory hs))))))) (.ite (.servedResults (.writeDraws (.clearBlockTag (.ite (.bumpFld (.updLh (.flipMemory
    hs))) (.updLh (.flipMemory hs)))))) (.writeDraws (.clearBlockTag (.ite (.bumpFld (.updLh (.flipMemory hs)))
    (.updLh (.flipMemory hs))))))) fun _ _ h24 => .resetCore h24) fun _ _ h25 => .foldl h25 fun _ _ h26 => .setFld
    h26))))) (.updLh (.ite (.updLh (.ite (.evalOutput (.ite (.servedResults (.writeDraws (.clearBlockTag (.ite
    (.bumpFld (.updLh (.flipMemory hs))) (.updLh (.flipMemory hs)))))) (.writeDraws (.clearBlockTag (.ite (.bumpFld
    (.updLh (.flipMemory hs))) (.updLh (.flipMemory hs))))))) (.ite (.servedResults (.writeDraws (.clearBlockTag (.ite
    (.bumpFld (.updLh (.flipMemory hs))) (.updLh (.flipMemory hs)))))) (.writeDraws (.clearBlockTag (.ite (.bumpFld
    (.updLh (.flipMemory hs))) (.updLh (.flipMemory hs)))))))) (.updLh (.foldl (.foldl (.ite (.evalOutput (.ite
    (.servedResults (.writeDraws (.clearBlockTag (.ite (.bumpFld (.updLh (.flipMemory hs))) (.updLh (.flipMemory
    hs)))))) (.writeDraws (.clearBlockTag (.ite (.bumpFld (.updLh (.flipMemory hs))) (.updLh (.flipMemory hs)))))))
    (.ite (.servedResults (.writeDraws (.clearBlockTag (.ite (.bumpFld (.updLh (.flipMemory hs))) (.updLh (.flipMemory
    hs)))))) (.writeDraws (.clearBlockTag (.ite (.bumpFld (.updLh (.flipMemory hs))) (.updLh (.flipMemory hs)))))))
    fun _ _ h27 => .resetCore h27) fun _ _ h28 => .foldl h28 fun _ _ h29 => .setFld h29)))))) (.ite (.report (.updLh
    (.ite (.updLh (.ite (.evalOutput (.ite (.servedResults (.writeDraws (.clearBlockTag (.ite (.bumpFld (.updLh
    (.flipMemory hs))) (.updLh (.flipMemory hs)))))) (.writeDraws (.clearBlockTag (.ite (.bumpFld (.updLh (.flipMemory
    hs))) (.updLh (.flipMemory hs))))))) (.ite (.servedResults (.writeDraws (.clearBlockTag (.ite (.bumpFld (.updLh
    (.flipMemory hs))) (.updLh (.flipMemory hs)))))) (.writeDraws (.clearBlockTag (.ite (.bumpFld (.updLh (.flipMemory
    hs))) (.updLh (.flipMemory hs)))))))) (.updLh (.foldl (.foldl (.ite (.evalOutput (.ite (.servedResults
    (.writeDraws (.clearBlockTag (.ite (.bumpFld (.updLh (.flipMemory hs))) (.updLh (.flipMemory hs)))))) (.writeDraws
    (.clearBlockTag (.ite (.bumpFld (.updLh (.flipMemory hs))) (.updLh (.flipMemory hs))))))) (.ite (.servedResults
    (.writeDraws (.clearBlockTag (.ite (.bumpFld (.updLh (.flipMemory hs))) (.updLh (.flipMemory hs)))))) (.writeDraws
    (.clearBlockTag (.ite (.bumpFld (.updLh (.flipMemory hs))) (.updLh (.flipMemory hs))))))) fun _ _ h30 =>
    .resetCore h30) fun _ _ h31 => .foldl h31 fun _ _ h32 => .setFld h32))))) (.updLh (.ite (.updLh (.ite (.evalOutput
    (.ite (.servedResults (.writeDraws (.clearBlockTag (.ite (.bumpFld (.updLh (.flipMemory hs))) (.updLh (.flipMemory
    hs)))))) (.writeDraws (.clearBlockTag (.ite (.bumpFld (.updLh (.flipMemory hs))) (.updLh (.flipMemory hs)))))))
    (.ite (.servedResults (.writeDraws (.clearBlockTag (.ite (.bumpFld (.updLh (.flipMemory hs))) (.updLh (.flipMemory
    hs)))))) (.writeDraws (.clearBlockTag (.ite (.bumpFld (.updLh (.flipMemory hs))) (.updLh (.flipMemory hs))))))))
    (.updLh (.foldl (.foldl (.ite (.evalOutput (.ite (.servedResults (.writeDraws (.clearBlockTag (.ite (.bumpFld
    (.updLh (.flipMemory hs))) (.updLh (.flipMemory hs)))))) (.writeDraws (.clearBlockTag (.ite (.bumpFld (.updLh
    (.flipMemory hs))) (.updLh (.flipMemory hs))))))) (.ite (.servedResults (.writeDraws (.clearBlockTag (.ite
    (.bumpFld (.updLh (.flipMemory hs))) (.updLh (.flipMemory hs)))))) (.writeDraws (.clearBlockTag (.ite (.bumpFld
    (.updLh (.flipMemory hs))) (.updLh (.flipMemory hs))))))) fun _ _ h33 => .resetCore h33) fun _ _ h34 => .foldl h34
    fun _ _ h35 => .setFld h35))))))) (.ite (.report (.ite (.report (.updLh (.ite (.updLh (.ite (.evalOutput (.ite
    (.servedResults (.writeDraws (.clearBlockTag (.ite (.bumpFld (.updLh (.flipMemory hs))) (.updLh (.flipMemory
    hs)))))) (.writeDraws (.clearBlockTag (.ite (.bumpFld (.updLh (.flipMemory hs))) (.updLh (.flipMemory hs)))))))
    (.ite (.servedResults (.writeDraws (.clearBlockTag (.ite (.bumpFld (.updLh (.flipMemory hs))) (.updLh (.flipMemory
    hs)))))) (.writeDraws (.clearBlockTag (.ite (.bumpFld (.updLh (.flipMemory hs))) (.updLh (.flipMemory hs))))))))
    (.updLh (.foldl (.foldl (.ite (.evalOutput (.ite (.servedResults (.writeDraws (.clearBlockTag (.ite (.bumpFld
    (.updLh (.flipMemory hs))) (.updLh (.flipMemory hs)))))) (.writeDraws (.clearBlockTag (.ite (.bumpFld (.updLh
    (.flipMemory hs))) (.updLh (.flipMemory hs))))))) (.ite (.servedResults (.writeDraws (.clearBlockTag (.ite
    (.bumpFld (.updLh (.flipMemory hs))) (.updLh (.flipMemory hs)))))) (.writeDraws (.clearBlockTag (.ite (.bumpFld
    (.updLh (.flipMemory hs))) (.updLh (.flipMemory hs))))))) fun _ _ h36 => .resetCore h36) fun _ _ h37 => .foldl h37
    fun _ _ h38 => .setFld h38))))) (.updLh (.ite (.updLh (.ite (.evalOutput (.ite (.servedResults (.writeDraws
    (.clearBlockTag (.ite (.bumpFld (.updLh (.flipMemory hs))) (.updLh (.flipMemory hs)))))) (.writeDraws
    (.clearBlockTag (.ite (.bumpFld (.updLh (.flipMemory hs))) (.updLh (.flipMemory hs))))))) (.ite (.servedResults
    (.writeDraws (.clearBlockTag (.ite (.bumpFld (.updLh (.flipMemory hs))) (.updLh (.flipMemory hs)))))) (.writeDraws
    (.clearBlockTag (.ite (.bumpFld (.updLh (.flipMemory hs))) (.updLh (.flipMemory hs)))))))) (.updLh (.foldl (.foldl
    (.ite (.evalOutput (.ite (.servedResults (.writeDraws (.clearBlockTag (.ite (.bumpFld (.updLh (.flipMemory hs)))
    (.updLh (.flipMemory hs)))))) (.writeDraws (.clearBlockTag (.ite (.bumpFld (.updLh (.flipMemory hs))) (.updLh
    (.flipMemory hs))))))) (.ite (.servedResults (.writeDraws (.clearBlockTag (.ite (.bumpFld (.updLh (.flipMemory
    hs))) (.updLh (.flipMemory hs)))))) (.writeDraws (.clearBlockTag (.ite (.bumpFld (.updLh (.flipMemory hs)))
    (.updLh (.flipMemory hs))))))) fun _ _ h39 => .resetCore h39) fun _ _ h40 => .foldl h40 fun _ _ h41 => .setFld
    h41)))))) (.ite (.report (.updLh (.ite (.updLh (.ite (.evalOutput (.ite (.servedResults (.writeDraws
    (.clearBlockTag (.ite (.bumpFld (.updLh (.flipMemory hs))) (.updLh (.flipMemory hs)))))) (.writeDraws
    (.clearBlockTag (.ite (.bumpFld (.updLh (.flipMemory hs))) (.updLh (.flipMemory hs))))))) (.ite (.servedResults
    (.writeDraws (.clearBlockTag (.ite (.bumpFld (.updLh (.flipMemory hs))) (.updLh (.flipMemory hs)))))) (.writeDraws
    (.clearBlockTag (.ite (.bumpFld (.updLh (.flipMemory hs))) (.updLh (.flipMemory hs)))))))) (.updLh (.foldl (.foldl
    (.ite (.evalOutput (.ite (.servedResults (.writeDraws (.clearBlockTag (.ite (.bumpFld (.updLh (.flipMemory hs)))
    (.updLh (.flipMemory hs)))))) (.writeDraws (.clearBlockTag (.ite (.bumpFld (.updLh (.flipMemory hs))) (.updLh
    (.flipMemory hs))))))) (.ite (.servedResults (.writeDraws (.clearBlockTag (.ite (.bumpFld (.updLh (.flipMemory
    hs))) (.updLh (.flipMemory hs)))))) (.writeDraws (.clearBlockTag (.ite (.bumpFld (.updLh (.flipMemory hs)))
    (.updLh (.flipMemory hs))))))) fun _ _ h42 => .resetCore h42) fun _ _ h43 => .foldl h43 fun _ _ h44 => .setFld
    h44))))) (.updLh (.ite (.updLh (.ite (.evalOutput (.ite (.servedResults (.writeDraws (.clearBlockTag (.ite
    (.bumpFld (.updLh (.flipMemory hs))) (.updLh (.flipMemory hs)))))) (.writeDraws (.clearBlockTag (.ite (.bumpFld
    (.updLh (.flipMemory hs))) (.updLh (.flipMemory hs))))))) (.ite (.servedResults (.writeDraws (.clearBlockTag (.ite
    (.bumpFld (.updLh (.flipMemory hs))) (.updLh (.flipMemory hs)))))) (.writeDraws (.clearBlockTag (.ite (.bumpFld
    (.updLh (.flipMemory hs))) (.updLh (.flipMemory hs)))))))) (.updLh (.foldl (.foldl (.ite (.evalOutput (.ite
    (.servedResults (.writeDraws (.clearBlockTag (.ite (.bumpFld (.updLh (.flipMemory hs))) (.updLh (.flipMemory
    hs)))))) (.writeDraws (.clearBlockTag (.ite (.bumpFld (.updLh (.flipMemory hs))) (.updLh (.flipMemory hs)))))))
    (.ite (.servedResults (.writeDraws (.clearBlockTag (.ite (.bumpFld (.updLh (.flipMemory hs))) (.updLh (.flipMemory
    hs)))))) (.writeDraws (.clearBlockTag (.ite (.bumpFld (.updLh (.flipMemory hs))) (.updLh (.flipMemory hs)))))))
    fun _ _ h45 => .resetCore h45) fun _ _ h46 => .foldl h46 fun _ _ h47 => .setFld h47))))))) fun _ _ h48 => .setUnit
    h48)))

theorem Canon.abandonStep {s : State} (hs : Canon s) : Canon s.abandonStep := by
  unfold State.abandonStep
  split
  next st j _ _ =>
    extract_lets +onlyGivenNames s₁
    have h₁ : Canon s₁ := .ite (.unpin hs) (.dropShadow hs)
    have h₂ : Canon (s₁.clearBlockTag j) := .clearBlockTag h₁
    exact ⟨h₂.hbm, h₂.mem, h₁.sram, h₂.tiles, h₁.contexts, h₁.written⟩
  · exact .updLh hs

/-! ### Functions of `Machine/BeaconOps` -/
theorem Canon.setTree {s : State} {m : Nat} {r : Option TreeRun} (hs : Canon s) : Canon (s.setTree m r) :=
  .upd hs

theorem Canon.startTree {s : State} {m op : Nat} {v tc tr : BitVec 64} {level height depth : Nat} {barrier : Bool} (hs
    : Canon s) : Canon (s.startTree m op v tc tr level height depth barrier) :=
  .upd (.setTree (.setFld hs))

theorem Canon.applyResult {s : State} {m : Nat} {r : TreeRun} {x : BitVec 64 × Nat × Option Nat} (hs : Canon s) :
    Canon (s.applyResult m r x) := by
  refine .ite (.ite (.ite (.semApply (.setFld ?_)) (.setFld ?_)) (.report (.setFld ?_))) ?_
  · split
    · refine .ite (.updLh ?_) ?_
      · split
        · exact .takeVote (.setFld (.setFld (.setFld (.ite (.bumpFld (.setTree hs)) (.setTree hs)))))
        · exact .setFld (.setFld (.setFld (.ite (.bumpFld (.setTree hs)) (.setTree hs))))
      · split
        · exact .takeVote (.setFld (.setFld (.setFld (.ite (.bumpFld (.setTree hs)) (.setTree hs)))))
        · exact .setFld (.setFld (.setFld (.ite (.bumpFld (.setTree hs)) (.setTree hs))))
    · split
      · exact .takeVote (.setFld (.setFld (.setFld (.ite (.bumpFld (.setTree hs)) (.setTree hs)))))
      · exact .setFld (.setFld (.setFld (.ite (.bumpFld (.setTree hs)) (.setTree hs))))
  · split
    · refine .ite (.updLh ?_) ?_
      · split
        · exact .takeVote (.setFld (.setFld (.setFld (.ite (.bumpFld (.setTree hs)) (.setTree hs)))))
        · exact .setFld (.setFld (.setFld (.ite (.bumpFld (.setTree hs)) (.setTree hs))))
      · split
        · exact .takeVote (.setFld (.setFld (.setFld (.ite (.bumpFld (.setTree hs)) (.setTree hs)))))
        · exact .setFld (.setFld (.setFld (.ite (.bumpFld (.setTree hs)) (.setTree hs))))
    · split
      · exact .takeVote (.setFld (.setFld (.setFld (.ite (.bumpFld (.setTree hs)) (.setTree hs)))))
      · exact .setFld (.setFld (.setFld (.ite (.bumpFld (.setTree hs)) (.setTree hs))))
  · split
    · refine .ite (.updLh ?_) ?_
      · split
        · exact .takeVote (.setFld (.setFld (.setFld (.ite (.bumpFld (.setTree hs)) (.setTree hs)))))
        · exact .setFld (.setFld (.setFld (.ite (.bumpFld (.setTree hs)) (.setTree hs))))
      · split
        · exact .takeVote (.setFld (.setFld (.setFld (.ite (.bumpFld (.setTree hs)) (.setTree hs)))))
        · exact .setFld (.setFld (.setFld (.ite (.bumpFld (.setTree hs)) (.setTree hs))))
    · split
      · exact .takeVote (.setFld (.setFld (.setFld (.ite (.bumpFld (.setTree hs)) (.setTree hs)))))
      · exact .setFld (.setFld (.setFld (.ite (.bumpFld (.setTree hs)) (.setTree hs))))
  · split
    · refine .ite (.updLh ?_) ?_
      · split
        · exact .takeVote (.setFld (.setFld (.setFld (.ite (.bumpFld (.setTree hs)) (.setTree hs)))))
        · exact .setFld (.setFld (.setFld (.ite (.bumpFld (.setTree hs)) (.setTree hs))))
      · split
        · exact .takeVote (.setFld (.setFld (.setFld (.ite (.bumpFld (.setTree hs)) (.setTree hs)))))
        · exact .setFld (.setFld (.setFld (.ite (.bumpFld (.setTree hs)) (.setTree hs))))
    · split
      · exact .takeVote (.setFld (.setFld (.setFld (.ite (.bumpFld (.setTree hs)) (.setTree hs)))))
      · exact .setFld (.setFld (.setFld (.ite (.bumpFld (.setTree hs)) (.setTree hs))))

theorem Canon.closeNode {s : State} {m : Nat} (hs : Canon s) : Canon (s.closeNode m) := by
  unfold State.closeNode
  split
  · exact hs
  · exact .ite hs (.ite (.foldl (.setTree (.ite (.foldl hs fun _ _ h0 => .loseMember h0) hs)) fun _ _ h1 => .control
    h1) (.control (.setTree (.ite (.foldl hs fun _ _ h2 => .loseMember h2) hs))))

theorem Canon.applyDue {s : State} {m : Nat} (hs : Canon s) : Canon (s.applyDue m) := by
  unfold State.applyDue
  split
  · exact hs
  · split
    · exact .ite hs (.applyResult hs)
    · exact hs

theorem Canon.changeMap {s : State} (hs : Canon s) : Canon s.changeMap :=
  .ite (.upd (.foldl hs fun _ _ h => .applyMove h)) hs

theorem Canon.changeTick {s : State} (hs : Canon s) : Canon s.changeTick := by
  unfold State.changeTick
  split
  · exact .ite (.upd (.setFld hs)) hs
  · exact hs

theorem Canon.closeDue {s : State} (hs : Canon s) : Canon s.closeDue :=
  .foldl hs fun _ _ h => .closeNode h

theorem Canon.flipDue {s : State} (hs : Canon s) : Canon s.flipDue := by
  unfold State.flipDue
  split
  · exact .ite hs (.applyFlip hs)
  · exact hs

theorem Canon.runDue {s : State} {k : Nat} (hs : Canon s) : Canon (s.runDue k) :=
  .ite hs (.ite (.flipDue (.ite (.closeDue (.ite (.changeTick (.ite (.changeMap hs) hs)) (.ite (.changeMap hs) hs)))
    (.ite (.changeTick (.ite (.changeMap hs) hs)) (.ite (.changeMap hs) hs)))) (.ite (.closeDue (.ite (.changeTick
    (.ite (.changeMap hs) hs)) (.ite (.changeMap hs) hs))) (.ite (.changeTick (.ite (.changeMap hs) hs)) (.ite
    (.changeMap hs) hs))))

theorem Canon.tellMembers {s : State} {box : List Nat} {bs : List Byte} (hs : Canon s) : Canon (s.tellMembers box bs)
    :=
  .foldl hs fun _ _ h => .controlTo h

theorem Canon.scheduleTick {s : State} {ns : Nat} (hs : Canon s) : Canon (s.scheduleTick ns) :=
  .foldl (.upd hs) fun _ _ h => .controlTo h

theorem Canon.askTick {s : State} {ns : Nat} (hs : Canon s) : Canon (s.askTick ns) :=
  .ite (.scheduleTick hs) (.controlTo hs)

theorem Canon.takeTick {s : State} {v : Nat} (hs : Canon s) : Canon (s.takeTick v) :=
  .ite (.upd hs) (.ite hs (.ite (.report hs) (.scheduleTick hs)))

theorem Canon.openAt {s : State} {id n : BitVec 64} (hs : Canon s) : Canon (s.openAt id n) :=
  .ite (.updLh (.abandonStep hs)) hs

theorem Canon.setFirstOpen {s : State} {j : Job} (hs : Canon s) : Canon (s.setFirstOpen j) :=
  .ite hs (.openAt (.tellMembers hs))

theorem Canon.newFirstOpen {s : State} {j : Job} (hs : Canon s) : Canon (s.newFirstOpen j) :=
  .ite (.setFirstOpen (.abandonStep hs)) (.controlTo (.updLh (.abandonStep hs)))

theorem Canon.takeCount {s : State} {c : BitVec 64} (hs : Canon s) : Canon (s.takeCount c) := by
  unfold State.takeCount
  extract_lets
  split
  · exact .newFirstOpen (.foldl (.setFld (.setFld hs)) fun _ _ h0 => .report h0)
  · exact .foldl (.setFld (.setFld hs)) fun _ _ h1 => .report h1

theorem Canon.hopsOf {s : State} {p : Nat} (hs : Canon s) : Canon (s.hopsOf p).2 := by
  unfold State.hopsOf
  split
  · exact hs
  · exact .draw (w := 8) hs

theorem Canon.noteSource {s : State} {p : Nat} (hs : Canon s) : Canon (s.noteSource p) :=
  .upd (.dropSource (.hopsOf hs))

theorem Canon.lockTo {s : State} {p : Nat} (hs : Canon s) : Canon (s.lockTo p) :=
  .upd (.dropSource (.setFld (.setFld hs)))

theorem Canon.newParent {s : State} {p : Nat} {term : BitVec 16} (hs : Canon s) : Canon (s.newParent p term) :=
  .ite (.setFld (.hopsOf hs)) (.upd (.setFld (.setFld (.draw (.draw (.setFld (.hopsOf hs)))))))

theorem Canon.disagrees {s : State} {p : Nat} (hs : Canon s) : Canon (s.disagrees p) := by
  refine .ite ?_ (.dropSource (.bumpFld hs))
  split
  · exact .lockTo (.newParent (.dropSource (.bumpFld hs)))
  · exact .report (.setFld (.setFld (.dropSource (.bumpFld hs))))

theorem Canon.checkLow {s : State} {p low : Nat} (hs : Canon s) : Canon (s.checkLow p low) :=
  .ite (.disagrees hs) hs

theorem Canon.advertise {s : State} (hs : Canon s) : Canon s.advertise := by
  unfold State.advertise
  split
  · exact hs
  · exact .foldl (.ite (.upd hs) hs) fun _ _ h => .control h

theorem Canon.elect {s : State} {term : Nat} (hs : Canon s) : Canon (s.elect term) :=
  .advertise (.upd (.setFld (.setFld hs)))

/-! ### Functions of `Machine/Sys` -/
theorem TCanon.wake {t : Tile} {rd events extra : Nat} (ht : TCanon t) : TCanon (t.wake rd events extra) :=
  .upd (.putS (.setFld ht))

/-! ### Functions of `Machine/Hbm` -/
theorem Canon.gatherPlain {s : State} {a n : Nat} (hs : Canon s) : Canon (s.gatherPlain a n).st :=
  .iteOf hs (.foldlOf hs fun _ _ h => .iteOf h (.readPart h))

theorem Canon.gatherBlocks {s : State} {blk k g lepoch : Nat} (hs : Canon s) : Canon (s.gatherBlocks blk k g
    lepoch).st :=
  .foldlOf hs fun _ _ h => .iteOf h (.readBlock h)

theorem Canon.replyRead {s : State} {r : HbmReq} {data : List Byte} (hs : Canon s) : Canon (s.replyRead r data) := by
  unfold State.replyRead
  split
  · exact .send hs
  · exact .sendReply hs
  · exact hs

theorem Canon.writeArrival {s : State} {r : HbmReq} {bs : List Byte} (hs : Canon s) : Canon (s.writeArrival r bs).1 :=
  .foldlOf hs fun _ _ h => .iteOf h (.writeBlock (.ite (.logGlow (.bumpFld h)) h))

theorem Canon.serveReq {s : State} {r : HbmReq} (hs : Canon s) : Canon (s.serveReq r) := by
  unfold State.serveReq
  split
  · exact .ite (.refuseHbm (.iteOf (.gatherBlocks hs) (.gatherPlain hs))) (.replyRead (.iteOf (.gatherBlocks hs)
    (.gatherPlain hs)))
  · exact .ite (.refuseHbm (.iteOf (.writeArrival hs) (.iteOf hs (.foldl hs fun _ _ h0 => .writePart h0)))) (.answerTo
    (.iteOf (.writeArrival hs) (.iteOf hs (.foldl hs fun _ _ h1 => .writePart h1))))

theorem Canon.serveChannel {k ch : Nat} {n : Nat} {s : State} (hs : Canon s) : Canon (State.serveChannel k ch n s) :=
    by
  induction n generalizing s with
  | zero => exact hs
  | succ n ih =>
    unfold State.serveChannel
    split
    next e => exact ih (.serveReq (.takeHbm hs e))
    next => exact hs

theorem Canon.serveBefore {s : State} {blk : Nat} (hs : Canon s) : Canon (s.serveBefore blk) :=
  .serveChannel hs

theorem Canon.copyBurst {s : State} {k ch u : Nat} (hs : Canon s) : Canon (s.copyBurst k ch u) := by
  unfold State.copyBurst
  exact .chargeChannel (.poison (.bumpFld (.writeHbm (.drawBytes hs))))

/-! ### Functions of `Machine/TxnOps` -/
theorem TCanon.setTxn {t : Tile} {h : Nat} {x : Txn} (ht : TCanon t) : TCanon (t.setTxn h x) :=
  .upd ht

theorem TCanon.txnDone {t : Tile} {rd : Nat} {v : Word} (ht : TCanon t) : TCanon (t.txnDone rd v) :=
  .post (.complete ht)

theorem Canon.txnSent {s : State} {t : Nat} {n : Option (Nat × Nat)} {target : Nat} (hs : Canon s) : Canon (s.txnSent
    t n target) := by
  unfold State.txnSent
  split
  · exact hs
  · exact .onTile hs fun _ h => .ite (.setTxn h) h

theorem Canon.txnCancel {s : State} {t h : Nat} {c : BitVec 16} {i : BitVec 12} (hs : Canon s) : Canon (s.txnCancel t
    h c i) := by
  refine .ite (.onTile (.foldl hs fun _ _ h0 => .send h0) fun _ h1 => ?_) hs
  split
  · exact .txnDone (.setTxn h1)
  · exact .setTxn h1

theorem Canon.txnSettle1 {s : State} {t h : Nat} (hs : Canon s) : Canon (s.txnSettle1 t h) := by
  unfold State.txnSettle1
  extract_lets
  split
  · refine .ite hs (.ite (.ite (.onTile (.foldl hs fun _ _ h0 => .send h0) fun _ h1 => ?_) (.onTile (.foldl hs fun _ _
    h2 => .send h2) fun _ h3 => .setTxn h3)) (.ite (.onTile hs fun _ h4 => ?_) hs))
    · extract_lets
      split
      · exact .txnDone (.txnDone (.setTxn h1))
      · exact .txnDone (.setTxn h1)
    · extract_lets
      split
      · exact .txnDone (.txnDone (.setTxn h4))
      · exact .txnDone (.setTxn h4)
  · split
    · exact .ite (.onTile (.foldl hs fun _ _ h5 => .send h5) fun _ h6 => .txnDone (.setTxn h6)) hs
    · exact hs

theorem Canon.txnSettle {s : State} {t : Nat} (hs : Canon s) : Canon (s.txnSettle t) :=
  .foldl hs fun _ _ h => .txnSettle1 h

theorem Canon.txnAnswer {s : State} {t : Nat} {dark : Option (Nat × Nat)} {target : Nat} {c : BitVec 16} (hs : Canon
    s) : Canon (s.txnAnswer t dark target c) := by
  unfold State.txnAnswer
  split
  · exact hs
  · split
    · exact hs
    · exact .ite (.onTile hs fun _ h0 => .setTxn h0) (.txnCancel (.onTile hs fun _ h1 => .setTxn h1))

theorem TCanon.unhold {t : Tile} {key : Nat × Nat} {take : Bool} (ht : TCanon t) : TCanon (t.unhold key take) :=
  .foldl ht fun _ _ h => .ite (.setWindow h) h

theorem TCanon.retryHeld {t : Tile} (ht : TCanon t) : TCanon t.retryHeld :=
  .upd ht

theorem TCanon.applyRelease {t : Tile} {key : Nat × Nat} (ht : TCanon t) : TCanon (t.applyRelease key) :=
  .retryHeld (.fillTags (.setDark (.unhold ht)))

theorem TCanon.applyDrop {t : Tile} {key : Nat × Nat} (ht : TCanon t) : TCanon (t.applyDrop key) :=
  .retryHeld (.setDark (.unhold ht))

theorem Canon.dropArrived {s : State} {opener key : Nat} (hs : Canon s) : Canon (s.dropArrived opener key) := by
  unfold State.dropArrived
  split
  · exact hs
  · exact .txnSettle1 (.onTile hs fun _ h => .setTxn h)

/-! ### Functions of `Machine/DmaOps` -/
theorem Canon.readParts {s : State} {ps : List (Nat × Nat)} (hs : Canon s) : Canon (s.readParts ps).1 := by
  induction ps generalizing s with
  | nil => exact hs
  | cons p ps ih => exact ih (.readPart hs)

theorem Canon.writeParts {s : State} {bs : List Byte} {o : Option Nat} {ps : List (Nat × Nat)} (hs : Canon s) :
    Canon (s.writeParts bs o ps) := by
  induction ps generalizing s bs with
  | nil => exact hs
  | cons p ps ih =>
    unfold State.writeParts
    refine ih ?_
    split
    · exact .poison (.writePart hs)
    · exact .writePart hs

theorem Canon.chargeAt {s : State} {a : Nat} {c : BitVec 16} (hs : Canon s) : Canon (s.chargeAt a c) := by
  unfold State.chargeAt
  split
  · exact .chargeSpad hs
  · exact hs

theorem Canon.readUnit {s : State} {d : BitVec 256} {a n : Nat} (hs : Canon s) : Canon (s.readUnit d a n).1 := by
  unfold State.readUnit
  split
  · exact .iteOf hs (.setTile hs (.spadRead (.tile hs)))
  · exact .iteOf hs (.iteOf (.iteOf (.iteOf (.readBlock hs) (.readBlock hs)) (.iteOf (.iteOf (.readBlock hs)
    (.readBlock hs)) (.iteOf (.readBlock hs) (.readBlock hs)))) (.iteOf (.readParts hs) (.readParts hs)))
  · exact .setFld hs
  · exact hs

theorem Canon.foldMirror {s : State} {t a : Nat} {bs : List Byte} (hs : Canon s) : Canon (s.foldMirror t a bs) :=
  .ite hs (.upd hs)

theorem Canon.postWrite {s : State} {target : Nat} {w : RemoteWrite} {from_ : Nat} (hs : Canon s) : Canon (s.postWrite
    target w from_) :=
  .ite (.onTile hs fun _ h => .upd h) (.send hs)

theorem Canon.writeUnit {s : State} {t id : Nat} {d : BitVec 256} {txn : Option (Nat × Nat)} {a : Nat} {u : UnitData}
    (hs : Canon s) : Canon (s.writeUnit t id d txn a u).1 := by
  unfold State.writeUnit
  split
  · exact .iteOf (.iteOf (.serveStore hs) (.setTile hs (.spadWrite (.tile hs)))) (.postWrite (.txnSent (.onTile
    (.foldMirror hs) fun _ h => .upd h)))
  · refine .iteOf (.foldMirror hs) ?_
    split
    · exact .storeBlock (.foldMirror hs)
    · exact .iteOf (.writeBlock (.foldMirror hs)) (.writeParts (.foldMirror hs))
  · exact .setFld hs
  · exact hs

theorem TCanon.onOp {t : Tile} {id : Nat} {f : DmaOp → DmaOp} (ht : TCanon t) : TCanon (t.onOp id f) :=
  .upd ht

theorem Canon.dmaFail {s : State} {t id : Nat} {c : BitVec 16} (hs : Canon s) : Canon (s.dmaFail t id c).1 :=
  .ite (.endJob (.onTile hs fun _ h0 => .onOp h0)) (.onTile hs fun _ h1 => .onOp h1)

theorem Canon.dmaPark {s : State} {t : Nat} {o : DmaOp} {kind : TagKind} {slot k : Nat} (hs : Canon s) : Canon
    (s.dmaPark t o kind slot k).1 :=
  .iteOf hs (.onTile hs fun _ h => .upd h)

theorem Canon.dmaReadPiece {s : State} {t : Nat} {o : DmaOp} {u : UnitData} {n : Nat} (hs : Canon s) : Canon
    (s.dmaReadPiece t o u n).1 :=
  .iteOf (.dmaPark hs) (.iteOf (.chargeAt (.dmaFail (.readUnit hs))) (.ite (.signal (.onTile (.ite (.onTile (.readUnit
    hs) fun _ h0 => .setTags h0) (.readUnit hs)) fun _ h1 => .onOp h1)) (.onTile (.ite (.onTile (.readUnit hs) fun _
    h2 => .setTags h2) (.readUnit hs)) fun _ h3 => .onOp h3)))

theorem Canon.dmaWritePiece {s : State} {t : Nat} {o : DmaOp} {u : UnitData} {n : Nat} (hs : Canon s) : Canon
    (s.dmaWritePiece t o u n).1 :=
  .iteOf (.dmaPark hs) (.iteOf (.chargeAt (.dmaFail (.writeUnit hs))) (.onTile (.writeUnit hs) fun _ h => .onOp h))

theorem Canon.dmaUnit {s : State} {t : Nat} {o : DmaOp} (hs : Canon s) : Canon (s.dmaUnit t o).1 := by
  unfold State.dmaUnit
  refine .iteOf hs (.iteOf (.dmaFail hs) ?_)
  extract_lets s₁ u r
  have h₁ : Canon s₁ := .foldl hs fun _ _ h => .serveBefore h
  have hr : Canon r.1 := .dmaReadPiece h₁
  refine .iteOf ?_ (.dmaWritePiece h₁)
  split
  · split
    · exact .iteOf hr (.dmaWritePiece hr)
    · exact hr
  · exact hr

theorem Canon.dmaServe {s : State} {t que : Nat} (hs : Canon s) : Canon (s.dmaServe t que).1 := by
  unfold State.dmaServe
  split
  · exact hs
  · exact .iteOf (.dmaUnit hs) (.onTile (.dmaUnit hs) fun _ h => .upd h)

theorem Canon.dmaFirst {s : State} {t : Nat} {qs : List Nat} (hs : Canon s) : Canon (s.dmaFirst t qs).1 := by
  induction qs generalizing s with
  | nil => exact hs
  | cons q qs ih => exact .iteOf (.dmaServe hs) (ih (.dmaServe hs))

theorem Canon.dmaRun {s : State} {t que : Nat} {n : Nat} (hs : Canon s) : Canon (s.dmaRun t que n) := by
  induction n generalizing s with
  | zero => exact hs
  | succ n ih => exact .ite hs (.ite (ih (.dmaFirst hs)) (.dmaFirst hs))

theorem TCanon.queueEmpty {t : Tile} {que : Nat} (ht : TCanon t) : TCanon (t.queueEmpty que) := by
  refine .ite ht ?_
  extract_lets
  split
  · exact .ite (.upd (.putS (.post ht))) (.post ht)
  · exact .post ht

theorem Canon.dmaFinish {s : State} {t : Nat} {o : DmaOp} (hs : Canon s) : Canon (s.dmaFinish t o) :=
  .txnSettle (.sigDrain (.ite (.signal (.onTile hs fun _ h0 => .queueEmpty (.sigOpGone (.upd h0)))) (.onTile hs fun _
    h1 => .queueEmpty (.sigOpGone (.upd h1)))))

/-! ### Functions of `Machine/XchOps` -/
theorem Canon.reportPhase {s : State} {t : Nat} {c : BitVec 16} {record : Option Nat} (hs : Canon s) : Canon
    (s.reportPhase t c record) :=
  .addCause hs

theorem Canon.phaseStatus {s : State} {t : Nat} {c : BitVec 16} {record : Option Nat} (hs : Canon s) : Canon
    (s.phaseStatus t c record) :=
  .ite hs (.reportPhase (.onTile hs fun _ h => .upd h))

theorem Canon.useCredit {s : State} {t target win k : Nat} (hs : Canon s) : Canon (s.useCredit t target win k) :=
  .onTile hs fun _ h => .upd h

theorem TCanon.onMcast {t : Tile} {k : Nat} {f : Mcast → Mcast} (ht : TCanon t) : TCanon (t.onMcast k f) :=
  .upd ht

theorem TCanon.dropMcast {t : Tile} {k : Nat} (ht : TCanon t) : TCanon (t.dropMcast k) :=
  .upd ht

theorem Canon.sendCopy {s : State} {t : Nat} {m : Mcast} {gen : BitVec 16} {target win : Nat} (hs : Canon s) : Canon
    (s.sendCopy t m gen target win) :=
  .foldl (.foldMirror (.txnSent (.useCredit hs))) fun _ _ h => .postWrite h

theorem Canon.resumeBranches {s : State} {t key : Nat} {waited : Bool} {ps : List (Nat × Nat)} (hs : Canon s) :
    Canon (s.resumeBranches t key waited ps) := by
  induction ps generalizing s with
  | nil => exact hs
  | cons p ps ih =>
    obtain ⟨target, win⟩ := p
    unfold State.resumeBranches
    split
    · exact hs
    · exact ih (.ite (.sendCopy (.onTile hs fun _ h => .onMcast (.ite (.post h) h))) hs)

theorem Canon.mcDone {s : State} {t : Nat} {m : Mcast} {c : BitVec 16} {target : Nat} (hs : Canon s) : Canon (s.mcDone
    t m c target) :=
  .ite (.signal (.onTile hs fun _ h0 => .complete (.dropMcast h0))) (.onTile hs fun _ h1 => .complete (.dropMcast h1))

theorem Canon.mcCancel {s : State} {t : Nat} {m : Mcast} {c : BitVec 16} {target : Nat} (hs : Canon s) : Canon
    (s.mcCancel t m c target) := by
  unfold State.mcCancel
  extract_lets
  split
  · exact .ite (.txnCancel (.mcDone hs)) (.mcDone hs)
  · exact .foldl (.mcDone hs) fun _ _ h => .send h

theorem Canon.mcSettle {s : State} {t key : Nat} (hs : Canon s) : Canon (s.mcSettle t key) := by
  unfold State.mcSettle
  split
  · exact hs
  · exact .ite (.mcDone (.ite (.foldl hs fun _ _ h => .send h) hs)) hs

theorem Canon.readSource {s : State} {t : Nat} {d : BitVec 256} {m : Nat} {n : Nat} (hs : Canon s) :
    Canon (s.readSource t d m n).1 := by
  induction n generalizing s m with
  | zero => exact hs
  | succ n ih =>
    unfold State.readSource
    exact .iteOf hs (.iteOf hs (.iteOf (.chargeAt (.readUnit (.foldl hs fun _ _ h => .serveBefore h)))
      (ih (.readUnit (.foldl hs fun _ _ h => .serveBefore h)))))

theorem Canon.readTagged {s : State} {t : Nat} {d : BitVec 256} {got : List Byte} {n : Nat} (hs : Canon s) :
    Canon (s.readTagged t d got n).1 := by
  induction n generalizing s got with
  | zero => exact hs
  | succ n ih =>
    unfold State.readTagged
    exact .iteOf hs (.iteOf (.iteOf hs (.setTile hs (.upd (.tile hs))))
      (.iteOf (.chargeSpad (.setTile hs (.spadRead (.tile hs)))) (ih (.setTile hs (.setTags (.spadRead (.tile
        hs)))))))

theorem Canon.xchEnds {s : State} {t rd : Nat} {c : BitVec 16} (hs : Canon s) : Canon ((s.xchEnds t rd c).state) :=
  .onTile hs fun _ h => .complete h

theorem Canon.newMessage {s : State} {t : Nat} {q : QInsn} {multi : Bool} {data : List Byte} {slots : Nat} {stalled
    sent : List (Nat × Nat)} (hs : Canon s) : Canon (s.newMessage t q multi data slots stalled sent).1 :=
  .onTile (.key hs) fun _ h => .upd h

theorem Canon.sentSignal {s : State} {t : Nat} {m : Mcast} (hs : Canon s) : Canon (s.sentSignal t m) :=
  .ite (.signal hs) hs

theorem Canon.runUnicast {s : State} {t : Nat} {q : QInsn} {d : BitVec 256} (hs : Canon s) : Canon ((s.runUnicast t q
    d).state) := by
  refine .iteOf (.xchEnds hs) (.iteOf (.xchEnds hs) ?_)
  split
  · exact .iteOf (.xchEnds hs) (.iteOf (.setTile hs (.upd (.tile hs))) (.iteOf (.iteOf (.xchEnds (.onTile (.readTagged
    (.setTile hs (.upd (.ite (.post (.tile hs)) (.tile hs))))) fun _ h0 => .upd h0)) (.iteOf (.onTile (.readTagged
    (.setTile hs (.upd (.ite (.post (.tile hs)) (.tile hs))))) fun _ h1 => .upd h1) (.sentSignal (.sendCopy
    (.newMessage (.readTagged (.setTile hs (.upd (.ite (.post (.tile hs)) (.tile hs)))))))))) (.iteOf (.setTile hs
    (.upd (.ite (.post (.tile hs)) (.tile hs)))) (.iteOf (.xchEnds (.ite (.endJob (.readSource (.setTile hs (.upd
    (.ite (.post (.tile hs)) (.tile hs)))))) (.readSource (.setTile hs (.upd (.ite (.post (.tile hs)) (.tile hs)))))))
    (.sentSignal (.sendCopy (.newMessage (.readSource (.setTile hs (.upd (.ite (.post (.tile hs)) (.tile
    hs))))))))))))
  · exact .xchEnds hs

theorem Canon.runMulticast {s : State} {t : Nat} {q : QInsn} {d : BitVec 256} (hs : Canon s) : Canon ((s.runMulticast
    t q d).state) :=
  .iteOf hs (.iteOf (.xchEnds hs) (.iteOf (.xchEnds (.chargeSpad (.setTile hs (.spadRead (.tile hs))))) (.iteOf
    (.xchEnds hs) (.iteOf (.xchEnds (.chargeAt (.readUnit hs))) (.sentSignal (.resumeBranches (.newMessage (.readUnit
    hs))))))))

theorem Canon.runXsend {s : State} {t : Nat} {q : QInsn} (hs : Canon s) : Canon ((s.runXsend t q).state) :=
  .iteOf hs (.iteOf (.xchEnds (.chargeSpad (.setTile hs (.spadRead (.tile hs))))) (.iteOf (.runUnicast hs)
    (.runMulticast hs)))

theorem TCanon.wopen {t : Tile} {q : QInsn} (ht : TCanon t) : TCanon (t.wopen q) :=
  .ite (.complete ht) (.complete (.setWindow ht))

theorem TCanon.beginClose {t : Tile} {win : Nat} (ht : TCanon t) : TCanon (t.beginClose win) :=
  .setWindow ht

theorem Canon.runWgrant {s : State} {t : Nat} {q : QInsn} (hs : Canon s) : Canon (s.runWgrant t q) :=
  .ite (.onTile hs fun _ h0 => .complete h0) (.ite (.onTile hs fun _ h1 => .complete h1) (.ite (.onTile hs fun _ h2 =>
    .complete h2) (.ite (.ite (.send (.setTile hs (.upd (.setWindow (.tile hs))))) (.send (.setTile hs (.upd
    (.setWindow (.tile hs)))))) (.sendRequest (.setTile hs (.upd (.setWindow (.tile hs))))))))

theorem Canon.runXstart {s : State} {t : Nat} {q : QInsn} (hs : Canon s) : Canon ((s.runXstart t q).state) :=
  .iteOf hs (.iteOf (.xchEnds hs) (.iteOf (.xchEnds hs) (.iteOf (.xchEnds hs) (.iteOf (.xchEnds (.chargeSpad (.setTile
    hs (.spadRead (.tile hs))))) (.iteOf (.xchEnds hs) (.iteOf (.xchEnds hs) (.xchEnds (.setTile hs (.upd (.spadRead
    (.tile hs)))))))))))

theorem Canon.runXch {s : State} {t : Nat} {q : QInsn} (hs : Canon s) : Canon ((s.runXch t q).state) := by
  unfold State.runXch
  split
  · exact .runXstart hs
  · exact .runXsend hs
  · exact .onTile hs fun _ h0 => .wopen h0
  · exact .onTile hs fun _ h1 => .upd (.beginClose h1)
  · exact .runWgrant hs

theorem TCanon.xwaitSettle {t : Tile} (ht : TCanon t) : TCanon t.xwaitSettle := by
  unfold Tile.xwaitSettle
  split
  · exact .ite (.upd (.putS ht)) ht
  · exact ht

theorem Canon.xqDrain {s : State} {t : Nat} {qs : List QInsn} (hs : Canon s) : Canon (s.xqDrain t qs) := by
  induction qs generalizing s with
  | nil => exact .onTile hs fun _ h => .xwaitSettle (.upd h)
  | cons q qs ih =>
    unfold State.xqDrain
    extract_lets s₁
    have h₁ : Canon s₁ := .onTile hs fun _ h => .upd h
    have h₂ : Canon (s₁.runXch t q).state := .runXch h₁
    refine .ite h₁ ?_
    split
    next e => rw [e] at h₂; exact h₂
    next e => rw [e] at h₂; exact ih h₂

theorem Canon.xqRun {s : State} {t : Nat} (hs : Canon s) : Canon (s.xqRun t) :=
  .xqDrain hs

theorem Canon.compareMirror {s : State} {n : Nat} (hs : Canon s) : Canon (s.compareMirror n) := by
  unfold State.compareMirror
  split
  · exact .ite hs (.ite (.upd hs) (.logGlow (.addCause (.upd (.upd hs)))))
  · exact hs

theorem Canon.endMirror {s : State} {t n : Nat} (hs : Canon s) : Canon (s.endMirror t n) :=
  .ite hs (.ite (.upd hs) (.compareMirror (.controlTo (.upd (.upd hs)))))

theorem Canon.takeMirror {s : State} {n : Nat} {digest : BitVec 64} {ds : List (Nat × BitVec 64)} (hs : Canon s) :
    Canon (s.takeMirror n digest ds) := by
  refine .compareMirror ?_
  split
  · exact .ite (.controlTo (.upd hs)) (.upd hs)
  · exact .upd hs

theorem Canon.endPhase {s : State} {t : Nat} {p : Phase} {c : BitVec 16} (hs : Canon s) : Canon (s.endPhase t p c) :=
    by
  refine .xqRun (.txnSettle (.ite (.signal (.endMirror (.onTile hs fun _ h0 => ?_))) (.endMirror (.onTile hs fun _ h1
    => ?_))))
  · extract_lets
    split
    · exact .upd (.putS (.post (.ite (.bumpFld (.setFld (.setFld (.upd h0)))) (.setFld (.setFld (.upd h0))))))
    · exact .post (.ite (.bumpFld (.setFld (.setFld (.upd h0)))) (.setFld (.setFld (.upd h0))))
  · extract_lets
    split
    · exact .upd (.putS (.post (.ite (.bumpFld (.setFld (.setFld (.upd h1)))) (.setFld (.setFld (.upd h1))))))
    · exact .post (.ite (.bumpFld (.setFld (.setFld (.upd h1)))) (.setFld (.setFld (.upd h1))))

/-! ### Functions of `Machine/Beacon` -/
theorem TCanon.dueDeadline {t : Tile} {now : BitVec 64} (ht : TCanon t) : TCanon (t.dueDeadline now) := by
  unfold Tile.dueDeadline
  split
  · exact .ite (.post ht) ht
  · exact ht

theorem Canon.startBarrier {s : State} {m : Nat} (hs : Canon s) : Canon (s.startBarrier m) :=
  .ite (.startTree hs) hs

theorem Canon.driveEdge {s : State} (hs : Canon s) : Canon s.driveEdge := by
  unfold State.driveEdge
  extract_lets +onlyGivenNames _ _ s₁
  have h₁ : Canon s₁ := by
    unfold s₁
    split
    · exact .ite (.upd (.setFld hs)) hs
    · exact hs
  clear_value s₁
  split
  · exact .ite (.upd (.setFld h₁)) h₁
  · exact h₁

theorem Canon.sendSync {s : State} (hs : Canon s) : Canon s.sendSync :=
  .foldl (.draw hs) fun _ _ h => .control h

theorem Canon.releaseMoved {s : State} (hs : Canon s) : Canon s.releaseMoved :=
  .foldl hs fun _ _ h0 => .xqRun (.onTile h0 fun _ h1 => .upd h1)

theorem Canon.loseSchedule {s : State} {t : Nat} (hs : Canon s) : Canon (s.loseSchedule t) := by
  unfold State.loseSchedule
  extract_lets x s₁ s₂
  have h₁ : Canon s₁ := .foldl hs fun _ _ h => .onTile h fun _ h => .onOp h
  have h₂ : Canon s₂ := by
    unfold s₂
    split
    · exact .ite h₁ (.endPhase h₁)
    · exact h₁
  split
  · exact .onTile h₂ fun _ h => .wake h
  · exact h₂

/-! ### Functions of `Machine/CollOps` -/
theorem Canon.putCollDesc {s : State} {a i : Nat} {d : BitVec 512} (hs : Canon s) : Canon (s.putCollDesc a i d) :=
  .foldl hs fun _ _ h => .wr h

theorem Canon.ceRead {s : State} {d : BitVec 512} {a n : Nat} (hs : Canon s) : Canon (s.ceRead d a n).st := by
  unfold State.ceRead
  split
  · exact .iteOf hs (.iteOf (.iteOf (.readBlock (.foldl hs fun _ _ h0 => .serveBefore h0)) (.iteOf (.readBlock (.foldl
    hs fun _ _ h1 => .serveBefore h1)) (.readBlock (.foldl hs fun _ _ h2 => .serveBefore h2)))) (.gatherPlain (.foldl
    hs fun _ _ h3 => .serveBefore h3)))
  · exact .iteOf hs (.setTile hs (.spadRead (.tile hs)))
  · exact hs
  · exact hs

theorem Canon.ceWrite {s : State} {d : BitVec 512} {a : Nat} {bs halo : List Byte} (hs : Canon s) : Canon (s.ceWrite d
    a bs halo).1 := by
  unfold State.ceWrite
  split
  · exact .iteOf hs (.iteOf (.iteOf (.writeBlock (.foldl hs fun _ _ h0 => .serveBefore h0)) (.storeBlock (.foldl hs
    fun _ _ h1 => .serveBefore h1))) (.iteOf (.foldl hs fun _ _ h2 => .serveBefore h2) (.foldl (.foldl hs fun _ _ h3
    => .serveBefore h3) fun _ _ h4 => .writePart h4)))
  · exact hs
  · exact hs

theorem Canon.emit {w : Work} {a h chunk addr held : Nat} {anch : Int} {fell : Bool} {bs halo : List Byte} (hw : Canon
    w.st) : Canon (w.emit a h chunk addr held anch fell bs halo).st :=
  .iteOf hw (.iteOf hw (.upd (.transmit hw)))

theorem Canon.own {w : Work} {off n : Nat} (hw : Canon w.st) : Canon (w.own off n).1.st :=
  .iteOf (p := fun r : Work × List Byte × List Byte => r.1.st) hw (.ceRead hw)

theorem Canon.out {w : Work} {off : Nat} {bs halo : List Byte} (hw : Canon w.st) : Canon (w.out off bs halo).st :=
  .iteOf hw (.ceWrite hw)

theorem Canon.meet {w : Work} {anch : Int} (hw : Canon w.st) : Canon (w.meet anch).st :=
  hw

theorem Canon.pass {w : Work} {a n r c h off held : Nat} {anch : Int} {fell : Bool} {bs : List Byte} (hw : Canon w.st)
    : Canon (w.pass a n r c h off held anch fell bs).st :=
  .iteOf (.emit hw) (.iteOf (.emit (.meet (.out hw))) (.meet (.out hw)))

theorem Canon.startReduce {w : Work} {a n r : Nat} (hw : Canon w.st) : Canon (w.startReduce a n r).st :=
  .foldlOf hw fun _ _ h => .foldlOf h fun _ _ h => .pass (.meet (.own h))

theorem Canon.startGather {w : Work} {a n r : Nat} (hw : Canon w.st) : Canon (w.startGather a n r).st :=
  .foldlOf hw fun _ _ h => .foldlOf h fun _ _ h =>
    .iteOf (.emit (.iteOf (.own h) (.out (.own h)))) (.iteOf (.own h) (.out (.own h)))

theorem Canon.collFail {s : State} {a d : Nat} {c : BitVec 16} (hs : Canon s) : Canon (s.collFail a d c) :=
  .ite (.addCause (.ite (.endJob (.collStop hs)) (.collStop hs))) (.ite (.endJob (.collStop hs)) (.collStop hs))

theorem Canon.done {w : Work} {a : Nat} {fell : Bool} (hw : Canon w.st) : Canon (w.done a fell) :=
  .ite (.collFail (.ite (.setFld hw) hw)) (.setColls (.ite (.setFld hw) hw))

theorem Canon.collDone {s : State} {a : Nat} {d : BitVec 512} (hs : Canon s) : Canon (s.collDone a d) :=
  .ite (.semApply hs) hs

theorem Canon.land {w : Work} {a n r q h off : Nat} {anch : Int} {fell : Bool} {bs halo : List Byte} (hw : Canon w.st)
    : Canon (w.land a n r q h off anch fell bs halo).st :=
  .iteOf (.collDone (.iteOf (.emit (.out hw)) (.out hw))) (.iteOf (.emit (.out hw)) (.out hw))

theorem Canon.take {w : Work} {a : Nat} {hdr : Hdr} {bs : List Byte} (hw : Canon w.st) : Canon (w.take a hdr bs).1.st
    := by
  unfold Work.take
  refine .iteOf (p := fun r : Work × Bool => r.1.st)
    (.iteOf (p := fun r : Work × Bool => r.1.st) (.pass (.meet (.own hw))) (.pass (.own hw))) ?_
  exact .land (.iteOf (.meet hw) hw)

/-! ### Functions of `Machine/Coll` -/
theorem Canon.collRun {s : State} {a : Nat} {c : Coll} (hs : Canon s) : Canon (s.collRun a c) :=
  .ite (.done (.foldlOf hs fun _ _ h => .out (.own h)))
    (.ite (.done (.startReduce hs)) (.ite hs (.done (.startGather hs))))

theorem Canon.collBegin {s : State} {a i : Nat} (hs : Canon s) : Canon (s.collBegin a i) :=
  .ite (.setColls (.upd hs)) (.collRun (.setColls (.upd hs)))

theorem Canon.collTake {s : State} {a : Nat} {c : Coll} {hdr : Hdr} {bs : List Byte} (hs : Canon s) :
    Canon (s.collTake a c hdr bs) :=
  .done (.take hs)

theorem Canon.collArrive {s : State} {a : Nat} {c : Coll} {header : BitVec 384} {payload : List Byte} {cdig : BitVec
    64} (hs : Canon s) : Canon (s.collArrive a c header payload cdig) :=
  .ite (.ite (.collFail (.report (.bumpFld hs))) (.control (.setColls (.bumpFld hs)))) (.ite (.collFail (.bumpFld hs))
    (.collTake hs))

theorem Canon.collHold {s : State} {a : Nat} {e : BitVec 384 × List Byte × BitVec 64} (hs : Canon s) : Canon
    (s.collHold a e) :=
  .upd hs

theorem Canon.collContribution {s : State} {a : Nat} {header : BitVec 384} {payload : List Byte} {cdig : BitVec 64}
    (hs : Canon s) : Canon (s.collContribution a header payload cdig) := by
  unfold State.collContribution
  split
  · exact .ite (.collHold hs) (.collArrive hs)
  · exact .collHold hs

theorem Canon.collCatchUp {s : State} {a i : Nat} (hs : Canon s) : Canon (s.collCatchUp a i) :=
  .foldl (.upd hs) fun _ _ h => .collContribution h

theorem Canon.collWake {s : State} (hs : Canon s) : Canon s.collWake :=
  .foldl hs fun _ _ h0 => .foldl h0 fun _ _ h1 => .collCatchUp (.ite (.collRun (.setColls h1)) h1)

theorem Canon.collTry {s : State} {a k : Nat} (hs : Canon s) : Canon (s.collTry a k) :=
  .ite (.collCatchUp (.collBegin (.setFld hs))) hs

theorem Canon.collResend {s : State} {p d chunk addr : Nat} (hs : Canon s) : Canon (s.collResend p d chunk addr) := by
  unfold State.collResend
  split
  · exact .transmit hs
  · exact hs

/-! ### Functions of `Machine/Dma` -/
theorem Canon.dmaAnswers {s : State} {t : Nat} {n : Nat} (hs : Canon s) : Canon (s.dmaAnswers t n) := by
  induction n generalizing s with
  | zero => exact hs
  | succ n ih =>
    unfold State.dmaAnswers
    split
    · extract_lets s₁
      have h₁ : Canon s₁ := .onTile hs fun _ h => .upd h
      exact ih (.ite (.onTile h₁ fun _ h => .bumpFld h) (.txnAnswer (.onTile h₁ fun _ h => .onOp h)))
    · exact hs

/-! ### Functions of `Machine/MatOps` -/
theorem TCanon.accWrite {t : Tile} {n : Nat} {xs : List Nat} (ht : TCanon t) : TCanon (t.accWrite n xs) :=
  ⟨ht.spad, wf_writeRun _ _ _ _ ht.acc, ht.tags⟩

theorem TCanon.longWrite {t : Tile} {k : Nat} {xs : List LongVal} (ht : TCanon t) : TCanon (t.longWrite k xs) :=
  ⟨ht.spad, wf_writeRun _ _ _ _ ht.acc, ht.tags⟩

theorem TCanon.setAnchor {t : Tile} {k : Nat} {a : Int} (ht : TCanon t) : TCanon (t.setAnchor k a) :=
  .setFld (.setFld ht)

theorem TCanon.clearTerms {t : Tile} {k : Nat} (ht : TCanon t) : TCanon (t.clearTerms k) :=
  .setFld (.upd ht)

theorem TCanon.setRange {t : Tile} {k : Nat} (ht : TCanon t) : TCanon (t.setRange k) :=
  .setFld (.setFld ht)

theorem Canon.mmaApply {s : State} {t : Nat} {q : QInsn} {as bs : List (List FVal)} {low : Option Int} (hs : Canon s)
    : Canon (s.mmaApply t q as bs low) :=
  .ite (.setTile (.ite (.draw hs) hs) (.ite (.setRange (.upd (.longWrite (.ite (.setAnchor (.ite (.setFld (.clearTerms
    (.countFld (.tile hs)))) (.countFld (.tile hs)))) (.ite (.setFld (.clearTerms (.countFld (.tile hs)))) (.countFld
    (.tile hs))))))) (.upd (.longWrite (.ite (.setAnchor (.ite (.setFld (.clearTerms (.countFld (.tile hs))))
    (.countFld (.tile hs)))) (.ite (.setFld (.clearTerms (.countFld (.tile hs)))) (.countFld (.tile hs))))))))
    (.setTile hs (.accWrite (.countFld (.tile hs))))

theorem Canon.runMma {s : State} {t : Nat} {q : QInsn} (hs : Canon s) : Canon (s.runMma t q).1 :=
  .iteOf hs (.iteOf hs (.iteOf (.setTile hs (.readAll (.tile hs))) (.iteOf (.setTile hs (.readAll (.readAll (.tile
    hs)))) (.mmaApply (.setTile hs (.readAll (.readAll (.tile hs))))))))

theorem TCanon.azero {t : Tile} {q : QInsn} (ht : TCanon t) : TCanon (t.azero q) :=
  .ite (.setFld (.clearTerms (.longWrite ht))) (.accWrite ht)

theorem TCanon.aload {t : Tile} {q : QInsn} {bs : List Byte} (ht : TCanon t) : TCanon (t.aload q bs) :=
  .ite (.setFld (.clearTerms (.longWrite ht))) (.ite (.accWrite ht) (.accWrite ht))

theorem Canon.runAst {s : State} {t : Nat} {q : QInsn} (hs : Canon s) : Canon (s.runAst t q).1 := by
  unfold State.runAst
  extract_lets old u slot x
  have hu : Canon u.1 := .writeAll hs
  have hx : TCanon x := .tile hu
  have hold : TCanon old := .tile hs
  clear_value u x old
  have hr : Canon (u.1.onTile t fun x =>
      { x with spad := old.spad, eccSingle := old.eccSingle, eccDouble := old.eccDouble }) :=
    .onTile hu fun _ h => ⟨hold.spad, h.acc, h.tags⟩
  exact .iteOf hs (.iteOf hr (.iteOf hu (.iteOf (.setTile hu (.setTags hx)) (.setTile hu (.upd hx)))))

theorem Canon.runMat {s : State} {t : Nat} {q : QInsn} (hs : Canon s) : Canon (s.runMat t q).1 := by
  unfold State.runMat
  split
  · exact .runMma hs
  · exact .onTile hs fun _ h => .azero h
  · exact .iteOf hs (.iteOf (.setTile hs (.spadRead (.tile hs))) (.setTile hs (.aload (.spadRead (.tile hs)))))
  · exact .runAst hs

/-! ### Functions of `Machine/MatQueue` -/
theorem TCanon.readItem {t : Tile} {off : Nat} (ht : TCanon t) : TCanon (t.readItem off).1 :=
  .pair (.spadRead ht)

theorem TCanon.listAt {t : Tile} {n : Nat} {done : Bool} (ht : TCanon t) : TCanon (t.listAt n done) :=
  .upd ht

theorem Canon.failList {s : State} {t : Nat} {c : BitVec 16} {off : Nat} (hs : Canon s) : Canon (s.failList t c off)
    :=
  .record (.onTile hs fun _ h => .listAt h)

theorem Canon.runItems {t : Nat} {n : Nat} {s : State} (hs : Canon s) : Canon (State.runItems t n s) := by
  induction n generalizing s with
  | zero => exact hs
  | succ n ih =>
    rw [State.runItems]
    split
    · exact hs
    next r _ =>
    refine .ite hs (.ite (.onTile hs fun _ h => .listAt h) ?_)
    extract_lets +onlyGivenNames off
    clear_value off
    have hi : TCanon ((s.tile t).readItem off).1 := .readItem (.tile hs)
    generalize (s.tile t).readItem off = i at hi ⊢
    have h₁ : Canon (s.setTile t i.1) := .setTile hs hi
    refine .ite (.failList h₁) ?_
    split
    · exact .failList h₁
    refine .ite ?_ ?_
    · have hj : TCanon (if r.next + 1 < r.list.count then i.1.readItem (off + 32) else (i.1, 0, none)).1 :=
        .iteOf (.readItem hi) (.pair hi)
      generalize (if r.next + 1 < r.list.count then i.1.readItem (off + 32) else (i.1, 0, none)) = j at hj ⊢
      have h₂ : Canon ((s.setTile t i.1).setTile t j.1) := .setTile h₁ hj
      refine .ite (.failList h₂) ?_
      split
      · exact .ite (.failList h₂) (.failList h₂)
      · exact .ite (.failList h₂) (.ite (.failList (.runMma h₂)) (.ite (.failList (.runMma h₂))
          (ih (.onTile (.runMma (.runMma h₂)) fun _ h => .listAt h))))
    · extract_lets +onlyGivenNames a
      have ha : Canon a.1 := .runMat h₁
      clear_value a
      split
      · exact .onTile ha fun _ h => .listAt h
      · exact .ite (.failList ha) (ih (.onTile ha fun _ h => .listAt h))

theorem Canon.continueList {s : State} {t : Nat} (hs : Canon s) : Canon (s.continueList t) := by
  unfold State.continueList
  split
  · exact .ite (.runItems hs) hs
  · exact hs

theorem Canon.matStep {s s' : State} {t : Nat} (hs : Canon s) (e : s.matStep t = some s') : Canon s' := by
  unfold State.matStep at e
  extract_lets +onlyGivenNames x at e
  split at e
  · cases e
  extract_lets +onlyGivenNames pop at e
  have hpop : ∀ n, Canon (pop n) := fun n => .setTile hs (.upd (.tile hs))
  clear_value pop
  split at e
  · split at e
    · cases e
      exact .faultAt (hpop _)
    · split at e
      · cases e
        exact .setTile hs (.upd (.tile hs))
      · cases e
  split at e
  · cases e
  split at e
  · split at e
    · cases e
    · split at e
      · cases e
        exact .faultAt (hpop _)
      · cases e
        exact .ite (.runMma (.ite (.runMma (hpop _)) (.faultAt (.runMma (hpop _)))))
          (.faultAt (.runMma (.ite (.runMma (hpop _)) (.faultAt (.runMma (hpop _))))))
  · extract_lets +onlyGivenNames a at e
    have ha : Canon a.1 := .runMat (hpop _)
    clear_value a
    split at e
    · cases e
      exact ha
    · cases e
      exact .ite ha (.faultAt ha)

theorem Canon.matSteps {t : Nat} {n : Nat} {s : State} (hs : Canon s) : Canon (State.matSteps t n s) := by
  induction n generalizing s with
  | zero => exact hs
  | succ n ih =>
    unfold State.matSteps
    split
    next e => exact ih (.matStep hs e)
    next => exact hs

theorem Canon.drainMat {s : State} {t : Nat} (hs : Canon s) : Canon (s.drainMat t) :=
  .ite (.matSteps hs) hs

theorem Canon.enqueueMat {t op : Nat} {w : BitVec 52} {pc : BitVec 20} {s : State} (hs : Canon s) : Canon (enqueueMat
    t op w pc s) :=
  .drainMat (.setTile hs (.upd (.tile hs)))

/-! ### Functions of `Machine/GlintOps` -/
theorem TCanon.glintDraw {t : Tile} {q : QInsn} (ht : TCanon t) : TCanon (t.glintDraw q) :=
  .putV ht

theorem TCanon.glintBernoulli {t : Tile} {q : QInsn} (ht : TCanon t) : TCanon (t.glintBernoulli q) :=
  .putP ht

theorem Canon.sample {s : State} {t : Nat} {q : QInsn} (hs : Canon s) : Canon (s.sample t q).1 := by
  refine FirstCanon.fst ?_
  unfold State.sample
  refine .ite (.mk hs) ?_
  have hd : TCanon ((s.tile t).spadRead q.a.toNat 64).1 := .spadRead (.tile hs)
  generalize (s.tile t).spadRead q.a.toNat 64 = d at hd ⊢
  have h : Canon (s.setTile t d.1) := .setTile hs hd
  have h' : ∀ i n, Canon ((s.setTile t d.1).setTile t (d.1.spadRead i n).1) := fun _ _ => .setTile h (.spadRead hd)
  exact .ite (.mk h) (.ite (.mk h) (.ite (.mk (.scramble (h' _ _)))
    (.ite (.mk (.onTile (.writeAll (h' _ _)) fun _ h => .upd h)) (.of (.writeAll (h' _ _))))))

/-! ### Functions of `Machine/VecQueue` -/
theorem Canon.runVector {s : State} {t : Nat} {q : QInsn} (hs : Canon s) : Canon (s.runVector t q).1 := by
  refine .iteOf (.iteOf (.setTile hs (.glintBernoulli (.tile hs))) (.iteOf (.setTile hs (.glintDraw (.tile hs)))
    (.sample hs))) ?_
  split
  · exact .iteOf (.setTile (.draw hs) (.vecMove (.tile hs))) (.setTile hs (.vecMove (.tile hs)))
  · exact .setTile hs (.vecCompare (.tile hs))
  · exact .setTile hs (.vecTranspose (.tile hs))
  · exact .setTile hs (.vecConvert (.tile hs))
  · exact .setTile hs (.vecReduce (.tile hs))
  · exact .setTile hs (.vecScan (.tile hs))
  · exact .vecCensus hs
  · exact .vecScale hs
  · exact .vecLongAdd hs
  · exact .setTile hs (.vecElementwise (.tile hs))

theorem TCanon.endChain {t : Tile} (ht : TCanon t) : TCanon t.endChain :=
  .ite ht (.upd ht)

theorem Canon.runStage {s : State} {t : Nat} {q : QInsn} (hs : Canon s) : Canon (s.runStage t q) :=
  .ite (.onTile (.runVector (.setTile hs (.upd (.tile hs)))) fun _ h0 => .countFld h0) (.faultAt (.onTile (.runVector
    (.setTile hs (.upd (.tile hs)))) fun _ h1 => .endChain h1))

theorem Canon.vecStep {s s' : State} {t : Nat} (hs : Canon s) (e : s.vecStep t = some s') : Canon s' := by
  have hrun : ∀ q, (if (s.tile t).canStart q = true then some (s.runStage t q) else none) = some s' → Canon s' := by
    intro q e
    split at e
    · cases e
      exact .runStage hs
    · cases e
  unfold State.vecStep at e
  extract_lets x at e
  split at e
  · cases e
  extract_lets run at e
  split at e
  · exact hrun _ e
  split at e
  · cases e
  · split at e
    · cases e
      exact .ite (.startVld (.setTile hs (.upd (.tile hs)))) (.startVst (.setTile hs (.upd (.tile hs))))
    · cases e
  · cases e
    exact .faultAt (.setTile hs (.upd (.tile hs)))
  · exact hrun _ e

theorem Canon.vecSteps {t : Nat} {n : Nat} {s : State} (hs : Canon s) : Canon (State.vecSteps t n s) := by
  induction n generalizing s with
  | zero => exact hs
  | succ n ih =>
    unfold State.vecSteps
    split
    next e => exact ih (.vecStep hs e)
    next => exact hs

theorem Canon.drainVec {s : State} {t : Nat} (hs : Canon s) : Canon (s.drainVec t) :=
  .ite (.vecSteps hs) hs

theorem Canon.enqueueVec {t cls op : Nat} {w : BitVec 52} {pc : BitVec 20} {s : State} (hs : Canon s) : Canon
    (enqueueVec t cls op w pc s) :=
  .drainVec (.setTile hs (.upd (.tile hs)))

/-! ### Functions of `Machine/Engine` -/
theorem TCanon.unpark {t : Tile} {i : Nat} {p : Parked} (ht : TCanon t) : TCanon (t.unpark i p) := by
  unfold Tile.unpark
  extract_lets
  split
  · exact .releaseV (.upd ht)
  · exact .upd (.upd ht)
  · exact .upd ht

theorem Canon.afterPark {s : State} {t : Nat} {p : Parked} (hs : Canon s) : Canon (s.afterPark t p) := by
  unfold State.afterPark
  generalize p.user = u
  cases u with
  | ast => exact .xqRun (.drainMat (.continueList hs))
  | dma => exact hs
  | xsend => exact .xqRun hs
  | vld => exact .xqRun (.drainVec hs)
  | vst => exact .xqRun (.drainVec hs)

theorem Canon.endXsend {s : State} {t : Nat} {c : BitVec 16} (hs : Canon s) : Canon (s.endXsend t c) := by
  refine .onTile hs fun _ h => ?_
  split
  · exact h
  · exact .complete (.upd h)

theorem Canon.applyReply {s : State} {t : Nat} {m : Msg} (hs : Canon s) : Canon (s.applyReply t m) := by
  unfold State.applyReply
  split
  · exact .onTile hs fun _ h0 => .upd (.complete h0)
  · exact .onTile hs fun _ h1 => .upd (.complete h1)
  · exact .onTile hs fun _ h2 => .complete h2
  · exact .ite (.onTile hs fun _ h3 => .releaseLoad (.ite (.fillLoad h3) h3)) (.faultReply (.ite (.loseLoad (.onTile
    hs fun _ h4 => .releaseLoad (.ite (.fillLoad h4) h4))) (.onTile hs fun _ h5 => .releaseLoad (.ite (.fillLoad h5)
    h5))))
  · exact .onTile hs fun _ h6 => .upd (.complete h6)
  · exact hs

/-! ### Functions of `Machine/StepTxn` -/
theorem Canon.armColls {s : State} {j : Job} (hs : Canon s) : Canon (s.armColls j) :=
  .foldl (.upd (.foldl hs fun _ _ h0 => .foldl h0 fun _ _ h1 => .wr h1)) fun _ _ h2 => .ite (.putCollDesc h2) (.setFld
    (.setFld (.putCollDesc h2)))

theorem Canon.writeBlocks {s : State} {j : Job} {shadow : Nat} (hs : Canon s) : Canon (s.writeBlocks j shadow) :=
  .foldl hs fun _ _ h0 => .onTile h0 fun _ h1 => .setTags (.spadWrite h1)

theorem Canon.openStep {s : State} {j : Job} {o : BitVec 64} (hs : Canon s) : Canon (s.openStep j o) :=
  .startTiles (.foldl (.updLh (.writeBlocks (.armColls (.iteOf (.placePins (.ite (.ite (.sweepHalos hs) hs)
    (.openShadow (.ite (.sweepHalos hs) hs)))) (.addCause (.ite (.sweepHalos hs) hs)))))) fun _ _ h0 => .onTile h0 fun
    _ h1 => .upd h1)

theorem Canon.outOfStep {s : State} (hs : Canon s) : Canon s.outOfStep :=
  .updLh (.loseMember (.report (.abandonStep hs)))

/-! ### Functions of `Machine/LinkOps` -/
theorem Canon.setLane {s : State} {p k v : Nat} (hs : Canon s) : Canon (s.setLane p k v) :=
  .setFld hs

theorem Canon.mapLanes {s s' : State} {p : Nat} {good : BitVec 12} (hs : Canon s) (e : s.mapLanes p good = some s') :
    Canon s' := by
  unfold State.mapLanes at e
  extract_lets gs n data st s₁ at e
  have h₁ : Canon s₁ := .foldl hs fun _ _ h => .setLane h
  split at e
  · cases e
  · cases e
    exact .setFld (.setFld h₁)

theorem Canon.checkWiring {s : State} {p : Nat} (hs : Canon s) : Canon (s.checkWiring p) :=
  .ite (.portEvent (.fencePort hs)) hs

theorem Canon.meetNeighbour {s : State} {p : Nat} (hs : Canon s) : Canon (s.meetNeighbour p) :=
  .portEvent (.setPort hs)

theorem Canon.fastTrain {s : State} {p : Nat} (hs : Canon s) : Canon (s.fastTrain p) :=
  .setFld (.setPort hs)

theorem Canon.resend {s : State} {p : Nat} (hs : Canon s) : Canon (s.resend p) :=
  .ite (.fastTrain (.bumpFld hs)) (.setPort (.bumpFld hs))

theorem Canon.loseLink {s : State} {p : Nat} (hs : Canon s) : Canon (s.loseLink p) :=
  .ite (.logGlow (.dropSource (.resetPort hs))) (.charge (.portEvent (.logGlow (.dropSource (.resetPort hs)))))

theorem Canon.fecFail {s : State} {p : Nat} (hs : Canon s) : Canon (s.fecFail p) :=
  .ite (.charge (.upd (.bumpFld hs))) (.upd (.bumpFld hs))

theorem Canon.leavePort {s : State} {p : Nat} (hs : Canon s) : Canon (s.leavePort p) :=
  .loseChild (.failColls (.setFld (.setPort (.dropSource (.answerRecords hs)))))

theorem Canon.quiescePort {s : State} {p : Nat} (hs : Canon s) : Canon (s.quiescePort p).1 :=
  .iteOf hs (.ite (.setFld (.setFld hs)) (.ite (.leavePort (.setFld hs)) (.setFld hs)))

theorem Canon.unquiescePort {s : State} {p : Nat} (hs : Canon s) : Canon (s.unquiescePort p) :=
  .ite (.trainPort (.setFld hs)) (.setFld hs)

theorem Canon.hostFence {s : State} {p : Nat} (hs : Canon s) : Canon (s.hostFence p) :=
  .ite (.setFld hs) (.fencePort (.setFld hs))

theorem Canon.hostUnfence {s : State} {p : Nat} (hs : Canon s) : Canon (s.hostUnfence p) :=
  .ite (.trainPort (.setFld hs)) (.setFld hs)

theorem Canon.enablePort {s : State} {p : Nat} {on : Bool} (hs : Canon s) : Canon (s.enablePort p on) :=
  .ite (.ite (.trainPort (.setFld hs)) (.setFld hs)) (.ite (.setFld hs) (.loseChild (.failColls (.setFld (.dropSource
    (.setPort (.answerRecords (.setFld hs))))))))

theorem Canon.retrainPort {s : State} {p : Nat} (hs : Canon s) : Canon (s.retrainPort p) :=
  .ite (.fastTrain hs) hs

theorem Canon.writeSelf {s : State} {v : BitVec 64} (hs : Canon s) : Canon (s.writeSelf v).1 := by
  have h : ∀ s, Canon s → Canon ((List.range 8).foldl (fun (s : State) p =>
      let st := s.fld (BF.STATE p)
      if st = 8 then s.checkWiring p
      else if st = 9 ∧ s.fld (BF.FENCE_WHY p) = 3 ∧ !s.miswired p (s.port p).neighbour then s.trainPort p else s) s)
        :=
    fun _ h => .foldl h fun _ _ h => .ite (.checkWiring h) (.ite (.trainPort h) h)
  refine FirstCanon.fst ?_
  unfold State.writeSelf
  exact .ite (.mk hs) (.ite (.mk hs) (.mk (h _ (.wr hs))))

theorem Canon.takeFrame {s : State} {p : Nat} {h : BitVec 256} (hs : Canon s) : Canon (s.takeFrame p h) :=
  .ite (.resend (.checkLow (.setPort hs))) (.checkLow (.setPort hs))

theorem Canon.refuse {s : State} {h : Hdr} {c : BitVec 16} (hs : Canon s) : Canon (s.refuse h c) :=
  .answerTo hs

theorem Canon.queueHbm {s : State} {h : Hdr} {r : HbmReq} (hs : Canon s) : Canon (s.queueHbm h r) :=
  .ite (.refuse hs) (.ite (.refuse hs) (.enqueueHbm hs))

theorem Canon.takeBare {s : State} {h : Hdr} {n off : Nat} {data : List Byte} (hs : Canon s) : Canon (s.takeBare h n
    off data) :=
  .ite (.ite (.answerTo (.setFld hs)) (.replyRead (.setFld hs))) (.refuse hs)

theorem Canon.takeWrite {s : State} {h : Hdr} {bs : List Byte} (hs : Canon s) : Canon (s.takeWrite h bs) := by
  refine .ite (.ite (.refuse hs) (.ite (.refuse hs) (.onTile hs fun _ h0 => .upd h0))) (.ite (.ite (.refuse hs) (.ite
    (.refuse hs) (.onTile hs fun _ h1 => .upd h1))) ?_)
  split
  · exact .queueHbm hs
  · exact .ite (.refuse hs) (.ite (.refuse hs) (.onTile hs fun _ h2 => .upd h2))
  · exact .refuse hs
  · exact .takeBare hs
  · exact .refuse hs

theorem Canon.takeRead {s : State} {h : Hdr} {bs : List Byte} (hs : Canon s) : Canon (s.takeRead h bs) := by
  unfold State.takeRead
  extract_lets
  split
  · exact .queueHbm hs
  · exact .ite (.refuse hs) (.onTile hs fun _ h0 => .upd h0)
  · exact .refuse hs
  · exact .takeBare hs
  · exact .refuse hs

theorem Canon.takeSem {s : State} {h : Hdr} {bs : List Byte} (hs : Canon s) : Canon (s.takeSem h bs) :=
  .ite (.semAnswer hs) (.ite (.onTile hs fun _ h0 => .upd h0) (.semAnswer hs))

theorem Canon.takeGrant {s : State} {h : Hdr} (hs : Canon s) : Canon (s.takeGrant h) :=
  .ite (.refuse hs) (.ite (.refuse hs) (.send hs))

theorem Canon.takeRelay {s : State} {h : Hdr} {bs : List Byte} (hs : Canon s) : Canon (s.takeRelay h bs) :=
  .ite (.updHif (.answerTo hs)) (.ite (.answerTo hs) (.updHif (.answerTo hs)))

theorem Canon.takeReply {s : State} {p : Nat} {h : Hdr} {bs : List Byte} (hs : Canon s) : Canon (s.takeReply p h bs)
    := by
  unfold State.takeReply
  extract_lets +onlyGivenNames q
  split
  · exact .bumpFld hs
  extract_lets +onlyGivenNames s₁
  have h₁ : Canon s₁ := .relayAnswered (.setPort hs)
  clear_value s₁
  refine .ite ?_ ?_
  · split
    · exact .ite (.transmit h₁) h₁
    · exact h₁
  · split
    · extract_lets +onlyGivenNames home msg s₂
      have h₂ : Canon s₂ := .send h₁
      clear_value s₂ msg
      cases msg with
      | answer => exact .ite (.send h₂) h₂
      | _ => exact h₂
    · exact h₁

theorem Canon.takeRequest {s : State} {p : Nat} {h : Hdr} {bs : List Byte} (hs : Canon s) : Canon (s.takeRequest p h
    bs) := by
  refine .ite (.refuse hs) ?_
  split
  · exact .ite (.sendReply hs) (.forward hs)
  · split
    · exact .takeRead hs
    · exact .takeSem hs
    · exact .takeRelay hs
    · exact .takeGrant hs
    · exact .takeWrite hs

/-! ### Functions of `Machine/HostOps` -/
theorem Canon.hifFault {s : State} (hs : Canon s) : Canon s.hifFault :=
  .event (.setFld hs)

theorem Canon.unmapped {s : State} (hs : Canon s) : Canon s.unmapped :=
  .setFld hs

theorem Canon.setRing {s : State} {n : Nat} {r : Ring} (hs : Canon s) : Canon (s.setRing n r) :=
  .updHif hs

theorem Canon.holdEntries {s : State} {n : Nat} (hs : Canon s) : Canon (s.holdEntries n) :=
  .updHif hs

theorem Canon.writeRing {s : State} {n new mask : Nat} (hs : Canon s) : Canon (s.writeRing n new mask) :=
  .ite (.ite (.hifFault hs) (.ite hs (.holdEntries (.setFld (.writeMod hs))))) (.ite (.ite (.hifFault (.writeMod hs))
    (.writeMod hs)) (.ite (.updHif (.setRing (.setFld (.setFld (.setFld (.setFld (.ite (.hifFault (.writeMod hs))
    (.writeMod hs)))))))) (.setRing (.setFld (.setFld (.setFld (.setFld (.ite (.hifFault (.writeMod hs)) (.writeMod
    hs)))))))))

theorem Canon.writeEntry {s : State} {e : Entry} (hs : Canon s) : Canon (s.writeEntry e) :=
  .setRing (.ite (.setFld (.setFld (.hostWrite hs))) (.setFld (.hostWrite hs)))

theorem Canon.refuseDesc {s : State} {ring : Nat} {d : BitVec 512} {c : BitVec 16} (hs : Canon s) : Canon
    (s.refuseDesc ring d c) :=
  .postFor (.draw hs)

theorem Canon.accept {s : State} {ring : Nat} {d : BitVec 512} {running : Bool} (hs : Canon s) : Canon (s.accept ring
    d running) :=
  .updHif hs

theorem Canon.goes {s : State} {ring : Nat} {d : BitVec 512} (hs : Canon s) : Canon (s.goes ring d) :=
  .updHif hs

theorem Canon.hostToTile {s : State} {t off : Nat} {d : BitVec 512} {bs : List Byte} (hs : Canon s) : Canon
    (s.hostToTile t off d bs).1 :=
  .iteOf hs (.iteOf (.setTile hs (.setWindow (.tile hs))) (.setTile hs (.setWindow (.fillTags (.writeSlots (.tile
    hs))))))

theorem Canon.copyUnit {s : State} {d : BitVec 512} {m : Nat} (hs : Canon s) : Canon (s.copyUnit d m).1 := by
  unfold State.copyUnit
  extract_lets
  split
  · exact .iteOf hs (.iteOf hs (.iteOf hs (.iteOf (.iteOf (.writeBlock (.serveBefore hs)) (.writePart (.serveBefore
    hs))) (.iteOf (.iteOf (.readBlock (.serveBefore hs)) (.readPart (.serveBefore hs))) (.iteOf (.iteOf (.readBlock
    (.serveBefore hs)) (.readPart (.serveBefore hs))) (.hostWrite (.iteOf (.readBlock (.serveBefore hs)) (.readPart
    (.serveBefore hs)))))))))
  · exact .iteOf (.iteOf hs (.hostToTile hs)) (.iteOf hs (.iteOf (.setTile hs (.spadRead (.tile hs))) (.hostWrite
    (.setTile hs (.spadRead (.tile hs))))))
  · exact .ite (.unmapped hs) (.hostWrite (.unmapped hs))
  · exact hs
  · exact hs

theorem Canon.setOp {s : State} {o : Op} (hs : Canon s) : Canon (s.setOp o) :=
  .updHif hs

theorem Canon.copyRun {s : State} {tag : BitVec 64} {n : Nat} (hs : Canon s) : Canon (s.copyRun tag n).1 := by
  induction n generalizing s with
  | zero => exact hs
  | succ n ih =>
    unfold State.copyRun
    split
    · exact hs
    · exact .iteOf hs (.iteOf (.copyUnit hs) (.iteOf (.copyUnit hs) (ih (.setOp (.copyUnit hs)))))

theorem Canon.copyEnd {s : State} {tag : BitVec 64} {c : BitVec 16} (hs : Canon s) : Canon (s.copyEnd tag c) := by
  unfold State.copyEnd
  split
  · exact hs
  · exact .finish hs

theorem Canon.copyPart {s : State} {tag : BitVec 64} (hs : Canon s) : Canon (s.copyPart tag).1 := by
  unfold State.copyPart
  split
  · exact hs
  · exact .copyRun (.draw hs)

theorem Canon.resetHif {s : State} (hs : Canon s) : Canon s.resetHif :=
  .updHif (.foldl hs fun _ _ h => .copyEnd (.copyPart h))

theorem Canon.relayTo {s s' : State} {coord : Nat} {bs : List Byte} (hs : Canon s) (e : s.relayTo coord bs = some s')
    : Canon s' := by
  unfold State.relayTo at e
  split at e
  · cases e
  · split at e
    · cases e
    · cases e
      exact .forward (.setPort hs)

theorem Canon.pseudoRing {s : State} {coord : BitVec 24} {ring : Nat} (hs : Canon s) : Canon (s.pseudoRing coord
    ring).2 := by
  unfold State.pseudoRing
  split
  · exact hs
  · exact .updHif hs

/-! ### Functions of `Machine/NvmOps` -/
theorem Canon.commitSec {s : State} {x : SecState} (hs : Canon s) : Canon (s.commitSec x) :=
  .writePages (.upd hs)

theorem Canon.readSec {s : State} (hs : Canon s) : Canon s.readSec :=
  .ite (.report hs) (.ite (.upd hs) (.report (.writePages (.upd hs))))

theorem Canon.countLife {s : State} {n : Nat} (hs : Canon s) : Canon (s.countLife n) :=
  .bumpFld hs

theorem Canon.commitJournal {s : State} {exact : Bool} (hs : Canon s) : Canon (s.commitJournal exact) :=
  .writePages (.upd (.setFld hs))

theorem Canon.raiseLife {s : State} {n : Nat} (hs : Canon s) : Canon (s.raiseLife n) :=
  .commitJournal (.countLife hs)

theorem Canon.loadJournal {s : State} (hs : Canon s) : Canon s.loadJournal :=
  .setFld (.foldl hs fun _ _ h => .setFld h)

theorem Canon.setCalendar {s : State} {v : BitVec 64} (hs : Canon s) : Canon (s.setCalendar v).1 :=
  .iteOf hs (.setFld (.setFld hs))

theorem Canon.unstage {s : State} (hs : Canon s) : Canon s.unstage :=
  .foldl hs fun _ _ h => .wr h

theorem Canon.readSettings {s : State} (hs : Canon s) : Canon s.readSettings :=
  .unstage (.ite (.report (.upd hs)) (.ite (.upd hs) (.report (.writePages (.upd hs)))))

theorem Canon.writePolicy {s : State} {new mask : Nat} (hs : Canon s) : Canon (s.writePolicy new mask).1 :=
  .iteOf hs (.writeMod hs)

theorem Canon.interimFor {s : State} {ring : Nat} {d : BitVec 512} {c : BitVec 16} (hs : Canon s) : Canon
    (s.interimFor ring d c) :=
  .postFor (.draw hs)

theorem Canon.startStore {s : State} {ring : Nat} {d : BitVec 512} (hs : Canon s) : Canon (s.startStore ring d) :=
  .ite (.interimFor (.upd hs)) (.ite (.finish hs) (.upd hs))

theorem Canon.endStore {s : State} (hs : Canon s) : Canon s.endStore := by
  unfold State.endStore
  split
  · exact hs
  · extract_lets
    split
    · exact .finish (.ite (.countLife (.writePages (.upd hs))) (.logGlow (.countLife (.writePages (.upd hs)))))
    · exact .startStore (.upd (.finish (.ite (.countLife (.writePages (.upd hs))) (.logGlow (.countLife (.writePages
      (.upd hs)))))))

theorem Canon.press {s : State} (hs : Canon s) : Canon s.press :=
  .ite hs (.upd (.countLife hs))

theorem Canon.closeWindow {s : State} (hs : Canon s) : Canon s.closeWindow :=
  .upd hs

theorem Canon.clearTamper {s : State} (hs : Canon s) : Canon s.clearTamper.1 :=
  .iteOf hs (.iteOf hs (.ite (.commitSec hs) hs))

theorem Canon.raiseFloor {s : State} {v : Nat} (hs : Canon s) : Canon (s.raiseFloor v).1 :=
  .iteOf hs (.commitSec hs)

theorem Canon.serveUnit {s : State} {u : Nat} (hs : Canon s) : Canon (s.serveUnit u) := by
  unfold State.serveUnit
  extract_lets
  split
  · exact .ite (.setSpare hs) hs
  · exact .upd hs
  · exact .setFld hs
  · exact .ite (.trainPort hs) hs
  · exact .updLh hs
  · exact hs

theorem Canon.returnUnit {s : State} {u : Nat} (hs : Canon s) : Canon (s.returnUnit u).1 :=
  .iteOf hs (.iteOf hs (.logGlow (.serveUnit (.setUnit hs))))

theorem Canon.writeSecCtl {s : State} {v : Nat} (hs : Canon s) : Canon (s.writeSecCtl v).1 :=
  .iteOf (.clearTamper (.ite (.closeWindow hs) hs)) (.ite (.closeWindow hs) hs)

theorem Canon.sampleSeal {s : State} {open_ : Bool} (hs : Canon s) : Canon (s.sampleSeal open_) :=
  .ite (.raiseLife (.ite (.upd hs) (.commitSec (.upd hs)))) (.upd hs)

/-! ### Functions of `Machine/JobRun` -/
theorem Canon.copySlots {s : State} {at_ : Nat} {pins : List (Nat × Nat)} (hs : Canon s) : Canon (s.copySlots at_
    pins).1 :=
  .foldlOf hs fun _ _ h0 => .foldlOf h0 fun _ _ h1 => .iteOf h1 (.iteOf (.readPart (.serveBefore h1)) (.hostWrite
    (.readPart (.serveBefore h1))))

theorem Canon.restoreCkpt {s : State} {j : Job} {buf : Nat} (hs : Canon s) : Canon (s.restoreCkpt j buf) :=
  .updLh (.setFld (.foldl hs fun _ _ h0 => .foldl (.setFld (.setFld (.setFld h0))) fun _ _ h1 => .storeBlock h1))

theorem CCanon.context {s : State} {u : Suspension} (hs : Canon s) : CCanon (s.context u) :=
  ⟨hs.hbm, hs.tiles⟩

theorem TCanon.swapIn {now saved : Tile} (hsaved : TCanon saved) : TCanon (now.swapIn saved) :=
  .upd hsaved

theorem Canon.swapRegs {s : State} {regs : Map Word} (hs : Canon s) : Canon (s.swapRegs regs) :=
  .foldl (.upd hs) fun _ _ h => .wr h

theorem Canon.swapInJob {s : State} {c : Context} (hs : Canon s) (hc : CCanon c) : Canon (s.swapInJob c) := by
  unfold State.swapInJob
  extract_lets +onlyGivenNames s₁ s₂
  have h₂ : Canon s₂ :=
    .foldl (.swapRegs hs) fun _ _ h => .onTile h fun _ _ => .swapIn (Map.get_mem .default _ _ hc.tiles)
  exact ⟨hc.hbm, h₂.mem, h₂.sram, h₂.tiles, h₂.contexts, h₂.written⟩

theorem TCanon.setUpTile {j : Job} {x : Tile} (hx : TCanon x) : TCanon (j.setUpTile x) :=
  .foldl (.foldl (.setFld (.setFld hx)) fun _ _ h0 => .setFld h0) fun _ _ h1 => .setFld h1

theorem Canon.setUpRegions {s : State} {j : Job} (hs : Canon s) : Canon (s.setUpRegions j) :=
  .foldl hs fun _ _ h0 => .foldl h0 fun _ _ h1 => .wr h1

theorem Canon.setUpTrees {s : State} {box : List Nat} (hs : Canon s) : Canon (s.setUpTrees box) :=
  .foldl hs fun _ _ h => .setFld (.setFld (.setFld (.wr h)))

theorem Canon.testEarly {s : State} {j : Job} (hs : Canon s) : Canon (s.testEarly j) :=
  .upd hs

theorem Canon.freshTiles {s : State} {j : Job} (hs : Canon s) : Canon (s.tileList.foldl (fun (s : State) t =>
    (s.resetCore t).onTile t (fun x => { j.setUpTile x with sems := [], credits := [] })) s) :=
  .foldl hs fun _ _ h => .onTile (.resetCore h) fun _ h => .upd (.setUpTile h)
theorem Canon.setCur {s : State} {c : Option (BitVec 64)} (hs : Canon s) :
    Canon { s with lh := { s.lh with cur := c } } := .updLh hs
theorem Canon.reloadAll {s : State} (hs : Canon s) :
    Canon { s with lh := { s.lh with reload := s.tileList, noTestUntil := 0 } } := .updLh hs
theorem Canon.firstCopies {s : State} {x : StepState} (hs : Canon s) : Canon { s with lh := { s.lh with
    copy0 := x, copy1 := {}, copy2 := {}, sel := 0, nextBuffer := 0, evalAt := 0 } } := .updLh hs
theorem Canon.setCkptDone {s : State} {done : Option (Nat × BitVec 64)} {n : Nat} (hs : Canon s) :
    Canon { s with lh := { s.lh with ckptDone := done, nextBuffer := n } } := .updLh hs
theorem Canon.prepare {s : State} {j : Job} (hs : Canon s) : Canon (s.prepare j) := by
  unfold State.prepare
  extract_lets +onlyGivenNames _ s₁ _ s₂ s₃
  have h₃ : Canon s₃ := .freshTiles (.setCur (.freeModule (.setCur hs)))
  clear_value s₃
  extract_lets +onlyGivenNames _ s₄ s₅ _ s₆
  have h₆ : Canon s₆ := .firstCopies (.setUpTrees (.setUpRegions (.wr (.testEarly (.reloadAll h₃)))))
  clear_value s₆
  refine .writeDraws ?_
  split
  · exact .setCkptDone (.restoreCkpt h₆)
  · split
    next e =>
      have hc := (h₆.contextAt e).withJob (j := j.id)
      exact .addContext (.foldl (.swapInJob h₆ hc) fun _ _ h => .onTile h fun _ h => .setFld h) hc
    next => exact .updLh h₆
  · exact h₆

theorem Canon.startPlacing {s : State} {j : Job} {box : List Nat} (hs : Canon s) : Canon (s.startPlacing j box) :=
  .ite (.prepare (.tellMembers (.opState (.setJob hs)))) (.tellMembers (.opState (.setJob hs)))

theorem Canon.startSuspend {s : State} {j : Job} {why ring : Nat} {cid : BitVec 16} {d : BitVec 512} {portable : Bool}
    (hs : Canon s) : Canon (s.startSuspend j why ring cid d portable) :=
  .tellMembers (.updLh hs)

theorem Canon.scheduleHold {s : State} {u : Suspension} {j : Job} (hs : Canon s) : Canon (s.scheduleHold u j) := by
  refine .ite hs ?_
  split
  · exact hs
  · exact .ite (.foldl (.startTree (.updLh hs)) fun _ _ h => .controlTo h) (.updLh hs)

theorem Canon.tilesHeld {s : State} {m : Nat} (hs : Canon s) : Canon (s.tilesHeld m) := by
  unfold State.tilesHeld
  split
  · exact .ite hs (.ite (.scheduleHold (.updLh hs)) (.controlTo (.updLh hs)))
  · exact hs

theorem Canon.joinHold {s : State} {tc : BitVec 64} (hs : Canon s) : Canon (s.joinHold tc) := by
  unfold State.joinHold
  split
  · exact .startTree (.updLh hs)
  · exact hs

theorem Canon.releaseStarts {s : State} {r0 : Option (BitVec 64)} (hs : Canon s) : Canon (s.releaseStarts r0) := by
  refine .foldl hs fun _ _ h0 => .xqRun (.onTile h0 fun _ h1 => ?_)
  split
  · exact .ite (.upd h1) h1
  · exact h1

theorem Canon.clearSkip {s : State} (hs : Canon s) : Canon s.clearSkip :=
  .setLh hs (Lighthouse.setCopy_sram _ _ _) (Lighthouse.setCopy_contexts _ _ _) (Lighthouse.setCopy_written _ _ _)

theorem Canon.resumeHere {s : State} {j : Job} {r0 : BitVec 64} (hs : Canon s) : Canon (s.resumeHere j r0) := by
  unfold State.resumeHere
  extract_lets +onlyGivenNames c
  have hc : ∀ x, c = some x → CCanon x := fun x e => hs.contexts x (List.mem_of_find?_eq_some e)
  clear_value c
  extract_lets +onlyGivenNames s₁ _ s₂ s₃
  have h₁ : Canon s₁ := by
    cases c with
    | some x => exact .ite hs (.swapInJob hs (hc x rfl))
    | none => exact hs
  have h₂ : Canon s₂ :=
    ⟨h₁.hbm, h₁.mem, h₁.sram, h₁.tiles, fun c hc => h₁.contexts c (List.mem_filter.1 hc).1, h₁.written⟩
  have h₃ : Canon s₃ := .ite (.clearSkip h₂) h₂
  clear_value s₃
  split
  · exact .releaseStarts (.updLh h₃)
  · exact .releaseStarts (.updLh h₃)

theorem Canon.resumeJob {s : State} {j : Job} (hs : Canon s) : Canon (s.resumeJob j) :=
  .ite (.resumeHere (.tellMembers (.interim (.opState (.setJob hs))))) (.tellMembers (.interim (.opState (.setJob
    hs))))

theorem Canon.memberReady {s : State} {m : Nat} (hs : Canon s) : Canon (s.memberReady m) := by
  unfold State.memberReady
  extract_lets
  split
  · exact hs
  · exact .ite hs (.ite (.controlTo hs) (.ite (.setJob hs) (.ite (.setJob hs) (.ite (.resumeHere (.tellMembers
    (.interim (.opState (.setJob hs))))) (.tellMembers (.interim (.opState (.setJob hs))))))))

theorem Canon.reportQueue {s : State} (hs : Canon s) : Canon s.reportQueue := by
  refine .foldl hs fun _ _ h => ?_
  split
  · exact .ite (.setJob (.interim h)) h
  · exact h

theorem Canon.displace {s : State} {k : Job} {by_ : BitVec 64} (hs : Canon s) : Canon (s.displace k by_) := by
  refine .ite (.freeModule (.updLh (.interim (.opState (.setJob hs))))) (.ite ?_ (.interim (.opState (.setJob
    (.tellMembers hs)))))
  split
  · exact hs
  · exact .startSuspend hs

theorem Canon.placeReserved {s : State} {j : Job} (hs : Canon s) : Canon (s.placeReserved j) :=
  .ite (.startPlacing hs) hs

theorem Canon.admitJob {s : State} {j : Job} (hs : Canon s) : Canon (s.admitJob j) := by
  unfold State.admitJob
  split
  · exact .startPlacing hs
  · split
    · exact .placeReserved (.foldl (.opState (.setJob hs)) fun _ _ h => .displace h)
    · exact .setJob (.opState (.interim hs))

theorem Canon.dequeue {s : State} (hs : Canon s) : Canon s.dequeue := by
  unfold State.dequeue
  extract_lets +onlyGivenNames try_
  have htry : ∀ j s', try_ s j = some s' → Canon s' := fun j s' e => by
    simp only [try_] at e
    split at e
    · split at e
      · cases e
      · split at e
        · cases e
          exact .resumeJob hs
        · cases e
          exact .startPlacing hs
    · obtain ⟨b, -, rfl⟩ := Option.map_eq_some_iff.1 e
      exact .startPlacing hs
  split
  next e =>
    obtain ⟨j, -, hj⟩ := List.exists_of_findSome?_eq_some e
    exact .reportQueue (htry _ _ hj)
  next => exact .reportQueue hs

theorem Canon.keepContext {s : State} {u : Suspension} (hs : Canon s) : Canon (s.keepContext u) :=
  ⟨hs.hbm, hs.mem, hs.sram, hs.tiles, fun c hc => (List.mem_append.1 hc).elim
    (fun h => hs.contexts c (List.mem_filter.1 h).1) fun h => List.mem_singleton.1 h ▸ .context hs, hs.written⟩

theorem Canon.leave {s : State} {j : Job} {by_ : BitVec 64} (hs : Canon s) : Canon (s.leave j by_) :=
  .freeModule (.updLh (.ite hs (.hostWrite (.drawBytes hs))))

theorem Canon.ctxBytes {s : State} {j : Job} {u : Suspension} (hs : Canon s) : Canon (s.ctxBytes j u).2 :=
  .drawBytes (.draw hs)

theorem Canon.giveWay {s : State} {j : Job} {by_ : BitVec 64} (hs : Canon s) : Canon (s.giveWay j by_) :=
  .leave (.interim (.opState (.setJob hs)))

theorem Canon.writeContext {s : State} {j : Job} {u : Suspension} {c : Context} (hs : Canon s) (hc : CCanon c) :
    Canon (s.writeContext j u c) := by
  have put : ∀ {s a bs}, Canon s →
      Canon { s.hostWrite a bs with lh := { s.lh with written := s.lh.written ++ [(bs, c)] } } := by
    intro s a bs h
    have h' : Canon (s.hostWrite a bs) := .hostWrite h
    exact ⟨h'.hbm, h'.mem, h.sram, h'.tiles, h.contexts, fun e he => (List.mem_append.1 he).elim
      (h.written e) fun he => List.mem_singleton.1 he ▸ hc⟩
  unfold State.writeContext
  extract_lets +onlyGivenNames live b
  have h₁ : Canon b.2 := .ctxBytes hs
  clear_value b
  have h₂ := fun (c : Prop) [Decidable c] => Canon.ite (c := c) (put (a := cArg u.desc 256 64) (bs := b.1) h₁) h₁
  exact .ite (.opState (.setJob (.finish (h₂ _)))) (.ite (.finish (h₂ _)) (.resumeJob (.finish (h₂ _))))

theorem Canon.cancelJob {s : State} {j : Job} {cs : List (Nat × BitVec 512)} (hs : Canon s) : Canon (s.cancelJob j cs)
    :=
  .foldl (.closeJob (.ite (.abandonStep (.tellMembers hs)) (.tellMembers hs))) fun _ _ h => .finish h

theorem Canon.placeNext {s : State} {id : BitVec 64} (hs : Canon s) : Canon (s.placeNext id) := by
  unfold State.placeNext
  split
  · exact .placeReserved hs
  · exact .dequeue hs

theorem Canon.stopFor {s : State} {u : Suspension} {j : Job} (hs : Canon s) : Canon (s.stopFor u j) := by
  unfold State.stopFor
  split
  · exact .finish (.interim (.opState (.setJob (.keepContext (.draw hs)))))
  · exact .placeNext (.giveWay (.keepContext hs))
  · exact .writeContext (.keepContext hs) (.context hs)
  · exact .upd (.interim (.keepContext hs))
  · exact .keepContext hs

theorem Canon.switchDone {s : State} {u : Suspension} {j : Job} (hs : Canon s) : Canon (s.switchDone u j) := by
  refine .ite (.cancelJob (.updLh hs)) (.ite (.stopFor hs) (.ite (.placeNext (.cancelJob (.updLh hs))) (.ite ?_
    (.cancelJob (.updLh hs)))))
  extract_lets
  split
  · exact .cancelJob (.stopFor hs)
  · exact .stopFor hs

theorem Canon.ckptOver {s : State} {id : BitVec 64} (hs : Canon s) : Canon (s.ckptOver id) := by
  unfold State.ckptOver
  split
  · refine .ite hs (.ite (.closeJob (.foldl (.setJob (.updLh hs)) fun _ _ h0 => .finish h0)) ?_)
    split
    · exact .ite (.foldl (.setJob (.updLh hs)) fun _ _ h1 => .finish h1) (.ite (.upd (.foldl (.setJob (.updLh hs)) fun
      _ _ h2 => .finish h2)) (.startSuspend (.upd (.foldl (.setJob (.updLh hs)) fun _ _ h3 => .finish h3))))
    · exact .foldl (.setJob (.updLh hs)) fun _ _ h4 => .finish h4
  · exact hs

theorem Canon.headerWritten {s : State} {id : BitVec 64} {m buffer : Nat} {step : BitVec 64} {last : Bool} (hs : Canon
    s) : Canon (s.headerWritten id m buffer step last) := by
  unfold State.headerWritten
  split
  · exact hs
  · exact .ite hs (.ite (.setJob hs) (.ite (.closeJob (.ckptOver (.interim (.setJob (.tellMembers hs))))) (.ckptOver
    (.interim (.setJob (.tellMembers hs))))))

theorem Canon.takePlacement {s : State} {id : BitVec 64} {origin : Nat} {d : BitVec 512} {k : Nat} (hs : Canon s) :
    Canon (s.takePlacement id origin d k) :=
  .ite hs (.prepare (.updLh hs))

theorem Canon.takeJobControl {s : State} {bs : List Byte} (hs : Canon s) : Canon (s.takeJobControl bs) := by
  unfold State.takeJobControl
  extract_lets
  split
  · split
    · exact .resumeHere (.setJob hs)
    · exact hs
  · exact .takePlacement hs
  · exact .ite (.updLh hs) hs
  · split
    · exact .closeJob (.abandonStep hs)
    · exact hs
  · exact .memberReady hs
  · exact .updLh hs
  · exact .updLh hs
  · split
    · exact .ite (.setFirstOpen hs) hs
    · exact hs
  · exact .openAt hs
  · exact .headerWritten hs
  · exact .ckptOver hs
  · exact hs

theorem Canon.startCkpt {s : State} {j : Job} (hs : Canon s) : Canon (s.startCkpt j) :=
  .ite (.report (.updLh (.foldl hs fun _ _ h0 => .finish h0))) (.hostWrite (.updLh (.foldl hs fun _ _ h1 => .setPin
    h1)))

theorem Canon.ckptStarts {s : State} (hs : Canon s) : Canon s.ckptStarts := by
  unfold State.ckptStarts
  extract_lets
  split
  · exact .runDue hs
  · exact .ite (.startCkpt (.runDue hs)) (.runDue hs)

theorem Canon.endCkpt {s : State} {j : Job} {c : Checkpoint} (hs : Canon s) : Canon (s.endCkpt j c) :=
  .ite (.ite (.endJob (.foldl (.updLh (.unpin (.copySlots hs))) fun _ _ h0 => .finish h0)) (.closeJob (.foldl (.updLh
    (.unpin (.copySlots hs))) fun _ _ h1 => .finish h1))) (.ite (.headerWritten (.updLh (.hostWrite (.updLh (.unpin
    (.copySlots hs)))))) (.controlTo (.updLh (.hostWrite (.updLh (.unpin (.copySlots hs)))))))

theorem Canon.returnMember {s : State} {j : Job} {m : Nat} (hs : Canon s) : Canon (s.returnMember j m) :=
  .ite (.setJob (.updLh hs)) (.ite (.updLh (.setJob (.updLh hs))) (.startPlacing (.ite (.abandonStep (.setJob (.updLh
    hs))) (.setJob (.updLh hs)))))

theorem Canon.requeue {s : State} {j : Job} (hs : Canon s) : Canon (s.requeue j) :=
  .interim (.setJob (.opState (.setJob (.ite (.freeModule (.abandonStep hs)) hs))))

/-! ### Functions of `Machine/HostIf` -/
theorem Canon.badDoorbell {s : State} {n : Nat} (hs : Canon s) : Canon (s.badDoorbell n) :=
  .setFld (.setFld hs)

theorem Canon.writeRelay {s : State} {k new mask : Nat} (hs : Canon s) : Canon (s.writeRelay k new mask) :=
  .ite hs (.ite (.hifFault hs) (.setFld (.setFld (.setFld (.writeMod hs)))))

theorem Canon.startHere {s : State} {ring : Nat} {d : BitVec 512} (hs : Canon s) : Canon (s.startHere ring d) :=
  .ite (.accept hs) (.ite (.refuseDesc hs) (.ite (.refuseDesc hs) (.ite (.refuseDesc hs) (.ite (.refuseDesc hs) (.upd
    (.accept hs))))))

theorem Canon.fireVector {s : State} {v : Nat} (hs : Canon s) : Canon (s.fireVector v) :=
  .ite (.setFld hs) (.setFld (.hostWrite hs))

theorem Canon.waitMicro {s : State} {n : Nat} (hs : Canon s) : Canon (s.waitMicro n) :=
  .ite (.setFld (.bumpFld hs)) hs

theorem Canon.tickMicro {s : State} (hs : Canon s) : Canon s.tickMicro :=
  .ite (.foldl hs fun _ _ h => .waitMicro h) hs

theorem Canon.idle {s : State} (hs : Canon s) : Canon (idle s) :=
  .upd (.sendFrames (.subtick (.tickMicro (.tickSecond hs))))

/-! ### Functions of `Machine/RegOps` -/
theorem Canon.writeHif {s : State} {c new mask : Nat} (hs : Canon s) : Canon (s.writeHif c new mask) :=
  .ite (.writeRing hs) (.ite (.writeRelay hs) (.ite (.resetHif (.ite (.hifFault (.writeMod hs)) (.writeMod hs))) (.ite
    (.ite (.fireVector (.ite (.hifFault (.writeMod hs)) (.writeMod hs))) (.ite (.hifFault (.writeMod hs)) (.writeMod
    hs))) (.ite (.hifFault (.writeMod hs)) (.writeMod hs)))))

theorem Canon.scrambleHbm {s : State} (hs : Canon s) : Canon s.scrambleHbm := by
  unfold State.scrambleHbm
  extract_lets a
  refine ⟨wf_filterMap _ (fun e e' _ he => ?_) hs.hbm, hs.mem, hs.sram, hs.tiles, hs.contexts, hs.written⟩
  extract_lets v at he
  split at he
  · cases he
  next hv =>
    cases he
    exact ⟨rfl, hv⟩

theorem Canon.writeHbmCfg {s : State} {c new mask : Nat} (hs : Canon s) : Canon (s.writeHbmCfg c new mask).1 :=
  .iteOf (.writeMod hs) (.iteOf (.setFld (.writeMod hs)) (.scrambleHbm (.writeMod hs)))

theorem Canon.writePortCtl {s : State} {p new mask : Nat} (hs : Canon s) : Canon (s.writePortCtl p new mask).1 :=
  .ite (.retrainPort (.iteOf (.iteOf (.quiescePort (.ite (.ite (.hostFence (.ite (.enablePort hs) hs)) (.hostUnfence
    (.ite (.enablePort hs) hs))) (.ite (.enablePort hs) hs))) (.unquiescePort (.ite (.ite (.hostFence (.ite
    (.enablePort hs) hs)) (.hostUnfence (.ite (.enablePort hs) hs))) (.ite (.enablePort hs) hs)))) (.ite (.ite
    (.hostFence (.ite (.enablePort hs) hs)) (.hostUnfence (.ite (.enablePort hs) hs))) (.ite (.enablePort hs) hs))))
    (.iteOf (.iteOf (.quiescePort (.ite (.ite (.hostFence (.ite (.enablePort hs) hs)) (.hostUnfence (.ite (.enablePort
    hs) hs))) (.ite (.enablePort hs) hs))) (.unquiescePort (.ite (.ite (.hostFence (.ite (.enablePort hs) hs))
    (.hostUnfence (.ite (.enablePort hs) hs))) (.ite (.enablePort hs) hs)))) (.ite (.ite (.hostFence (.ite
    (.enablePort hs) hs)) (.hostUnfence (.ite (.enablePort hs) hs))) (.ite (.enablePort hs) hs)))

theorem Canon.writeBcnCfg {s : State} {c new mask : Nat} (hs : Canon s) : Canon (s.writeBcnCfg c new mask).1 :=
  .iteOf (.writeMod hs) (.iteOf (.setFld (.writeMod hs)) (.askTick (.setFld (.writeMod hs))))

theorem Canon.writeNvm {s : State} {c new mask : Nat} (hs : Canon s) : Canon (s.writeNvm c new mask).1 :=
  .iteOf (.writePolicy hs) (.iteOf (.setCalendar hs) (.iteOf (.writeSecCtl hs) (.iteOf (.raiseFloor hs) (.iteOf
    (.returnUnit hs) (.writeMod hs)))))

theorem Canon.writeReg {s : State} {off new mask : Nat} (hs : Canon s) : Canon (s.writeReg off new mask).1 :=
  .iteOf (.unmapped hs) (.iteOf (.writeHif hs) (.iteOf (.writeHbmCfg hs) (.iteOf (.writePortCtl hs) (.iteOf
    (.writeSelf hs) (.iteOf (.writeBcnCfg hs) (.iteOf (.writeNvm hs) (.writeMod hs)))))))

/-! ### Functions of `Machine/Nvm` -/
theorem Canon.trainHost {s : State} (hs : Canon s) : Canon s.trainHost :=
  .setFld (.setFld (.setFld (.draw (.draw hs))))

theorem Canon.bootWait {s : State} (hs : Canon s) : Canon s.bootWait :=
  .upd (.setFld (.trainHost hs))

theorem Canon.bootRom {s : State} (hs : Canon s) : Canon s.bootRom :=
  .ite (.setFld (.readSec hs)) (.bootWait (.readSec hs))

/-! ### Functions of `Machine/LhOps` -/
theorem Canon.dropRelayed {s : State} (hs : Canon s) : Canon s.dropRelayed :=
  .foldl (.updHif hs) fun _ _ h => .refuseDesc h

theorem Canon.clearTrees {s : State} (hs : Canon s) : Canon s.clearTrees :=
  .foldl hs fun _ _ h => .setFld (.setTree h)

theorem Canon.lighthouseReset {s : State} {keep : Option (Nat × BitVec 512)} (hs : Canon s) : Canon (s.lighthouseReset
    keep) := by
  unfold State.lighthouseReset
  extract_lets +onlyGivenNames s₁
  have h₁ : Canon s₁ := .ite (.outOfStep hs) hs
  clear_value s₁
  extract_lets +onlyGivenNames s₂ s₃ s₄ lost
  have h₂ : Canon s₂ := by
    unfold s₂
    split
    · exact .unpin h₁
    · exact h₁
  clear_value s₂
  have h₃ : Canon s₃ := .unpin h₂
  clear_value s₃
  have h₄ : Canon s₄ := by
    unfold s₄
    split
    · exact .foldl h₃ fun _ _ h => .setFld h
    · exact h₃
  clear_value s₄ lost
  extract_lets +onlyGivenNames s₅ s₆ epoch s₇
  have h₆ : Canon s₆ := .clearTrees (.dropRelayed (.foldl h₄ fun _ _ h => .finish h))
  clear_value s₆
  have h₇ : Canon s₇ := .setFld h₆
  clear_value s₇
  exact .logGlow ⟨h₇.hbm, h₇.mem, wf_filter _ h₆.sram, h₇.tiles, h₆.contexts, h₆.written⟩

theorem Canon.lighthouseReady {s : State} (hs : Canon s) : Canon s.lighthouseReady :=
  .event (.updLh hs)

theorem Canon.releaseTiles {s : State} (hs : Canon s) : Canon s.releaseTiles :=
  .foldl hs fun _ _ h0 => .onTile h0 fun _ h1 => .upd (.setFld (.setFld h1))

theorem Canon.releaseChannels {s : State} (hs : Canon s) : Canon s.releaseChannels :=
  .foldl hs fun _ _ h => .setFld h

theorem Canon.bootEvent {s : State} {c : BitVec 16} (hs : Canon s) : Canon (s.bootEvent c) :=
  .ite (.logGlow (.draw (.draw hs))) (.event (.logGlow (.draw (.draw hs))))

theorem Canon.firstBoot {s : State} (hs : Canon s) : Canon s.firstBoot :=
  .upd (.setFld (.foldl (.foldl (.releaseChannels (.releaseTiles (.setFld (.setFld (.setFld hs))))) fun _ _ h0 =>
    .eclipse h0) fun _ _ h1 => .bootEvent h1))

theorem Canon.runImage {s : State} {i : Image} (hs : Canon s) : Canon (s.runImage i) :=
  .setFld (.setFld (.raiseLife (.updLh (.setFld (.setFld (.foldl hs fun _ _ h => .setFld h))))))

theorem Canon.holdBack {s : State} {ring : Nat} {d : BitVec 512} (hs : Canon s) : Canon (s.holdBack ring d) :=
  .updHif hs

theorem Canon.passOn {s : State} {m ring : Nat} {d : BitVec 512} (hs : Canon s) : Canon (s.passOn m ring d) := by
  unfold State.passOn
  split
  next e => exact .updHif (.relayTo hs e)
  next => exact .holdBack hs

/-! ### Functions of `Machine/TagOps` -/
theorem Canon.fin {s : State} {ring : Nat} {d : BitVec 512} {c : BitVec 16} (hs : Canon s) : Canon (s.fin ring d c) :=
  .finish hs

theorem Canon.onTarget {s : State} {ring : Nat} {d : BitVec 512} {body : Op → State} (hs : Canon s) (hbody : ∀ o,
    Canon (body o)) :
    Canon (s.onTarget ring d body) := by
  unfold State.onTarget
  extract_lets
  split
  · exact hbody _
  · exact .passOn hs
  · exact .fin hs

theorem Canon.suspendJob {s : State} {ring : Nat} {d : BitVec 512} {o : Op} {j : Job} (hs : Canon s) : Canon
    (s.suspendJob ring d o j) :=
  .ite (.fin (.opState (.setJob hs))) (.ite (.startSuspend hs) (.fin (.interim (.opState (.setJob (.ite (.tellMembers
    hs) hs))))))

theorem Canon.suspendCopy {s : State} {ring : Nat} {d : BitVec 512} {o : Op} (hs : Canon s) : Canon (s.suspendCopy
    ring d o) :=
  .ite (.fin (.copyEnd (.iteOf (.copyPart hs) hs))) (.fin (.interim (.opState (.iteOf (.copyPart hs) hs))))

theorem Canon.suspendOp {s : State} {ring : Nat} {d : BitVec 512} (hs : Canon s) : Canon (s.suspendOp ring d) := by
  refine .onTarget hs fun _ => .ite (.fin hs) (.ite (.fin hs) (.ite (.suspendCopy hs) ?_))
  split
  · exact .suspendJob hs
  · exact .fin (.interim (.opState hs))

theorem Canon.releaseJob {s : State} {j : Job} (hs : Canon s) : Canon (s.releaseJob j) := by
  unfold State.releaseJob
  extract_lets
  split
  · exact .ite (.resumeJob (.setJob hs)) (.interim (.opState (.setJob hs)))
  · exact .opState (.setJob hs)
  · exact .interim (.opState (.setJob hs))

theorem Canon.resumeOp {s : State} {ring : Nat} {d : BitVec 512} (hs : Canon s) : Canon (s.resumeOp ring d) := by
  refine .onTarget hs fun _ => .ite (.fin hs) (.ite (.fin (.interim (.opState hs))) ?_)
  split
  · exact .fin (.ite (.opState (.setJob hs)) (.releaseJob hs))
  · exact .fin (.opState hs)

theorem Canon.cancelPlaced {s : State} {ring : Nat} {d : BitVec 512} {j : Job} (hs : Canon s) : Canon (s.cancelPlaced
    ring d j) := by
  refine .ite (.startSuspend hs) (.ite ?_ (.cancelJob hs))
  split
  · exact .updLh hs
  · exact .cancelJob hs

theorem Canon.dropAsked {s : State} {d : BitVec 512} (hs : Canon s) : Canon (s.dropAsked d) :=
  .updLh hs

theorem Canon.cancelOp {s : State} {ring : Nat} {d : BitVec 512} (hs : Canon s) : Canon (s.cancelOp ring d) := by
  refine .onTarget hs fun _ => .ite (.fin hs) (.ite (.ite (.fin (.copyEnd (.iteOf (.copyPart hs) hs))) (.fin (.copyEnd
    (.iteOf (.copyPart hs) hs)))) (.ite ?_ (.fin (.finish (.dropAsked hs)))))
  split
  · exact .cancelPlaced hs
  · exact .fin (.finish hs)

theorem Canon.queryOp {s : State} {ring : Nat} {d : BitVec 512} (hs : Canon s) : Canon (s.queryOp ring d) :=
  .onTarget hs fun _ => .finish (.draw hs)

theorem Canon.writeSpan {s : State} {a : Nat} {bs : List Byte} (hs : Canon s) : Canon (s.writeSpan a bs) :=
  .foldl hs fun _ _ h => .writePart h

theorem Canon.postBatch {s : State} {ring : Nat} {d : BitVec 512} (hs : Canon s) : Canon (s.postBatch ring d) := by
  unfold State.postBatch
  split
  · exact .fin hs
  · exact .ite (.fin hs) (.ite (.holdBack hs) (.updLh hs))

theorem Canon.startHeld {s : State} {ts : List Nat} (hs : Canon s) : Canon (s.startHeld ts) := by
  unfold State.startHeld
  split
  · exact .ite (.foldl hs fun _ _ h => .ite (.startTile (.updLh h)) h) hs
  · exact hs

theorem Canon.stageBatch {s : State} {j : Job} {b : Batch} (hs : Canon s) : Canon (s.stageBatch j b) := by
  unfold State.stageBatch
  extract_lets
  split
  · exact .ite (.fin (.updLh hs)) (.startHeld (.fin (.updLh (.writeSpan (.updLh hs)))))
  · exact .fin (.updLh hs)
  · exact .fin (.updLh hs)

theorem Canon.placeJob {s : State} {ring : Nat} {d : BitVec 512} (hs : Canon s) : Canon (s.placeJob ring d) :=
  .ite (.passOn hs) (.ite (.fin hs) (.admitJob (.updLh hs)))

theorem Canon.stageReshard {s : State} {ring : Nat} {d : BitVec 512} (hs : Canon s) : Canon (s.stageReshard ring d) :=
    by
  unfold State.stageReshard
  split
  · exact .fin hs
  · exact .ite (.fin hs) (.ite (.fin hs) (.fin (.updLh (.foldl hs fun _ _ h0 => .foldl h0 fun _ _ h1 => .wr h1))))

theorem Canon.askCkpt {s : State} {ring : Nat} {d : BitVec 512} (hs : Canon s) : Canon (s.askCkpt ring d) := by
  unfold State.askCkpt
  split
  · exact .fin hs
  · exact .updLh hs

theorem Canon.saveContext {s : State} {ring : Nat} {d : BitVec 512} (hs : Canon s) : Canon (s.saveContext ring d) :=
    by
  unfold State.saveContext
  split
  · exact .fin hs
  · refine .ite (.fin hs) (.ite (.startSuspend hs) ?_)
    split
    next e => exact .writeContext hs (hs.contexts _ (List.mem_of_find?_eq_some e))
    next => exact .fin hs

theorem Canon.askPower {s : State} {ring : Nat} {d : BitVec 512} (hs : Canon s) : Canon (s.askPower ring d) :=
  .ite (.ite (.upd hs) (.fin hs)) (.ite (.fin hs) (.ite (.fin hs) (.ite (.fin hs) (.ite (.fin hs) (.ite (.holdBack hs)
    (.upd (.setFld hs)))))))

/-! ### Functions of `Machine/HostCmd` -/
theorem Canon.startCopy {s : State} {desc : BitVec 512} (hs : Canon s) : Canon (s.startCopy desc) :=
  .ite (.copyEnd hs) hs

theorem Canon.readGlow {s : State} {ring : Nat} {d : BitVec 512} (hs : Canon s) : Canon (s.readGlow ring d) :=
  .ite (.fin hs) (.ite (.finish (.hostWrite hs)) (.ite (.fin hs) (.finish (.hostWrite hs))))

/-! ### Functions of `Machine/RelOps` -/
theorem Canon.setTest {s : State} {u : Nat} {r : Option Bool} (hs : Canon s) : Canon (s.setTest u r) :=
  .upd hs

theorem Canon.startTest {s : State} {u : Nat} (hs : Canon s) : Canon (s.startTest u) := by
  refine .upd (.setTest (.ite hs ?_))
  split
  · exact .loseContents hs
  · exact hs

theorem Canon.deferTest {s : State} {u : Nat} (hs : Canon s) : Canon (s.deferTest u) :=
  .ite hs (.logGlow (.upd hs))

theorem Canon.moveForTest {s : State} {u : Nat} (hs : Canon s) : Canon (s.moveForTest u) := by
  unfold State.moveForTest
  extract_lets
  split
  · exact .startTest (.applyMove hs)
  · exact .deferTest hs

theorem Canon.testFallsDue {s : State} {u : Nat} (hs : Canon s) : Canon (s.testFallsDue u) :=
  .ite (.startTest hs) (.ite (.deferTest hs) hs)

theorem Canon.proved {s : State} {u : Nat} (hs : Canon s) : Canon (s.proved u) :=
  .ite (.updLh (.ite (.setUnit (.upd hs)) (.upd hs))) (.upd hs)

theorem Canon.endForced {s : State} {u : Nat} (hs : Canon s) : Canon (s.endForced u) := by
  unfold State.endForced
  split
  · exact .ite (.resumeJob (.logGlow (.draw hs))) hs
  · exact hs

theorem Canon.endTest {s : State} {u ms : Nat} {retest pass : Bool} (hs : Canon s) : Canon (s.endTest u ms retest
    pass) :=
  .ite (.ite (.ite (.charge hs) hs) (.logGlow (.setUnit (.setTest (.ite (.charge hs) hs))))) (.ite (.makePermanent
    (.setUnit (.logGlow hs))) (.setTest (.logGlow hs)))

theorem Canon.endMirrorTest {s : State} {u : Nat} {retest pass : Bool} (hs : Canon s) : Canon (s.endMirrorTest u
    retest pass) :=
  .ite hs (.ite (.upd hs) (.ite (.charge (.draw (.upd hs))) (.draw (.upd hs))))

theorem Canon.endTileTest {s : State} {u : Nat} {retest pass : Bool} (hs : Canon s) : Canon (s.endTileTest u retest
    pass) :=
  .ite (.endMirrorTest (.endTest hs)) (.endForced (.proved (.endMirrorTest (.endTest hs))))

theorem Canon.takeDigest {s : State} {m : Nat} {d : Option (BitVec 256)} (hs : Canon s) : Canon (s.takeDigest m d) :=
  .ite hs (.upd hs)

theorem Canon.sendDigest {s : State} (hs : Canon s) : Canon s.sendDigest :=
  .ite (.takeDigest (.upd hs)) (.controlTo (.upd hs))

theorem Canon.takeVerdict {s : State} {outcome : Nat} (hs : Canon s) : Canon (s.takeVerdict outcome) := by
  unfold State.takeVerdict
  split
  · exact hs
  · exact .ite hs (.ite (.upd hs) (.ite (.logGlow (.addCause (.upd hs))) (.ite (.eclipse (.charge (.logGlow (.addCause
    (.upd hs))))) (.charge (.logGlow (.addCause (.upd hs)))))))

theorem Canon.formVerdict {s : State} (hs : Canon s) : Canon s.formVerdict := by
  unfold State.formVerdict
  extract_lets
  split
  · exact .takeVerdict (.foldl hs fun _ _ h0 => .controlTo h0)
  · exact .foldl hs fun _ _ h1 => .controlTo h1

theorem Canon.takeMirrorBytes {s : State} {bs : List Byte} (hs : Canon s) : Canon (s.takeMirrorBytes bs) :=
  .ite (.takeMirror hs) hs

theorem Canon.rebuildFrom {s : State} {j : Job} (hs : Canon s) : Canon (s.rebuildFrom j) := by
  unfold State.rebuildFrom
  extract_lets +onlyGivenNames s₁ x g s₂ _ s₃ s₄
  have h₂ : Canon s₂ := .draw (.drawBytes (.prepare hs))
  clear_value s₂
  have h₃ : Canon s₃ := .updLh h₂
  clear_value s₃
  exact .writeDraws (.setFld (.foldl h₃ fun _ _ h => .foldl (.setFld (.setFld (.setFld (.draw h)))) fun _ _ h =>
    .storeBlock (.draw (.drawBytes h))))

theorem Canon.rebuilt {s : State} {j : Job} {m : Nat} (hs : Canon s) : Canon (s.rebuilt j m) :=
  .ite (.ite (.resumeHere (.tellMembers (.setJob (.ite (.rebuildFrom (.updLh hs)) (.updLh hs))))) (.tellMembers
    (.setJob (.ite (.rebuildFrom (.updLh hs)) (.updLh hs))))) (.setJob (.ite (.rebuildFrom (.updLh hs)) (.updLh hs)))

/-! ### Functions of `Machine/TokenOps` -/
theorem Canon.takeToken {s : State} {n : BitVec 64} (hs : Canon s) : Canon (s.takeToken n) :=
  .ite (.upd (.setFld hs)) hs

theorem Canon.stopDrive {s : State} {n : BitVec 64} (hs : Canon s) : Canon (s.stopDrive n) :=
  .upd (.setFld hs)

theorem Canon.passToken {s : State} {slot : Nat} (hs : Canon s) : Canon (s.passToken slot) :=
  .controlTo (.stopDrive hs)

theorem Canon.readBack {s : State} {word : BitVec 96} {sync : Bool} (hs : Canon s) : Canon (s.readBack word sync) :=
  .ite hs (.ite (.ite (.stopDrive (.bumpFld hs)) (.bumpFld hs)) (.ite (.stopDrive (.draw (.bumpFld hs))) (.draw
    (.bumpFld hs))))

/-! ### Functions of `Machine/Matrix` -/
theorem Canon.aheadAfter {s : State} {t : Nat} {l : WorkList} (hs : Canon s) : Canon (s.aheadAfter t l) :=
  .ite hs (.ite (.onTile hs fun _ h0 => .setFld h0) (.ite (.onTile hs fun _ h1 => .setFld h1) (.onTile (.draw hs) fun
    _ h2 => .setFld h2)))

/-! ### Functions of `Machine/PowerOps` -/
theorem Canon.moduleReset {s : State} (hs : Canon s) : Canon s.moduleReset :=
  .setFld (.setFld ⟨rfl, hs.mem, rfl, by simp, by simp, by simp⟩)

theorem Canon.smbSet {s : State} {v : BitVec 16} (hs : Canon s) : Canon (s.smbSet v) :=
  .upd hs

theorem Canon.stopRails {s : State} (hs : Canon s) : Canon s.stopRails :=
  .upd (.smbSet (.draw (.setFld (.setFld (.moduleReset hs)))))

theorem Canon.atBoot {s : State} {c : BitVec 16} (hs : Canon s) : Canon (s.atBoot c) :=
  .upd hs

theorem Canon.losePower {s : State} {c : BitVec 16} (hs : Canon s) : Canon (s.losePower c) :=
  .addCause hs

theorem Canon.redrain {s : State} (hs : Canon s) : Canon s.redrain :=
  .foldl hs fun _ _ h => .xqRun (.drainMat (.drainVec h))

theorem Canon.wakeUp {s : State} (hs : Canon s) : Canon s.wakeUp :=
  .ite (.upd hs) hs

theorem Canon.wakeIf {s : State} {source : Nat} (hs : Canon s) : Canon (s.wakeIf source) :=
  .ite (.wakeUp hs) hs

theorem Canon.boot {s : State} (hs : Canon s) : Canon s.boot :=
  .bootRom (.raiseLife (.ite (.setFld (.setFld (.setFld (.setFld (.setFld (.setFld (.upd (.moduleReset hs))))))))
    (.setFld (.setFld (.setFld (.setFld (.upd (.moduleReset hs))))))))

theorem TCanon.wakeUp {x : Tile} {b : Prop} [Decidable b] (hx : TCanon x) :
    TCanon (let y := if b then (x.setFld TILE.CORE_PWR 1).setFld TILE.CORE_READY 1 else x; { y with rtrReady := true
      }) :=
  .upd (.ite (.setFld (.setFld hx)) hx)
theorem Canon.wakeS2 {s : State} (hs : Canon s) : Canon s.wakeS2 := by
  unfold State.wakeS2
  extract_lets +onlyGivenNames ctx
  have hctx : ∀ c, ctx = some c → CCanon c := fun c e => by
    obtain ⟨j, -, hj⟩ := Option.bind_eq_some_iff.1 e
    exact hs.contexts c (List.mem_of_find?_eq_some hj)
  clear_value ctx
  extract_lets +onlyGivenNames s₁ s₂ asked s₃ _ s₄ 
  have h₁ : Canon s₁ := .foldl hs fun _ _ h => .onTile h fun x hx => by
    cases ctx with
    | none => exact .wakeUp hx
    | some c => exact .wakeUp (.swapIn (Map.get_mem .default _ _ (hctx c rfl).tiles))
  have h₂ : Canon s₂ := .foldl h₁ fun _ _ h => .spareRouterReady h
  clear_value s₂
  have h₄ : Canon s₄ := .setPwr (.setFld h₂)
  clear_value s₄
  extract_lets +onlyGivenNames _ s₅
  have h₅ : Canon s₅ := .ite (.updLh h₄) (.controlTo h₄)
  clear_value s₅
  exact .ite (.event h₅) (.foldl h₅ fun _ _ h => .fin h)

theorem Canon.tellAsleep {s : State} (hs : Canon s) : Canon s.tellAsleep :=
  .ite (.updLh hs) (.controlTo hs)

theorem Canon.entered {s : State} (hs : Canon s) : Canon s.entered := by
  unfold State.entered
  extract_lets r _ s₁
  have h₁ : Canon s₁ := .setPwr hs
  clear_value s₁ r
  split
  · exact .fin h₁
  · exact h₁

theorem Canon.drainEntries {n : Nat} {s : State} (hs : Canon s) : Canon (State.drainEntries n s) := by
  induction n generalizing s with
  | zero => exact hs
  | succ n ih =>
    unfold State.drainEntries
    split
    · exact ih (.writeEntry (.updHif hs))
    · exact hs

theorem Canon.saveLive {s : State} (hs : Canon s) : Canon s.saveLive := by
  unfold State.saveLive
  split
  · exact hs
  · exact .ite hs (.keepContext hs)

theorem Canon.enterS2 {s : State} (hs : Canon s) : Canon s.enterS2 := by
  unfold State.enterS2
  extract_lets +onlyGivenNames s₁ s₂
  have h₂ : Canon s₂ := .resetSpares (.foldl (.saveLive (.tellAsleep hs)) fun _ _ h =>
    .onTile (.resetRouter (.resetCore h)) fun _ h => .setFld h)
  clear_value s₂
  exact .entered (.setPwr h₂)

theorem Canon.enterS3 {s : State} (hs : Canon s) : Canon s.enterS3 :=
  .stopRails (.drainEntries (.entered (.commitJournal (.foldl (.tellAsleep hs) fun _ _ h => .control h))))

theorem Canon.goOff {s : State} (hs : Canon s) : Canon s.goOff :=
  .setFld (.wr (.upd (.moduleReset hs)))

theorem Canon.readHistory {s : State} (hs : Canon s) : Canon s.readHistory :=
  .ite (.report (.foldl (.upd hs) fun _ _ h0 => .setUnit h0)) (.foldl (.upd hs) fun _ _ h1 => .setUnit h1)

theorem Canon.comeUp {s : State} {slot : BitVec 3} {board vbatOk : Bool} (hs : Canon s) : Canon (s.comeUp slot board
    vbatOk) :=
  .upd (.ite (.raiseLife (.ite (.upd (.readHistory (.ite (.setFld (.readSettings (.loadJournal hs))) (.foldl (.setFld
    (.setFld (.setFld (.readSettings (.loadJournal hs))))) fun _ _ h0 => .setUnit h0)))) (.commitSec (.upd
    (.readHistory (.ite (.setFld (.readSettings (.loadJournal hs))) (.foldl (.setFld (.setFld (.setFld (.readSettings
    (.loadJournal hs))))) fun _ _ h1 => .setUnit h1))))))) (.readHistory (.ite (.setFld (.readSettings (.loadJournal
    hs))) (.foldl (.setFld (.setFld (.setFld (.readSettings (.loadJournal hs))))) fun _ _ h2 => .setUnit h2))))

theorem Canon.losePll {s : State} {pll unit : Nat} (hs : Canon s) : Canon (s.losePll pll unit) := by
  unfold State.losePll
  extract_lets
  split
  · exact .event (.losePower (.upd hs))
  · exact .ite (.setFld (.setFld (.upd (.upd hs)))) (.upd hs)
  · exact .lighthouseReset (.upd hs)
  · exact .foldl (.upd hs) fun _ _ h => .logGlow (.resetChannel h)
  · exact .logGlow (.resetPort (.upd hs))

theorem Canon.gainPll {s : State} {pll unit : Nat} (hs : Canon s) : Canon (s.gainPll pll unit) := by
  unfold State.gainPll
  extract_lets +onlyGivenNames _ s₁
  have h₁ : Canon s₁ := .setPwr hs
  clear_value s₁
  split
  · have h : Canon (s₁.tileList.foldl (fun (s : State) t => (s.resetCore t).resetRouter t) s₁).resetSpares :=
      .resetSpares (.foldl h₁ fun _ _ h => .resetRouter (.resetCore h))
    exact .ite (.updLh h) h
  · split
    · exact .ite (.setFld (.setFld (.setPwr h₁))) (.setPwr h₁)
    · exact h₁
  · exact h₁

theorem Canon.capStep {s : State} {mean mean100 : Nat} (hs : Canon s) : Canon (s.capStep mean mean100) :=
  .ite (.event (.setFld (.ite (.event (.bumpFld (.upd (.setFld hs)))) (.upd (.setFld hs))))) (.ite (.event (.bumpFld
    (.upd (.setFld hs)))) (.upd (.setFld hs)))

theorem Canon.thermStep {s : State} {tj : Nat} (hs : Canon s) : Canon (s.thermStep tj) :=
  .upd (.ite (.smbSet (.event (.bumpFld hs))) hs)

theorem Canon.thermStop {s : State} (hs : Canon s) : Canon s.thermStop :=
  .smbSet (.event (.bumpFld (.upd hs)))

theorem Canon.thermShutdown {s : State} (hs : Canon s) : Canon s.thermShutdown :=
  .upd (.smbSet (.atBoot (.stopRails (.raiseLife hs))))

theorem Canon.takeTj {s : State} {tj : Nat} (hs : Canon s) : Canon (s.takeTj tj) :=
  .ite (.thermShutdown (.setFld hs)) (.ite (.ite (.setFld hs) (.redrain (.thermStep (.upd (.setFld hs))))) (.ite
    (.thermStop (.setFld hs)) (.thermStep (.setFld hs))))

theorem Canon.takeVin {s : State} {vin power : Nat} (hs : Canon s) : Canon (s.takeVin vin power) :=
  .ite (.upd (.ite (.losePower (.ite (.upd (.setFld hs)) (.setFld (.upd (.setFld hs))))) (.ite (.upd (.setFld hs))
    (.setFld (.upd (.setFld hs)))))) (.ite (.upd (.setFld hs)) (.setFld (.upd (.setFld hs))))

theorem Canon.inputFault {s : State} (hs : Canon s) : Canon s.inputFault :=
  .ite hs (.smbSet (.event (.losePower (.upd hs))))

theorem Canon.collapse {s : State} (hs : Canon s) : Canon s.collapse :=
  .smbSet (.atBoot (.ite (.upd (.stopRails hs)) hs))

theorem Canon.brownOut {s : State} (hs : Canon s) : Canon s.brownOut :=
  .atBoot (.upd (.setFld (.readSettings (.upd (.bumpFld hs)))))

/-! ### Functions of `Machine/Pins` -/
theorem Canon.smbAnswer {s : State} {code : BitVec 8} {bs : List Byte} {pec : Option Bool} (hs : Canon s) : Canon
    (s.smbAnswer code bs pec) :=
  .upd hs

theorem Canon.bypass {s : State} (hs : Canon s) : Canon s.bypass :=
  .upd hs

theorem Canon.scanUnready {s : State} {body : State → State} (hs : Canon s) (hbody : ∀ x, Canon x → Canon (body x)) :
    Canon (s.scanUnready body) :=
  .ite (hbody _ hs) (.bypass hs)

/-! ### Functions of `Machine/Sync` -/
theorem Canon.semAsk {op : SemOp} {t : Nat} {w : BitVec 52} {s : State} (hs : Canon s) : Canon (Machine.semAsk op t w
    s) := by
  unfold Machine.semAsk
  extract_lets x
  split
  · exact .putStatus hs
  · exact .ite (.putStatus hs) (.semIssue (.setTile hs (.hold (.tile hs))))

theorem TCanon.passFence {t : Tile} {g : BitVec 16} (ht : TCanon t) : TCanon (t.passFence g) :=
  .upd ht

theorem Canon.homeCycle {s : State} {t : Nat} {ms : List SemMsg} (hs : Canon s) : Canon (s.homeCycle t ms) :=
  .ite (.foldl (.setTile hs (.upd (.tile hs))) fun _ _ h0 => .semApply h0) (.foldl (.setTile hs (.upd (.tile hs))) fun
    _ _ h1 => .semAnswer h1)

theorem Canon.sendReturned {s : State} {t : Nat} {hmod : BitVec 14} {home entry : Nat} (hs : Canon s) : Canon
    (s.sendReturned t hmod home entry) :=
  .sendRequest hs

/-! ### Functions of `Machine/Xch` -/
theorem Canon.enqueueXch {op a b c : Nat} {sync : Bool} {t : Nat} {w : BitVec 52} {pc : BitVec 20} {s : State} (hs :
    Canon s) : Canon (enqueueXch op a b c sync t w pc s) :=
  .xqRun (.setTile hs (.upd (.hold (.tile hs))))

theorem Canon.countReceive {s : State} {t : Nat} {stamp : BitVec 32} {k : Nat} (hs : Canon s) : Canon (s.countReceive
    t stamp k).1 := by
  refine .iteOf ?_ (.iteOf (.setTile hs (.upd (.tile hs))) hs)
  split
  · exact .iteOf hs (.setTile hs (.upd (.tile hs)))
  · exact .setTile hs (.upd (.tile hs))

theorem Canon.countWrite {s : State} {t : Nat} {w : RemoteWrite} {k : Nat} (hs : Canon s) : Canon (s.countWrite t w k)
    := by
  unfold State.countWrite
  split
  · exact hs
  · exact .ite (.reportPhase (.countReceive hs)) (.countReceive hs)

theorem Canon.tellClosed {s : State} {t : Nat} {w : RemoteWrite} (hs : Canon s) : Canon (s.tellClosed t w) := by
  unfold State.tellClosed
  split
  · exact .send hs
  · exact .send hs
  · exact .send hs
  · exact .send hs
  · exact hs

theorem Canon.landWrite {s : State} {t : Nat} {w : RemoteWrite} {c : BitVec 16} {f : Option Nat} {k : Nat} (hs : Canon
    s) : Canon (s.landWrite t w c f k) := by
  refine .ite (.setTile hs (.setWindow (.tile hs))) (.setTile hs ?_)
  split
  · exact .setWindow (.fillTags (.writeSlots (.tile hs)))
  · exact .setWindow (.setDark (.writeSlots (.tile hs)))

theorem Canon.recordAnswered {s : State} {t i : Nat} {c : BitVec 16} (hs : Canon s) : Canon (s.recordAnswered t i c)
    :=
  .phaseStatus (.onTile hs fun _ h => .upd h)

end Sys2Proof.Machine
end

section
/-! LEMMAS. Every command keeps the memories in canonical form. -/

namespace Sys2Proof.Machine

/-- A result whose next state, where it has one, has its memories in canonical form. -/
def Keeps : Result → Prop
  | .next s => Canon s
  | _ => True

theorem Keeps.next {s : State} (h : Canon s) : Keeps (.next s) := h

theorem Keeps.fault {f : Fault} : Keeps (.fault f) := trivial

theorem Keeps.ite {c : Prop} [Decidable c] {a b : Result} (ha : Keeps a) (hb : Keeps b) :
    Keeps (if c then a else b) := by
  split <;> assumption

/-! ### Commands of `Machine/Ops` -/
theorem Keeps.issue {t : Nat} {w : BitVec 52} {f : Form} {body : BitVec 20 → State → State} {s : State} (hs : Canon s)
    (hbody : ∀ pc s, Canon s → Canon (body pc s)) : Keeps (Machine.issue t w f body s) :=
  .ite .fault (.ite (.next hs) (.ite (.next (.record hs)) (.ite (.next (.record (.setTile hs (.upd (.tile hs)))))
    (.ite (.next (.setTile hs (.upd (.tile hs)))) (.next (hbody _ _ (.setTile hs (.upd (.tile hs)))))))))

/-! ### Commands of `Machine/Operands` -/
theorem Keeps.alu {op : Word → Word → Word} {t : Nat} {w : BitVec 52} {s : State} (hs : Canon s) : Keeps (alu op t w
    s) :=
  .issue hs (fun _ _ h => .putS h)

theorem Keeps.aluImm {f : Form} {op : Word → Word → Word} {t : Nat} {w : BitVec 52} {s : State} (hs : Canon s) : Keeps
    (aluImm f op t w s) :=
  .issue hs (fun _ _ h => .putS h)

theorem Keeps.jump {f : Form} {target : BitVec 20 → Tile → BitVec 20} {t : Nat} {w : BitVec 52} {s : State} (hs :
    Canon s) : Keeps (jump f target t w s) :=
  .issue hs (fun _ _ h0 => .onTile h0 fun _ h1 => .upd h1)

/-! ### Commands of `Machine/Sys` -/
theorem Keeps.execWait {t : Nat} {w : BitVec 52} {s : State} (hs : Canon s) : Keeps (execWait t w s) :=
  .issue hs (fun _ _ h => .ite (.setTile h (.wake (.tile h))) (.ite (.setTile h (.wake (.tile h))) (.ite (.setTile h
    (.wake (.ite (.post (.tile h)) (.tile h)))) (.setTile h (.upd (.ite (.post (.tile h)) (.tile h)))))))

theorem Keeps.execWaitWake {t : Nat} {s : State} (hs : Canon s) : Keeps (execWaitWake t s) := by
  refine .ite .fault ?_
  extract_lets
  split
  · exact .ite (.next (.setTile hs (.wake (.tile hs)))) (.next hs)
  · exact .next hs

theorem Keeps.execIllegalOp {t : Nat} {word : BitVec 64} {s : State} (hs : Canon s) : Keeps (execIllegalOp t word s)
    :=
  .ite .fault (.ite (.next hs) (.ite (.next (.record hs)) (.next (.record (.setTile hs (.upd (.tile hs)))))))

theorem Keeps.execInstructionFetch {t : Nat} {s : State} (hs : Canon s) : Keeps (execInstructionFetch t s) :=
  .ite .fault (.ite (.next hs) (.ite (.next (.record hs)) (.ite (.next hs) (.ite (.next (.record (.setTile hs
    (.spadRead (.tile hs))))) (.next (.setTile hs (.upd (.spadRead (.tile hs)))))))))

/-! ### Commands of `Machine/Hbm` -/
theorem Keeps.serveNext {write : Bool} {stack ch : Nat} {s : State} (hs : Canon s) :
    Keeps (Machine.serveNext write stack ch s) := by
  refine .ite .fault (.ite (.next hs) ?_)
  split
  next => exact .next hs
  next e => exact .ite (.next (.serveReq (.takeHbm hs e))) (.next hs)

theorem Keeps.execSparingCopyDone {stack : Nat} {s : State} (hs : Canon s) : Keeps (execSparingCopyDone stack s) := by
  refine .ite .fault ?_
  split
  · exact .next hs
  · exact .next (.setFld (.setFld (.setFld (.setStack (.foldl (.foldl hs fun _ _ h0 => .softBurst h0) fun _ _ h1 =>
    .copyBurst h1)))))

theorem Keeps.execChannelReady {stack ch : Nat} {s : State} (hs : Canon s) : Keeps (execChannelReady stack ch s) :=
  .ite .fault (.ite (.next hs) (.next (.setFld (.foldl (.setStack hs) fun _ _ h => .poison h))))

/-! ### Commands of `Machine/Beacon` -/
theorem Canon.mapTiles {s : State} {f : Nat → Tile → Tile} (hs : Canon s) (hf : ∀ n x, TCanon x → TCanon (f n x)) :
    Canon { s with tiles := s.tiles.map fun e => (e.1, f e.1 e.2) } :=
  ⟨hs.hbm, hs.mem, hs.sram, fun e he => by
    obtain ⟨e', he', rfl⟩ := List.mem_map.1 he
    exact hf _ _ (hs.tiles e' he'), hs.contexts, hs.written⟩
theorem Keeps.execBeaconEdge {s : State} (hs : Canon s) : Keeps (Machine.execBeaconEdge s) := by
  refine .ite (.next hs) ?_
  extract_lets +onlyGivenNames s₁
  have h₁ : Canon s₁ := .setFld (.setFld hs)
  clear_value s₁
  extract_lets +onlyGivenNames s₂
  have h₂ : Canon s₂ := .mapTiles h₁ fun _ _ h => .dueDeadline h
  clear_value s₂
  extract_lets +onlyGivenNames s₃ s₄ s₅
  have h₃ : Canon s₃ := .ite h₁ (.foldl h₂ fun _ _ h => .startBarrier (.applyDue h))
  have h₅ : Canon s₅ := .markEdges (.releaseMoved h₃)
  exact .next (.driveEdge (.ite (.sendSync h₅) h₅))

theorem Keeps.execSyncFrame {src : Nat} {count : BitVec 64} {term : BitVec 16} {hold : Bool} {s : State} (hs : Canon
    s) : Keeps (execSyncFrame src count term hold s) :=
  .ite .fault (.ite (.next hs) (.ite (.next hs) (.ite (.ite (.next hs) (.next (.upd (.lockTo (.setFld (.newParent
    hs)))))) (.ite (.next hs) (.ite (.next (.disagrees hs)) (.ite (.next (.upd (.dropSource hs))) (.ite (.ite (.next
    hs) (.next (.lockTo (.newParent hs)))) (.ite (.next (.upd (.ite hs (.newParent hs)))) (.next (.noteSource
    hs))))))))))

theorem Keeps.execHoldoverSourceSearch {found : Option Nat} {s : State} (hs : Canon s) : Keeps
    (execHoldoverSourceSearch found s) := by
  refine .ite (.next hs) ?_
  split
  · exact .ite .fault (.ite (.next (.lockTo (.newParent hs))) (.next hs))
  · exact .next (.elect hs)

theorem Keeps.execElectionAdvertisement {term : BitVec 16} {prio : BitVec 8} {module : BitVec 14} {floor : BitVec 64}
    {s : State} (hs : Canon s) : Keeps (execElectionAdvertisement term prio module floor s) :=
  .ite (.next hs) (.ite (.next (.ite (.elect hs) hs)) (.ite (.next (.ite (.elect hs) hs)) (.next (.advertise (.upd
    (.ite (.elect hs) hs))))))

theorem Keeps.execElectionClose {s : State} (hs : Canon s) : Keeps (execElectionClose s) := by
  refine .ite (.next hs) ?_
  extract_lets
  split
  · exact .next (.elect (.bumpFld hs))
  · refine .ite (.next (.upd (.setFld (.setFld (.setFld (.ite (.setFld (.bumpFld hs)) (.setFld (.setFld (.bumpFld
    hs))))))))) ?_
    split
    · exact .next (.lockTo (.newParent (.setFld (.bumpFld hs))))
    · exact .next (.setFld (.setFld (.setFld (.bumpFld hs))))
    · exact .next (.setFld (.setFld (.setFld (.bumpFld hs))))

theorem Keeps.execHoldoverLimit {s : State} (hs : Canon s) : Keeps (execHoldoverLimit s) :=
  .ite (.next hs) (.next (.foldl (.addCause (.report (.setFld (.setFld hs)))) fun _ _ h => .loseSchedule h))

theorem Keeps.execBeaconRelock {src : Nat} {count : BitVec 64} {s : State} (hs : Canon s) : Keeps (execBeaconRelock
    src count s) :=
  .ite .fault (.ite (.next hs) (.ite (.next (.lockTo (.newParent hs))) (.next (.takeCount (.lockTo (.newParent
    hs))))))

theorem Keeps.execFabricRejoin {src : Nat} {term : BitVec 16} {prio : BitVec 8} {master : BitVec 14} {count : BitVec
    64} {s : State} (hs : Canon s) : Keeps (execFabricRejoin src term prio master count s) :=
  .ite .fault (.ite (.next (.ite (.draw hs) hs)) (.ite (.next (.upd (.lockTo (.setFld (.setFld (.newParent (.ite
    (.draw hs) hs))))))) (.next (.takeCount (.upd (.lockTo (.setFld (.setFld (.newParent (.ite (.draw hs) hs))))))))))

theorem Keeps.execTreeContribution {tree port : Nat} {value : BitVec 64} {count : Nat} {absent : Option Nat} {s :
    State} (hs : Canon s) : Keeps (execTreeContribution tree port value count absent s) := by
  refine .ite .fault (.ite (.next hs) ?_)
  extract_lets
  split
  · exact .ite (.next (.bumpFld hs)) (.ite (.next hs) (.next (.setTree hs)))
  · exact .next (.upd hs)

theorem Keeps.execTreeResult {tree : Nat} {value : BitVec 64} {count : Nat} {absent : Option Nat} {s : State} (hs :
    Canon s) : Keeps (execTreeResult tree value count absent s) := by
  refine .ite .fault ?_
  split
  · exact .next hs
  · exact .ite (.next (.ite hs (.applyDue hs))) (.ite (.next (.setTree hs)) (.next (.applyResult hs)))

/-! ### Commands of `Machine/Coll` -/
theorem Keeps.execCollTrigger {axis counter n : Nat} {s : State} (hs : Canon s) : Keeps (execCollTrigger axis counter
    n s) := by
  refine .ite .fault (.next (.collTry (.setFld ?_)))
  split
  · exact .upd hs
  · exact hs

theorem Keeps.execCollEnd {axis d : Nat} {s : State} (hs : Canon s) : Keeps (Machine.execCollEnd axis d s) := by
  refine .ite .fault ?_
  split
  · exact .next hs
  next c _ =>
    refine .ite (.next hs) ?_
    extract_lets +onlyGivenNames s₁ s₂
    have h₁ : Canon s₁ := .setColls hs
    have h₂ : Canon s₂ := .setFld (.setFld h₁)
    clear_value s₂ s₁
    extract_lets +onlyGivenNames _ s₃
    have h₃ : Canon s₃ := ⟨h₂.hbm, h₂.mem, h₁.sram, h₂.tiles, h₁.contexts, h₁.written⟩
    clear_value s₃
    extract_lets +onlyGivenNames s₄ s₅
    have h₄ : Canon s₄ := .ite h₃ (.collDone h₃)
    have h₅ : Canon s₅ := .ite (.collCatchUp (.collBegin h₄)) h₄
    exact .next (.foldl h₅ fun _ _ h => .collTry h)

theorem Keeps.execCollDeadline {axis d : Nat} {s : State} (hs : Canon s) : Keeps (execCollDeadline axis d s) := by
  refine .ite .fault ?_
  split
  · exact .next hs
  · exact .ite (.next hs) (.next (.collFail (.bumpFld hs)))

theorem Keeps.execStackTempRead {stack : Nat} {temp : BitVec 8} {s : State} (hs : Canon s) : Keeps (execStackTempRead
    stack temp s) :=
  .ite .fault (.ite (.next hs) (.ite (.next (.addCause (.report (.foldl (.ite (.report (.updLh (.setFld (.setFld
    hs)))) (.updLh (.setFld (.setFld hs)))) fun _ _ h => .serveChannel h)))) (.ite (.next (.collWake (.ite (.report
    (.updLh (.setFld (.setFld hs)))) (.updLh (.setFld (.setFld hs)))))) (.next (.ite (.report (.updLh (.setFld
    (.setFld hs)))) (.updLh (.setFld (.setFld hs))))))))

/-! ### Commands of `Machine/Dma` -/
theorem Keeps.execDmast {t : Nat} {w : BitVec 52} {s : State} (hs : Canon s) : Keeps (execDmast t w s) :=
  .issue hs (fun _ _ h0 => .ite (.faultAt h0) (.ite (.putStatus h0) (.ite (.chargeSpad (.putStatus (.setTile h0
    (.spadRead (.tile h0))))) (.ite (.putStatus (.setTile h0 (.spadRead (.tile h0)))) (.ite (.putStatus (.setTile h0
    (.spadRead (.tile h0)))) (.ite (.putStatus (.setTile h0 (.spadRead (.tile h0)))) (.ite (.putStatus (.setTile h0
    (.spadRead (.tile h0)))) (.putStatus (.onTile (.key (.setTile h0 (.spadRead (.tile h0)))) fun _ h1 => .upd
    h1)))))))))

theorem Keeps.execDmacan {t : Nat} {w : BitVec 52} {s : State} (hs : Canon s) : Keeps (execDmacan t w s) :=
  .issue hs (fun _ _ h0 => .ite h0 (.txnSettle (.sigDrain (.onTile h0 fun _ h1 => .queueEmpty (.foldl (.upd h1) fun _
    _ h2 => .sigOpGone h2)))))

theorem Keeps.execDmaOpStart {t que : Nat} {s : State} (hs : Canon s) : Keeps (execDmaOpStart t que s) := by
  refine .ite .fault ?_
  split
  · exact .next hs
  · exact .ite (.next hs) (.ite (.next (.dmaFail (.onTile hs fun _ h0 => .onOp h0))) (.next (.dmaServe (.onTile hs fun
    _ h1 => .onOp h1))))

theorem Keeps.execDmaOpEnd {t que : Nat} {s : State} (hs : Canon s) : Keeps (execDmaOpEnd t que s) := by
  refine .ite .fault ?_
  extract_lets
  split
  · exact .next (.dmaRun (.dmaAnswers hs))
  · exact .ite (.next (.dmaFinish (.dmaRun (.dmaAnswers hs)))) (.next (.dmaRun (.dmaAnswers hs)))

/-! ### Commands of `Machine/MatQueue` -/
theorem Keeps.issueMat {t op : Nat} {w : BitVec 52} {regs : List Nat} {s : State} (hs : Canon s) : Keeps (issueMat t
    op w regs s) :=
  .issue hs (fun _ _ h => .enqueueMat h)

/-! ### Commands of `Machine/VecQueue` -/
theorem Keeps.issueVec {t cls op : Nat} {w : BitVec 52} {f : Form} {s : State} (hs : Canon s) : Keeps (issueVec t cls
    op w f s) :=
  .issue hs (fun _ _ h => .enqueueVec h)

/-! ### Commands of `Machine/Engine` -/
theorem Keeps.execTaggedAccessRecheck {t i : Nat} {s : State} (hs : Canon s) : Keeps (execTaggedAccessRecheck t i s)
    := by
  refine .ite .fault ?_
  extract_lets
  split
  · exact .next hs
  · refine .ite (.next hs) (.next (.afterPark ?_))
    split
    · exact .serveLoad (.setTile hs (.post (.unpark (.tile hs))))
    · exact .serveVst (.setTile hs (.post (.unpark (.tile hs))))
    · split
      · exact .dmaServe (.setTile hs (.post (.unpark (.tile hs))))
      · exact .setTile hs (.post (.unpark (.tile hs)))
    · exact .setTile hs (.post (.unpark (.tile hs)))
    · exact .onTile (.setTile hs (.post (.unpark (.tile hs)))) fun _ h => .setTags h

theorem Keeps.execTagTimeout {t i : Nat} {s : State} (hs : Canon s) : Keeps (execTagTimeout t i s) := by
  refine .ite .fault ?_
  extract_lets
  split
  · exact .next hs
  · refine .next (.afterPark ?_)
    split
    · exact .faultAt (.setTile hs (.bumpFld (.post (.unpark (.tile hs)))))
    · exact .faultAt (.setTile hs (.bumpFld (.post (.unpark (.tile hs)))))
    · exact .dmaFail (.setTile hs (.bumpFld (.post (.unpark (.tile hs)))))
    · exact .endXsend (.setTile hs (.bumpFld (.post (.unpark (.tile hs)))))
    · exact .ite (.failList (.setTile hs (.bumpFld (.post (.unpark (.tile hs)))))) (.faultAt (.setTile hs (.bumpFld
      (.post (.unpark (.tile hs))))))

theorem Keeps.execReplyArrival {t : Nat} {s : State} (hs : Canon s) : Keeps (execReplyArrival t s) := by
  refine .ite .fault ?_
  extract_lets
  split
  · exact .next hs
  · extract_lets
    split
    · exact .next hs
    · exact .ite (.next (.setTile hs (.bumpFld (.upd (.tile hs))))) (.next (.xqRun (.drainVec (.applyReply (.setTile
      hs (.upd (.tile hs)))))))

/-! ### Commands of `Machine/Grid` -/
theorem Keeps.execTileSubstitute {row col : Nat} {s : State} (hs : Canon s) : Keeps (execTileSubstitute row col s) :=
    by
  refine .ite .fault ?_
  split
  · refine .ite (.next hs) ?_
    split
    · exact .next (.upd (.applyMove hs))
    · split
      · exact .next (.applyMove hs)
      · exact .next hs
  · exact .next hs

theorem Keeps.execRouterReset {row col : Nat} {s : State} (hs : Canon s) : Keeps (execRouterReset row col s) := by
  refine .ite .fault ?_
  split
  · exact .next (.logGlow (.resetSpareRouter hs))
  · exact .next (.logGlow (.resetRouter hs))

theorem Keeps.execRouterReady {row col : Nat} {s : State} (hs : Canon s) : Keeps (execRouterReady row col s) := by
  refine .ite .fault (.ite (.next hs) ?_)
  split
  · exact .next (.spareRouterReady hs)
  · exact .next (.onTile hs fun _ h => .upd h)

/-! ### Commands of `Machine/StepTxn` -/
theorem Keeps.execVeto {t : Nat} {w : BitVec 52} {s : State} (hs : Canon s) : Keeps (execVeto t w s) := by
  refine .issue hs (fun _ _ h => ?_)
  split
  · exact .ite (.putStatus (.addCause h)) (.putStatus h)
  · exact .putStatus h

theorem Keeps.execStepOpen {s : State} (hs : Canon s) : Keeps (execStepOpen s) := by
  unfold Machine.execStepOpen
  split
  · exact .ite (.next hs) (.next (.openStep hs))
  · exact .next hs

theorem Keeps.execLeaseRelease {i : Nat} {s : State} (hs : Canon s) : Keeps (execLeaseRelease i s) := by
  unfold Machine.execLeaseRelease
  split
  · exact .next hs
  · exact .ite (.next (.unpin (.updLh hs))) (.next hs)

theorem Keeps.execVoteTick {s : State} (hs : Canon s) : Keeps (execVoteTick s) := by
  unfold Machine.execVoteTick
  split
  · exact .ite (.next hs) (.next (.startTree (.formVote hs)))
  · exact .next hs

theorem Keeps.execStepResultLate {s : State} (hs : Canon s) : Keeps (execStepResultLate s) := by
  unfold Machine.execStepResultLate
  split
  · exact .ite (.next hs) (.next (.applyFlip hs))
  · exact .next hs

theorem Keeps.execModuleOutOfStep {s : State} (hs : Canon s) : Keeps (execModuleOutOfStep s) := by
  unfold Machine.execModuleOutOfStep
  split
  · exact .ite (.next hs) (.next (.outOfStep hs))
  · exact .next hs

/-! ### Commands of `Machine/HostOps` -/
theorem Keeps.hostCmd {opc ring : Nat} {d : BitVec 512} {body : State → State} {s : State} (hs : Canon s)
    (hbody : ∀ s, Canon s → Canon (body s)) : Keeps (Machine.hostCmd opc ring d body s) :=
  .ite (.next hs) (.ite (.ite (.next hs) (.next (hbody _ (.goes hs)))) (.ite (.next hs)
    (.ite (.next (.refuseDesc hs)) (.next (hbody _ (.accept hs))))))

/-! ### Commands of `Machine/HostIf` -/
theorem Keeps.execFetchBurst {s : State} (hs : Canon s) : Keeps (execFetchBurst s) := by
  refine .ite (.next hs) (.ite (.next (.ite (.setFld hs) hs)) ?_)
  split
  · exact .next hs
  · exact .next (.updHif (.setRing (.setFld (.ite (.setFld (.setFld (.setFld hs))) (.setFld (.setFld hs))))))

theorem Keeps.execDescriptorStart {ring : Nat} {s : State} (hs : Canon s) : Keeps (execDescriptorStart ring s) := by
  refine .ite (.next hs) ?_
  split
  · exact .next hs
  · refine .ite (.next hs) (.ite (.next (.refuseDesc (.setRing hs))) (.ite ?_ (.next (.startHere (.setRing hs)))))
    split
    · exact .next (.refuseDesc (.setRing hs))
    · exact .ite (.next (.refuseDesc (.setRing hs))) (.next (.updHif (.setRing hs)))

theorem Keeps.execCompletionWrite {s : State} (hs : Canon s) : Keeps (execCompletionWrite s) := by
  refine .ite (.next hs) ?_
  split
  · exact .next hs
  · exact .next (.writeEntry (.updHif hs))

theorem Keeps.execHostMemoryError {ring : Nat} {s : State} (hs : Canon s) : Keeps (execHostMemoryError ring s) :=
  .ite .fault (.ite (.next hs) (.ite (.next hs) (.next (.event (.setFld (.setFld (.setFld (.setFld hs))))))))

theorem Keeps.execRelayForward {s : State} (hs : Canon s) : Keeps (Machine.execRelayForward s) := by
  refine .ite (.next hs) ?_
  extract_lets +onlyGivenNames s₁
  have h₁ : Canon s₁ := by
    unfold s₁
    split
    · exact hs
    · split
      next e => exact .updHif (.relayTo hs e)
      next => exact hs
  clear_value s₁
  extract_lets +onlyGivenNames s₂
  have h₂ : Canon s₂ := by
    unfold s₂
    split
    · exact h₁
    · exact .setRing (.updHif (.pseudoRing h₁))
  clear_value s₂
  split
  · split
    next e _ => exact .next (.updHif (.relayTo h₂ e))
    next => exact .next h₂
  · exact .next h₂

theorem Keeps.execRelayPathLoss {k : Nat} {s : State} (hs : Canon s) : Keeps (execRelayPathLoss k s) :=
  .ite .fault (.ite (.next hs) (.ite (.next hs) (.next (.foldl (.event (.setFld hs)) fun _ _ h => .post (.draw h)))))

/-! ### Commands of `Machine/HostCmd` -/
theorem Keeps.execRegisterWrite {offset size : Nat} {value : BitVec 64} {s : State} (hs : Canon s) : Keeps
    (execRegisterWrite offset size value s) :=
  .ite (.next hs) (.ite (.next (.sramWrite hs)) (.ite (.next (.raised (.writeReg hs))) (.ite (.ite (.next (.raised
    (.writeReg hs))) (.next (.raised (.writeReg hs)))) (.next (.unmapped hs)))))

theorem Keeps.execCopyComplete {tag : BitVec 64} {s : State} (hs : Canon s) : Keeps (execCopyComplete tag s) := by
  unfold Machine.execCopyComplete
  split
  · exact .next hs
  · exact .ite (.next hs) (.ite (.next (.copyEnd (.copyRun hs))) (.next (.copyRun hs)))

theorem Keeps.execBatchStaged {index : BitVec 64} {s : State} (hs : Canon s) : Keeps (execBatchStaged index s) := by
  unfold Machine.execBatchStaged
  split
  · exact .next hs
  · split
    · exact .next hs
    · exact .ite (.next (.stageBatch hs)) (.next hs)

theorem Keeps.execFwImageAccept {s : State} (hs : Canon s) : Keeps (execFwImageAccept s) := by
  unfold Machine.execFwImageAccept
  split
  · exact .next hs
  · refine .ite (.next hs) (.ite (.ite (.next hs) (.next (.interimFor (.upd hs)))) (.next (.finish (.runImage (.ite
    (.lighthouseReady (.lighthouseReset (.upd ?_))) (.firstBoot (.upd ?_)))))))
    · split
      · exact .commitSec hs
      · exact hs
    · split
      · exact .commitSec hs
      · exact hs

/-! ### Commands of `Machine/Jobs` -/
theorem Keeps.execPlacementTimeout {s : State} (hs : Canon s) : Keeps (execPlacementTimeout s) := by
  unfold Machine.execPlacementTimeout
  split
  · exact .next hs
  · exact .ite (.next (.foldl hs fun _ _ h => .loseMember h)) (.next hs)

theorem Keeps.execCheckpointDone {s : State} (hs : Canon s) : Keeps (execCheckpointDone s) := by
  unfold Machine.execCheckpointDone
  split
  · exact .next (.endCkpt hs)
  · exact .next hs

theorem Keeps.execRecoveryTimeout {s : State} (hs : Canon s) : Keeps (execRecoveryTimeout s) := by
  unfold Machine.execRecoveryTimeout
  split
  · exact .next hs
  · exact .ite (.next (.requeue hs)) (.next hs)

theorem Keeps.execJobSwitchDone {s : State} (hs : Canon s) : Keeps (execJobSwitchDone s) := by
  unfold Machine.execJobSwitchDone
  split
  · exact .ite (.next (.switchDone hs)) (.next hs)
  · exact .next hs

theorem Keeps.execMemberReturn {module : Nat} {s : State} (hs : Canon s) : Keeps (execMemberReturn module s) := by
  unfold Machine.execMemberReturn
  split
  · exact .next hs
  · exact .next (.returnMember hs)

/-! ### Commands of `Machine/TokenOps` -/
theorem Keeps.takeWord {s : State} {word : BitVec 96} (hs : Canon s) : Keeps (s.takeWord word) :=
  .ite (.next hs) (.execSyncFrame hs)

/-! ### Commands of `Machine/Links` -/
theorem Keeps.execFrameReceive {port : Nat} {header : BitVec 256} {decodes fcrcOk corrected : Bool} {s : State} (hs :
    Canon s) : Keeps (execFrameReceive port header decodes fcrcOk corrected s) :=
  .ite .fault (.ite (.next hs) (.ite (.next (.setPort (.ite (.fecFail hs) (.ite (.bumpFld hs) hs)))) (.ite (.next
    (.takeFrame (.ite (.fecFail hs) (.ite (.bumpFld hs) hs)))) (.ite (.next (.ite (.fecFail hs) (.ite (.bumpFld hs)
    hs))) (.next (.setPort (.ite (.fecFail hs) (.ite (.bumpFld hs) hs))))))))

theorem Keeps.execCreditAudit {port : Nat} {totals : List (Nat × BitVec 16)} {s : State} (hs : Canon s) : Keeps
    (execCreditAudit port totals s) :=
  .ite .fault (.ite (.next hs) (.ite (.next hs) (.next (.portEvent (.logGlow (.resetPort hs))))))

theorem Keeps.takeControl {s : State} {p : Nat} {h : Hdr} {bs : List Byte} (hs : Canon s) :
    Keeps (s.takeControl p h bs) := by
  unfold State.takeControl
  extract_lets +onlyGivenNames v kind own pass
  have hpass : Canon pass := by
    unfold pass
    split
    · exact .ite (.transmit hs) hs
    · exact hs
  clear_value pass
  extract_lets +onlyGivenNames tree absent
  clear_value absent kind
  split
  · exact .execSyncFrame hs
  · exact .execElectionAdvertisement hs
  · exact .execTreeContribution hs
  · exact .execTreeResult (.foldl hs fun _ _ h => .control h)
  · exact .next (.ite hs (.setPort hs))
  · exact .next (.portEvent (.setPort hs))
  · exact .next (.portEvent (.dropSource (.setPort hs)))
  · exact .execCreditAudit hs
  · exact .ite (.next (.takeJobControl hs)) (.next hpass)
  · exact .ite (.next (.takeDigest hs)) (.next hpass)
  · exact .ite (.next (.takeVerdict hs)) (.next hpass)
  · exact .ite (.next (.takeMirrorBytes hs)) (.next hpass)
  · exact .ite (.next (.joinHold hs)) (.ite (.next (.tilesHeld hs)) (.next hpass))
  · exact .ite (.next (.takeToken hs)) (.next hpass)
  · exact .ite (.next (.takeTick hs)) (.next hpass)
  · exact .next (.collResend hs)
  · exact .ite (.next hs) (.next hpass)

theorem Keeps.execPacketArrival {port : Nat} {header : BitVec 384} {payload : List (BitVec 8)} {s : State} (hs : Canon
    s) : Keeps (execPacketArrival port header payload s) := by
  refine .ite .fault (.ite (.next hs) (.ite (.next (.setPort hs)) (.ite (.next (.foldl (.setPort hs) fun _ _ h0 =>
    .logGlow h0)) ?_)))
  extract_lets
  split
  · exact .next (.takeReply (.setPort (.ite (.setPort (.foldl hs fun _ _ h1 => .bumpFld h1)) (.foldl hs fun _ _ h2 =>
    .bumpFld h2))))
  · exact .next (.takeReply (.setPort (.ite (.setPort (.foldl hs fun _ _ h3 => .bumpFld h3)) (.foldl hs fun _ _ h4 =>
    .bumpFld h4))))
  · exact .next (.takeReply (.setPort (.ite (.setPort (.foldl hs fun _ _ h5 => .bumpFld h5)) (.foldl hs fun _ _ h6 =>
    .bumpFld h6))))
  · exact .next (.takeReply (.setPort (.ite (.setPort (.foldl hs fun _ _ h7 => .bumpFld h7)) (.foldl hs fun _ _ h8 =>
    .bumpFld h8))))
  · exact .ite (.next (.setPort (.ite (.setPort (.foldl hs fun _ _ h9 => .bumpFld h9)) (.foldl hs fun _ _ h10 =>
    .bumpFld h10)))) (.next (.collContribution (.setPort (.ite (.setPort (.foldl hs fun _ _ h11 => .bumpFld h11))
    (.foldl hs fun _ _ h12 => .bumpFld h12)))))
  · exact .ite (.takeControl (.setPort (.ite (.setPort (.foldl hs fun _ _ h13 => .bumpFld h13)) (.foldl hs fun _ _ h14
    => .bumpFld h14)))) (.next (.takeRequest (.setPort (.ite (.setPort (.foldl hs fun _ _ h15 => .bumpFld h15))
    (.foldl hs fun _ _ h16 => .bumpFld h16)))))
  · exact .ite (.next (.setPort (.ite (.setPort (.foldl hs fun _ _ h17 => .bumpFld h17)) (.foldl hs fun _ _ h18 =>
    .bumpFld h18)))) (.next (.takeRequest (.setPort (.ite (.setPort (.foldl hs fun _ _ h19 => .bumpFld h19)) (.foldl
    hs fun _ _ h20 => .bumpFld h20)))))

theorem Keeps.execLaneErrorWindow {port : Nat} {bad : BitVec 12} {seq : BitVec 16} {s : State} (hs : Canon s) : Keeps
    (execLaneErrorWindow port bad seq s) :=
  .ite .fault (.ite (.next hs) (.ite (.next hs) (.ite (.next (.setPort (.control hs))) (.ite (.next (.charge
    (.portEvent (.fastTrain (.setPort (.foldl hs fun _ _ h => .setLane h)))))) (.next hs)))))

theorem Keeps.execLaneSwap {port : Nat} {s : State} (hs : Canon s) : Keeps (execLaneSwap port s) := by
  refine .ite .fault ?_
  split
  · exact .next hs
  · exact .next (.portEvent (.setPort (.setFld (.foldl (.foldl hs fun _ _ h0 => .setLane h0) fun _ _ h1 => .setLane
    h1))))

theorem Keeps.execTrainingStateDone {port : Nat} {good : BitVec 12} {delay : BitVec 16} {s : State} (hs : Canon s) :
    Keeps (Machine.execTrainingStateDone port good delay s) := by
  refine .ite .fault ?_
  extract_lets +onlyGivenNames q dest
  have hdest : ∀ {s v}, Canon s → Keeps (dest s v) := fun h => .next (.setFld h)
  clear_value dest
  split
  · exact .ite (hdest hs) (.next hs)
  · exact hdest hs
  · split
    next e => exact hdest (.mapLanes hs e)
    next => exact hdest (.setPort hs)
  · exact hdest hs
  · exact .ite (hdest (.portEvent (.setPort (.setFld hs)))) (hdest (.transmit (.setPort (.setFld hs))))
  · exact .ite (hdest hs) (.next hs)
  · extract_lets +onlyGivenNames keep s₁ q' s₂ s₃
    have h₁ : Canon s₁ := .ite hs (.setPort hs)
    clear_value s₁
    have h₃ : Canon s₃ := .checkWiring (.meetNeighbour (.setFld (.setPort h₁)))
    exact .next (.ite (.setFld h₃) h₃)
  · exact .next hs

theorem Keeps.execIdentityPacket {port : Nat} {ident : BitVec 256} {s : State} (hs : Canon s) : Keeps
    (execIdentityPacket port ident s) :=
  .ite .fault (.ite (.next hs) (.ite (.next (.setFld (.setPort hs))) (.ite (.next (.checkWiring (.setPort hs))) (.ite
    (.next (.meetNeighbour (.setPort hs))) (.next (.setPort hs))))))

/-! ### Commands of `Machine/Matrix` -/
theorem Keeps.execListStart {t : Nat} {s : State} (hs : Canon s) : Keeps (execListStart t s) := by
  refine .ite .fault (.ite (.next hs) ?_)
  split
  · exact .next hs
  · exact .next (.continueList (.setTile hs (.ite (.setTags (.upd (.tile hs))) (.upd (.tile hs)))))

theorem Keeps.execListEnd {t : Nat} {s : State} (hs : Canon s) : Keeps (execListEnd t s) := by
  refine .ite .fault ?_
  split
  · exact .ite (.next (.xqRun (.drainMat (.onTile (.aheadAfter hs) fun _ h => .upd h)))) (.next hs)
  · exact .next hs

theorem Keeps.execListTimeout {t i : Nat} {s : State} (hs : Canon s) : Keeps (execListTimeout t i s) := by
  refine .ite .fault ?_
  split
  · exact .ite (.next hs) (.next (.xqRun (.drainMat (.record (.onTile hs fun _ h => .upd h)))))
  · exact .next hs

/-! ### Commands of `Machine/Pins` -/
theorem Keeps.execBcnWordReceive {word : BitVec 96} {sync : Bool} {s : State} (hs : Canon s) : Keeps
    (execBcnWordReceive word sync s) :=
  .ite (.next hs) (.ite (.next (.readBack hs)) (.ite (.next (.bumpFld hs)) (.ite (.execSyncFrame hs) (.takeWord hs))))

theorem Keeps.smbRead {code : BitVec 8} {bs : List Byte} {pec : Option Bool} {s : State} (hs : Canon s) : Keeps
    (smbRead code bs pec s) :=
  .ite (.next (.smbAnswer hs)) (.next hs)

theorem Keeps.scan {body : State → State} {s : State} (hs : Canon s) (hbody : ∀ s, Canon s → Canon (body s)) :
    Keeps (Machine.scan body s) :=
  .ite (.next (hbody _ hs)) (.next hs)

/-! ### Commands of `Machine/Power` -/
theorem Keeps.execPowerEntry {s : State} (hs : Canon s) : Keeps (execPowerEntry s) :=
  .ite (.next (.runDue hs)) (.ite (.next (.enterS3 (.runDue hs))) (.next (.enterS2 (.runDue hs))))

theorem Keeps.execHifPerstNRelease {s : State} (hs : Canon s) : Keeps (execHifPerstNRelease s) :=
  .ite (.next hs) (.ite (.next (.upd hs)) (.ite (.next (.bootWait (.upd hs))) (.next (.trainHost (.upd hs)))))

/-! ### Commands of `Machine/Reliab` -/
theorem Keeps.execTestMove {row col : Nat} {s : State} (hs : Canon s) : Keeps (execTestMove row col s) := by
  refine .ite .fault ?_
  extract_lets
  split
  · exact .next (.ckptStarts hs)
  · exact .ite (.next (.ckptStarts hs)) (.next (.moveForTest (.ckptStarts hs)))

theorem Keeps.execTileTestResult {row col : Nat} {pass : Bool} {s : State} (hs : Canon s) : Keeps (execTileTestResult
    row col pass s) := by
  refine .ite .fault ?_
  split
  · exact .ite (.next (.endTileTest hs)) (.next hs)
  · exact .next hs

theorem Keeps.execTestForced {row col : Nat} {s : State} (hs : Canon s) : Keeps (execTestForced row col s) :=
  .ite .fault (.ite (.next (.ckptStarts hs)) (.ite (.next (.startTest (.ckptStarts hs))) (.ite (.next (.ckptStarts
    hs)) (.next (.upd (.ckptStarts hs))))))

theorem Keeps.execSentinelDigest {s : State} (hs : Canon s) : Keeps (execSentinelDigest s) := by
  unfold Machine.execSentinelDigest
  split
  · exact .next hs
  · exact .ite (.next (.sendDigest hs)) (.next hs)

theorem Keeps.execReplicaVerdict {s : State} (hs : Canon s) : Keeps (execReplicaVerdict s) := by
  unfold Machine.execReplicaVerdict
  split
  · exact .next hs
  · exact .ite (.next (.formVerdict hs)) (.next hs)

theorem Keeps.execMirrorRebuild {s : State} (hs : Canon s) : Keeps (execMirrorRebuild s) := by
  unfold Machine.execMirrorRebuild
  split
  · exact .next hs
  · split
    · exact .ite (.next (.rebuilt hs)) (.next hs)
    · exact .next hs

/-! ### Commands of `Machine/Sync` -/
theorem Keeps.execSig {t : Nat} {w : BitVec 52} {s : State} (hs : Canon s) : Keeps (execSig t w s) := by
  refine .issue hs (fun _ _ h => .ite (.faultAt h) ?_)
  split
  · exact .putStatus h
  · exact .sigDrain (.setTile h (.upd (.hold (.tile h))))

theorem Keeps.execSwait {t : Nat} {w : BitVec 52} {s : State} (hs : Canon s) : Keeps (execSwait t w s) := by
  refine .issue hs (fun _ _ h => ?_)
  extract_lets
  split
  · exact .putStatus h
  · exact .ite (.putStatus h) (.semIssue (.setTile h (.upd (.tile h))))

theorem Keeps.execFenceComplete {t : Nat} {s : State} (hs : Canon s) : Keeps (execFenceComplete t s) := by
  refine .ite .fault ?_
  extract_lets
  split
  · exact .next (.ite (.setTile hs (.passFence (.tile hs))) hs)
  · exact .next hs

theorem Keeps.execSemReleaseDelivery {t : Nat} {s : State} (hs : Canon s) : Keeps (execSemReleaseDelivery t s) := by
  refine .ite .fault ?_
  extract_lets
  split
  · refine .ite (.next (.setTile hs ?_)) ?_
    · split
      · exact .upd (.putS (.upd (.tile hs)))
      · exact .upd (.tile hs)
    · split
      · exact .next (.send (.setTile hs (.upd (.tile hs))))
      · exact .next (.sendReturned (.setTile hs (.upd (.tile hs))))
  · exact .next hs

theorem Keeps.execReturnedRelease {t : Nat} {s : State} (hs : Canon s) : Keeps (execReturnedRelease t s) := by
  refine .ite .fault ?_
  extract_lets
  split
  · exact .next (.homeCycle (.setTile hs (.upd (.tile hs))))
  · exact .next hs

theorem Keeps.execSemTimeout {t entry i : Nat} {s : State} (hs : Canon s) : Keeps (execSemTimeout t entry i s) := by
  refine .ite .fault ?_
  extract_lets
  split
  · exact .next hs
  · exact .next (.semAnswer (.setSem hs))

/-! ### Commands of `Machine/Txn` -/
theorem Keeps.execTxopen {t : Nat} {w : BitVec 52} {s : State} (hs : Canon s) : Keeps (execTxopen t w s) := by
  refine .issue hs (fun _ _ h0 => ?_)
  split
  · exact .putStatus h0
  · exact .putS (.onTile (.key h0) fun _ h1 => .setTxn h1)

theorem Keeps.execTxrel {t : Nat} {w : BitVec 52} {s : State} (hs : Canon s) : Keeps (execTxrel t w s) := by
  refine .issue hs (fun _ _ h0 => .ite (.putStatus h0) ?_)
  split
  · exact .txnSettle1 (.onTile h0 fun _ h1 => .setTxn (.hold h1))
  · exact .onTile h0 fun _ h2 => .txnDone (.setTxn h2)
  · exact .putStatus h0

theorem Keeps.execTxcan {t : Nat} {w : BitVec 52} {s : State} (hs : Canon s) : Keeps (execTxcan t w s) :=
  .issue hs (fun _ _ h0 => .ite (.putStatus h0) (.txnSettle1 (.onTile h0 fun _ h1 => .setTxn (.hold h1))))

theorem Keeps.execTxnReleaseArrival {t : Nat} {s : State} (hs : Canon s) : Keeps (execTxnReleaseArrival t s) := by
  refine .ite .fault ?_
  extract_lets
  split
  · exact .next (.setTile hs (.applyRelease (.upd (.tile hs))))
  · exact .next hs

theorem Keeps.execDarkCopyDrop {t : Nat} {s : State} (hs : Canon s) : Keeps (execDarkCopyDrop t s) := by
  refine .ite .fault ?_
  extract_lets
  split
  · exact .next (.dropArrived (.setTile hs (.applyDrop (.upd (.tile hs)))))
  · exact .next hs

/-! ### Commands of `Machine/Xch` -/
theorem Keeps.execRemoteWriteCheck {t : Nat} {s : State} (hs : Canon s) : Keeps (execRemoteWriteCheck t s) := by
  refine .ite .fault ?_
  extract_lets
  split
  · exact .next hs
  · refine .ite (.next (.answerTo (.setTile hs (.upd (.tile hs))))) (.ite (.next (.answerTo (.countWrite (.setTile hs
    (.upd (.tile hs)))))) (.ite (.ite (.next (.setTile hs (.upd (.tile hs)))) (.next hs)) (.next (.chargeSpad (.ite
    (.tellClosed (.answerTo ?_)) (.answerTo ?_))))))
    · split
      · exact .landWrite (.setTile hs (.upd (.tile hs)))
      · exact .countWrite (.ite (.landWrite (.setTile hs (.upd (.tile hs)))) (.reportPhase (.onTile (.landWrite
        (.setTile hs (.upd (.tile hs)))) fun _ h0 => .bumpFld h0)))
    · split
      · exact .landWrite (.setTile hs (.upd (.tile hs)))
      · exact .countWrite (.ite (.landWrite (.setTile hs (.upd (.tile hs)))) (.reportPhase (.onTile (.landWrite
        (.setTile hs (.upd (.tile hs)))) fun _ h1 => .bumpFld h1)))

theorem Keeps.execRemoteRead {t : Nat} {s : State} (hs : Canon s) : Keeps (execRemoteRead t s) := by
  refine .ite .fault ?_
  extract_lets
  split
  · exact .next hs
  · extract_lets
    split
    · exact .next (.send (.chargeSpad (.setTile hs (.iteOf (.spadRead (.upd (.tile hs))) (.upd (.tile hs))))))
    · exact .next (.sendReply (.chargeSpad (.setTile hs (.iteOf (.spadRead (.upd (.tile hs))) (.upd (.tile hs))))))
    · exact .next (.chargeSpad (.setTile hs (.iteOf (.spadRead (.upd (.tile hs))) (.upd (.tile hs)))))

theorem Keeps.execWcloseComplete {t win : Nat} {s : State} (hs : Canon s) : Keeps (execWcloseComplete t win s) := by
  refine .ite .fault (.ite (.next hs) ?_)
  extract_lets
  split
  · exact .ite (.next (.xqRun (.setTile hs (.upd (.complete (.setWindow (.tile hs))))))) (.next (.setTile hs
    (.setWindow (.tile hs))))
  · exact .next (.setTile hs (.setWindow (.tile hs)))

theorem Keeps.execGrantMessage {t : Nat} {s : State} (hs : Canon s) : Keeps (execGrantMessage t s) := by
  refine .ite .fault ?_
  extract_lets
  split
  · refine .ite (.next (.answerGrant (.setTile hs (.upd (.tile hs))))) ?_
    split
    · exact .next (.xqRun (.answerGrant (.onTile (.setTile hs (.upd (.tile hs))) fun _ h => .upd h)))
    · exact .next (.answerGrant (.setTile hs (.upd (.tile hs))))
  · exact .next hs

theorem Keeps.execGrantReturn {t : Nat} {s : State} (hs : Canon s) : Keeps (execGrantReturn t s) := by
  refine .ite .fault ?_
  extract_lets
  split
  · exact .ite (.next (.setTile hs (.bumpFld (.upd (.tile hs))))) (.next (.setTile hs (.upd (.complete (.ite
    (.setWindow (.upd (.tile hs))) (.upd (.tile hs)))))))
  · exact .next hs

theorem Keeps.execWinClosedRefusal {t : Nat} {s : State} (hs : Canon s) : Keeps (execWinClosedRefusal t s) := by
  refine .ite .fault ?_
  extract_lets
  split
  · exact .next (.setTile hs (.upd (.tile hs)))
  · exact .next hs

theorem Keeps.execCreditTimeout {t : Nat} {s : State} (hs : Canon s) : Keeps (execCreditTimeout t s) := by
  refine .ite .fault ?_
  extract_lets
  split
  · exact .ite (.next (.xqRun (.setTile hs (.post (.bumpFld (.complete (.upd (.tile hs)))))))) (.next hs)
  · exact .next hs

theorem Keeps.execMcastBranchResume {t id : Nat} {s : State} (hs : Canon s) : Keeps (execMcastBranchResume t id s) :=
    by
  refine .ite .fault ?_
  split
  · exact .next hs
  · exact .next (.xqRun (.resumeBranches hs))

theorem Keeps.execMcastTimeout {t id : Nat} {s : State} (hs : Canon s) : Keeps (execMcastTimeout t id s) := by
  refine .ite .fault ?_
  split
  · exact .next hs
  · exact .next (.xqRun (.mcCancel (.onTile hs fun _ h => .bumpFld h)))

theorem Keeps.execPhaseStart {t : Nat} {s : State} (hs : Canon s) : Keeps (execPhaseStart t s) := by
  refine .ite .fault ?_
  extract_lets
  split
  · exact .next hs
  · exact .ite (.next hs) (.next (.foldl (.setTile hs (.setFld (.upd (.tile hs)))) fun _ _ h => .reportPhase h))

theorem Keeps.execSendRecordIssue {t : Nat} {s : State} (hs : Canon s) : Keeps (execSendRecordIssue t s) := by
  refine .ite .fault ?_
  extract_lets
  split
  · exact .next hs
  · split
    · exact .next hs
    · exact .next (.txnSettle (.ite (.signal (.ite (.recordAnswered (.chargeSpad (.onTile (.setTile hs (.upd (.tile
      hs))) fun _ h0 => .upd (.spadRead (.tile hs))))) (.foldl (.ite (.recordAnswered (.onTile (.chargeSpad (.onTile
      (.setTile hs (.upd (.tile hs))) fun _ h1 => .upd (.spadRead (.tile hs)))) fun _ h2 => .upd h2)) (.onTile
      (.chargeSpad (.onTile (.setTile hs (.upd (.tile hs))) fun _ h3 => .upd (.spadRead (.tile hs)))) fun _ h4 => .upd
      h4)) fun _ _ h5 => .ite (.sendRequest (.foldMirror h5)) (.postWrite (.ite (.txnSent (.foldMirror h5))
      (.foldMirror h5)))))) (.ite (.recordAnswered (.chargeSpad (.onTile (.setTile hs (.upd (.tile hs))) fun _ h6 =>
      .upd (.spadRead (.tile hs))))) (.foldl (.ite (.recordAnswered (.onTile (.chargeSpad (.onTile (.setTile hs (.upd
      (.tile hs))) fun _ h7 => .upd (.spadRead (.tile hs)))) fun _ h8 => .upd h8)) (.onTile (.chargeSpad (.onTile
      (.setTile hs (.upd (.tile hs))) fun _ h9 => .upd (.spadRead (.tile hs)))) fun _ h10 => .upd h10)) fun _ _ h11 =>
      .ite (.sendRequest (.foldMirror h11)) (.postWrite (.ite (.txnSent (.foldMirror h11)) (.foldMirror h11)))))))

theorem Keeps.execExchAckArrival {t : Nat} {s : State} (hs : Canon s) : Keeps (execExchAckArrival t s) := by
  refine .ite .fault ?_
  extract_lets
  split
  · extract_lets
    split
    · exact .ite (.next (.onTile (.setTile hs (.upd (.tile hs))) fun _ h0 => .bumpFld h0)) (.ite (.next (.txnSettle
      (.txnAnswer (.setTile hs (.upd (.tile hs)))))) (.next (.txnSettle (.recordAnswered (.onTile (.txnAnswer
      (.setTile hs (.upd (.tile hs)))) fun _ h1 => .upd h1)))))
    · refine .ite (.next (.onTile (.setTile hs (.upd (.tile hs))) fun _ h2 => .bumpFld h2)) ?_
      extract_lets
      split
      · exact .next (.txnSettle (.txnAnswer (.setTile hs (.upd (.tile hs)))))
      · exact .ite (.next (.xqRun (.txnSettle (.mcDone (.txnAnswer (.setTile hs (.upd (.tile hs)))))))) (.next (.xqRun
        (.txnSettle (.mcSettle (.onTile (.txnAnswer (.setTile hs (.upd (.tile hs)))) fun _ h3 => .onMcast h3)))))
    · refine .ite (.next (.onTile (.setTile hs (.upd (.tile hs))) fun _ h4 => .bumpFld h4)) ?_
      split
      · exact .next (.txnSettle (.txnAnswer (.setTile hs (.upd (.tile hs)))))
      · exact .ite (.next (.xqRun (.txnSettle (.mcCancel (.setTile hs (.upd (.tile hs))))))) (.next (.xqRun
        (.txnSettle (.mcSettle (.onTile (.txnAnswer (.setTile hs (.upd (.tile hs)))) fun _ h5 => .onMcast h5)))))
    · exact .next (.setTile hs (.upd (.tile hs)))
  · exact .next hs

theorem Keeps.execPhaseEnd {t : Nat} {s : State} (hs : Canon s) : Keeps (execPhaseEnd t s) := by
  refine .ite .fault ?_
  split
  · exact .next hs
  · exact .ite (.next hs) (.next (.endPhase hs))

theorem Keeps.execPhaseGraceExpiry {t : Nat} {s : State} (hs : Canon s) : Keeps (execPhaseGraceExpiry t s) := by
  refine .ite .fault ?_
  split
  · exact .next hs
  · exact .ite (.next hs) (.next (.endPhase (.onTile (.reportPhase hs) fun _ h0 => .foldl h0 fun _ _ h1 => .ite
    (.beginClose h1) h1)))

theorem Keeps.exec {i : Instr} {s : State} (hs : Canon s) : Keeps (Machine.exec i s) := by
  unfold Machine.exec
  cases i with
  | add => exact .alu hs
  | sub => exact .alu hs
  | mul => exact .alu hs
  | mulh => exact .alu hs
  | and => exact .alu hs
  | or => exact .alu hs
  | xor => exact .alu hs
  | shl => exact .alu hs
  | shr => exact .alu hs
  | sra => exact .alu hs
  | cmp => exact .issue hs (fun _ _ h0 => .onTile h0 fun _ h1 => .putP h1)
  | addi => exact .aluImm hs
  | movi => exact .aluImm hs
  | movhi => exact .aluImm hs
  | br => exact .jump hs
  | bri => exact .jump hs
  | call => exact .issue hs (fun _ _ h0 => .onTile h0 fun _ h1 => .upd (.putS h1))
  | ret => exact .jump hs
  | ld => exact .issue hs (fun _ _ h0 => .plainLoad h0)
  | st => exact .issue hs (fun _ _ h0 => .plainStore h0)
  | vld => exact .issueVec hs
  | vst => exact .issueVec hs
  | dmast => exact .execDmast hs
  | dmawt => exact .issue hs (fun _ _ h0 => .onTile h0 fun _ h1 => .ite (.upd (.putS h1)) (.upd h1))
  | dmacan => exact .execDmacan hs
  | xstart => exact .issue hs (fun _ _ h0 => .ite (.putStatus h0) (.enqueueXch h0))
  | xwait => exact .issue hs (fun _ _ h0 => .onTile h0 fun _ h1 => .xwaitSettle (.upd h1))
  | xsend => exact .issue hs (fun _ _ h0 => .ite (.faultAt h0) (.ite (.putStatus h0) (.enqueueXch h0)))
  | wopen => exact .issue hs (fun _ _ h0 => .enqueueXch h0)
  | wclose => exact .issue hs (fun _ _ h0 => .enqueueXch h0)
  | wgrant => exact .issue hs (fun _ _ h0 => .ite (.faultAt h0) (.enqueueXch h0))
  | sig => exact .execSig hs
  | swait => exact .execSwait hs
  | sdec => exact .issue hs (fun _ _ h0 => .ite (.faultAt h0) (.semAsk h0))
  | flare => exact .issue hs (fun _ _ h0 => .semAsk h0)
  | sread => exact .issue hs (fun _ _ h0 => .semAsk h0)
  | fence => exact .issue hs (fun _ _ h0 => .onTile h0 fun _ h1 => .ite (.passFence h1) (.upd h1))
  | txopen => exact .execTxopen hs
  | txrel => exact .execTxrel hs
  | txcan => exact .execTxcan hs
  | veto => exact .execVeto hs
  | genrd => exact .issue hs (fun _ _ h0 => .putS h0)
  | nop => exact .issue hs (fun _ _ h0 => h0)
  | wait => exact .execWait hs
  | bcnrd => exact .issue hs (fun _ _ h0 => .putS h0)
  | halt => exact .issue hs (fun _ _ h0 => .onTile h0 fun _ h1 => .upd h1)
  | illegalOp => exact .execIllegalOp hs
  | instructionFetch => exact .execInstructionFetch hs
  | waitWake => exact .execWaitWake hs
  | haltReport => exact .ite .fault (.ite (.next (.setTile hs (.upd (.tile hs)))) (.next hs))
  | fenceComplete => exact .execFenceComplete hs
  | mma => exact .issueMat hs
  | azero => exact .issueMat hs
  | ald => exact .issueMat hs
  | ast => exact .issueMat hs
  | mrun => exact .issueMat hs
  | mrunPost => exact .ite .fault (.next (.xqRun (.drainMat hs)))
  | workListReady => exact .ite .fault (.next (.onTile hs fun _ h0 => .upd h0))
  | listStart => exact .execListStart hs
  | listEnd => exact .execListEnd hs
  | listTimeout => exact .execListTimeout hs
  | vadd => exact .issueVec hs
  | vsub => exact .issueVec hs
  | vmul => exact .issueVec hs
  | vfma => exact .issueVec hs
  | vlerp => exact .issueVec hs
  | vmin => exact .issueVec hs
  | vmax => exact .issueVec hs
  | vabs => exact .issueVec hs
  | vmov => exact .issueVec hs
  | vand => exact .issueVec hs
  | vor => exact .issueVec hs
  | vxor => exact .issueVec hs
  | vcmp => exact .issueVec hs
  | vtrn => exact .issueVec hs
  | vcvt => exact .issueVec hs
  | vdiv => exact .issueVec hs
  | vsqrt => exact .issueVec hs
  | vrsqrt => exact .issueVec hs
  | vrcp => exact .issueVec hs
  | vexp => exact .issueVec hs
  | vexp2 => exact .issueVec hs
  | vlog => exact .issueVec hs
  | vlog2 => exact .issueVec hs
  | vtanh => exact .issueVec hs
  | vlgst => exact .issueVec hs
  | verf => exact .issueVec hs
  | vsin => exact .issueVec hs
  | vcos => exact .issueVec hs
  | vred => exact .issueVec hs
  | vscan => exact .issueVec hs
  | vcens => exact .issueVec hs
  | vscale => exact .issueVec hs
  | vladd => exact .issueVec hs
  | graw => exact .issueVec hs
  | guni => exact .issueVec hs
  | guno => exact .issueVec hs
  | gnorm => exact .issueVec hs
  | gbern => exact .issueVec hs
  | ggumb => exact .issueVec hs
  | sloc => exact .issueVec hs
  | smrg => exact .issueVec hs
  | spick => exact .issueVec hs
  | taggedAccessRecheck => exact .execTaggedAccessRecheck hs
  | tagTimeout => exact .execTagTimeout hs
  | remoteWriteCheck => exact .execRemoteWriteCheck hs
  | remoteRead => exact .execRemoteRead hs
  | queueTailAdvance => exact .ite .fault (.ite (.next (.setTile hs (.setWindow (.tile hs)))) (.next hs))
  | wcloseComplete => exact .execWcloseComplete hs
  | grantMessage => exact .execGrantMessage hs
  | grantReturn => exact .execGrantReturn hs
  | winClosedRefusal => exact .execWinClosedRefusal hs
  | creditTimeout => exact .execCreditTimeout hs
  | replyArrival => exact .execReplyArrival hs
  | semOpAtHome => exact .ite .fault (.next (.homeCycle hs))
  | semReleaseDelivery => exact .execSemReleaseDelivery hs
  | returnedRelease => exact .execReturnedRelease hs
  | semTimeout => exact .execSemTimeout hs
  | sigBufferRelease => exact .ite .fault (.next (.sigDrain hs))
  | dmaOpStart => exact .execDmaOpStart hs
  | dmaOpEnd => exact .execDmaOpEnd hs
  | txnReleaseArrival => exact .execTxnReleaseArrival hs
  | txnTimeout => exact .ite .fault (.ite (.next hs) (.next (.txnCancel hs)))
  | darkCopyDrop => exact .execDarkCopyDrop hs
  | phaseStart => exact .execPhaseStart hs
  | sendRecordIssue => exact .execSendRecordIssue hs
  | exchAckArrival => exact .execExchAckArrival hs
  | phaseEnd => exact .execPhaseEnd hs
  | phaseGraceExpiry => exact .execPhaseGraceExpiry hs
  | mcastBranchResume => exact .execMcastBranchResume hs
  | mcastTimeout => exact .execMcastTimeout hs
  | mapChange => exact .ite (.next hs) (.next (.changeMap hs))
  | tileSubstitute => exact .execTileSubstitute hs
  | routerFailure => exact .ite .fault (.ite (.next hs) (.next (.charge (.setUnit (.failRouter hs)))))
  | routerBypassSwitch => exact .ite .fault (.ite (.next (.upd hs)) (.next hs))
  | tileCoreReset => exact .ite .fault (.next (.logGlow (.resetCore hs)))
  | tileCoreReady => exact .ite .fault (.ite (.next hs) (.next (.coreReady hs)))
  | routerReset => exact .execRouterReset hs
  | routerReady => exact .execRouterReady hs
  | beaconEdge => exact .execBeaconEdge hs
  | syncFrame => exact .execSyncFrame hs
  | tickPeriodChange => exact .ite (.next hs) (.next (.changeTick (.runDue hs)))
  | holdoverEntry => exact .ite (.next hs) (.next (.setFld (.setFld (.ite hs (.bumpFld (.bumpFld (.bumpFld hs)))))))
  | holdoverSourceSearch => exact .execHoldoverSourceSearch hs
  | electionAdvertisement => exact .execElectionAdvertisement hs
  | electionClose => exact .execElectionClose hs
  | holdoverLimit => exact .execHoldoverLimit hs
  | beaconRelock => exact .execBeaconRelock hs
  | fabricRejoin => exact .execFabricRejoin hs
  | treeReductionStart => exact .ite .fault (.ite (.next hs) (.ite (.next (.report hs)) (.next (.startTree hs))))
  | treeContribution => exact .execTreeContribution hs
  | treeNodeClose => exact .ite .fault (.ite (.next hs) (.next (.closeNode (.runDue hs))))
  | treeResult => exact .execTreeResult hs
  | collTrigger => exact .execCollTrigger hs
  | collContribution => exact .ite .fault (.next (.collContribution hs))
  | collEnd => exact .execCollEnd hs
  | collDeadline => exact .execCollDeadline hs
  | hbmRead => exact .serveNext hs
  | hbmWrite => exact .serveNext hs
  | sparingCopyDone => exact .execSparingCopyDone hs
  | channelReset => exact .ite .fault (.ite (.next hs) (.next (.logGlow (.resetChannel hs))))
  | channelReady => exact .execChannelReady hs
  | scrubRead => exact .ite .fault (.ite (.next hs) (.next (.checkBursts hs)))
  | stackTempRead => exact .execStackTempRead hs
  | stepOpen => exact .execStepOpen hs
  | leaseRelease => exact .execLeaseRelease hs
  | voteTick => exact .execVoteTick hs
  | flip => exact .ite (.next hs) (.next (.flipDue (.runDue hs)))
  | stepResultLate => exact .execStepResultLate hs
  | moduleOutOfStep => exact .execModuleOutOfStep hs
  | frameReceive => exact .execFrameReceive hs
  | replayTimeout => exact .ite .fault (.ite (.next hs) (.next (.resend hs)))
  | creditAudit => exact .execCreditAudit hs
  | packetArrival => exact .execPacketArrival hs
  | delayProbe => exact .ite .fault (.ite (.next hs) (.next (.setFld (.setPort hs))))
  | laneErrorWindow => exact .execLaneErrorWindow hs
  | laneSwap => exact .execLaneSwap hs
  | trainingStateDone => exact .execTrainingStateDone hs
  | trainingStateTimeout => exact .ite .fault (.ite (.next (.setFld (.setPort hs))) (.next hs))
  | detectRetry => exact .ite .fault (.ite (.next hs) (.next (.setFld hs)))
  | identityPacket => exact .execIdentityPacket hs
  | linkLoss => exact .ite .fault (.ite (.next hs) (.next (.loseLink hs)))
  | portReset => exact .ite .fault (.ite (.next hs) (.next (.logGlow (.resetPort hs))))
  | portReady => exact .ite .fault (.ite (.next hs) (.next (.ite (.setFld (.setPort hs)) (.setPort hs))))
  | leaveNotice => exact .ite .fault (.ite (.next hs) (.next (.portEvent (.setPort hs))))
  | fenceNotice => exact .ite .fault (.ite (.next hs) (.next (.portEvent (.dropSource (.setPort hs)))))
  | portQuiesce => exact .ite .fault (.ite (.next hs) (.next (.raised (.quiescePort hs))))
  | quiesceDrainEnd => exact .ite .fault (.ite (.next hs) (.next (.transmit (.leavePort hs))))
  | portUnquiesce => exact .ite .fault (.ite (.next hs) (.next (.unquiescePort hs)))
  | portFence => exact .ite .fault (.ite (.next hs) (.next (.hostFence hs)))
  | portUnfence => exact .ite .fault (.ite (.next hs) (.next (.hostUnfence hs)))
  | portRetrain => exact .ite .fault (.ite (.next hs) (.next (.retrainPort hs)))
  | portEnable => exact .ite .fault (.ite (.next hs) (.next (.enablePort hs)))
  | bfSelfWrite => exact .ite (.next hs) (.next (.raised (.writeSelf hs)))
  | sqTailDoorbell => exact .ite .fault (.ite (.next hs) (.ite (.next (.badDoorbell hs)) (.next (.setRing hs))))
  | cqHeadDoorbell => exact .ite .fault (.ite (.next hs) (.ite (.next (.badDoorbell hs)) (.next (.setRing hs))))
  | hifReset => exact .ite (.next hs) (.next (.resetHif hs))
  | conventionalReset => exact .next (.upd (.ite (.resetHif hs) hs))
  | functionLevelReset => exact .ite (.next hs) (.next (.resetHif hs))
  | ringEnable => exact .ite .fault (.ite (.next hs) (.next (.writeRing hs)))
  | ringDisable => exact .ite .fault (.ite (.next hs) (.next (.writeRing hs)))
  | relayTableWrite => exact .ite .fault (.ite (.next hs) (.next (.writeRelay hs)))
  | unmappedAccess => exact .ite (.next hs) (.ite (.next hs) (.next (.unmapped hs)))
  | registerWrite => exact .execRegisterWrite hs
  | fetchBurst => exact .execFetchBurst hs
  | descriptorStart => exact .execDescriptorStart hs
  | completionWrite => exact .execCompletionWrite hs
  | msixInterrupt => exact .ite .fault (.ite (.next hs) (.ite (.next hs) (.next (.fireVector (.setRing hs)))))
  | hostMemoryError => exact .execHostMemoryError hs
  | relayForward => exact .execRelayForward hs
  | relayPathLoss => exact .execRelayPathLoss hs
  | relayPathRegain => exact .ite .fault (.ite (.next hs) (.ite (.next hs) (.next (.event (.setFld hs)))))
  | nopCmd => exact .hostCmd hs (fun _ h0 => .fin h0)
  | identify => exact .hostCmd hs (fun _ h0 => .ite (.fin h0) (.fin (.hostWrite h0)))
  | regRead => exact .hostCmd hs (fun _ h0 => .ite (.fin h0) (.finish (.ite (.unmapped h0) h0)))
  | regWrite => exact .hostCmd hs (fun _ h0 => .ite (.fin h0) (.finish (.writeReg h0)))
  | stepRecords => exact .hostCmd hs (fun _ h0 => .ite (.fin h0) (.fin (.hostWrite h0)))
  | copyIn => exact .hostCmd hs (fun _ h0 => .startCopy h0)
  | copyOut => exact .hostCmd hs (fun _ h0 => .startCopy h0)
  | copyComplete => exact .execCopyComplete hs
  | batchPost => exact .hostCmd hs (fun _ h0 => .postBatch h0)
  | batchStaged => exact .execBatchStaged hs
  | jobPlace => exact .hostCmd hs (fun _ h0 => .placeJob h0)
  | suspend => exact .hostCmd hs (fun _ h0 => .suspendOp h0)
  | resume => exact .hostCmd hs (fun _ h0 => .resumeOp h0)
  | cancel => exact .hostCmd hs (fun _ h0 => .cancelOp h0)
  | opQuery => exact .hostCmd hs (fun _ h0 => .queryOp h0)
  | reshard => exact .hostCmd hs (fun _ h0 => .stageReshard h0)
  | checkpoint => exact .hostCmd hs (fun _ h0 => .askCkpt h0)
  | ctxSave => exact .hostCmd hs (fun _ h0 => .saveContext h0)
  | pwrReq => exact .hostCmd hs (fun _ h0 => .askPower h0)
  | fwLoad => exact .hostCmd hs (fun _ h0 => .ite (.fin h0) (.ite (.fin h0) (.upd h0)))
  | fwImageAccept => exact .execFwImageAccept hs
  | attest => exact .hostCmd hs (fun _ h0 => .ite (.fin h0) (.ite (.fin h0) (.finish (.hostWrite h0))))
  | nvmStore => exact .hostCmd hs (fun _ h0 => .ite (.fin (.unstage h0)) (.startStore h0))
  | nvmStoreDone => exact .ite (.next (.endStore hs)) (.next hs)
  | afterglowRead => exact .hostCmd hs (fun _ h0 => .readGlow h0)
  | jobDequeue => exact .ite (.next (.dequeue hs)) (.next hs)
  | memberReady => exact .ite (.next (.memberReady hs)) (.next hs)
  | placementTimeout => exact .execPlacementTimeout hs
  | tileStartAtHalt => exact .ite .fault (.ite (.next (.startHeld hs)) (.next hs))
  | checkpointStart => exact .next (.ckptStarts hs)
  | checkpointDone => exact .execCheckpointDone hs
  | memberLost => exact .ite (.next (.loseMember hs)) (.next hs)
  | recoveryTimeout => exact .execRecoveryTimeout hs
  | tilesHeld => exact .ite (.next (.tilesHeld hs)) (.next hs)
  | lighthouseReset => exact .ite (.next (.lighthouseReset hs)) (.next hs)
  | lighthouseReady => exact .ite (.next (.lighthouseReady hs)) (.next hs)
  | gatewayFailure => exact .ite .fault (.next (.failGateway hs))
  | authorityChange => exact .ite .fault (.next (.updLh (.setFld hs)))
  | lockstepDisagree => exact .ite .fault (.ite (.next hs) (.next (.ite (.eclipse (.charge hs)) (.charge hs))))
  | testDue => exact .ite .fault (.ite (.next (.testFallsDue (.ckptStarts hs))) (.next (.ckptStarts hs)))
  | testMove => exact .execTestMove hs
  | tileTestResult => exact .execTileTestResult hs
  | testForced => exact .execTestForced hs
  | linkChannelTest => exact .ite .fault (.ite (.next hs) (.next (.endTest (.draw hs))))
  | sentinelDigest => exact .execSentinelDigest hs
  | digestReceive => exact .ite (.next (.takeDigest hs)) (.next hs)
  | replicaVerdict => exact .execReplicaVerdict hs
  | verdictReceive => exact .ite (.next (.takeVerdict hs)) (.next hs)
  | mirrorRecord => exact .ite (.next (.takeMirror hs)) (.next hs)
  | mirrorRebuild => exact .execMirrorRebuild hs
  | domainNotReady => exact .ite .fault (.ite (.next (.makePermanent hs)) (.next hs))
  | afterglowCommit => exact .ite (.next (.commitGlow hs)) (.next hs)
  | journalCommit => exact .ite (.next (.commitJournal hs)) (.next hs)
  | nvmRelPolicyWrite => exact .ite (.next (.raised (.writePolicy hs))) (.next hs)
  | nvmCalSet => exact .ite (.next (.raised (.setCalendar hs))) (.next hs)
  | presPress => exact .ite (.next (.press hs)) (.next hs)
  | presWindowExpire => exact .next (.closeWindow hs)
  | presClose => exact .ite (.next (.raised (.writeSecCtl hs))) (.next hs)
  | tamperClr => exact .ite (.next (.raised (.writeSecCtl hs))) (.next hs)
  | secFloorSet => exact .ite (.next (.raised (.raiseFloor hs))) (.next hs)
  | secUnitReturn => exact .ite (.next (.raised (.returnUnit hs))) (.next hs)
  | sealSample => exact .ite (.next (.sampleSeal hs)) (.next (.upd hs))
  | bootRom => exact .ite (.next (.bootRom hs)) (.next hs)
  | powerUp => exact .ite (.next (.comeUp hs)) (.next hs)
  | refClkStable => exact .next (.upd hs)
  | vinSample => exact .ite (.next (.takeVin hs)) (.next hs)
  | inputRangeFault => exact .ite (.next (.inputFault hs)) (.next hs)
  | inputCollapse => exact .ite (.next (.collapse hs)) (.next hs)
  | brownout => exact .ite (.next (.brownOut hs)) (.next hs)
  | capControl => exact .ite (.next (.capStep hs)) (.next hs)
  | tjSample => exact .ite (.next (.takeTj hs)) (.ite (.next (.upd hs)) (.next hs))
  | hbmLevel3Timeout => exact .ite .fault (.ite (.next (.upd (.loseMember hs))) (.next hs))
  | powerEntry => exact .execPowerEntry hs
  | wakeN => exact .next (.wakeIf hs)
  | wakeAtCount => exact .ite (.next (.wakeIf hs)) (.next hs)
  | wakeAtUtc => exact .ite (.next (.wakeIf hs)) (.next hs)
  | wakeComplete => exact .ite (.next hs) (.ite (.next (.wakeS2 hs)) (.ite (.next (.boot hs)) (.next hs)))
  | pllLockLoss => exact .ite .fault (.ite (.next (.losePll hs)) (.next hs))
  | pwrRstN => exact .ite (.next hs) (.next (.upd (.ite (.stopRails hs) hs)))
  | pwrRstRelease => exact .ite (.next (.wakeUp (.upd hs))) (.next hs)
  | bcnTokenPass => exact .ite (.next hs) (.ite (.next (.takeToken hs)) (.ite (.next (.passToken hs)) (.next hs)))
  | bcnTokenTakeover => exact .ite (.next (.takeToken hs)) (.next hs)
  | bcnWordReceive => exact .execBcnWordReceive hs
  | clearFaults => exact .ite (.next hs) (.ite (.next (.smbSet hs)) (.next (.upd hs)))
  | statusWord => exact .smbRead hs
  | readVin => exact .smbRead hs
  | readIin => exact .smbRead hs
  | readTemperature1 => exact .smbRead hs
  | readPin => exact .smbRead hs
  | pmbusRevision => exact .smbRead hs
  | mfrWake => exact .ite (.next hs) (.ite (.next (.wakeIf hs)) (.next (.smbSet hs)))
  | mfrState => exact .smbRead hs
  | mfrSerial => exact .smbRead hs
  | extest => exact .scan hs (fun _ h0 => .scanUnready h0 (fun _ h1 => .upd (.draw h1)))
  | samplePreload => exact .scan hs (fun _ h0 => .upd (.draw h0))
  | idcode => exact .scan hs (fun _ h0 => .upd h0)
  | clamp => exact .scan hs (fun _ h0 => .scanUnready h0 (fun _ h1 => .upd h1))
  | highz => exact .scan hs (fun _ h0 => .scanUnready h0 (fun _ h1 => .upd h1))
  | bypass => exact .scan hs (fun _ h0 => .bypass h0)
  | pllRelock => exact .ite .fault (.ite (.next (.gainPll hs)) (.next hs))
  | jobSwitchDone => exact .execJobSwitchDone hs
  | memberReturn => exact .execMemberReturn hs
  | inputRemoval => exact .ite (.next (.goOff (.collapse hs))) (.next hs)
  | hifPerstNRelease => exact .execHifPerstNRelease hs

theorem Keeps.step {s : State} (hs : Canon s) : Keeps (Machine.step s) := by
  unfold Machine.step
  split
  · exact .next (.idle hs)
  · exact .exec (.upd hs)

/-- Settles O5: by cases on the command; each operation of the model keeps the canonical form, as its writes to
a
memory are runs and single bytes written into a canonical one. -/
theorem everyStepKeepsMemories : Obligations.EveryStepKeepsMemories := by
  unfold Obligations.EveryStepKeepsMemories
  intro s s' hs e
  have h : Keeps (step s) := .step (memoriesWf_iff.1 hs)
  rw [e] at h
  exact memoriesWf_iff.2 h

end Sys2Proof.Machine
end

section
/-! PROOFS. The host's commands. -/
namespace Sys2Proof.Machine

theorem reset_awake : State.reset.awake = true := by decide +kernel

/-- A write of no bytes at the end of the Lighthouse SRAM is a write within it, of nothing. -/
theorem exec_emptySramWrite : exec (.registerWrite (sramBase + 0x80_0000) 0 0) State.reset = .next State.reset := rfl

/-- Refutes O52: of the register writes at or past the end of the Lighthouse SRAM whose size is neither 4 nor 8, the one of
size 0 at the end is no access to an unoccupied offset, so UNMAPPED stays 0 in the state of reset. -/
theorem not_hostCommands : ¬ Obligations.HostCommands := by
  unfold Obligations.HostCommands
  intro h
  obtain ⟨-, -, -, -, -, -, -, -, -, -, -, -, otherSize, -⟩ :=
    h 0 0 (sramBase + 0x80_0000) 0 0 0 State.reset reset_awake (by decide)
  obtain ⟨s', e, unmapped, -⟩ := otherSize (by decide) (by decide) (.inr le_rfl)
  rw [exec_emptySramWrite] at e
  cases e
  exact absurd unmapped (by decide +kernel)

end Sys2Proof.Machine
end

section
/-! LEMMAS. The registers of the host interface, its rings and its entries: what reads back after a write, and what each
update leaves alone. -/
namespace Sys2Proof.Machine

/-! ### Registers -/

theorem canonical_of_hif {o : Nat} (h : o < 0x100_0000) : canonical o = o := by
  unfold canonical
  rw [if_neg (by omega), if_neg (by omega), if_neg (by omega)]

theorem State.fld_lt (s : State) (f : Fld) : s.fld f < 2 ^ f.width := bits_lt _ _ _

theorem State.fld_congr {s s' : State} (h : s'.regs = s.regs) (f : Fld) : s'.fld f = s.fld f := by
  simp only [State.fld, State.rd, h]

/-- `State.fld_setFld_same` for a field given by its numbers, which `omega` can compare. -/
theorem State.fld_setFld_at (s : State) (o l w v : Nat) (h : l + w ≤ 64) :
    (s.setFld ⟨o, l, w⟩ v).fld ⟨o, l, w⟩ = v % 2 ^ w :=
  s.fld_setFld_same _ v h

/-- `State.fld_setFld_other` for two fields of the host interface given by their numbers. -/
theorem State.fld_setFld_apart (s : State) (o l w o' l' w' v : Nat) (h : l + w ≤ 64) (ho : o < 0x100_0000)
    (ho' : o' < 0x100_0000) (d : o' ≠ o ∨ l + w ≤ l' ∨ l' + w' ≤ l) :
    (s.setFld ⟨o, l, w⟩ v).fld ⟨o', l', w'⟩ = s.fld ⟨o', l', w'⟩ := by
  refine s.fld_setFld_other v h ?_
  by_cases e : o' = o
  · exact .inr ⟨e, d.resolve_left (fun n => n e)⟩
  · left
    change canonical o' ≠ canonical o
    rwa [canonical_of_hif ho, canonical_of_hif ho']

/-! ### Rings -/

@[simp] theorem State.ring_setRing_same (s : State) (n : Nat) (r : Ring) : (s.setRing n r).ring n = r :=
  Map.get_set_same ..

theorem State.ring_setRing_other (s : State) (r : Ring) {n j : Nat} (h : j ≠ n) : (s.setRing n r).ring j = s.ring j :=
  Map.get_set_other _ _ _ _ h

theorem State.ring_congr {s s' : State} (h : s'.hif.rings = s.hif.rings) (j : Nat) : s'.ring j = s.ring j := by
  simp only [State.ring, h]

@[simp] theorem State.ring_setFld (s : State) (f : Fld) (v j : Nat) : (s.setFld f v).ring j = s.ring j :=
  State.ring_congr rfl j
@[simp] theorem State.fld_setRing (s : State) (n : Nat) (r : Ring) (f : Fld) : (s.setRing n r).fld f = s.fld f :=
  State.fld_congr rfl f

/-- What a step on ring `n` leaves: the other rings, the tiles, HBM and Lighthouse. -/
def OnlyRing (n : Nat) (s s' : State) : Prop :=
  (∀ j, j ≠ n → s'.ring j = s.ring j) ∧ s'.tiles = s.tiles ∧ s'.hbm = s.hbm ∧ s'.lh = s.lh

theorem OnlyRing.refl (n : Nat) (s : State) : OnlyRing n s s := ⟨fun _ _ => rfl, rfl, rfl, rfl⟩

theorem OnlyRing.trans {n : Nat} {s s' s'' : State} (h : OnlyRing n s s') (h' : OnlyRing n s' s'') : OnlyRing n s s'' := by
  obtain ⟨ring, tiles, hbm, lh⟩ := h
  obtain ⟨ring', tiles', hbm', lh'⟩ := h'
  exact ⟨fun j hj => (ring' j hj).trans (ring j hj), tiles'.trans tiles, hbm'.trans hbm, lh'.trans lh⟩

theorem OnlyRing.setRing (n : Nat) (s : State) (r : Ring) : OnlyRing n s (s.setRing n r) :=
  ⟨fun _ hj => s.ring_setRing_other r hj, rfl, rfl, rfl⟩

theorem OnlyRing.setFld (n : Nat) (s : State) (f : Fld) (v : Nat) : OnlyRing n s (s.setFld f v) :=
  ⟨fun j _ => s.ring_setFld f v j, rfl, rfl, rfl⟩

/-- The step leaves every ring's record too. -/
theorem OnlyRing.of_eq {n : Nat} {s s' : State} (ring : s'.hif.rings = s.hif.rings) (tiles : s'.tiles = s.tiles)
    (hbm : s'.hbm = s.hbm) (lh : s'.lh = s.lh) : OnlyRing n s s' :=
  ⟨fun j _ => by simp only [State.ring, ring], tiles, hbm, lh⟩

/-! ### Entries -/

/-- An entry as it is posted. -/
def State.stamped (s : State) (e : Entry) : Entry :=
  { e with bcn := s.count.setWidth 32, held := decide (s.fld (HIF.ENABLE e.ring) = 0) }

/-- A final entry is appended, and nothing else changes. -/
theorem State.post_final (s : State) {e : Entry} (hi : e.interim = false) (he : e.event = false) :
    s.post e = { s with hif := { s.hif with backlog := s.hif.backlog ++ [s.stamped e] } } := by
  simp [State.post, State.stamped, hi, he]

/-- Any entry is appended; where 256 soft entries wait one of them is dropped and BACKLOG_FULL is set. -/
theorem State.post_cases (s : State) (e : Entry) :
    (∃ b, s.post e = { s.setFld HIF.BACKLOG_FULL 1 with hif := { s.hif with backlog := b ++ [s.stamped e] } })
    ∨ s.post e = { s with hif := { s.hif with backlog := s.hif.backlog ++ [s.stamped e] } } := by
  unfold State.post
  simp only []
  split
  · exact .inl ⟨_, rfl⟩
  · exact .inr rfl

/-- What entries leave when they are posted: everything but the backlog and BACKLOG_FULL. -/
structure Posted (s s' : State) : Prop where
  tiles : s'.tiles = s.tiles
  hbm : s'.hbm = s.hbm
  lh : s'.lh = s.lh
  hif : ∃ b, s'.hif = { s.hif with backlog := b }
  fld : ∀ o l w, o < 0x100_0000 → (o ≠ 0x20 ∨ 6 ≤ l ∨ l + w ≤ 5) → s'.fld ⟨o, l, w⟩ = s.fld ⟨o, l, w⟩

theorem Posted.refl (s : State) : Posted s s := ⟨rfl, rfl, rfl, ⟨_, rfl⟩, fun _ _ _ _ _ => rfl⟩

theorem Posted.trans {s s' s'' : State} (h : Posted s s') (h' : Posted s' s'') : Posted s s'' := by
  obtain ⟨b, hif⟩ := h.hif
  obtain ⟨b', hif'⟩ := h'.hif
  exact ⟨h'.tiles.trans h.tiles, h'.hbm.trans h.hbm, h'.lh.trans h.lh, ⟨b', by rw [hif', hif]⟩,
    fun o l w ho d => (h'.fld o l w ho d).trans (h.fld o l w ho d)⟩

theorem Posted.post (s : State) (e : Entry) : Posted s (s.post e) := by
  obtain ⟨b, h⟩ | h := s.post_cases e
  · rw [h]
    exact ⟨rfl, rfl, rfl, ⟨_, rfl⟩, fun o l w ho d =>
      s.fld_setFld_apart 0x20 5 1 o l w 1 (by omega) (by omega) ho (by omega)⟩
  · rw [h]
    exact ⟨rfl, rfl, rfl, ⟨_, rfl⟩, fun _ _ _ _ _ => rfl⟩

theorem Posted.event (s : State) (kind code port : Nat) (c : BitVec 16) (detail : Nat) :
    Posted s (s.event kind code port c detail) := by
  unfold State.event
  split
  · exact .refl s
  · exact .post s _

theorem Posted.draw (s : State) (w : Nat) : Posted s (s.draw w).2 :=
  ⟨rfl, rfl, rfl, ⟨_, rfl⟩, fun _ _ _ _ _ => rfl⟩

theorem Posted.ring {s s' : State} (h : Posted s s') (n : Nat) : s'.ring n = s.ring n := by
  obtain ⟨b, hif⟩ := h.hif
  simp only [State.ring, hif]

theorem Posted.only {s s' : State} (h : Posted s s') (n : Nat) : OnlyRing n s s' :=
  ⟨fun j _ => h.ring j, h.tiles, h.hbm, h.lh⟩

/-- The entry posted last stands last. -/
theorem State.post_backlog (s : State) (e : Entry) : ∃ b, (s.post e).hif.backlog = b ++ [s.stamped e] := by
  obtain ⟨b, h⟩ | h := s.post_cases e
  · exact ⟨b, by rw [h]⟩
  · exact ⟨_, by rw [h]⟩

theorem State.event_backlog (s : State) (kind code port : Nat) (c : BitVec 16) (detail : Nat) (on : s.fld HIF.EV_ENABLE = 1) :
    ∃ b e, (s.event kind code port c detail).hif.backlog = b ++ [e] ∧ e.status = c ∧ e.event = true := by
  unfold State.event
  rw [if_neg (by omega)]
  obtain ⟨b, h⟩ := s.post_backlog _
  exact ⟨b, _, h, rfl, rfl⟩

end Sys2Proof.Machine
end

section
/-! LEMMAS. Doorbells, resets and the enabling of rings (R395 to R397). -/
namespace Sys2Proof.Machine

/-! ### Doorbells -/

/-- What an ignored doorbell leaves. -/
def IgnoredDoorbell (n : Nat) (s s' : State) : Prop :=
  s'.fld HIF.DOORBELL_RANGE = 1 ∧ s'.fld HIF.LAST_RING = n ∧ s'.hif = s.hif ∧ s'.tiles = s.tiles ∧ s'.hbm = s.hbm

theorem badDoorbell_ignored (s : State) {n : Nat} (hn : n < 64) : IgnoredDoorbell n s (s.badDoorbell n) := by
  refine ⟨?_, ?_, rfl, rfl, rfl⟩ <;> simp only [State.badDoorbell, HIF.DOORBELL_RANGE, HIF.LAST_RING]
  · rw [State.fld_setFld_apart _ _ _ _ _ _ _ _ (by omega) (by omega) (by omega) (by omega),
      State.fld_setFld_at _ _ _ _ _ (by omega)]
    rfl
  · rw [State.fld_setFld_at _ _ _ _ _ (by omega)]
    omega

/-- A value that SQ_TAIL takes. -/
def TailTaken (n v : Nat) (s : State) : Prop := s.fld (HIF.ENABLE n) = 1 ∧ v < s.sqSize n ∧ v < 2 ^ 16

theorem fld_eq_zero_iff (s : State) {f : Fld} (h : f.width = 1) : s.fld f = 0 ↔ s.fld f ≠ 1 := by
  have := s.fld_lt f
  rw [h] at this
  omega

theorem sqTailDoorbell_taken {s : State} {n : Nat} {value : BitVec 32} (aw : s.awake = true) (hn : n < 64)
    (h : TailTaken n value.toNat s) :
    exec (.sqTailDoorbell n value) s = .next (s.setRing n { s.ring n with tail := value.toNat }) := by
  obtain ⟨on, hv, h16⟩ := h
  change execSqTailDoorbell n value s = _
  unfold execSqTailDoorbell
  simp only [aw, Bool.not_true, Bool.false_eq_true, if_false]
  rw [if_neg (by omega), if_neg (by omega)]

theorem sqTailDoorbell_ignored {s : State} {n : Nat} {value : BitVec 32} (aw : s.awake = true) (hn : n < 64)
    (h : ¬ TailTaken n value.toNat s) : exec (.sqTailDoorbell n value) s = .next (s.badDoorbell n) := by
  change execSqTailDoorbell n value s = _
  unfold execSqTailDoorbell
  simp only [aw, Bool.not_true, Bool.false_eq_true, if_false]
  rw [if_neg (by omega), if_pos]
  rw [fld_eq_zero_iff s rfl]
  unfold TailTaken at h
  omega

/-- A value that CQ_HEAD takes: not past the completion tail. -/
def HeadTaken (n v : Nat) (s : State) : Prop :=
  s.fld (HIF.ENABLE n) = 1 ∧ v < s.cqSize n ∧ v < 2 ^ 16
  ∧ (v + s.cqSize n - (s.ring n).head) % s.cqSize n ≤ (s.fld (HIF.CQ_TAIL n) + s.cqSize n - (s.ring n).head) % s.cqSize n

theorem cqHeadDoorbell_taken {s : State} {n : Nat} {value : BitVec 32} (aw : s.awake = true) (hn : n < 64)
    (h : HeadTaken n value.toNat s) :
    exec (.cqHeadDoorbell n value) s = .next (s.setRing n { s.ring n with head := value.toNat }) := by
  obtain ⟨on, hv, h16, past⟩ := h
  change execCqHeadDoorbell n value s = _
  unfold execCqHeadDoorbell
  simp only [aw, Bool.not_true, Bool.false_eq_true, if_false]
  rw [if_neg (by omega), if_neg (by omega)]

theorem cqHeadDoorbell_ignored {s : State} {n : Nat} {value : BitVec 32} (aw : s.awake = true) (hn : n < 64)
    (h : ¬ HeadTaken n value.toNat s) : exec (.cqHeadDoorbell n value) s = .next (s.badDoorbell n) := by
  change execCqHeadDoorbell n value s = _
  unfold execCqHeadDoorbell
  simp only [aw, Bool.not_true, Bool.false_eq_true, if_false]
  rw [if_neg (by omega), if_pos]
  rw [fld_eq_zero_iff s rfl]
  unfold HeadTaken at h
  omega

/-! ### Resets -/

/-- What a reset of the host interface leaves while no copy runs. -/
def InterfaceCleared (s s' : State) : Prop :=
  (∀ j, j < 64 → s'.fld (HIF.ENABLE j) = 0 ∧ s'.fld (HIF.RSTATE j) = 0) ∧ s'.fld HIF.EV_ENABLE = 0
  ∧ s'.fld HIF.RING_STOPPED = 0 ∧ (∀ e ∈ s'.hif.backlog, e.held = true) ∧ s'.hif.backlog.length = s.hif.backlog.length
  ∧ s'.hif.ops = s.hif.ops ∧ s'.hif.started = s.hif.started ∧ s'.hif.mem = s.hif.mem ∧ s'.tiles = s.tiles
  ∧ s'.hbm = s.hbm ∧ s'.lh = s.lh

/-- The registers that a reset keeps. -/
def keptAtReset (off : Nat) : Bool :=
  decide (0x100_0000 ≤ off) || decide (off = 8) || decide (off = 0x10) || (decide (0x2000 ≤ off) && decide (off < 0x2200))

def NoCopyRuns (s : State) : Prop := ∀ o ∈ s.hif.ops, o.state = 1 → cOpc o.desc ≠ 0x10 ∧ cOpc o.desc ≠ 0x11

theorem resetHif_of_noCopy {s : State} (h : NoCopyRuns s) : s.resetHif = { s with
    regs := s.regs.filter (fun e => keptAtReset e.1)
    hif := { s.hif with
      rings := s.hif.rings.filterMap (fun e => if e.2.fetched = [] then none else some (e.1, { fetched := e.2.fetched : Ring }))
      backlog := s.hif.backlog.map (fun (e : Entry) => { e with held := true, zero := false })
      latency := 0, visit := 0 } } := by
  have none_ : s.hif.ops.filter (fun o => decide (o.state = 1)
      && (decide (cOpc o.desc = 0x10) || decide (cOpc o.desc = 0x11))) = [] := by
    rw [List.filter_eq_nil_iff]
    intro o ho
    have := h o ho
    grind
  unfold State.resetHif
  simp only [none_, List.map_nil, List.foldl_nil, keptAtReset]

/-- A register that the reset does not keep has its reset value. -/
theorem rd_resetHif {s : State} (h : NoCopyRuns s) {o : Nat} (ho : keptAtReset o = false) :
    s.resetHif.rd o = modReset o := by
  have c : canonical o = o := canonical_of_hif (by simp [keptAtReset] at ho; omega)
  rw [resetHif_of_noCopy h, State.rd, c, get_filter, if_neg (by simp [ho])]

theorem bits_modReset_ring : ∀ j < 64,
    (keptAtReset (HIF.ring j + 0x10) = false ∧ bits (modReset (HIF.ring j + 0x10)).toNat 0 1 = 0)
    ∧ keptAtReset (HIF.ring j + 0x18) = false ∧ bits (modReset (HIF.ring j + 0x18)).toNat 33 2 = 0 := by
  decide +kernel

theorem resetHif_cleared {s : State} (h : NoCopyRuns s) : InterfaceCleared s s.resetHif := by
  have low {o : Nat} (l w : Nat) (ho : keptAtReset o = false) : s.resetHif.fld ⟨o, l, w⟩ = bits (modReset o).toNat l w := by
    rw [State.fld, rd_resetHif h ho]
  refine ⟨fun j hj => ?_, low 0 1 (by decide), low 2 1 (by decide), ?_⟩
  · obtain ⟨⟨hc, enable⟩, hs, rstate⟩ := bits_modReset_ring j hj
    exact ⟨(low 0 1 hc).trans enable, (low 33 2 hs).trans rstate⟩
  · rw [resetHif_of_noCopy h]
    simp

theorem hifReset_cleared {s : State} (aw : s.awake = true) (h : NoCopyRuns s) :
    Gives (exec .hifReset s) (InterfaceCleared s) := by
  refine ⟨s.resetHif, ?_, resetHif_cleared h⟩
  change execHifReset s = _
  simp [execHifReset, aw]

theorem functionLevelReset_cleared {s : State} (aw : s.awake = true) (h : NoCopyRuns s) :
    Gives (exec .functionLevelReset s) (InterfaceCleared s) := by
  refine ⟨s.resetHif, ?_, resetHif_cleared h⟩
  change execFunctionLevelReset s = _
  simp [execFunctionLevelReset, aw]

theorem conventionalReset_cleared {s : State} (aw : s.awake = true) (h : NoCopyRuns s) :
    Gives (exec .conventionalReset s) (fun s' => InterfaceCleared s s' ∧ s'.pwr = { s.pwr with perst := true }) := by
  refine ⟨{ s.resetHif with pwr := { s.resetHif.pwr with perst := true } }, ?_, resetHif_cleared h, ?_⟩
  · change execConventionalReset s = _
    simp [execConventionalReset, aw]
  · rw [resetHif_of_noCopy h]

end Sys2Proof.Machine
end

section
/-! LEMMAS. Writes of a ring's configuration and of a relay entry (R396, R418). -/
namespace Sys2Proof.Machine

/-! ### Whole writes of a register -/

theorem bits_all (l w : Nat) (h : l + w ≤ 64) : bits (2 ^ 64 - 1) l w = 2 ^ w - 1 := by
  apply Nat.eq_of_testBit_eq
  intro i
  rw [testBit_bits, Nat.testBit_two_pow_sub_one, Nat.testBit_two_pow_sub_one]
  by_cases hi : i < w
  · simp [hi, show l + i < 64 by omega]
  · simp [hi]

theorem bits_bits (x a n b m : Nat) (h : b + m ≤ n) : bits (bits x a n) b m = bits x (a + b) m := by
  apply Nat.eq_of_testBit_eq
  intro i
  rw [testBit_bits, testBit_bits, testBit_bits]
  by_cases hi : i < m
  · simp [hi, show b + i < n by omega, Nat.add_assoc]
  · simp [hi]

theorem putBits_bits_self (x l n : Nat) : putBits x l n (bits x l n) = x := by
  apply Nat.eq_of_testBit_eq
  intro i
  rw [testBit_putBits]
  split
  · rw [testBit_bits, show l + (i - l) = i by omega]
    simp [show i - l < n by omega]
  · rfl

/-- A field of a register that a whole write reaches takes a value of its set. -/
theorem writeField_rw (l w : Nat) (valid : List (Nat × Nat)) (old new : Nat) (h : l + w ≤ 64) (hw : 0 < w) :
    writeField ⟨l, w, .rw valid⟩ old new (2 ^ 64 - 1)
      = if Access.takes valid (bits new l w) then (putBits old l w (bits new l w), false) else (old, true) := by
  have pos : 2 ^ w - 1 ≠ 0 := by have := Nat.one_lt_two_pow hw.ne'; omega
  have merged : (bits new l w &&& (2 ^ w - 1)) ||| (bits old l w &&& (2 ^ w - 1 - (2 ^ w - 1))) = bits new l w := by
    rw [Nat.and_two_pow_sub_one_eq_mod, Nat.mod_eq_of_lt (bits_lt ..)]
    simp
  unfold writeField
  simp only [bits_all l w h, if_neg pos, merged]

theorem writeField_any (l w old new : Nat) (h : l + w ≤ 64) (hw : 0 < w) :
    writeField ⟨l, w, .any⟩ old new (2 ^ 64 - 1) = (putBits old l w (bits new l w), false) := by
  rw [Access.any, writeField_rw l w [] old new h hw]
  rfl

theorem writeField_ro (l w old new mask : Nat) : writeField ⟨l, w, .ro⟩ old new mask = (old, false) := by
  unfold writeField
  simp

/-! ### HIF_RING_CFG -/

def ringFields (n : Nat) : List FieldSpec :=
  [⟨0, 1, .any⟩, ⟨1, 5, .rw [(4, 16)]⟩, ⟨6, 5, .rw [(4, 16)]⟩, ⟨11, 1, if n = 0 then .ro else .any⟩, ⟨12, 8, .rw [(1, 255)]⟩,
    ⟨20, 6, .any⟩, ⟨26, 8, .any⟩, ⟨34, 10, .any⟩]

theorem modFields_ring {n : Nat} (hn : n < 64) : modFields (HIF.ring n + 0x10) = some (ringFields n) := by
  have e : (HIF.ring n + 0x10 = 0x1010) = (n = 0) := by
    unfold HIF.ring
    exact propext ⟨fun h => by omega, fun h => by omega⟩
  have hr : (HIF.ring n + 0x10) % 64 = 0x10 := by unfold HIF.ring; omega
  have lo : 0x1000 ≤ HIF.ring n + 0x10 ∧ HIF.ring n + 0x10 < 0x2000 := by unfold HIF.ring; omega
  unfold modFields hifFields
  rw [if_neg (by omega), if_pos (by omega), if_neg (by omega), if_neg (by omega), if_neg (by omega), if_neg (by omega),
    if_pos lo]
  simp only [hr, e]
  rfl

/-- The fields of a configuration are within their sets. -/
def RingCfgValid (cfg : Nat) : Prop :=
  4 ≤ bits cfg 1 5 ∧ bits cfg 1 5 ≤ 16 ∧ 4 ≤ bits cfg 6 5 ∧ bits cfg 6 5 ≤ 16 ∧ 1 ≤ bits cfg 12 8

/-- The register after a whole write of a valid configuration. -/
def ringWord (n old new : Nat) : Nat :=
  let a := putBits (putBits (putBits old 0 1 (bits new 0 1)) 1 5 (bits new 1 5)) 6 5 (bits new 6 5)
  let b := if n = 0 then a else putBits a 11 1 (bits new 11 1)
  putBits (putBits (putBits (putBits b 12 8 (bits new 12 8)) 20 6 (bits new 20 6)) 26 8 (bits new 26 8)) 34 10 (bits new 34 10)

theorem writeFields_ring (n old : Nat) {new : Nat} (h : RingCfgValid new) :
    writeFields (ringFields n) old new (2 ^ 64 - 1) = (ringWord n old new, false) := by
  obtain ⟨sqLo, sqHi, cqLo, cqHi, weight⟩ := h
  have weightHi : bits new 12 8 < 2 ^ 8 := bits_lt ..
  have takes (v lo hi : Nat) (a : lo ≤ v) (b : v ≤ hi) : Access.takes [(lo, hi)] v = true := by simp [Access.takes, a, b]
  by_cases hn : n = 0
  · simp [writeFields, ringFields, hn, writeField_any, writeField_rw, writeField_ro, takes, sqLo, sqHi, cqLo, cqHi, weight,
      show bits new 12 8 ≤ 255 by omega, ringWord, -Nat.reducePow, -Nat.reduceSub]
  · simp [writeFields, ringFields, hn, writeField_any, writeField_rw, takes, sqLo, sqHi, cqLo, cqHi, weight,
      show bits new 12 8 ≤ 255 by omega, ringWord, -Nat.reducePow, -Nat.reduceSub]

theorem bits_ringWord (n old new : Nat) : bits (ringWord n old new) 0 1 = bits new 0 1
    ∧ bits (ringWord n old new) 1 5 = bits new 1 5 ∧ bits (ringWord n old new) 6 5 = bits new 6 5 := by
  have lt (l w : Nat) : bits new l w % 2 ^ w = bits new l w := Nat.mod_eq_of_lt (bits_lt ..)
  unfold ringWord
  simp only []
  split <;> simp (disch := omega) only [bits_putBits_other, bits_putBits_same, lt, and_self]

/-- COAL_US takes any value. -/
theorem bits_writeFields_ring (n old new : Nat) :
    bits (writeFields (ringFields n) old new (2 ^ 64 - 1)).1 34 10 = bits new 34 10 := by
  unfold ringFields
  simp only [writeFields, writeField_any _ _ _ _ (show 34 + 10 ≤ 64 by omega) (show 0 < 10 by omega), bits_putBits_same,
    Nat.mod_eq_of_lt (bits_lt _ _ _)]

/-- A write of the same fields with ENABLE 0 only clears ENABLE. -/
theorem ringWord_disable (n old new : Nat) (h : bits new 1 43 = bits old 1 43) (h0 : bits new 0 1 = 0) :
    ringWord n old new = putBits old 0 1 0 := by
  have same (l w : Nat) (hl : 1 ≤ l) (hw : l + w ≤ 44) : bits new l w = bits (putBits old 0 1 0) l w := by
    have := congrArg (fun x => bits x (l - 1) w) h
    simp only [bits_bits _ _ _ _ _ (show l - 1 + w ≤ 43 by omega), show 1 + (l - 1) = l by omega] at this
    rw [this, bits_putBits_other _ _ (by omega)]
  unfold ringWord
  rw [h0, same 1 5 (by omega) (by omega), same 6 5 (by omega) (by omega), same 11 1 (by omega) (by omega),
    same 12 8 (by omega) (by omega), same 20 6 (by omega) (by omega), same 26 8 (by omega) (by omega),
    same 34 10 (by omega) (by omega)]
  simp only [putBits_bits_self, ite_self]

theorem ringWord_lt {n old new : Nat} (h : old < 2 ^ 64) : ringWord n old new < 2 ^ 64 := by
  have put (l w v : Nat) {x : Nat} (hl : l + w ≤ 64) (hx : x < 2 ^ 64) : putBits x l w v < 2 ^ 64 := putBits_lt hx hl
  have a := put 6 5 (bits new 6 5) (by omega) (put 1 5 (bits new 1 5) (by omega) (put 0 1 (bits new 0 1) (by omega) h))
  unfold ringWord
  simp only []
  refine put _ _ _ (by omega) (put _ _ _ (by omega) (put _ _ _ (by omega) (put _ _ _ (by omega) ?_)))
  split
  · exact a
  · exact put _ _ _ (by omega) a

end Sys2Proof.Machine
end

section
/-! LEMMAS. What the writes of a ring's configuration and of a relay entry leave (R396, R404, R418). -/
namespace Sys2Proof.Machine

theorem State.fld_wr_at (s : State) (o l w : Nat) (v : Nat) (hv : v < 2 ^ 64) :
    (s.wr o (BitVec.ofNat 64 v)).fld ⟨o, l, w⟩ = bits v l w := by
  simp only [State.fld, State.rd_wr_same, BitVec.toNat_ofNat, Nat.mod_eq_of_lt hv]

/-! ### A refused write -/

theorem hifFault_posted (s : State) : Posted (s.setFld HIF.CFG_VALUE 1) s.hifFault := .event ..

theorem hifFault_cfgValue (s : State) : s.hifFault.fld HIF.CFG_VALUE = 1 :=
  ((hifFault_posted s).fld 0x20 4 1 (by omega) (by omega)).trans (s.fld_setFld_at 0x20 4 1 1 (by omega))

/-- A refused write changes no field of another register. -/
theorem hifFault_fld (s : State) (o l w : Nat) (ho : o < 0x100_0000) (d : o ≠ 0x20) :
    s.hifFault.fld ⟨o, l, w⟩ = s.fld ⟨o, l, w⟩ :=
  ((hifFault_posted s).fld o l w ho (.inl d)).trans
    (s.fld_setFld_apart 0x20 4 1 o l w 1 (by omega) (by omega) ho (.inl d))

theorem hifFault_only (n : Nat) (s : State) : OnlyRing n s s.hifFault := (hifFault_posted s).only n

/-! ### HIF_RING_CFG -/

theorem OnlyRing.wr (n : Nat) (s : State) (o : Nat) (v : Word) : OnlyRing n s (s.wr o v) := ⟨fun _ _ => rfl, rfl, rfl, rfl⟩

theorem ringEnable_eq {s : State} {n : Nat} {cfg : BitVec 64} (aw : s.awake = true) (hn : n < 64) :
    exec (.ringEnable n cfg) s = .next (s.writeRing n (putBits cfg.toNat 0 1 1) (2 ^ 64 - 1)) := by
  change execRingEnable n cfg s = _
  simp [execRingEnable, Nat.not_le.2 hn, aw]

theorem ringDisable_eq {s : State} {n : Nat} {cfg : BitVec 64} (aw : s.awake = true) (hn : n < 64) :
    exec (.ringDisable n cfg) s = .next (s.writeRing n (putBits cfg.toNat 0 1 0) (2 ^ 64 - 1)) := by
  change execRingDisable n cfg s = _
  simp [execRingDisable, Nat.not_le.2 hn, aw]

theorem RingCfgValid.putEnable {cfg : Nat} (h : RingCfgValid cfg) (v : Nat) : RingCfgValid (putBits cfg 0 1 v) := by
  unfold RingCfgValid at *
  simpa (disch := omega) only [bits_putBits_other] using h

/-- The module register that a ring's configuration is written to. -/
theorem writeMod_ring (s : State) {n : Nat} (hn : n < 64) (new mask : Nat) :
    s.writeMod (HIF.ring n + 0x10) new mask
      = (s.wr (HIF.ring n + 0x10) (BitVec.ofNat 64 (writeFields (ringFields n) (s.rd (HIF.ring n + 0x10)).toNat new mask).1),
        (writeFields (ringFields n) (s.rd (HIF.ring n + 0x10)).toNat new mask).2) := by
  unfold State.writeMod
  rw [canonical_of_hif (by unfold HIF.ring; omega), modFields_ring hn]

/-- The registers and the record of a ring that starts again. -/
def State.restartRegs (s : State) (n : Nat) : State :=
  (((s.setFld (HIF.SQ_HEAD n) 0).setFld (HIF.CQ_TAIL n) 0).setFld (HIF.CQ_PHASE n) 1).setFld (HIF.RSTATE n) 1

def State.restartRing (s : State) (n : Nat) : State := s.setRing n { s.ring n with tail := 0, head := 0, coal := 0 }

/-- A ring as its enabling leaves it, before the entries of other rings that wait for ring 0. -/
def State.emptied (s : State) (n : Nat) : State := (s.restartRegs n).restartRing n

theorem ring_bounds {n : Nat} (hn : n < 64) : 0x1000 ≤ HIF.ring n ∧ HIF.ring n < 0x1FC1 := by
  unfold HIF.ring
  omega

theorem emptied_fields (s : State) {n : Nat} (hn : n < 64) : (s.emptied n).fld (HIF.RSTATE n) = 1
    ∧ (s.emptied n).fld (HIF.SQ_HEAD n) = 0 ∧ (s.emptied n).fld (HIF.CQ_TAIL n) = 0 ∧ (s.emptied n).fld (HIF.CQ_PHASE n) = 1
    ∧ ∀ l w, (s.emptied n).fld ⟨HIF.ring n + 0x10, l, w⟩ = s.fld ⟨HIF.ring n + 0x10, l, w⟩ := by
  have hr := ring_bounds hn
  simp (disch := omega) only [State.emptied, State.restartRing, State.restartRegs, State.fld_setRing, HIF.RSTATE, HIF.SQ_HEAD,
    HIF.CQ_TAIL, HIF.CQ_PHASE, State.fld_setFld_at, State.fld_setFld_apart]
  simp only [implies_true, and_true]
  decide

theorem emptied_ring (s : State) (n : Nat) : ((s.emptied n).ring n).tail = 0 ∧ ((s.emptied n).ring n).head = 0 := by
  simp only [State.emptied, State.restartRing, State.ring_setRing_same, and_self]

theorem restartRing_only (s : State) (n : Nat) : OnlyRing n s (s.restartRing n) := .setRing n s _

theorem restartRegs_only (s : State) (n : Nat) : OnlyRing n s (s.restartRegs n) :=
  (OnlyRing.setFld ..).trans ((OnlyRing.setFld ..).trans ((OnlyRing.setFld ..).trans (.setFld ..)))

theorem emptied_only (s : State) (n : Nat) : OnlyRing n s (s.emptied n) :=
  (restartRegs_only s n).trans (restartRing_only (s.restartRegs n) n)

/-- Entries that waited for ring 0 go to it. -/
def State.toRingZero (s : State) : State :=
  { s with hif := { s.hif with backlog := s.hif.backlog.map (fun (e : Entry) =>
      if e.held then { e with held := false, zero := true } else e) } }

/-- A valid configuration written to a disabled ring. -/
theorem writeRing_enables {s : State} {n new : Nat} (hn : n < 64) (off : s.fld (HIF.ENABLE n) = 0) (ok : RingCfgValid new)
    (on : bits new 0 1 = 1) :
    s.writeRing n new (2 ^ 64 - 1) =
      let r := (s.wr (HIF.ring n + 0x10) (BitVec.ofNat 64 (ringWord n (s.rd (HIF.ring n + 0x10)).toNat new))).emptied n
      if n = 0 then r.toRingZero else r := by
  have lt : ringWord n (s.rd (HIF.ring n + 0x10)).toNat new < 2 ^ 64 := ringWord_lt (s.rd _).isLt
  have odd : ringWord n (s.rd (HIF.ring n + 0x10)).toNat new % 2 ≠ 0 := by
    have := (bits_ringWord n (s.rd (HIF.ring n + 0x10)).toNat new).1
    rw [on] at this
    simp only [bits, Nat.shiftRight_zero, Nat.pow_one] at this
    omega
  unfold State.writeRing
  simp only [show (HIF.ENABLE n).off = HIF.ring n + 0x10 from rfl, writeMod_ring s hn, writeFields_ring n _ ok, off,
    Nat.zero_ne_one, if_false, Bool.false_eq_true, State.rd_wr_same, BitVec.toNat_ofNat, Nat.mod_eq_of_lt lt, odd]
  rfl

/-- What the enabling of ring `n` with configuration `cfg` leaves. -/
def RingStarted (n cfg : Nat) (s s' : State) : Prop :=
  s'.fld (HIF.ENABLE n) = 1 ∧ s'.fld (HIF.RSTATE n) = 1 ∧ s'.fld (HIF.SQ_HEAD n) = 0 ∧ s'.fld (HIF.CQ_TAIL n) = 0
  ∧ s'.fld (HIF.CQ_PHASE n) = 1 ∧ s'.fld (HIF.SQ_LOG2 n) = bits cfg 1 5 ∧ s'.fld (HIF.CQ_LOG2 n) = bits cfg 6 5
  ∧ (s'.ring n).tail = 0 ∧ (s'.ring n).head = 0 ∧ OnlyRing n s s'

theorem toRingZero_fld (s : State) (f : Fld) : s.toRingZero.fld f = s.fld f := State.fld_congr rfl f
theorem toRingZero_ring (s : State) (n : Nat) : s.toRingZero.ring n = s.ring n := State.ring_congr rfl n

theorem RingStarted.toRingZero {n cfg : Nat} {s r : State} (h : RingStarted n cfg s r) : RingStarted n cfg s r.toRingZero := by
  obtain ⟨enable, rstate, sqHead, cqTail, phase, sq, cq, tail, head, only⟩ := h
  refine ⟨?_, ?_, ?_, ?_, ?_, ?_, ?_, ?_, ?_, only.trans (.of_eq rfl rfl rfl rfl)⟩ <;>
    simpa only [toRingZero_fld, toRingZero_ring]

theorem RingStarted.of_emptied {n new cfg old : Nat} (s : State) (hn : n < 64) (lt : old < 2 ^ 64) (on : bits new 0 1 = 1)
    (sq : bits new 1 5 = bits cfg 1 5) (cq : bits new 6 5 = bits cfg 6 5) :
    RingStarted n cfg s ((s.wr (HIF.ring n + 0x10) (BitVec.ofNat 64 (ringWord n old new))).emptied n) := by
  obtain ⟨rstate, sqHead, cqTail, phase, cfgFld⟩ :=
    emptied_fields (s.wr (HIF.ring n + 0x10) (BitVec.ofNat 64 (ringWord n old new))) hn
  obtain ⟨tail, head⟩ := emptied_ring (s.wr (HIF.ring n + 0x10) (BitVec.ofNat 64 (ringWord n old new))) n
  obtain ⟨b0, b1, b6⟩ := bits_ringWord n old new
  have word (l w : Nat) := (cfgFld l w).trans (s.fld_wr_at (HIF.ring n + 0x10) l w _ (ringWord_lt lt))
  exact ⟨(word 0 1).trans (b0.trans on), rstate, sqHead, cqTail, phase, (word 1 5).trans (b1.trans sq),
    (word 6 5).trans (b6.trans cq), tail, head, (OnlyRing.wr ..).trans (emptied_only ..)⟩

theorem ringEnable_starts {s : State} {n : Nat} {cfg : BitVec 64} (aw : s.awake = true) (hn : n < 64)
    (off : s.fld (HIF.ENABLE n) = 0) (ok : RingCfgValid cfg.toNat) :
    Gives (exec (.ringEnable n cfg) s) (RingStarted n cfg.toNat s) := by
  have on : bits (putBits cfg.toNat 0 1 1) 0 1 = 1 := bits_putBits_same ..
  have started := RingStarted.of_emptied s hn (s.rd (HIF.ring n + 0x10)).isLt on
    (bits_putBits_other _ _ (by omega)) (bits_putBits_other cfg.toNat _ (by omega))
  refine ⟨_, ringEnable_eq aw hn, ?_⟩
  rw [writeRing_enables hn off (ok.putEnable 1) on]
  dsimp only
  split
  · exact started.toRingZero
  · exact started

/-! ### A ring that is enabled -/

/-- A write that differs from an enabled ring's configuration beyond ENABLE is refused. -/
theorem writeRing_refused {s : State} {n new : Nat} (hn : n < 64) (on : s.fld (HIF.ENABLE n) = 1)
    (h : bits new 34 10 ≠ s.fld (HIF.COAL_US n)) : s.writeRing n new (2 ^ 64 - 1) = s.hifFault := by
  generalize hw : writeFields (ringFields n) (s.rd (HIF.ring n + 0x10)).toNat new (2 ^ 64 - 1) = w
  have coal : bits w.1 34 10 = bits new 34 10 := by rw [← hw, bits_writeFields_ring]
  have half (x : Nat) : bits x 34 10 = bits (x / 2) 33 10 := by
    simp only [bits, Nat.shiftRight_eq_div_pow, Nat.div_div_eq_div_mul]
  have word : bits (w.1 % 2 ^ 64) 34 10 = bits w.1 34 10 := by
    apply Nat.eq_of_testBit_eq
    intro i
    simp only [testBit_bits, Nat.testBit_mod_two_pow]
    by_cases hi : i < 10
    · simp [hi, show 34 + i < 64 by omega]
    · simp [hi]
  have differs : (s.rd (HIF.ring n + 0x10)).toNat / 2 ≠ w.1 % 2 ^ 64 / 2 := by
    intro e
    apply h
    rw [← coal, ← word, half, ← e, ← half]
    rfl
  unfold State.writeRing
  simp only [show (HIF.ENABLE n).off = HIF.ring n + 0x10 from rfl, writeMod_ring s hn, hw, on, State.rd_wr_same,
    BitVec.toNat_ofNat, differs, ne_eq, not_false_eq_true, decide_true, Bool.or_true, if_true]

theorem ringEnable_refused {s : State} {n : Nat} {cfg : BitVec 64} (aw : s.awake = true) (hn : n < 64)
    (on : s.fld (HIF.ENABLE n) = 1) (h : bits cfg.toNat 34 10 ≠ s.fld (HIF.COAL_US n)) :
    Gives (exec (.ringEnable n cfg) s) (fun s' => s'.fld HIF.CFG_VALUE = 1 ∧ s'.fld (HIF.COAL_US n) = s.fld (HIF.COAL_US n)
      ∧ s'.fld (HIF.ENABLE n) = 1 ∧ OnlyRing n s s') := by
  have hr := ring_bounds hn
  refine ⟨_, ringEnable_eq aw hn, ?_⟩
  rw [writeRing_refused hn on (by rwa [bits_putBits_other _ _ (by omega)])]
  exact ⟨hifFault_cfgValue s, hifFault_fld s _ 34 10 (by omega) (by omega),
    (hifFault_fld s _ 0 1 (by omega) (by omega)).trans on, hifFault_only n s⟩

/-- The registers of a ring that stops. -/
def State.stopRegs (s : State) (n : Nat) : State := (s.setFld (HIF.ENABLE n) 0).setFld (HIF.RSTATE n) 0

/-- A write that only clears ENABLE. -/
theorem writeRing_disables {s : State} {n new : Nat} (hn : n < 64) (on : s.fld (HIF.ENABLE n) = 1) (ok : RingCfgValid new)
    (h : bits new 1 43 = bits (s.rd (HIF.ring n + 0x10)).toNat 1 43) (h0 : bits new 0 1 = 0) :
    s.writeRing n new (2 ^ 64 - 1) = (s.stopRegs n).holdEntries n := by
  have even : ∀ x, putBits x 0 1 0 / 2 = x / 2 ∧ putBits x 0 1 0 % 2 = 0 := by
    intro x
    simp only [putBits_eq]
    omega
  obtain ⟨half, zero⟩ := even (s.rd (HIF.ring n + 0x10)).toNat
  have lt : putBits (s.rd (HIF.ring n + 0x10)).toNat 0 1 0 < 2 ^ 64 := putBits_lt (s.rd _).isLt (by omega)
  unfold State.writeRing
  simp only [show (HIF.ENABLE n).off = HIF.ring n + 0x10 from rfl, writeMod_ring s hn, writeFields_ring n _ ok,
    ringWord_disable n _ _ h h0, on, State.rd_wr_same, BitVec.toNat_ofNat, Nat.mod_eq_of_lt lt, half, zero, Bool.false_or,
    ne_eq, not_true_eq_false, decide_false, Bool.false_eq_true, if_true, if_false, Nat.zero_ne_one]
  rfl

/-- What the disabling of ring `n` leaves. -/
def RingStopped (n : Nat) (s s' : State) : Prop :=
  s'.fld (HIF.ENABLE n) = 0 ∧ s'.fld (HIF.RSTATE n) = 0 ∧ s'.fld (HIF.SQ_LOG2 n) = s.fld (HIF.SQ_LOG2 n)
  ∧ s'.hif.started = s.hif.started ∧ s'.hif.ops = s.hif.ops
  ∧ (∀ e ∈ s'.hif.backlog, e.zero = false → e.ring = n → e.held = true) ∧ OnlyRing n s s'

theorem holdEntries_held (s : State) (n : Nat) :
    ∀ e ∈ (s.holdEntries n).hif.backlog, e.zero = false → e.ring = n → e.held = true := by
  intro e he hz hr
  simp only [State.holdEntries, List.mem_map] at he
  obtain ⟨x, -, rfl⟩ := he
  by_cases mine : (if x.zero = true then 0 else x.ring) = n
  · rw [if_pos mine]
  · rw [if_neg mine] at hz hr
    simp [hz, hr] at mine

theorem holdEntries_fld (s : State) (n : Nat) (f : Fld) : (s.holdEntries n).fld f = s.fld f := State.fld_congr rfl f

theorem holdEntries_started (s : State) (n : Nat) : (s.holdEntries n).hif.started = s.hif.started := rfl
theorem holdEntries_ops (s : State) (n : Nat) : (s.holdEntries n).hif.ops = s.hif.ops := rfl

theorem holdEntries_only (s : State) (n : Nat) : OnlyRing n s (s.holdEntries n) := .of_eq rfl rfl rfl rfl

theorem stopRegs_fields (s : State) {n : Nat} (hn : n < 64) : (s.stopRegs n).fld (HIF.ENABLE n) = 0
    ∧ (s.stopRegs n).fld (HIF.RSTATE n) = 0 ∧ (s.stopRegs n).fld (HIF.SQ_LOG2 n) = s.fld (HIF.SQ_LOG2 n) := by
  have hr := ring_bounds hn
  simp (disch := omega) only [State.stopRegs, HIF.ENABLE, HIF.RSTATE, HIF.SQ_LOG2, State.fld_setFld_at, State.fld_setFld_apart]
  decide

theorem stopRegs_hif (s : State) (n : Nat) : (s.stopRegs n).hif = s.hif := by
  rw [State.stopRegs, State.setFld_hif, State.setFld_hif]

theorem stopRegs_only (s : State) (n : Nat) : OnlyRing n s (s.stopRegs n) := (OnlyRing.setFld ..).trans (.setFld ..)

theorem ringStopped_holdEntries (s : State) {n : Nat} (hn : n < 64) : RingStopped n s ((s.stopRegs n).holdEntries n) := by
  obtain ⟨enable, rstate, sq⟩ := stopRegs_fields s hn
  have hif := stopRegs_hif s n
  have only := stopRegs_only s n
  generalize s.stopRegs n = b at *
  exact ⟨(holdEntries_fld ..).trans enable, (holdEntries_fld ..).trans rstate, (holdEntries_fld ..).trans sq,
    (holdEntries_started ..).trans (congrArg HostIf.started hif), (holdEntries_ops ..).trans (congrArg HostIf.ops hif),
    holdEntries_held b n, only.trans (holdEntries_only b n)⟩

theorem ringDisable_stops {s : State} {n : Nat} {cfg : BitVec 64} (aw : s.awake = true) (hn : n < 64)
    (on : s.fld (HIF.ENABLE n) = 1) (same : bits cfg.toNat 1 43 = bits (s.rd (HIF.ENABLE n).off).toNat 1 43)
    (ok : RingCfgValid cfg.toNat) : Gives (exec (.ringDisable n cfg) s) (RingStopped n s) := by
  refine ⟨_, ringDisable_eq aw hn, ?_⟩
  rw [writeRing_disables hn on (ok.putEnable 0) ((bits_putBits_other _ _ (by omega)).trans same) (bits_putBits_same ..)]
  exact ringStopped_holdEntries s hn

end Sys2Proof.Machine
end

section
/-! LEMMAS. Writes of a relay entry and of an unoccupied offset (R16, R418). -/
namespace Sys2Proof.Machine

/-- The offset of relay entry `k`. -/
def relayOff (k : Nat) : Nat := 0x2000 + 8 * k

theorem relayOff_bounds {k : Nat} (hk : k < 64) : 0x2000 ≤ relayOff k ∧ relayOff k < 0x2200 := by
  unfold relayOff
  omega

theorem modFields_relay {k : Nat} (h0 : k ≠ 0) (hk : k < 64) :
    modFields (relayOff k) = some [⟨0, 14, .any⟩, ⟨14, 1, .any⟩, ⟨16, 7, .ro⟩] := by
  have b : 0x2000 < relayOff k ∧ relayOff k < 0x2200 ∧ relayOff k % 8 = 0 := by unfold relayOff; omega
  unfold modFields hifFields
  rw [if_neg (by omega), if_pos (by omega), if_neg (by omega), if_neg (by omega), if_neg (by omega), if_neg (by omega),
    if_neg (by omega), if_neg (by omega), if_pos (by omega)]

/-- Relay entry `k` after a whole write. -/
def relayWord (old new : Nat) : Nat := putBits (putBits old 0 14 (bits new 0 14)) 14 1 (bits new 14 1)

theorem relayWord_lt {old new : Nat} (h : old < 2 ^ 64) : relayWord old new < 2 ^ 64 :=
  putBits_lt (putBits_lt h (by omega)) (by omega)

theorem bits_relayWord (old new : Nat) :
    bits (relayWord old new) 0 14 = bits new 0 14 ∧ bits (relayWord old new) 14 1 = bits new 14 1 := by
  have lt (l w : Nat) : bits new l w % 2 ^ w = bits new l w := Nat.mod_eq_of_lt (bits_lt ..)
  unfold relayWord
  simp (disch := omega) only [bits_putBits_other, bits_putBits_same, lt, and_self]

/-- The entry as a whole write leaves it, before the fields that follow from it. -/
def State.putRelay (s : State) (k new : Nat) : State :=
  s.wr (relayOff k) (BitVec.ofNat 64 (relayWord (s.rd (relayOff k)).toNat new))

theorem writeMod_relay (s : State) {k : Nat} (h0 : k ≠ 0) (hk : k < 64) (new : Nat) :
    (s.writeMod (relayOff k) new (2 ^ 64 - 1)).1 = s.putRelay k new := by
  have hb := relayOff_bounds hk
  unfold State.writeMod
  rw [canonical_of_hif (by omega), modFields_relay h0 hk]
  simp only [writeFields, writeField_any 0 14 _ _ (by omega) (by omega), writeField_any 14 1 _ _ (by omega) (by omega),
    writeField_ro]
  rfl

theorem putRelay_fld (s : State) (k new : Nat) :
    (s.putRelay k new).fld (HIF.RMODULE k) = bits new 0 14 ∧ (s.putRelay k new).fld (HIF.RVALID k) = bits new 14 1 := by
  obtain ⟨m, v⟩ := bits_relayWord (s.rd (relayOff k)).toNat new
  have word (l w : Nat) := s.fld_wr_at (relayOff k) l w _ (relayWord_lt (new := new) (s.rd (relayOff k)).isLt)
  exact ⟨(word 0 14).trans m, (word 14 1).trans v⟩

/-- A module index that this module or another valid entry has. -/
def NamedElsewhere (k m : Nat) (s : State) : Prop :=
  m = s.self.toNat ∨ ∃ j, 0 < j ∧ j < 64 ∧ j ≠ k ∧ s.fld (HIF.RVALID j) = 1 ∧ s.fld (HIF.RMODULE j) = m

/-- How many modules the machine has. -/
def machineModules (s : State) : Nat := axisSize s.shape 0 * axisSize s.shape 1 * axisSize s.shape 2 * axisSize s.shape 3

theorem namedElsewhere_iff {k : Nat} (h0 : k ≠ 0) (m : Nat) (s : State) :
    (List.range 64).any (fun j => decide (j ≠ k) && (decide (j = 0) && decide (s.self.toNat = m)
      || decide (j ≠ 0) && decide (s.fld (HIF.RVALID j) = 1) && decide (s.fld (HIF.RMODULE j) = m))) = true
      ↔ NamedElsewhere k m s := by
  simp only [List.any_eq_true, List.mem_range, Bool.and_eq_true, Bool.or_eq_true, decide_eq_true_eq, NamedElsewhere]
  constructor
  · rintro ⟨j, hj, hjk, ⟨-, self⟩ | ⟨⟨j0, valid⟩, named⟩⟩
    · exact .inl self.symm
    · exact .inr ⟨j, by omega, hj, hjk, valid, named⟩
  · rintro (self | ⟨j, j0, hj, hjk, valid, named⟩)
    · exact ⟨0, by omega, h0.symm, .inl ⟨rfl, self.symm⟩⟩
    · exact ⟨j, hj, hjk, .inr ⟨⟨by omega, valid⟩, named⟩⟩

/-- A write that RELAY_TABLE_WRITE refuses. -/
def RelayRefused (k new : Nat) (s : State) : Prop :=
  (bits new 14 1 = 1 ∧ (machineModules s ≤ bits new 0 14 ∨ NamedElsewhere k (bits new 0 14) s))
  ∨ (s.fld (HIF.RVALID k) = 1 ∧ s.relayLive k ≠ [])

/-- The fields that follow from an entry. -/
def State.settleRelay (s : State) (k hops up : Nat) : State :=
  let s := (s.setFld (HIF.HOPS k) hops).setFld (HIF.REACHABLE k) up
  s.setFld HIF.RELAY_ACTIVE (ofBool ((List.range 64).any (fun j => decide (j ≠ 0) && decide (s.fld (HIF.RVALID j) = 1))))

theorem writeRelay_refused {s : State} {k new : Nat} (h0 : k ≠ 0) (hk : k < 64) (h : RelayRefused k new s) :
    s.writeRelay k new (2 ^ 64 - 1) = s.hifFault := by
  obtain ⟨m, v⟩ := putRelay_fld s k new
  have put := writeMod_relay s h0 hk new
  have off : (HIF.RMODULE k).off = relayOff k := rfl
  generalize 2 ^ 64 - 1 = mask at put ⊢
  unfold State.writeRelay
  simp only [off, put, m, v, h0, if_false]
  rw [if_pos]
  rw [namedElsewhere_iff h0]
  simpa [RelayRefused, machineModules] using h

theorem writeRelay_accepted {s : State} {k new : Nat} (h0 : k ≠ 0) (hk : k < 64) (h : ¬ RelayRefused k new s) :
    ∃ hops up, s.writeRelay k new (2 ^ 64 - 1) = (s.putRelay k new).settleRelay k hops up
      ∧ (bits new 14 1 = 0 → up = 0) := by
  obtain ⟨m, v⟩ := putRelay_fld s k new
  have put := writeMod_relay s h0 hk new
  have off : (HIF.RMODULE k).off = relayOff k := rfl
  generalize 2 ^ 64 - 1 = mask at put ⊢
  unfold State.writeRelay
  simp only [off, put, m, v, h0, if_false]
  rw [if_neg]
  · refine ⟨_, _, rfl, fun hv => ?_⟩
    simp [hv, ofBool]
  · rw [namedElsewhere_iff h0]
    simpa [RelayRefused, machineModules] using h

theorem relayFields_eq (k : Nat) : HIF.RMODULE k = ⟨relayOff k, 0, 14⟩ ∧ HIF.RVALID k = ⟨relayOff k, 14, 1⟩
    ∧ HIF.HOPS k = ⟨relayOff k, 16, 6⟩ ∧ HIF.REACHABLE k = ⟨relayOff k, 22, 1⟩ :=
  ⟨rfl, rfl, rfl, rfl⟩

theorem settleRelay_fields (s : State) {k : Nat} (hk : k < 64) (hops up : Nat) :
    (s.settleRelay k hops up).fld (HIF.RMODULE k) = s.fld (HIF.RMODULE k)
    ∧ (s.settleRelay k hops up).fld (HIF.RVALID k) = s.fld (HIF.RVALID k)
    ∧ (s.settleRelay k hops up).fld (HIF.REACHABLE k) = up % 2 := by
  have hb := relayOff_bounds hk
  obtain ⟨m, v, hop, reach⟩ := relayFields_eq k
  rw [State.settleRelay, m, v, hop, reach]
  simp (disch := omega) only [HIF.RELAY_ACTIVE, State.fld_setFld_at, State.fld_setFld_apart, Nat.pow_one, and_self]

theorem settleRelay_active (s : State) {k : Nat} (h0 : k ≠ 0) (hk : k < 64) (hops up : Nat) (valid : s.fld (HIF.RVALID k) = 1) :
    (s.settleRelay k hops up).fld HIF.RELAY_ACTIVE = 1 := by
  have hb := relayOff_bounds hk
  obtain ⟨-, v, hop, reach⟩ := relayFields_eq k
  have still : ((s.setFld (HIF.HOPS k) hops).setFld (HIF.REACHABLE k) up).fld (HIF.RVALID k) = 1 := by
    rw [v] at valid ⊢
    rw [hop, reach]
    simpa (disch := omega) only [State.fld_setFld_apart] using valid
  have some_ : (List.range 64).any (fun j => decide (j ≠ 0)
      && decide (((s.setFld (HIF.HOPS k) hops).setFld (HIF.REACHABLE k) up).fld (HIF.RVALID j) = 1)) = true := by
    rw [List.any_eq_true]
    exact ⟨k, List.mem_range.2 hk, by simp [h0, still]⟩
  rw [State.settleRelay]
  simp only [some_]
  exact State.fld_setFld_at _ 0x10 41 1 _ (by omega)

theorem settleRelay_hif (s : State) (k hops up : Nat) : (s.settleRelay k hops up).hif = s.hif := by
  simp only [State.settleRelay]
  rw [State.setFld_hif, State.setFld_hif, State.setFld_hif]

theorem relayTableWrite_eq {s : State} {k : Nat} {cfg : BitVec 64} (aw : s.awake = true) (hk : k < 64) :
    exec (.relayTableWrite k cfg) s = .next (s.writeRelay k cfg.toNat (2 ^ 64 - 1)) := by
  change execRelayTableWrite k cfg s = _
  simp [execRelayTableWrite, Nat.not_le.2 hk, aw]

theorem bits_valid (cfg : BitVec 64) : bits cfg.toNat 14 1 = (cfg.getLsbD 14).toNat := by
  rw [BitVec.getLsbD, bits, Nat.shiftRight_eq_div_pow, Nat.testBit_eq_decide_div_mod_eq, Nat.pow_one]
  rcases Nat.mod_two_eq_zero_or_one (cfg.toNat / 2 ^ 14) with h | h <;> rw [h] <;> rfl

/-- A relay entry is taken out of use. -/
theorem relayTableWrite_clears {s : State} {k : Nat} {cfg : BitVec 64} (aw : s.awake = true) (h0 : k ≠ 0) (hk : k < 64)
    (idle : s.fld (HIF.RVALID k) = 0 ∨ s.relayLive k = []) (invalid : cfg.getLsbD 14 = false) :
    Gives (exec (.relayTableWrite k cfg) s) (fun s' => s'.fld (HIF.RVALID k) = 0 ∧ s'.fld (HIF.REACHABLE k) = 0
      ∧ s'.fld (HIF.RMODULE k) = bits cfg.toNat 0 14 ∧ s'.hif = s.hif) := by
  have bit : bits cfg.toNat 14 1 = 0 := by rw [bits_valid, invalid]; rfl
  have accepted : ¬ RelayRefused k cfg.toNat s := by
    rintro (⟨one, -⟩ | ⟨valid, live⟩)
    · omega
    · exact idle.elim (fun z => by omega) live
  obtain ⟨hops, up, written, unreachable⟩ := writeRelay_accepted h0 hk accepted
  obtain ⟨m, v, reach⟩ := settleRelay_fields (s.putRelay k cfg.toNat) hk hops up
  obtain ⟨module, valid⟩ := putRelay_fld s k cfg.toNat
  refine ⟨_, relayTableWrite_eq aw hk, ?_⟩
  rw [written]
  exact ⟨v.trans (valid.trans bit), by rw [reach, unreachable bit], m.trans module, settleRelay_hif ..⟩

/-- A relay entry takes another module of the machine that no other entry names. -/
theorem relayTableWrite_sets {s : State} {k : Nat} {cfg : BitVec 64} (aw : s.awake = true) (h0 : k ≠ 0) (hk : k < 64)
    (idle : s.fld (HIF.RVALID k) = 0 ∨ s.relayLive k = []) (valid : cfg.getLsbD 14 = true)
    (inside : bits cfg.toNat 0 14 < machineModules s) (free : ¬ NamedElsewhere k (bits cfg.toNat 0 14) s) :
    Gives (exec (.relayTableWrite k cfg) s) (fun s' => s'.fld (HIF.RVALID k) = 1
      ∧ s'.fld (HIF.RMODULE k) = bits cfg.toNat 0 14 ∧ s'.fld HIF.RELAY_ACTIVE = 1 ∧ s'.hif = s.hif) := by
  have bit : bits cfg.toNat 14 1 = 1 := by rw [bits_valid, valid]; rfl
  have accepted : ¬ RelayRefused k cfg.toNat s := by
    rintro (⟨-, outside | named⟩ | ⟨valid, live⟩)
    · omega
    · exact free named
    · exact idle.elim (fun z => by omega) live
  obtain ⟨hops, up, written, -⟩ := writeRelay_accepted h0 hk accepted
  obtain ⟨m, v, -⟩ := settleRelay_fields (s.putRelay k cfg.toNat) hk hops up
  obtain ⟨module, set⟩ := putRelay_fld s k cfg.toNat
  refine ⟨_, relayTableWrite_eq aw hk, ?_⟩
  rw [written]
  exact ⟨v.trans (set.trans bit), m.trans module, settleRelay_active _ h0 hk _ _ (set.trans bit), settleRelay_hif ..⟩

/-- A refused write leaves the entry. -/
theorem relayTableWrite_refused {s : State} {k : Nat} {cfg : BitVec 64} (aw : s.awake = true) (h0 : k ≠ 0) (hk : k < 64)
    (refused : RelayRefused k cfg.toNat s) :
    Gives (exec (.relayTableWrite k cfg) s) (fun s' => s'.fld HIF.CFG_VALUE = 1
      ∧ s'.fld (HIF.RVALID k) = s.fld (HIF.RVALID k) ∧ s'.fld (HIF.RMODULE k) = s.fld (HIF.RMODULE k)) := by
  have hb := relayOff_bounds hk
  refine ⟨_, relayTableWrite_eq aw hk, ?_⟩
  rw [writeRelay_refused h0 hk refused]
  exact ⟨hifFault_cfgValue s, hifFault_fld s (relayOff k) 14 1 (by omega) (by omega),
    hifFault_fld s (relayOff k) 0 14 (by omega) (by omega)⟩

theorem unmappedAccess_raises {s : State} {offset : Nat} {w : Bool} (aw : s.awake = true)
    (free : modFields (canonical offset) = none) :
    Gives (exec (.unmappedAccess offset w) s) (fun s' => s' = s.setFld HIF.UNMAPPED 1) := by
  refine ⟨_, ?_, rfl⟩
  change execUnmappedAccess offset w s = _
  simp [execUnmappedAccess, aw, free, State.unmapped]

end Sys2Proof.Machine
end

section
/-! LEMMAS. Fetching (R403, R415). -/
namespace Sys2Proof.Machine

/-- A ring that may be fetched, in the words of R403: enabled, running, with descriptors waiting and no entry. -/
def MayFetch (s : State) (j : Nat) : Prop :=
  s.fld (HIF.ENABLE j) = 1 ∧ s.fld (HIF.RSTATE j) = 1 ∧ 0 < s.waiting j ∧ ∀ e ∈ s.hif.backlog,
    (if e.zero then 0 else e.ring) ≠ j

def LatencyCritical (s : State) (j : Nat) : Prop := j = 0 ∨ s.fld (HIF.CLASS j) = 0

theorem fetchable_iff (s : State) (j : Nat) : s.fetchable j = true ↔ MayFetch s j := by
  simp only [State.fetchable, MayFetch, Bool.and_eq_true, decide_eq_true_eq, Bool.not_eq_true', List.any_eq_false, and_assoc]

theorem latencyRing_iff (s : State) (j : Nat) : s.latencyRing j = true ↔ LatencyCritical s j := by
  simp only [State.latencyRing, LatencyCritical, Bool.or_eq_true, decide_eq_true_eq]

/-! ### The choice of a ring -/

theorem find?_range_map {p : Nat → Bool} {f : Nat → Nat} {d n : Nat} (hd : d < n) (h : p (f d) = true)
    (first : ∀ i, i < d → p (f i) = false) : ((List.range n).map f).find? p = some (f d) := by
  rw [List.find?_map]
  have : (List.range n).find? (p ∘ f) = some d := by
    rw [List.find?_range_eq_some]
    exact ⟨h, List.mem_range.2 hd, fun j hj => by simp [first j hj]⟩
  rw [this]
  rfl

/-- The first latency-critical ring in rotation that may be fetched. -/
theorem pickRing_latency {s : State} {n d : Nat} (hd : d < 64) (hn : n = (s.hif.latency + d) % 64) (may : MayFetch s n)
    (quick : LatencyCritical s n)
    (first : ∀ i, i < d → ¬ (LatencyCritical s ((s.hif.latency + i) % 64) ∧ MayFetch s ((s.hif.latency + i) % 64))) :
    s.pickRing = some (n, 8) := by
  have found := find?_range_map (p := fun n => s.latencyRing n && s.fetchable n) (f := fun i => (s.hif.latency + i) % 64) hd
    (by rw [← hn]; simp [fetchable_iff, latencyRing_iff, may, quick])
    (fun i hi => by
      have := first i hi
      rw [← latencyRing_iff, ← fetchable_iff] at this
      simpa using this)
  unfold State.pickRing
  rw [found, ← hn]

/-- Where no latency-critical ring waits, the best-effort ring being visited, up to its share. -/
theorem pickRing_visit {s : State} {n : Nat} (visit : s.hif.visit = n) (may : MayFetch s n) (slow : ¬ LatencyCritical s n)
    (share : 0 < (s.ring n).share) (none_ : ∀ j, j < 64 → ¬ (LatencyCritical s j ∧ MayFetch s j)) :
    s.pickRing = some (n, (s.ring n).share) := by
  have nothing : ((List.range 64).map (fun i => (s.hif.latency + i) % 64)).find? (fun n => s.latencyRing n && s.fetchable n)
      = none := by
    rw [List.find?_eq_none]
    intro j hj
    obtain ⟨i, -, rfl⟩ := List.mem_map.1 hj
    simpa [fetchable_iff, latencyRing_iff] using none_ _ (Nat.mod_lt (s.hif.latency + i) (by omega))
  unfold State.pickRing
  rw [nothing, visit]
  unfold State.pickBest
  rw [← latencyRing_iff] at slow
  rw [if_pos (by simp [slow, fetchable_iff, may, share])]

/-! ### The burst -/

/-- The registers after `k` descriptors of ring `n` were read. -/
def State.fetchRegs (s : State) (n k : Nat) : State :=
  ((s.setFld (HIF.SQ_HEAD n) ((s.fld (HIF.SQ_HEAD n) + k) % s.sqSize n)).setFld (HIF.FETCHED n) (s.fld (HIF.FETCHED n) + k)).setFld
    (HIF.WAIT_US n) 0

/-- The descriptors read. -/
def State.readDescs (s : State) (n k : Nat) : List (BitVec 512) :=
  (List.range k).map (fun i => BitVec.ofNat 512 (ofBytes
    (s.hostRead (s.fld (HIF.SQ_BASE n) * 4096 + 64 * ((s.fld (HIF.SQ_HEAD n) + i) % s.sqSize n)) 64)))

/-- The ring's record and the turn of the arbitration after them. -/
def State.fetchRing (s : State) (n share k : Nat) (ds : List (BitVec 512)) : State :=
  let r := s.ring n
  let lat := s.latencyRing n
  let s := s.setRing n { r with fetched := r.fetched ++ ds, share := if lat then r.share else share - k }
  { s with hif := { s.hif with
    latency := if lat then (n + 1) % 64 else s.hif.latency, visit := if lat then s.hif.visit else n } }

theorem fetchRegs_fields (s : State) {n : Nat} (hn : n < 64) (k : Nat) (sq : s.fld (HIF.SQ_LOG2 n) ≤ 16)
    (room : s.fld (HIF.FETCHED n) + k < 2 ^ 48) :
    (s.fetchRegs n k).fld (HIF.SQ_HEAD n) = (s.fld (HIF.SQ_HEAD n) + k) % s.sqSize n
    ∧ (s.fetchRegs n k).fld (HIF.FETCHED n) = s.fld (HIF.FETCHED n) + k
    ∧ (s.fetchRegs n k).fld (HIF.CLASS n) = s.fld (HIF.CLASS n) := by
  have hr := ring_bounds hn
  have size : s.sqSize n ≤ 2 ^ 16 := Nat.pow_le_pow_right (by omega) sq
  have head : (s.fld (HIF.SQ_HEAD n) + k) % s.sqSize n < 2 ^ 16 :=
    (Nat.mod_lt _ (Nat.two_pow_pos _)).trans_le size
  generalize hh : (s.fld (HIF.SQ_HEAD n) + k) % s.sqSize n = h at *
  generalize hf : s.fld (HIF.FETCHED n) + k = f at *
  rw [State.fetchRegs, hh, hf]
  simp (disch := omega) only [HIF.SQ_HEAD, HIF.FETCHED, HIF.WAIT_US, HIF.CLASS, State.fld_setFld_at, State.fld_setFld_apart,
    Nat.mod_eq_of_lt head, Nat.mod_eq_of_lt room, and_self]

theorem fetchRegs_hif (s : State) (n k : Nat) : (s.fetchRegs n k).hif = s.hif := by
  rw [State.fetchRegs, State.setFld_hif, State.setFld_hif, State.setFld_hif]

theorem fetchRegs_only (s : State) (n k : Nat) : OnlyRing n s (s.fetchRegs n k) :=
  (OnlyRing.setFld ..).trans ((OnlyRing.setFld ..).trans (.setFld ..))

/-- How many descriptors a burst takes. -/
def State.burstLen (s : State) (n share : Nat) : Nat := min (min 8 share) (min (s.waiting n) (8192 - s.outstanding))

theorem fetchBurst_eq {s : State} {n share : Nat} (aw : s.awake = true) (pick : s.pickRing = some (n, share))
    (room : s.outstanding < 8192) (total : s.fld (HIF.FETCHED n) + 8 < 2 ^ 48) :
    exec .fetchBurst s = .next ((s.fetchRegs n (s.burstLen n share)).fetchRing n share (s.burstLen n share)
      (s.readDescs n (s.burstLen n share))) := by
  have few : s.burstLen n share ≤ 8 := (Nat.min_le_left _ _).trans (Nat.min_le_left _ _)
  have fits : ¬ 2 ^ 48 ≤ s.fld (HIF.FETCHED n) + min (min 8 share) (min (s.waiting n) (8192 - s.outstanding)) := by
    change ¬ 2 ^ 48 ≤ s.fld (HIF.FETCHED n) + s.burstLen n share
    omega
  change execFetchBurst s = _
  unfold execFetchBurst
  simp only [aw, Bool.not_true, Bool.false_eq_true, if_false, Nat.not_le.2 room, pick, if_neg fits]
  rfl

theorem fetchRing_ring (s : State) (n share k : Nat) (ds : List (BitVec 512)) : (s.fetchRing n share k ds).ring n
    = { s.ring n with fetched := (s.ring n).fetched ++ ds, share := if s.latencyRing n then (s.ring n).share else share - k } :=
  (State.ring_congr (s := s.setRing n _) rfl n).trans (s.ring_setRing_same ..)

theorem fetchRing_fld (s : State) (n share k : Nat) (ds : List (BitVec 512)) (f : Fld) :
    (s.fetchRing n share k ds).fld f = s.fld f := State.fld_congr rfl f

theorem fetchRing_only (s : State) (n share k : Nat) (ds : List (BitVec 512)) : OnlyRing n s (s.fetchRing n share k ds) :=
  (OnlyRing.setRing n s _).trans (.of_eq rfl rfl rfl rfl)

theorem fetchRing_mem (s : State) (n share k : Nat) (ds : List (BitVec 512)) :
    (s.fetchRing n share k ds).hif.mem = s.hif.mem := rfl
theorem fetchRing_latency (s : State) (n share k : Nat) (ds : List (BitVec 512)) :
    (s.fetchRing n share k ds).hif.latency = if s.latencyRing n then (n + 1) % 64 else s.hif.latency := rfl
theorem fetchRing_visit (s : State) (n share k : Nat) (ds : List (BitVec 512)) :
    (s.fetchRing n share k ds).hif.visit = if s.latencyRing n then s.hif.visit else n := rfl

/-- What a burst of `m` descriptors of ring `n` leaves. -/
def Burst (n m : Nat) (s s' : State) : Prop :=
  s'.fld (HIF.SQ_HEAD n) = (s.fld (HIF.SQ_HEAD n) + m) % s.sqSize n ∧ s'.fld (HIF.FETCHED n) = s.fld (HIF.FETCHED n) + m
  ∧ (s'.ring n).fetched = (s.ring n).fetched ++ s.readDescs n m ∧ OnlyRing n s s' ∧ s'.hif.mem = s.hif.mem

/-- Fewer than 8,192 descriptors are outstanding, and the ring's registers are far from their limits. -/
def Roomy (n : Nat) (s : State) : Prop :=
  s.outstanding < 8192 ∧ s.fld (HIF.SQ_LOG2 n) ≤ 16 ∧ s.fld (HIF.FETCHED n) + 8 < 2 ^ 48

/-- The burst that follows the choice of ring `n`. -/
theorem fetchBurst_of_pick {s : State} {n share : Nat} (aw : s.awake = true) (hn : n < 64) (roomy : Roomy n s)
    (pick : s.pickRing = some (n, share)) :
    Gives (exec .fetchBurst s) (fun s' => Burst n (s.burstLen n share) s s'
      ∧ (s'.ring n).share = (if s.latencyRing n then (s.ring n).share else share - s.burstLen n share)
      ∧ s'.hif.latency = (if s.latencyRing n then (n + 1) % 64 else s.hif.latency)
      ∧ s'.hif.visit = if s.latencyRing n then s.hif.visit else n) := by
  obtain ⟨room, sq, total⟩ := roomy
  have few : s.burstLen n share ≤ 8 := (Nat.min_le_left _ _).trans (Nat.min_le_left _ _)
  refine ⟨_, fetchBurst_eq aw pick room total, ?_⟩
  generalize s.burstLen n share = k at *
  obtain ⟨head, fetched, class_⟩ := fetchRegs_fields s hn k sq (by omega)
  have hif := fetchRegs_hif s n k
  have only := fetchRegs_only s n k
  generalize s.fetchRegs n k = r at *
  have lat : r.latencyRing n = s.latencyRing n := by simp only [State.latencyRing, class_]
  have ring : r.ring n = s.ring n := State.ring_congr (by rw [hif]) n
  refine ⟨⟨?_, ?_, ?_, only.trans (fetchRing_only ..), ?_⟩, ?_, ?_, ?_⟩
  · rw [fetchRing_fld, head]
  · rw [fetchRing_fld, fetched]
  · rw [fetchRing_ring, ring]
  · rw [fetchRing_mem, hif]
  · rw [fetchRing_ring, ring, lat]
  · rw [fetchRing_latency, lat, hif]
  · rw [fetchRing_visit, lat, hif]

/-- The next latency-critical ring in rotation gives up to 8 descriptors. -/
theorem fetchBurst_latency {s : State} {n : Nat} (aw : s.awake = true) (hn : n < 64) (roomy : Roomy n s) (may : MayFetch s n)
    (quick : LatencyCritical s n) (turn : ∃ d, d < 64 ∧ n = (s.hif.latency + d) % 64
      ∧ ∀ i, i < d → ¬ (LatencyCritical s ((s.hif.latency + i) % 64) ∧ MayFetch s ((s.hif.latency + i) % 64))) :
    Gives (exec .fetchBurst s) (fun s' => Burst n (min 8 (min (s.waiting n) (8192 - s.outstanding))) s s'
      ∧ s'.hif.latency = (n + 1) % 64) := by
  obtain ⟨d, hd, hnd, first⟩ := turn
  obtain ⟨s', step, burst, -, latency, -⟩ := fetchBurst_of_pick aw hn roomy (pickRing_latency hd hnd may quick first)
  exact ⟨s', step, burst, latency.trans (if_pos ((latencyRing_iff s n).2 quick))⟩

/-- The best-effort ring being visited gives up to its share. -/
theorem fetchBurst_visit {s : State} {n : Nat} (aw : s.awake = true) (hn : n < 64) (roomy : Roomy n s) (may : MayFetch s n)
    (slow : ¬ LatencyCritical s n) (visit : s.hif.visit = n) (share : 0 < (s.ring n).share)
    (none_ : ∀ j, j < 64 → ¬ (LatencyCritical s j ∧ MayFetch s j)) :
    Gives (exec .fetchBurst s) (fun s' => Burst n (s.burstLen n (s.ring n).share) s s'
      ∧ (s'.ring n).share = (s.ring n).share - s.burstLen n (s.ring n).share ∧ s'.hif.visit = n) := by
  obtain ⟨s', step, burst, left, -, visited⟩ := fetchBurst_of_pick aw hn roomy (pickRing_visit visit may slow share none_)
  rw [← latencyRing_iff] at slow
  exact ⟨s', step, burst, left.trans (if_neg slow), visited.trans (if_neg slow)⟩

/-- At 8,192 outstanding descriptors nothing is read. -/
theorem fetchBurst_held {s : State} {n : Nat} (aw : s.awake = true) (hn : n < 64) (full : 8192 ≤ s.outstanding)
    (may : MayFetch s n) : Gives (exec .fetchBurst s) (fun s' => s'.fld HIF.FETCH_HELD = 1 ∧ s'.hif = s.hif) := by
  have waits : (List.range 64).any s.fetchable = true := by
    rw [List.any_eq_true]
    exact ⟨n, List.mem_range.2 hn, (fetchable_iff s n).2 may⟩
  refine ⟨s.setFld HIF.FETCH_HELD 1, ?_, s.fld_setFld_at 0x20 6 1 1 (by omega), rfl⟩
  change execFetchBurst s = _
  unfold execFetchBurst
  simp only [aw, Bool.not_true, Bool.false_eq_true, if_false, full, if_true, waits]

end Sys2Proof.Machine
end

section
/-! LEMMAS. The start of a descriptor (R399, R400, R418). -/
namespace Sys2Proof.Machine

/-! ### Its form -/

/-- A bit of a number with fields cleared. -/
theorem testBit_foldl_clear (fs : List (Nat × Nat)) (w i : Nat) :
    (fs.foldl (fun v f => putBits v f.1 f.2 0) w).testBit i = true
      ↔ w.testBit i = true ∧ ∀ f ∈ fs, i < f.1 ∨ f.1 + f.2 ≤ i := by
  induction fs generalizing w with
  | nil => simp
  | cons f fs ih =>
    rw [List.foldl_cons, ih, testBit_putBits, List.forall_mem_cons]
    by_cases inside : f.1 ≤ i ∧ i < f.1 + f.2
    · simp only [if_pos inside, Nat.zero_testBit, Bool.false_eq_true, false_and, false_iff, not_and]
      rintro - h
      omega
    · rw [if_neg inside]
      have outside : i < f.1 ∨ f.1 + f.2 ≤ i := by omega
      simp only [outside, true_and]

/-- No bit of ARG outside the command's fields is set. -/
theorem foldl_clear_eq_zero {fs : List (Nat × Nat)} {d : BitVec 512}
    (h : ∀ i, 192 ≤ i → i < 512 → (∀ f ∈ fs, i < f.1 ∨ f.1 + f.2 ≤ i) → d.getLsbD i = false) :
    fs.foldl (fun v f => putBits v f.1 f.2 0) (d.toNat / 2 ^ 192 * 2 ^ 192) = 0 := by
  apply Nat.eq_of_testBit_eq
  intro i
  rw [Nat.zero_testBit, Bool.eq_false_iff, ne_eq, testBit_foldl_clear, Nat.mul_comm, Nat.testBit_two_pow_mul,
    Nat.testBit_div_two_pow]
  rintro ⟨bit, outside⟩
  obtain ⟨low, bit⟩ := (Bool.and_eq_true _ _).mp bit
  have low : 192 ≤ i := of_decide_eq_true low
  rw [show i - 192 + 192 = i by omega] at bit
  have bit : d.getLsbD i = true := bit
  by_cases high : i < 512
  · rw [h i low high outside] at bit
    cases bit
  · rw [BitVec.getLsbD_of_ge d i (Nat.le_of_not_lt high)] at bit
    cases bit

theorem hostRefuses_notReady {s : State} {n : Nat} {d : BitVec 512} (ready : s.fld HIF.READY = 0) (o : cOpc d ≠ 0x50) :
    s.hostRefuses n d = Status.HOST_NOT_READY := by
  unfold State.hostRefuses
  rw [if_pos ⟨ready, o⟩]

theorem hostRefuses_startable {s : State} {n : Nat} {d : BitVec 512} (hn : n < 64) (h : Startable n d s) :
    s.hostRefuses n d = 0 := by
  obtain ⟨ready, reset, asleep, ⟨r5, r17, tag, fs, hfs, clear⟩, admin, long, power⟩ := h
  have link : s.hostRing n = n := by
    unfold State.hostRing
    rw [if_pos (show n < relayRing from hn)]
  have tagged : ¬ longOpc (cOpc d) = decide (cTag d = 0) := by
    intro e
    by_cases z : cTag d = 0 <;> simp [z] at e tag <;> simp [e] at tag
  unfold State.hostRefuses
  simp only [hfs, foldl_clear_eq_zero clear, link]
  rw [if_neg (by omega), if_neg (by simp [r5, r17]), if_neg (by simp), if_neg tagged, if_neg (fun h => h.2 (admin h.1)),
    if_neg (fun h => (long h.1).1 (by simpa using h.2)), if_neg (fun h => absurd (long h.1).2 (by omega)),
    if_neg (fun h => power h.1 h.2), if_neg (by simp [reset]), if_neg]
  rintro ⟨s2, here, needs⟩
  obtain ⟨via, away⟩ := asleep s2 (by simpa using needs)
  exact here.elim (fun v => by simp [via] at v) away

/-! ### Its start -/

/-- The state with the first fetched descriptor of ring `n` taken. -/
def State.takeDesc (s : State) (n : Nat) (rest : List (BitVec 512)) : State := s.setRing n { s.ring n with fetched := rest }

theorem takeDesc_fld (s : State) (n : Nat) (rest : List (BitVec 512)) (f : Fld) : (s.takeDesc n rest).fld f = s.fld f :=
  s.fld_setRing n _ f

theorem takeDesc_ring (s : State) (n : Nat) (rest : List (BitVec 512)) : ((s.takeDesc n rest).ring n).fetched = rest := by
  rw [State.takeDesc, State.ring_setRing_same]

theorem takeDesc_only (s : State) (n : Nat) (rest : List (BitVec 512)) : OnlyRing n s (s.takeDesc n rest) := .setRing n s _

theorem takeDesc_hif (s : State) (n : Nat) (rest : List (BitVec 512)) :
    ∃ rings, (s.takeDesc n rest).hif = { s.hif with rings := rings } := ⟨_, rfl⟩

theorem self_congr {s s' : State} (h : s'.regs = s.regs) : s'.self = s.self := by
  simp only [State.self, State.shape, State.coord, State.fld_congr h]

theorem takeDesc_self (s : State) (n : Nat) (rest : List (BitVec 512)) : (s.takeDesc n rest).self = s.self := self_congr rfl

theorem takeDesc_startable {s : State} {n : Nat} {d : BitVec 512} (rest : List (BitVec 512)) (h : Startable n d s) :
    Startable n d (s.takeDesc n rest) := by
  obtain ⟨ready, reset, asleep, formed, admin, long, power⟩ := h
  refine ⟨?_, reset, ?_, formed, admin, long, power⟩
  · rwa [takeDesc_fld]
  · rwa [takeDesc_self]

/-- The start after the descriptor was taken. -/
def State.startTaken (s : State) (n : Nat) (d : BitVec 512) : State :=
  let c := s.hostRefuses n d
  if c ≠ 0 then s.refuseDesc n d c
  else if cVia d && decide (cModule d ≠ s.self.toNat) then
    match s.relayEntry (cModule d) with
    | none => s.refuseDesc n d Status.RELAY_UNKNOWN
    | some k =>
      if s.fld (HIF.REACHABLE k) = 0 then s.refuseDesc n d Status.RELAY_LOST
      else { s with hif := { s.hif with relayQueue := s.hif.relayQueue ++ [(n, d)] } }
  else s.startHere n d

theorem descriptorStart_eq {s : State} {n : Nat} {d : BitVec 512} {rest : List (BitVec 512)} (aw : s.awake = true) (hn : n < 64)
    (fetched : (s.ring n).fetched = d :: rest) (fence : cFence d = false) :
    exec (.descriptorStart n) s = .next ((s.takeDesc n rest).startTaken n d) := by
  have known : s.ringKnown n = true := by simp [State.ringKnown, hn]
  change execDescriptorStart n s = _
  unfold execDescriptorStart
  simp only [known, aw, Bool.not_true, Bool.or_self, Bool.false_eq_true, if_false, fetched, fence, Bool.false_and]
  unfold State.startTaken State.takeDesc
  generalize s.setRing n _ = r
  simp only []
  split
  · rfl
  · split
    · cases r.relayEntry (cModule d) with
      | none => rfl
      | some k => simp only []; split <;> rfl
    · rfl

/-- A descriptor with FENCE waits for the ring's earlier ones. -/
theorem descriptorStart_fence {s : State} {n : Nat} {d : BitVec 512} {rest : List (BitVec 512)} (aw : s.awake = true)
    (hn : n < 64)
    (fetched : (s.ring n).fetched = d :: rest) (fence : cFence d = true)
    (earlier : (∃ x ∈ s.hif.started, x.ring = n) ∨ ∃ x ∈ s.hif.relayQueue ++ s.hif.relayed, x.1 = n) :
    exec (.descriptorStart n) s = .next s := by
  have known : s.ringKnown n = true := by simp [State.ringKnown, hn]
  have waits : (s.hif.started.any (fun x => decide (x.ring = n))
      || (s.hif.relayQueue ++ s.hif.relayed).any (fun x => decide (x.1 = n))) = true := by
    rw [Bool.or_eq_true, List.any_eq_true, List.any_eq_true]
    simpa only [decide_eq_true_eq] using earlier
  change execDescriptorStart n s = _
  unfold execDescriptorStart
  simp only [known, aw, Bool.not_true, Bool.or_self, Bool.false_eq_true, if_false, fetched, fence, Bool.true_and, waits,
    if_true]

/-! ### A descriptor that does not start -/

theorem refuseDesc_eq (s : State) {n : Nat} (hn : n < 64) (d : BitVec 512) (c : BitVec 16) :
    ∃ e, s.refuseDesc n d c = { s with free := s.free + 1, hif := { s.hif with backlog := s.hif.backlog ++ [e] } }
      ∧ e.status = c ∧ e.cid = cCid d ∧ e.ring = n ∧ e.interim = false := by
  unfold State.refuseDesc State.postFor
  simp only [show n < relayRing from hn, if_true]
  rw [State.post_final _ rfl rfl]
  exact ⟨_, rfl, rfl, rfl, rfl, rfl⟩

theorem descriptorStart_notReady {s : State} {n : Nat} {d : BitVec 512} {rest : List (BitVec 512)} (aw : s.awake = true)
    (hn : n < 64) (fetched : (s.ring n).fetched = d :: rest) (fence : cFence d = false) (ready : s.fld HIF.READY = 0)
    (o : cOpc d ≠ 0x50) :
    Gives (exec (.descriptorStart n) s) (fun s' => (s'.ring n).fetched = rest ∧ s'.hif.started = s.hif.started
      ∧ s'.hif.ops = s.hif.ops ∧ OnlyRing n s s' ∧ ∃ e, s'.hif.backlog = s.hif.backlog ++ [e]
        ∧ e.status = Status.HOST_NOT_READY ∧ e.cid = cCid d ∧ e.ring = n ∧ e.interim = false) := by
  refine ⟨_, descriptorStart_eq aw hn fetched fence, ?_⟩
  have refused := hostRefuses_notReady (n := n) ((takeDesc_fld s n rest _).trans ready) o
  have ring := takeDesc_ring s n rest
  have only := takeDesc_only s n rest
  obtain ⟨rings, hif⟩ := takeDesc_hif s n rest
  generalize s.takeDesc n rest = r at *
  obtain ⟨e, posted, status, cid, ringOf, interim⟩ := refuseDesc_eq r hn d Status.HOST_NOT_READY
  unfold State.startTaken
  simp only [refused]
  rw [if_pos (by decide), posted]
  refine ⟨(congrArg Ring.fetched (State.ring_congr rfl n)).trans ring, by simp only [hif], by simp only [hif],
    only.trans (.of_eq rfl rfl rfl rfl), e, ?_, status, cid, ringOf, interim⟩
  simp only [hif]

/-! ### A descriptor that starts -/

/-- What the start of descriptor `d` leaves. -/
def Accepted (n : Nat) (d : BitVec 512) (rest : List (BitVec 512)) (s s' : State) : Prop :=
  (s'.ring n).fetched = rest ∧ s'.hif.started = s.hif.started ++ [⟨n, d, false⟩] ∧ OnlyRing n s s'
  ∧ (longOpc (cOpc d) = true → ∃ o, s'.hif.ops = s.hif.ops ++ [o] ∧ o.tag = cTag d ∧ o.desc = d ∧ o.state = 0)

theorem Accepted.accept {n : Nat} {d : BitVec 512} {rest : List (BitVec 512)} {s r : State} (ring : (r.ring n).fetched = rest)
    (only : OnlyRing n s r) (hif : ∃ rings, r.hif = { s.hif with rings := rings }) :
    Accepted n d rest s (r.accept n d false) := by
  obtain ⟨rings, hif⟩ := hif
  refine ⟨(congrArg Ring.fetched (State.ring_congr rfl n)).trans ring, ?_, only.trans (.of_eq rfl rfl rfl rfl), fun long => ?_⟩
  · simp only [State.accept, hif]
  · refine ⟨{ tag := cTag d, ring := n, desc := d, state := 0 }, ?_, rfl, rfl, rfl⟩
    simp only [State.accept, long, if_true, Bool.false_eq_true, if_false, hif]

/-- One that runs on this module is checked and starts here. -/
theorem startTaken_here {s : State} {n : Nat} {d : BitVec 512} (hn : n < 64) (ok : Startable n d s)
    (here : cVia d = false ∨ cModule d = s.self.toNat) : s.startTaken n d = s.startHere n d := by
  unfold State.startTaken
  simp only [hostRefuses_startable hn ok, ne_eq, not_true_eq_false, if_false]
  rw [if_neg]
  rcases here with v | m
  · simp [v]
  · simp [m]

theorem descriptorStart_starts {s : State} {n : Nat} {d : BitVec 512} {rest : List (BitVec 512)} (aw : s.awake = true)
    (hn : n < 64)
    (fetched : (s.ring n).fetched = d :: rest) (fence : cFence d = false) (ok : Startable n d s)
    (here : cVia d = false ∨ cModule d = s.self.toNat) (sched : cSched d = false) :
    Gives (exec (.descriptorStart n) s) (fun s' => Accepted n d rest s s' ∧ s'.bcn = s.bcn) := by
  refine ⟨_, descriptorStart_eq aw hn fetched fence, ?_⟩
  rw [startTaken_here hn (takeDesc_startable rest ok) (by rwa [takeDesc_self])]
  unfold State.startHere
  rw [if_pos (by simp [sched])]
  exact ⟨.accept (takeDesc_ring ..) (takeDesc_only ..) (takeDesc_hif ..), rfl⟩

/-- A scheduled one also enters the event schedule. -/
theorem descriptorStart_schedules {s : State} {n : Nat} {d : BitVec 512} {rest : List (BitVec 512)} (aw : s.awake = true)
    (hn : n < 64)
    (fetched : (s.ring n).fetched = d :: rest) (fence : cFence d = false) (ok : Startable n d s)
    (here : cVia d = false ∨ cModule d = s.self.toNat) (sched : cSched d = true) (beacon : s.fld BCN.STATE ≠ 5)
    (room : s.pendingEvents < 256) (later : 0 < ahead (cBcn d) s.count) (near : ahead (cBcn d) s.count ≤ 2 ^ 31) :
    Gives (exec (.descriptorStart n) s) (fun s' => Accepted n d rest s s'
      ∧ s'.bcn.schedule = s.bcn.schedule ++ [⟨cBcn d, n, d⟩]) := by
  refine ⟨_, descriptorStart_eq aw hn fetched fence, ?_⟩
  rw [startTaken_here hn (takeDesc_startable rest ok) (by rwa [takeDesc_self])]
  have count : (s.takeDesc n rest).count = s.count := rfl
  have pending : (s.takeDesc n rest).pendingEvents = s.pendingEvents := rfl
  unfold State.startHere
  rw [count, pending, takeDesc_fld, if_neg (by simp [sched]), if_neg beacon,
    if_neg (by simp only [tooFar, decide_eq_true_eq]; omega),
    if_neg (by omega), if_neg (by omega)]
  obtain ⟨ring, started, only, ops⟩ : Accepted n d rest s ((s.takeDesc n rest).accept n d false) :=
    .accept (takeDesc_ring ..) (takeDesc_only ..) (takeDesc_hif ..)
  exact ⟨⟨(congrArg Ring.fetched (State.ring_congr rfl n)).trans ring, started, only.trans (.of_eq rfl rfl rfl rfl), ops⟩, rfl⟩

/-- One for another module that is reachable joins the relay queue. -/
theorem descriptorStart_relays {s : State} {n : Nat} {d : BitVec 512} {rest : List (BitVec 512)} (aw : s.awake = true)
    (hn : n < 64)
    (fetched : (s.ring n).fetched = d :: rest) (fence : cFence d = false) (ok : Startable n d s) (via : cVia d = true)
    (away : cModule d ≠ s.self.toNat) (entry : ∃ j, 0 < j ∧ j < 64 ∧ s.fld (HIF.RVALID j) = 1
      ∧ s.fld (HIF.RMODULE j) = cModule d
      ∧ s.fld (HIF.REACHABLE j) = 1 ∧ ∀ i, 0 < i → i < j → ¬ (s.fld (HIF.RVALID i) = 1 ∧ s.fld (HIF.RMODULE i) = cModule d)) :
    Gives (exec (.descriptorStart n) s) (fun s' => (s'.ring n).fetched = rest
      ∧ s'.hif.relayQueue = s.hif.relayQueue ++ [(n, d)] ∧ s'.hif.started = s.hif.started ∧ OnlyRing n s s') := by
  obtain ⟨j, j0, hj, valid, named, reach, first⟩ := entry
  refine ⟨_, descriptorStart_eq aw hn fetched fence, ?_⟩
  have refused := hostRefuses_startable hn (takeDesc_startable rest ok)
  have ring := takeDesc_ring s n rest
  have only := takeDesc_only s n rest
  have self := takeDesc_self s n rest
  have fld := takeDesc_fld s n rest
  obtain ⟨rings, hif⟩ := takeDesc_hif s n rest
  generalize s.takeDesc n rest = r at *
  have found : r.relayEntry (cModule d) = some j := by
    unfold State.relayEntry
    rw [self, if_neg away, List.find?_range_eq_some]
    refine ⟨by simp [fld, valid, named, j0.ne'], List.mem_range.2 hj, fun i hi => ?_⟩
    by_cases i0 : i = 0
    · simp [i0]
    · have := first i (by omega) hi
      rw [Bool.not_eq_true', Bool.eq_false_iff]
      simpa [fld, i0] using this
  unfold State.startTaken
  simp only [refused, ne_eq, not_true_eq_false, if_false, via, self, away, not_false_eq_true, decide_true, Bool.and_self, if_true,
    found, fld, reach, Nat.one_ne_zero]
  refine ⟨(congrArg Ring.fetched (State.ring_congr rfl n)).trans ring, ?_, by simp only [hif],
    only.trans (.of_eq rfl rfl rfl rfl)⟩
  simp only [hif]

end Sys2Proof.Machine
end

section
/-! LEMMAS. Completion entries, interrupts and errors of the host's memory (R398, R401, R403, R404). -/
namespace Sys2Proof.Machine

/-! ### Bytes of a number -/

@[simp] theorem length_bytesOf (n k : Nat) : (bytesOf n k).length = k := by
  induction k generalizing n with
  | zero => rfl
  | succ k ih => rw [bytesOf, List.length_cons, ih]

theorem ofBytes_bytesOf (n k : Nat) : ofBytes (bytesOf n k) = n % 256 ^ k := by
  induction k generalizing n with
  | zero => rw [bytesOf, ofBytes, Nat.pow_zero, Nat.mod_one]
  | succ k ih =>
    have : n % 256 ^ (k + 1) = n % 256 + 256 * (n / 256 % 256 ^ k) := by rw [Nat.pow_succ', Nat.mod_mul]
    rw [bytesOf, ofBytes, ih, this]
    rfl

theorem mem_hostRead {s s' : State} {a : Nat} {bs : List Byte} (h : s'.hif.mem = (s.hostWrite a bs).hif.mem)
    (w : Memory.wf s.hif.mem = true) : s'.hostRead a bs.length = bs := by
  rw [State.hostRead, h]
  exact s.hostRead_hostWrite a bs w

theorem mem_outside {s s' : State} {a : Nat} {bs : List Byte} (h : s'.hif.mem = (s.hostWrite a bs).hif.mem) {y : Nat}
    (out : y < a ∨ a + bs.length ≤ y) : Map.get 0 s'.hif.mem y = Map.get 0 s.hif.mem y := by
  rw [h]
  exact get_writeRun_other 0 _ a bs out

theorem mod_ofBool (b : Bool) : ofBool b % 2 ^ 1 = ofBool b := by cases b <;> rfl

/-! ### An entry -/

/-- Fields are put into a word in order. -/
theorem foldl_putBits_cons (v l n w : Nat) (fs : List (Nat × Nat × Nat)) :
    ((v, l, n) :: fs).foldl (fun w f => putBits w f.2.1 f.2.2 f.1) w
      = fs.foldl (fun w f => putBits w f.2.1 f.2.2 f.1) (putBits w l n v) := by
  rw [List.foldl_cons]

theorem foldl_putBits_nil (w : Nat) :
    ([] : List (Nat × Nat × Nat)).foldl (fun w f => putBits w f.2.1 f.2.2 f.1) w = w := by
  rw [List.foldl_nil]

/-- The fields of an entry (R401). -/
def State.entryWord (s : State) (e : Entry) (phase : Nat) : Nat :=
  [(e.cid.toNat, 0, 16), (e.status.toNat, 16, 16), (s.fld (HIF.SQ_HEAD e.ring), 32, 16), (e.ring, 48, 6),
    (ofBool e.event, 54, 1), (ofBool e.interim, 55, 1), (phase, 63, 1), (e.tag.toNat, 64, 64), (e.result.toNat, 128, 64),
    (e.module.toNat, 192, 14), (e.bcn.toNat, 208, 32)].foldl (fun w f => putBits w f.2.1 f.2.2 f.1) 0

theorem entryWord_lt (s : State) (e : Entry) (phase : Nat) {k : Nat} (hk : 256 ≤ k) : s.entryWord e phase < 2 ^ k := by
  have put (l w v : Nat) {x : Nat} (hl : l + w ≤ 256) (hx : x < 2 ^ k) : putBits x l w v < 2 ^ k := putBits_lt hx (hl.trans hk)
  unfold State.entryWord
  simp only [foldl_putBits_cons, foldl_putBits_nil]
  refine put _ _ _ (by omega) (put _ _ _ (by omega) (put _ _ _ (by omega) (put _ _ _ (by omega) (put _ _ _ (by omega)
    (put _ _ _ (by omega) (put _ _ _ (by omega) (put _ _ _ (by omega) (put _ _ _ (by omega) (put _ _ _ (by omega)
    (put _ _ _ (by omega) ?_))))))))))
  exact Nat.two_pow_pos k

/-- The layout of R401 read back. -/
def EntryLayout (s : State) (e : Entry) (phase x : Nat) : Prop :=
  bits x 0 16 = e.cid.toNat ∧ bits x 16 16 = e.status.toNat ∧ bits x 32 16 = s.fld (HIF.SQ_HEAD e.ring)
    ∧ bits x 48 6 = e.ring % 64
  ∧ bits x 54 1 = ofBool e.event ∧ bits x 55 1 = ofBool e.interim ∧ bits x 63 1 = phase ∧ bits x 64 64 = e.tag.toNat
  ∧ bits x 128 64 = e.result.toNat ∧ bits x 192 14 = e.module.toNat ∧ bits x 208 32 = e.bcn.toNat

theorem entryWord_layout (s : State) (e : Entry) {phase : Nat} (h : phase < 2) :
    EntryLayout s e phase (s.entryWord e phase) := by
  have head : s.fld (HIF.SQ_HEAD e.ring) < 2 ^ 16 := s.fld_lt (HIF.SQ_HEAD e.ring)
  have nat {w : Nat} (v : BitVec w) : v.toNat % 2 ^ w = v.toNat := Nat.mod_eq_of_lt v.isLt
  unfold EntryLayout State.entryWord
  simp (disch := omega) only [foldl_putBits_cons, foldl_putBits_nil, bits_putBits_same, bits_putBits_other, nat, mod_ofBool,
    Nat.mod_eq_of_lt head, Nat.mod_eq_of_lt (show phase < 2 ^ 1 from h), true_and, and_true]
  rfl

/-! ### COMPLETION_WRITE -/

/-- The ring whose completion ring takes an entry. -/
def Entry.target (e : Entry) : Nat := if e.zero then 0 else e.ring

/-- The registers of ring `n` after an entry. -/
def State.entryRegs (s : State) (n : Nat) : State :=
  let next := (s.fld (HIF.CQ_TAIL n) + 1) % s.cqSize n
  let s := s.setFld (HIF.CQ_TAIL n) next
  if next = 0 then s.setFld (HIF.CQ_PHASE n) (1 - s.fld (HIF.CQ_PHASE n)) else s

theorem entryRegs_fields (s : State) {n : Nat} (hn : n < 64) (cq : s.fld (HIF.CQ_LOG2 n) ≤ 16) :
    (s.entryRegs n).fld (HIF.CQ_TAIL n) = (s.fld (HIF.CQ_TAIL n) + 1) % s.cqSize n
    ∧ (s.entryRegs n).fld (HIF.CQ_PHASE n) = if (s.fld (HIF.CQ_TAIL n) + 1) % s.cqSize n = 0 then 1 - s.fld (HIF.CQ_PHASE n)
      else s.fld (HIF.CQ_PHASE n) := by
  have hr := ring_bounds hn
  have size : s.cqSize n ≤ 2 ^ 16 := Nat.pow_le_pow_right (by omega) cq
  have next : (s.fld (HIF.CQ_TAIL n) + 1) % s.cqSize n < 2 ^ 16 := (Nat.mod_lt _ (Nat.two_pow_pos _)).trans_le size
  have phase : (1 - s.fld (HIF.CQ_PHASE n)) % 2 ^ 1 = 1 - s.fld (HIF.CQ_PHASE n) := Nat.mod_eq_of_lt (by omega)
  unfold State.entryRegs
  generalize (s.fld (HIF.CQ_TAIL n) + 1) % s.cqSize n = x at *
  simp only []
  split
  · simp only [HIF.CQ_PHASE, HIF.CQ_TAIL] at *
    simp (disch := omega) only [State.fld_setFld_at, State.fld_setFld_apart, Nat.mod_eq_of_lt next, phase, and_self]
  · simp only [HIF.CQ_PHASE, HIF.CQ_TAIL] at *
    simp (disch := omega) only [State.fld_setFld_at, State.fld_setFld_apart, Nat.mod_eq_of_lt next, and_self]

theorem entryRegs_hif (s : State) (n : Nat) : (s.entryRegs n).hif = s.hif := by
  unfold State.entryRegs
  simp only []
  split
  · rw [State.setFld_hif, State.setFld_hif]
  · rw [State.setFld_hif]

theorem entryRegs_only (s : State) (n : Nat) : OnlyRing n s (s.entryRegs n) := by
  unfold State.entryRegs
  simp only []
  split
  · exact (OnlyRing.setFld ..).trans (.setFld ..)
  · exact .setFld ..

/-- The place of the next entry of ring `n`. -/
def State.entryAddr (s : State) (n : Nat) : Nat := s.fld (HIF.CQ_BASE n) * 4096 + 32 * s.fld (HIF.CQ_TAIL n)

theorem writeEntry_eq (s : State) (e : Entry) : s.writeEntry e =
    let r := (s.hostWrite (s.entryAddr e.target) (bytesOf (s.entryWord e (s.fld (HIF.CQ_PHASE e.target))) 32)).entryRegs e.target
    r.setRing e.target { r.ring e.target with coal := (r.ring e.target).coal + 1 } := rfl

/-- The state without its oldest entry. -/
def State.popEntry (s : State) (rest : List Entry) : State := { s with hif := { s.hif with backlog := rest } }

theorem popEntry_fld (s : State) (rest : List Entry) (f : Fld) : (s.popEntry rest).fld f = s.fld f := State.fld_congr rfl f
theorem popEntry_mem (s : State) (rest : List Entry) : (s.popEntry rest).hif.mem = s.hif.mem := rfl
theorem popEntry_backlog (s : State) (rest : List Entry) : (s.popEntry rest).hif.backlog = rest := rfl
theorem popEntry_only (n : Nat) (s : State) (rest : List Entry) : OnlyRing n s (s.popEntry rest) := .of_eq rfl rfl rfl rfl

theorem completionWrite_eq {s : State} {e : Entry} {rest : List Entry} (aw : s.awake = true)
    (backlog : s.hif.backlog = e :: rest) (fits : s.entryFits e = true) :
    exec .completionWrite s = .next ((s.popEntry rest).writeEntry e) := by
  change execCompletionWrite s = _
  unfold execCompletionWrite
  simp only [aw, Bool.not_true, Bool.false_eq_true, if_false, backlog, takeFirst, fits, if_true]
  rfl

/-- What the writing of entry `e` to completion ring `n` leaves. -/
def EntryWritten (n : Nat) (e : Entry) (s s' : State) : Prop :=
  EntryLayout s e (s.fld (HIF.CQ_PHASE n)) (ofBytes (s'.hostRead (s.entryAddr n) 32))
  ∧ (∀ y, y < s.entryAddr n ∨ s.entryAddr n + 32 ≤ y → Map.get 0 s'.hif.mem y = Map.get 0 s.hif.mem y)
  ∧ s'.fld (HIF.CQ_TAIL n) = (s.fld (HIF.CQ_TAIL n) + 1) % s.cqSize n ∧ s'.hif.backlog = s.hif.backlog ∧ OnlyRing n s s'
  ∧ s'.fld (HIF.CQ_PHASE n) = if (s.fld (HIF.CQ_TAIL n) + 1) % s.cqSize n = 0 then 1 - s.fld (HIF.CQ_PHASE n)
    else s.fld (HIF.CQ_PHASE n)

theorem hostWrite_fld (s : State) (a : Nat) (bs : List Byte) (f : Fld) :
    (s.hostWrite a bs).fld f = s.fld f :=
  State.fld_congr rfl f

theorem hostWrite_only (n : Nat) (s : State) (a : Nat) (bs : List Byte) :
    OnlyRing n s (s.hostWrite a bs) := .of_eq rfl rfl rfl rfl

theorem setRing_mem (s : State) (n : Nat) (r : Ring) : (s.setRing n r).hif.mem = s.hif.mem := rfl
theorem setRing_backlog (s : State) (n : Nat) (r : Ring) : (s.setRing n r).hif.backlog = s.hif.backlog := rfl
theorem hostWrite_backlog (s : State) (a : Nat) (bs : List Byte) : (s.hostWrite a bs).hif.backlog = s.hif.backlog := rfl

theorem writeEntry_written {s : State} {n : Nat} {e : Entry} (hn : n < 64) (target : e.target = n)
    (cq : s.fld (HIF.CQ_LOG2 n) ≤ 16) (w : Memory.wf s.hif.mem = true) : EntryWritten n e s (s.writeEntry e) := by
  rw [writeEntry_eq, target]
  generalize hb : bytesOf (s.entryWord e (s.fld (HIF.CQ_PHASE n))) 32 = bytes
  have len : bytes.length = 32 := by rw [← hb, length_bytesOf]
  have word : ofBytes bytes = s.entryWord e (s.fld (HIF.CQ_PHASE n)) := by
    rw [← hb, ofBytes_bytesOf]
    apply Nat.mod_eq_of_lt
    exact entryWord_lt s e _ (k := 8 * 32) (by omega)
  have fld := hostWrite_fld s (s.entryAddr n) bytes
  have only := hostWrite_only n s (s.entryAddr n) bytes
  have backlog := hostWrite_backlog s (s.entryAddr n) bytes
  generalize hr : s.hostWrite (s.entryAddr n) bytes = r at *
  have size : r.cqSize n = s.cqSize n := by simp only [State.cqSize, fld]
  obtain ⟨tail, phase⟩ := entryRegs_fields r hn (by rwa [fld])
  have hif := entryRegs_hif r n
  have only' := entryRegs_only r n
  generalize r.entryRegs n = q at *
  have mem : (q.setRing n { q.ring n with coal := (q.ring n).coal + 1 }).hif.mem = (s.hostWrite (s.entryAddr n) bytes).hif.mem := by
    rw [setRing_mem, hif, hr]
  refine ⟨?_, fun y out => mem_outside mem (by rwa [len]), ?_, ?_, only.trans (only'.trans (.setRing ..)), ?_⟩
  · rw [← len, mem_hostRead mem w, word]
    exact entryWord_layout s e (s.fld_lt (HIF.CQ_PHASE n))
  · rw [State.fld_setRing, tail, fld, size]
  · rw [setRing_backlog, hif, backlog]
  · rw [State.fld_setRing, phase, fld, fld, size]

/-- The oldest entry is written in the layout of R401 at the tail of its completion ring, which moves on. -/
theorem completionWrite_writes {s : State} {n : Nat} {e : Entry} {rest : List Entry} (aw : s.awake = true) (hn : n < 64)
    (backlog : s.hif.backlog = e :: rest) (held : e.held = false) (target : e.target = n) (on : s.fld (HIF.ENABLE n) = 1)
    (running : s.fld (HIF.RSTATE n) = 1) (cq : s.fld (HIF.CQ_LOG2 n) ≤ 16)
    (room : (s.fld (HIF.CQ_TAIL n) + 1) % s.cqSize n ≠ (s.ring n).head) (w : Memory.wf s.hif.mem = true) :
    Gives (exec .completionWrite s) (fun s' => EntryLayout s e (s.fld (HIF.CQ_PHASE n)) (ofBytes (s'.hostRead (s.entryAddr n) 32))
      ∧ (∀ y, y < s.entryAddr n ∨ s.entryAddr n + 32 ≤ y → Map.get 0 s'.hif.mem y = Map.get 0 s.hif.mem y)
      ∧ s'.fld (HIF.CQ_TAIL n) = (s.fld (HIF.CQ_TAIL n) + 1) % s.cqSize n ∧ s'.hif.backlog = rest ∧ OnlyRing n s s'
      ∧ s'.fld (HIF.CQ_PHASE n) = if (s.fld (HIF.CQ_TAIL n) + 1) % s.cqSize n = 0 then 1 - s.fld (HIF.CQ_PHASE n)
        else s.fld (HIF.CQ_PHASE n)) := by
  have fits : s.entryFits e = true := by
    unfold State.entryFits
    rw [show (if e.zero then 0 else e.ring) = n from target]
    simp [held, on, running, room]
  obtain ⟨layout, outside, tail, popped, only, phase⟩ :=
    writeEntry_written (s := s.popEntry rest) hn target (by rwa [popEntry_fld]) (by rwa [popEntry_mem])
  refine ⟨_, completionWrite_eq aw backlog fits, ?_⟩
  have addr : (s.popEntry rest).entryAddr n = s.entryAddr n := by simp only [State.entryAddr, popEntry_fld]
  simp only [addr, popEntry_fld, popEntry_mem, popEntry_backlog, State.cqSize, EntryLayout] at *
  exact ⟨layout, outside, tail, popped, (popEntry_only n s rest).trans only, phase⟩

/-! ### MSIX_INTERRUPT -/

/-- An interrupt of ring `n` is due. -/
def InterruptDue (n : Nat) (s : State) : Prop :=
  (s.ring n).coal ≠ 0 ∧ s.fld (HIF.COAL_N n) ≠ 0 ∧ (s.fld (HIF.COAL_N n) ≤ (s.ring n).coal ∨ s.fld (HIF.COAL_US n) ≠ 0)

/-- The state with the count of ring `n`'s entries since the last interrupt at 0. -/
def State.countAfresh (s : State) (n : Nat) : State := s.setRing n { s.ring n with coal := 0 }

theorem msixInterrupt_eq {s : State} {n : Nat} (aw : s.awake = true) (hn : n < 64) (due : InterruptDue n s) :
    exec (.msixInterrupt n) s = .next ((s.countAfresh n).fireVector (s.fld (HIF.VECTOR n))) := by
  obtain ⟨some_, counted, enough⟩ := due
  change execMsixInterrupt n s = _
  unfold execMsixInterrupt
  simp only [aw, Bool.not_true, Bool.false_eq_true, if_false, Nat.not_le.2 hn]
  rw [if_neg (by omega)]
  rfl

theorem countAfresh_ring (s : State) (n : Nat) : (s.countAfresh n).ring n = { s.ring n with coal := 0 } := by
  rw [State.countAfresh, State.ring_setRing_same]

theorem vector_lt (s : State) (n : Nat) : s.fld (HIF.VECTOR n) < 64 := s.fld_lt (HIF.VECTOR n)

theorem setFld_mem (s : State) (f : Fld) (v : Nat) : (s.setFld f v).hif.mem = s.hif.mem := by rw [State.setFld_hif]

theorem fld_setPba (s : State) {x : Nat} (hx : x < 64) (v : Nat) : (s.setFld (HIF.PBA x) v).fld (HIF.PBA x) = v % 2 :=
  s.fld_setFld_at 0x3800 x 1 v (by omega)

/-- Under its mask a vector stays pending. -/
theorem msixInterrupt_masked {s : State} {n : Nat} (aw : s.awake = true) (hn : n < 64) (due : InterruptDue n s)
    (mask : s.fld (HIF.MSIX_MASK (s.fld (HIF.VECTOR n))) = 1) :
    Gives (exec (.msixInterrupt n) s) (fun s' => s'.fld (HIF.PBA (s.fld (HIF.VECTOR n))) = 1 ∧ s'.hif.mem = s.hif.mem
      ∧ s'.ring n = { s.ring n with coal := 0 } ∧ OnlyRing n s s') := by
  refine ⟨_, msixInterrupt_eq aw hn due, ?_⟩
  have hx := vector_lt s n
  have only : OnlyRing n s (s.countAfresh n) := .setRing n s _
  have ring := countAfresh_ring s n
  have fld (f : Fld) : (s.countAfresh n).fld f = s.fld f := s.fld_setRing n _ f
  have mem : (s.countAfresh n).hif.mem = s.hif.mem := rfl
  generalize s.countAfresh n = r at *
  generalize s.fld (HIF.VECTOR n) = x at *
  unfold State.fireVector
  rw [if_pos ((fld _).trans mask)]
  exact ⟨fld_setPba r hx 1, (setFld_mem ..).trans mem, (r.ring_setFld ..).trans ring, only.trans (.setFld ..)⟩

/-- A vector fires: its data are written at its address. -/
theorem msixInterrupt_fires {s : State} {n : Nat} (aw : s.awake = true) (hn : n < 64) (due : InterruptDue n s)
    (mask : s.fld (HIF.MSIX_MASK (s.fld (HIF.VECTOR n))) = 0) (w : Memory.wf s.hif.mem = true) :
    Gives (exec (.msixInterrupt n) s) (fun s' => s'.fld (HIF.PBA (s.fld (HIF.VECTOR n))) = 0
      ∧ s'.hostRead (s.fld (HIF.MSIX_ADDR (s.fld (HIF.VECTOR n)))) 4 = bytesOf (s.fld (HIF.MSIX_DATA (s.fld (HIF.VECTOR n)))) 4
      ∧ (∀ y, y < s.fld (HIF.MSIX_ADDR (s.fld (HIF.VECTOR n))) ∨ s.fld (HIF.MSIX_ADDR (s.fld (HIF.VECTOR n))) + 4 ≤ y →
          Map.get 0 s'.hif.mem y = Map.get 0 s.hif.mem y)
      ∧ s'.ring n = { s.ring n with coal := 0 } ∧ OnlyRing n s s') := by
  refine ⟨_, msixInterrupt_eq aw hn due, ?_⟩
  have hx := vector_lt s n
  have only : OnlyRing n s (s.countAfresh n) := .setRing n s _
  have ring := countAfresh_ring s n
  have fld (f : Fld) : (s.countAfresh n).fld f = s.fld f := s.fld_setRing n _ f
  have mem : (s.countAfresh n).hif.mem = s.hif.mem := rfl
  generalize s.countAfresh n = r at *
  generalize s.fld (HIF.VECTOR n) = x at *
  have written (bs : List Byte) : ((r.hostWrite (s.fld (HIF.MSIX_ADDR x)) bs).setFld (HIF.PBA x) 0).hif.mem
      = (s.hostWrite (s.fld (HIF.MSIX_ADDR x)) bs).hif.mem := by
    rw [setFld_mem]
    simp only [State.hostWrite, mem]
  unfold State.fireVector
  rw [if_neg (by rw [fld, mask]; omega), fld, fld]
  generalize hb : bytesOf (s.fld (HIF.MSIX_DATA x)) 4 = bs
  have len : bs.length = 4 := by rw [← hb, length_bytesOf]
  refine ⟨fld_setPba _ hx 0, ?_, fun y out => mem_outside (written bs) (by rwa [len]), ?_,
    only.trans ((hostWrite_only ..).trans (.setFld ..))⟩
  · rw [← len]
    exact mem_hostRead (written bs) w
  · rw [State.ring_setFld, ← ring]
    exact State.ring_congr rfl n

/-! ### HOST_MEMORY_ERROR -/

/-- The registers of a ring that a memory error stops. -/
def State.errorRegs (s : State) (n : Nat) : State :=
  (((s.setFld (HIF.RSTATE n) 2).setFld HIF.RING_STOPPED 1).setFld HIF.HOST_DMA 1).setFld HIF.LAST_RING n

theorem errorRegs_fields (s : State) {n : Nat} (hn : n < 64) :
    (s.errorRegs n).fld (HIF.RSTATE n) = 2 ∧ (s.errorRegs n).fld HIF.RING_STOPPED = 1 ∧ (s.errorRegs n).fld HIF.HOST_DMA = 1
    ∧ (s.errorRegs n).fld HIF.LAST_RING = n ∧ (s.errorRegs n).fld HIF.EV_ENABLE = s.fld HIF.EV_ENABLE := by
  have hr := ring_bounds hn
  simp (disch := omega) only [State.errorRegs, HIF.RSTATE, HIF.RING_STOPPED, HIF.HOST_DMA, HIF.LAST_RING, HIF.EV_ENABLE,
    State.fld_setFld_at, State.fld_setFld_apart, and_true]
  exact ⟨rfl, rfl, rfl, Nat.mod_eq_of_lt hn⟩

theorem errorRegs_rstate (s : State) {n j : Nat} (hn : n < 64) (hj : j < 64) (h : j ≠ n) :
    (s.errorRegs n).fld (HIF.RSTATE j) = s.fld (HIF.RSTATE j) := by
  have hr := ring_bounds hn
  have hr' := ring_bounds hj
  have apart : HIF.ring j ≠ HIF.ring n := by unfold HIF.ring; omega
  simp (disch := omega) only [State.errorRegs, HIF.RSTATE, HIF.RING_STOPPED, HIF.HOST_DMA, HIF.LAST_RING,
    State.fld_setFld_apart]

theorem errorRegs_hif (s : State) (n : Nat) : (s.errorRegs n).hif = s.hif := by
  rw [State.errorRegs, State.setFld_hif, State.setFld_hif, State.setFld_hif, State.setFld_hif]

theorem errorRegs_only (s : State) (n : Nat) : OnlyRing n s (s.errorRegs n) :=
  (OnlyRing.setFld ..).trans ((OnlyRing.setFld ..).trans ((OnlyRing.setFld ..).trans (.setFld ..)))

theorem Posted.mem {s s' : State} (h : Posted s s') : s'.hif.mem = s.hif.mem := by
  obtain ⟨b, hif⟩ := h.hif
  rw [hif]

theorem hostMemoryError_stops {s : State} {n : Nat} (aw : s.awake = true) (hn : n < 64) (running : s.fld (HIF.RSTATE n) = 1)
    (ev : s.fld HIF.EV_ENABLE = 1) :
    Gives (exec (.hostMemoryError n) s) (fun s' => s'.fld (HIF.RSTATE n) = 2 ∧ s'.fld HIF.RING_STOPPED = 1
      ∧ s'.fld HIF.HOST_DMA = 1 ∧ s'.fld HIF.LAST_RING = n
      ∧ (∀ j, j < 64 → j ≠ n → s'.fld (HIF.RSTATE j) = s.fld (HIF.RSTATE j))
      ∧ (∃ b e, s'.hif.backlog = b ++ [e] ∧ e.status = Status.HOST_DMA_ERROR ∧ e.event = true)
      ∧ s'.hif.mem = s.hif.mem ∧ OnlyRing n s s') := by
  have hr := ring_bounds hn
  refine ⟨(s.errorRegs n).event 2 0 0 Status.HOST_DMA_ERROR n, ?_, ?_⟩
  · change execHostMemoryError n s = _
    unfold execHostMemoryError
    simp only [aw, Bool.not_true, Bool.false_eq_true, if_false, Nat.not_le.2 hn, running, ne_eq, not_true_eq_false]
    rfl
  have posted := Posted.event (s.errorRegs n) 2 0 0 Status.HOST_DMA_ERROR n
  obtain ⟨rstate, stopped, dma, last, enable⟩ := errorRegs_fields s hn
  have others (j : Nat) (hj : j < 64) (h : j ≠ n) := errorRegs_rstate s hn hj h
  have hif := errorRegs_hif s n
  have only := errorRegs_only s n
  have entry := State.event_backlog (s.errorRegs n) 2 0 0 Status.HOST_DMA_ERROR n (enable.trans ev)
  generalize s.errorRegs n = r at *
  refine ⟨(posted.fld _ 33 2 (by omega) (by omega)).trans rstate, (posted.fld 0x20 2 1 (by omega) (by omega)).trans stopped,
    (posted.fld 0x20 3 1 (by omega) (by omega)).trans dma, (posted.fld 0x20 16 6 (by omega) (by omega)).trans last,
    fun j hj h => ?_, entry, by rw [posted.mem, hif], only.trans (posted.only n)⟩
  have hr' := ring_bounds hj
  exact (posted.fld _ 33 2 (by omega) (by omega)).trans (others j hj h)

end Sys2Proof.Machine
end

section
/-! LEMMAS. Relayed descriptors and their entries (R418, R420). -/
namespace Sys2Proof.Machine

/-! ### A packet through a port -/

@[simp] theorem State.port_setPort_same (s : State) (p : Nat) (q : Port) : (s.setPort p q).port p = q := Map.get_set_same ..

theorem bits_body (h : Hdr) : bits h.body 0 4 = h.type % 2 ^ 4 := by
  unfold Hdr.body
  simp (disch := omega) only [foldl_putBits_cons, foldl_putBits_nil, bits_putBits_other, bits_putBits_same]

/-- The type of a packet as its receiver reads it. -/
theorem decode_encode_type (h : Hdr) (ht : h.type < 16) : (Hdr.decode h.encode).type = h.type := by
  have low (b c k m : Nat) (hm : 4 ≤ m) (hk : 4 ≤ k) : bits (BitVec.ofNat m (b + c * 2 ^ k)).toNat 0 4 = bits b 0 4 := by
    simp only [bits, Nat.shiftRight_zero]
    rw [BitVec.toNat_ofNat, Nat.mod_mod_of_dvd _ (Nat.pow_dvd_pow 2 hm), ← Nat.sub_add_cancel hk, Nat.pow_add, ← Nat.mul_assoc,
      Nat.add_mul_mod_self_right]
  exact (low _ _ 352 384 (by omega) (by omega)).trans ((bits_body h).trans (Nat.mod_eq_of_lt ht))

/-- What a packet of TYPE 9 with payload `bs` leaves that port `p` takes. -/
structure Sent (p : Nat) (bs : List Byte) (s s' : State) : Prop where
  hif : s'.hif = s.hif
  tiles : s'.tiles = s.tiles
  hbm : s'.hbm = s.hbm
  tx : ∃ x, (s'.port p).tx = (s.port p).tx ++ [x] ∧ x.payload = bs ∧ (Hdr.decode x.header).type = 9

theorem Sent.of_setPort {p : Nat} {bs : List Byte} {s s' : State} {q : Port} (h : Sent p bs (s.setPort p q) s')
    (tx : q.tx = (s.port p).tx) : Sent p bs s s' := by
  obtain ⟨hif, tiles, hbm, sent⟩ := h
  rw [State.port_setPort_same, tx] at sent
  exact ⟨hif, tiles, hbm, sent⟩

theorem transmit_sent (s : State) (p : Nat) (h : Hdr) (bs : List Byte) (ht : h.type = 9) : Sent p bs s (s.transmit p h bs) := by
  have type : (s.subclass p h).type = 9 := ht
  refine ⟨rfl, rfl, rfl, ⟨(s.subclass p h).encode, bs⟩, ?_, rfl, ?_⟩
  · rw [State.transmit, State.port_setPort_same]
  · rw [decode_encode_type _ (by omega), type]

theorem relayTo_sent {s : State} {coord p : Nat} (bs : List Byte) (port : requestPort s.shape s.coord coord = some p)
    (open_ : s.portRefuses p = 0) (room : (s.port p).records.length < 4096) :
    ∃ s', s.relayTo coord bs = some s' ∧ Sent p bs s s' := by
  unfold State.relayTo
  simp only [port, open_, ne_eq, not_true_eq_false, if_false, Option.some.injEq, exists_eq_left']
  unfold State.forward
  simp only [State.port_setPort_same, Nat.not_le.2 room, if_false]
  exact .of_setPort (.of_setPort (transmit_sent _ p _ bs rfl) (by rw [State.port_setPort_same])) rfl

/-! ### RELAY_FORWARD -/

/-- The four queues of relayed descriptors and entries. -/
def relayQueues (s : State) : List (Nat × BitVec 512) × List (Nat × BitVec 512) × List (BitVec 24 × Nat × BitVec 512)
    × List (BitVec 24 × Entry) :=
  (s.hif.relayQueue, s.hif.relayed, s.hif.relayIn, s.hif.relayKeep)

/-- The three parts of RELAY_FORWARD. -/
def State.forwardNext (s : State) : State :=
  match s.hif.relayQueue with
  | [] => s
  | (ring, d) :: rest =>
    match s.relayTo (moduleCoord s.shape (cModule d)) (bytesOf d.toNat 64 ++ bytesOf ring 8) with
    | some s' => { s' with hif := { s'.hif with relayQueue := rest, relayed := s'.hif.relayed ++ [(ring, d)] } }
    | none => s

def State.takeNext (s : State) : State :=
  match s.hif.relayIn with
  | [] => s
  | (coord, ring, d) :: rest =>
    let p := s.pseudoRing coord ring
    let s := { p.2 with hif := { p.2.hif with relayIn := rest } }
    s.setRing p.1 { s.ring p.1 with fetched := (s.ring p.1).fetched ++ [d] }

def State.sendKept (s : State) : Result :=
  match s.hif.relayKeep, s.hif.relaySent with
  | (coord, e) :: _, none =>
    match s.relayTo coord.toNat (s.entryBytes e 0), requestPort s.shape s.coord coord.toNat with
    | some s', some p => .next { s' with hif := { s'.hif with relaySent := some (p, (s.port p).nextTag) } }
    | _, _ => .next s
  | _, _ => .next s

theorem relayForward_eq {s : State} (aw : s.awake = true) : exec .relayForward s = s.forwardNext.takeNext.sendKept := by
  change execRelayForward s = _
  unfold execRelayForward
  simp only [aw, Bool.not_true, Bool.false_eq_true, if_false]
  rfl

theorem forwardNext_nil {s : State} (h : s.hif.relayQueue = []) : s.forwardNext = s := by
  unfold State.forwardNext
  rw [h]

theorem takeNext_nil {s : State} (h : s.hif.relayIn = []) : s.takeNext = s := by
  unfold State.takeNext
  rw [h]

theorem sendKept_nil {s : State} (h : s.hif.relayKeep = []) : s.sendKept = .next s := by
  unfold State.sendKept
  rw [h]

/-- The next relayed descriptor leaves with its ring. -/
theorem relayForward_sends {s : State} {ring : Nat} {d : BitVec 512} {rest : List (Nat × BitVec 512)} {p : Nat}
    (aw : s.awake = true)
    (queue : s.hif.relayQueue = (ring, d) :: rest) (in_ : s.hif.relayIn = []) (keep : s.hif.relayKeep = [])
    (port : requestPort s.shape s.coord (moduleCoord s.shape (cModule d)) = some p) (open_ : s.portRefuses p = 0)
    (room : (s.port p).records.length < 4096) :
    Gives (exec .relayForward s) (fun s' => relayQueues s' = (rest, s.hif.relayed ++ [(ring, d)], [], []) ∧ s'.tiles = s.tiles
      ∧ s'.hbm = s.hbm ∧ ∃ x, (s'.port p).tx = (s.port p).tx ++ [x] ∧ x.payload = bytesOf d.toNat 64 ++ bytesOf ring 8
        ∧ (Hdr.decode x.header).type = 9) := by
  obtain ⟨r, sent, hif, tiles, hbm, tx⟩ := relayTo_sent (bytesOf d.toNat 64 ++ bytesOf ring 8) port open_ room
  have forward : s.forwardNext
      = { r with hif := { r.hif with relayQueue := rest, relayed := r.hif.relayed ++ [(ring, d)] } } := by
    unfold State.forwardNext
    rw [queue]
    simp only [sent]
  refine ⟨s.forwardNext, ?_, ?_, ?_, ?_, ?_⟩
  · rw [relayForward_eq aw, takeNext_nil (by rw [forward]; simp only [hif, in_]),
      sendKept_nil (by rw [forward]; simp only [hif, keep])]
  all_goals rw [forward]
  · simp only [relayQueues, hif, in_, keep]
  · exact tiles
  · exact hbm
  · exact tx

/-- The state without the oldest descriptor that came. -/
def State.popRelayed (s : State) (rest : List (BitVec 24 × Nat × BitVec 512)) : State :=
  { s with hif := { s.hif with relayIn := rest } }

/-- A relayed descriptor that came joins the ring of its gateway. -/
theorem relayForward_takes {s : State} {coord : BitVec 24} {ring j : Nat} {d : BitVec 512}
    {rest : List (BitVec 24 × Nat × BitVec 512)} (aw : s.awake = true) (queue : s.hif.relayQueue = [])
    (in_ : s.hif.relayIn = (coord, ring, d) :: rest) (keep : s.hif.relayKeep = [])
    (known : s.hif.gateways.find? (fun e => decide (e.2 = (coord, ring))) = some (j, coord, ring)) :
    Gives (exec .relayForward s) (fun s' => (s'.ring j).fetched = (s.ring j).fetched ++ [d]
      ∧ relayQueues s' = ([], s.hif.relayed, rest, []) ∧ s'.ports = s.ports) := by
  have pseudo : s.pseudoRing coord ring = (j, s) := by
    unfold State.pseudoRing
    rw [known]
  have take : s.takeNext = (s.popRelayed rest).setRing j
      { (s.popRelayed rest).ring j with fetched := ((s.popRelayed rest).ring j).fetched ++ [d] } := by
    unfold State.takeNext
    rw [in_]
    simp only [pseudo]
    rfl
  have same : (s.popRelayed rest).ring j = s.ring j := State.ring_congr rfl j
  refine ⟨s.takeNext, ?_, ?_, ?_, ?_⟩
  · rw [relayForward_eq aw, forwardNext_nil queue, sendKept_nil (by rw [take]; exact keep)]
  all_goals rw [take]
  · rw [State.ring_setRing_same, same]
  · change (s.hif.relayQueue, s.hif.relayed, rest, s.hif.relayKeep) = _
    rw [queue, keep]
  · rfl

/-- The entry that stands first among those kept is sent, and stays until its packet is acknowledged. -/
theorem relayForward_keeps {s : State} {coord : BitVec 24} {e : Entry} {rest : List (BitVec 24 × Entry)} {p : Nat}
    (aw : s.awake = true) (queue : s.hif.relayQueue = []) (in_ : s.hif.relayIn = [])
    (keep : s.hif.relayKeep = (coord, e) :: rest) (idle : s.hif.relaySent = none)
    (port : requestPort s.shape s.coord coord.toNat = some p) (open_ : s.portRefuses p = 0)
    (room : (s.port p).records.length < 4096) :
    Gives (exec .relayForward s) (fun s' => relayQueues s' = ([], s.hif.relayed, [], (coord, e) :: rest)
      ∧ s'.hif.relaySent = some (p, (s.port p).nextTag) ∧ s'.tiles = s.tiles
      ∧ ∃ x, (s'.port p).tx = (s.port p).tx ++ [x] ∧ x.payload.length = 32 ∧ (Hdr.decode x.header).type = 9) := by
  obtain ⟨r, sent, hif, tiles, -, x, tx, payload, type⟩ := relayTo_sent (s.entryBytes e 0) port open_ room
  refine ⟨{ r with hif := { r.hif with relaySent := some (p, (s.port p).nextTag) } }, ?_, ?_, rfl, tiles, x, tx, ?_, type⟩
  · rw [relayForward_eq aw, forwardNext_nil queue, takeNext_nil in_]
    unfold State.sendKept
    rw [keep, idle]
    simp only [sent, port]
  · simp only [relayQueues, hif, queue, in_, keep]
  · rw [payload]
    exact length_bytesOf ..

/-! ### RELAY_PATH_LOSS and RELAY_PATH_REGAIN -/

theorem reachable_fields (s : State) {k : Nat} (hk : k < 64) (v : Nat) :
    (s.setFld (HIF.REACHABLE k) v).fld (HIF.REACHABLE k) = v % 2
    ∧ (s.setFld (HIF.REACHABLE k) v).fld HIF.EV_ENABLE = s.fld HIF.EV_ENABLE := by
  have hb := relayOff_bounds hk
  exact ⟨s.fld_setFld_at (relayOff k) 22 1 v (by omega),
    s.fld_setFld_apart (relayOff k) 22 1 0x18 0 1 v (by omega) (by omega) (by omega) (by omega)⟩

/-- The interim entry of a live long command that the lost path carries. -/
def lostEntry (ring : Nat) (d : BitVec 512) (v : BitVec 64) : Entry :=
  { ring := ring, cid := cCid d, status := Status.RELAY_LOST, interim := true, tag := cTag d, result := v
    module := BitVec.ofNat 14 (cModule d) }

def State.loseRelayed (s : State) (e : Nat × BitVec 512) : State := (s.draw 64).2.post (lostEntry e.1 e.2 (s.draw 64).1)

/-- The path as it is lost, and the event of it. -/
def State.losePath (s : State) (k : Nat) : State := (s.setFld (HIF.REACHABLE k) 0).event 5 1 0 Status.RELAY_LOST 0

theorem relayPathLoss_eq {s : State} {k : Nat} (aw : s.awake = true) (h0 : k ≠ 0) (hk : k < 64)
    (valid : s.fld (HIF.RVALID k) = 1)
    (reach : s.fld (HIF.REACHABLE k) = 1) : exec (.relayPathLoss k) s
      = .next (((s.relayLive k).filter (fun e => longOpc (cOpc e.2))).foldl State.loseRelayed (s.losePath k)) := by
  change execRelayPathLoss k s = _
  unfold execRelayPathLoss
  simp only [aw, Bool.not_true, Bool.false_eq_true, if_false, Nat.not_le.2 hk, h0, valid, reach, Nat.one_ne_zero, or_self]
  rfl

theorem losePath_posted (s : State) (k : Nat) : Posted (s.setFld (HIF.REACHABLE k) 0) (s.losePath k) := .event ..

theorem losePath_reachable (s : State) {k : Nat} (hk : k < 64) : (s.losePath k).fld (HIF.REACHABLE k) = 0 := by
  have hb := relayOff_bounds hk
  exact ((losePath_posted s k).fld (relayOff k) 22 1 (by omega) (by omega)).trans (reachable_fields s hk 0).1

theorem Posted.relayed {s s' : State} (h : Posted s s') : s'.hif.relayed = s.hif.relayed := by
  obtain ⟨b, hif⟩ := h.hif
  rw [hif]

theorem losePath_relayed (s : State) (k : Nat) : (s.losePath k).hif.relayed = s.hif.relayed := by
  rw [(losePath_posted s k).relayed, State.setFld_hif]

theorem losePath_backlog (s : State) {k : Nat} (hk : k < 64) (ev : s.fld HIF.EV_ENABLE = 1) :
    ∃ b e, (s.losePath k).hif.backlog = b ++ [e] ∧ e.status = Status.RELAY_LOST ∧ e.event = true := by
  have on := (reachable_fields s hk 0).2.trans ev
  unfold State.losePath
  exact State.event_backlog _ 5 1 0 Status.RELAY_LOST 0 on

/-- Without a live command the loss of a path is an event. -/
theorem relayPathLoss_idle {s : State} {k : Nat} (aw : s.awake = true) (h0 : k ≠ 0) (hk : k < 64)
    (valid : s.fld (HIF.RVALID k) = 1)
    (reach : s.fld (HIF.REACHABLE k) = 1) (idle : s.relayLive k = []) (ev : s.fld HIF.EV_ENABLE = 1) :
    Gives (exec (.relayPathLoss k) s) (fun s' => s'.fld (HIF.REACHABLE k) = 0
      ∧ (∃ b e, s'.hif.backlog = b ++ [e] ∧ e.status = Status.RELAY_LOST ∧ e.event = true)
        ∧ s'.hif.relayed = s.hif.relayed) := by
  refine ⟨_, relayPathLoss_eq aw h0 hk valid reach, ?_⟩
  rw [idle, List.filter_nil, List.foldl_nil]
  exact ⟨losePath_reachable s hk, losePath_backlog s hk ev, losePath_relayed s k⟩

theorem loseRelayed_posted (s : State) (e : Nat × BitVec 512) : Posted s (s.loseRelayed e) :=
  (Posted.draw s 64).trans (.post ..)

/-- A live long command gets an interim entry. -/
theorem relayPathLoss_long {s : State} {k ring : Nat} {d : BitVec 512} (aw : s.awake = true) (h0 : k ≠ 0) (hk : k < 64)
    (valid : s.fld (HIF.RVALID k) = 1) (reach : s.fld (HIF.REACHABLE k) = 1) (live : s.relayLive k = [(ring, d)])
    (long : longOpc (cOpc d) = true) :
    Gives (exec (.relayPathLoss k) s) (fun s' => s'.fld (HIF.REACHABLE k) = 0 ∧ s'.hif.relayed = s.hif.relayed
      ∧ ∃ b e, s'.hif.backlog = b ++ [e] ∧ e.interim = true ∧ e.status = Status.RELAY_LOST ∧ e.tag = cTag d
        ∧ e.ring = ring) := by
  have hb := relayOff_bounds hk
  have filterLong : [(ring, d)].filter (fun e => longOpc (cOpc e.2)) = [(ring, d)] := by simp [long]
  refine ⟨(s.losePath k).loseRelayed (ring, d), ?_, ?_, ?_, ?_⟩
  · rw [relayPathLoss_eq aw h0 hk valid reach, live, filterLong, List.foldl_cons, List.foldl_nil]
  · exact ((loseRelayed_posted _ (ring, d)).fld (relayOff k) 22 1 (by omega) (by omega)).trans (losePath_reachable s hk)
  · rw [(loseRelayed_posted (s.losePath k) (ring, d)).relayed, losePath_relayed]
  · generalize s.losePath k = r
    obtain ⟨b, backlog⟩ := State.post_backlog (r.draw 64).2 (lostEntry ring d (r.draw 64).1)
    exact ⟨b, _, backlog, rfl, rfl, rfl, rfl⟩

/-- A path that is regained raises its event. -/
theorem relayPathRegain_raises {s : State} {k : Nat} (aw : s.awake = true) (h0 : k ≠ 0) (hk : k < 64)
    (valid : s.fld (HIF.RVALID k) = 1) (lost : s.fld (HIF.REACHABLE k) = 0) (ev : s.fld HIF.EV_ENABLE = 1) :
    Gives (exec (.relayPathRegain k) s) (fun s' => s'.fld (HIF.REACHABLE k) = 1
      ∧ (∃ b e, s'.hif.backlog = b ++ [e] ∧ e.status = 0 ∧ e.event = true) ∧ s'.hif.relayed = s.hif.relayed
        ∧ s'.tiles = s.tiles) := by
  have hb := relayOff_bounds hk
  obtain ⟨one, enable⟩ := reachable_fields s hk 1
  refine ⟨(s.setFld (HIF.REACHABLE k) 1).event 5 2 0 0 0, ?_, ?_, ?_, ?_, ?_⟩
  · change execRelayPathRegain k s = _
    unfold execRelayPathRegain
    simp only [aw, Bool.not_true, Bool.false_eq_true, if_false, Nat.not_le.2 hk, h0, valid, lost, Nat.one_ne_zero,
      Nat.zero_ne_one, or_self]
  · exact ((Posted.event ..).fld (relayOff k) 22 1 (by omega) (by omega)).trans one
  · exact State.event_backlog _ 5 2 0 0 0 (enable.trans ev)
  · rw [(Posted.event (s.setFld (HIF.REACHABLE k) 1) 5 2 0 0 0).relayed, State.setFld_hif]
  · rw [(Posted.event (s.setFld (HIF.REACHABLE k) 1) 5 2 0 0 0).tiles, State.setFld_tiles]

end Sys2Proof.Machine
end

section
/-! PROOFS. The host interface. -/
namespace Sys2Proof.Machine

/-- Settles O51: one lemma a clause, from the equation of its command in the case that the clause names. -/
theorem hostInterface : Obligations.HostInterface := by
  unfold Obligations.HostInterface
  intro n k offset value cfg w s aw hn hk r v on sq cq tail only bad headOk cleared noCopy inRange last queues live waits may quick
    burst roomy
  refine ⟨?sqTail, ?sqTailIgnored, ?cqHead, ?cqHeadIgnored, ?resets, ?ringEnable, ?ringDisable, ?ringRefused, ?relayWrite,
    ?relayRefused, ?unmapped, ?fetchQuick, ?fetchVisit, ?fetchHeld, ?start, ?completion, ?interrupt, ?memoryError, ?relaySend,
    ?relayTake, ?relayKeep, ?pathLoss, ?pathRegain⟩
  case sqTail =>
    exact fun on hv h16 => ⟨_, sqTailDoorbell_taken aw hn ⟨on, hv, h16⟩, State.ring_setRing_same .., rfl, OnlyRing.setRing ..⟩
  case sqTailIgnored => exact fun h => ⟨_, sqTailDoorbell_ignored aw hn h, badDoorbell_ignored s hn⟩
  case cqHead => exact fun h => ⟨_, cqHeadDoorbell_taken aw hn h, State.ring_setRing_same .., rfl, OnlyRing.setRing ..⟩
  case cqHeadIgnored => exact fun h => ⟨_, cqHeadDoorbell_ignored aw hn h, badDoorbell_ignored s hn⟩
  case resets => exact fun h => ⟨hifReset_cleared aw h, functionLevelReset_cleared aw h, conventionalReset_cleared aw h⟩
  case ringEnable => exact ringEnable_starts aw hn
  case ringDisable => exact ringDisable_stops aw hn
  case ringRefused => exact ringEnable_refused aw hn
  case relayWrite =>
    intro h0 idle m size twice
    refine ⟨relayTableWrite_clears aw h0 hk idle, relayTableWrite_sets aw h0 hk idle, fun valid outside => ?_⟩
    have bit : bits cfg.toNat 14 1 = 1 := by rw [bits_valid, valid]; rfl
    exact relayTableWrite_refused aw h0 hk (.inl ⟨bit, outside⟩)
  case relayRefused =>
    intro h0 valid busy
    obtain ⟨s', step, refused, same, named⟩ := relayTableWrite_refused (cfg := cfg) aw h0 hk (.inr ⟨valid, busy⟩)
    exact ⟨s', step, refused, same.trans valid, named⟩
  case unmapped => exact unmappedAccess_raises aw
  case fetchQuick => exact fetchBurst_latency aw hn
  case fetchVisit => exact fetchBurst_visit aw hn
  case fetchHeld => exact fetchBurst_held aw hn
  case start =>
    intro d rest fetched go accepted here
    exact ⟨descriptorStart_notReady aw hn fetched, descriptorStart_starts aw hn fetched, descriptorStart_schedules aw hn fetched,
      descriptorStart_relays aw hn fetched, descriptorStart_fence aw hn fetched⟩
  case completion =>
    intro e rest backlog held target on running cqLog room w
    obtain ⟨s', step, ⟨cid, status, head, ring, event, interim, phase, tag, result, module, bcn⟩, rest'⟩ :=
      completionWrite_writes aw hn backlog held target on running cqLog room w
    exact ⟨s', step, cid, status, head, ring, event, interim, phase, tag, result, module, bcn, rest'⟩
  case interrupt =>
    intro entries counted enough x a
    exact ⟨msixInterrupt_masked aw hn ⟨entries, counted, enough⟩, msixInterrupt_fires aw hn ⟨entries, counted, enough⟩⟩
  case memoryError => exact hostMemoryError_stops aw hn
  case relaySend => exact fun _ _ _ _ => relayForward_sends aw
  case relayTake => exact fun _ _ _ _ _ => relayForward_takes aw
  case relayKeep => exact fun _ _ _ _ => relayForward_keeps aw
  case pathLoss =>
    intro h0 valid reach
    exact ⟨relayPathLoss_idle aw h0 hk valid reach, fun _ _ only long _ => relayPathLoss_long aw h0 hk valid reach only long⟩
  case pathRegain => exact fun h0 => relayPathRegain_raises aw h0 hk

end Sys2Proof.Machine
end

section
/-! LEMMAS. Credits, refusals and replies at the sender (O31): the credit table under a grant, a register that a reply
fills, and the exchange queue when nothing is in it. -/
namespace Sys2Proof.Machine

/-! ### One tile's commands -/

theorem OnlyTile.setTile (s : State) (t : Nat) (x : Tile) : OnlyTile t s (s.setTile t x) :=
  ⟨fun _ hu => State.tile_setTile_other s x hu, rfl⟩

theorem OnlyTile.onTile {t : Nat} {s s' : State} (h : OnlyTile t s s') (f : Tile → Tile) : OnlyTile t s (s'.onTile t f) := by
  obtain ⟨htiles, hrest⟩ := h
  exact ⟨fun u hu => (State.tile_onTile_other s' f hu).trans (htiles u hu), hrest⟩

/-- A register that an answer fills: s0 stays 0 and the others stay. -/
@[simp] theorem Tile.getS_complete (x : Tile) (r i : Nat) (v : Word) :
    (x.complete r v).getS i = if i = r ∧ i ≠ 0 then v else x.getS i :=
  Tile.getS_putS x r i v

theorem Tile.getS_complete_same (x : Tile) {r : Nat} (v : Word) (h : r ≠ 0) : (x.complete r v).getS r = v := by simp [h]

theorem Tile.getS_complete_other (x : Tile) {r i : Nat} (v : Word) (h : i ≠ r) : (x.complete r v).getS i = x.getS i := by simp [h]

/-- A saturating counter of a tile after it was raised. -/
theorem Tile.fld_bumpFld_same (x : Tile) (f : Fld) (h : f.lsb + f.width ≤ 64) :
    (x.bumpFld f).fld f = min (x.fld f + 1) (2 ^ f.width - 1) := by
  have hp := Nat.two_pow_pos f.width
  rw [Tile.bumpFld, Tile.fld_setFld_same x f _ h, bump]
  split
  · rw [Nat.mod_eq_of_lt ‹_›]; omega
  · rw [Nat.mod_eq_of_lt (by omega)]; omega

/-- It changes the s registers and the registers held, nothing else. -/
theorem Tile.complete_eq (x : Tile) (r : Nat) (v : Word) :
    x.complete r v = { x with s := (x.complete r v).s, busy := x.busy.erase r } := by
  unfold Tile.complete Tile.release Tile.putS
  split <;> rfl

theorem Tile.fld_complete (x : Tile) (r : Nat) (v : Word) (f : Fld) : (x.complete r v).fld f = x.fld f := by
  rw [Tile.complete_eq]; rfl

/-- Only a stalled XWAIT settles. -/
theorem Tile.xwaitSettle_of_ne {x : Tile} (h : ∀ rd, x.stall ≠ .xwait rd) : x.xwaitSettle = x := by
  unfold Tile.xwaitSettle
  split
  · exact absurd ‹_› (h _)
  · rfl

/-- With nothing in the exchange queue and no XWAIT stalled, the queue's run is no change of its tile. -/
theorem State.tile_xqRun_nil {s : State} {t : Nat} (hq : (s.tile t).xq = []) (hs : ∀ rd, (s.tile t).stall ≠ .xwait rd) :
    (s.xqRun t).tile t = s.tile t := by
  have e : ({ (s.tile t) with xq := [] } : Tile) = s.tile t := by rw [← hq]
  simp only [State.xqRun, hq, State.xqDrain, State.tile_onTile_same]
  rw [e, Tile.xwaitSettle_of_ne hs]

theorem State.xqRun_nil {s : State} {t : Nat} (hq : (s.tile t).xq = []) :
    s.xqRun t = s.onTile t (fun x => { x with xq := [] }.xwaitSettle) := by
  rw [State.xqRun, hq, State.xqDrain]

theorem OnlyTile.xqRun_nil {t : Nat} {s s' : State} (h : OnlyTile t s s') (hq : (s'.tile t).xq = []) : OnlyTile t s (s'.xqRun t) := by
  rw [State.xqRun_nil hq]; exact h.onTile _

theorem State.drainVec_nil {s : State} {t : Nat} (h : (s.tile t).vq = []) : s.drainVec t = s := by
  unfold State.drainVec
  rw [h]
  split <;> rfl

/-! ### Mail -/

theorem takeFirst_head {α : Type} {p : α → Bool} {x : α} (xs : List α) (h : p x = true) : takeFirst p (x :: xs) = some (x, xs) := by
  rw [takeFirst, if_pos h]

/-- What a message sent to another tile leaves: it is the last of that tile's mail, and the sender stays as it was. -/
theorem State.tile_send_other (s : State) {t u : Nat} (m : Msg) (h : t ≠ u) : (s.send u m).tile t = s.tile t :=
  State.tile_onTile_other s _ h

theorem State.mail_send (s : State) (u : Nat) (m : Msg) : ((s.send u m).tile u).mail = (s.tile u).mail ++ [m] := by
  simp [State.send]

/-! ### The credit table under a grant (R66) -/

theorem grantTable_hit {cs : List Credit} {mod : BitVec 14} {u k : Nat} (g : BitVec 16) (m : Nat)
    (h : cs.find? (fun c => c.is mod u k) ≠ none) :
    grantTable cs mod u k g m = some (cs.map (fun e => if e.is mod u k then
      (if e.gen = g then { e with count := e.count + m } else { e with gen := g, count := m }) else e)) := by
  have : cs.any (fun c => c.is mod u k) = true := by simpa [List.find?_eq_none] using h
  rw [grantTable, if_pos this]

theorem grantTable_new {cs : List Credit} {mod : BitVec 14} {u k : Nat} (g : BitVec 16) (m : Nat)
    (h : cs.find? (fun c => c.is mod u k) = none) (hl : cs.length < 64) :
    grantTable cs mod u k g m = some (cs ++ [⟨mod, u, k, g, m⟩]) := by
  have : ¬cs.any (fun c => c.is mod u k) = true := by simpa [List.find?_eq_none] using h
  rw [grantTable, if_neg this, if_pos hl]

theorem grantTable_full {cs : List Credit} {mod : BitVec 14} {u k : Nat} (g : BitVec 16) (m : Nat)
    (h : cs.find? (fun c => c.is mod u k) = none) (hl : 64 ≤ cs.length) : grantTable cs mod u k g m = none := by
  have : ¬cs.any (fun c => c.is mod u k) = true := by simpa [List.find?_eq_none] using h
  rw [grantTable, if_neg this, if_neg (by omega)]

section
variable {t u k m rd : Nat} {g : BitVec 16} {mod : BitVec 14} {st : Stamp} {c : BitVec 16} {rest : List Msg} {s : State}

/-- A grant that finds its place: the table takes it and the granting tile is told. -/
theorem grantMessage_placed {cs : List Credit} (ht : t < s.tileCount)
    (hm : (s.tile t).mail = .grant mod u k g m rd st none :: rest) (hst : st.tile = u) (hu : u ≠ t)
    (hr : (s.tile t).fld TILE.CORE_READY = 1) (hx : (s.tile t).xq = []) (hs : (s.tile t).stall = .none)
    (hg : grantTable (s.tile t).credits mod u k g m = some cs) :
    Gives (exec (.grantMessage t) s) (fun s' => (s'.tile t).credits = cs
      ∧ (s'.tile u).mail = (s.tile u).mail ++ [.grantPlaced rd st] ∧ (s'.tile t).mail = rest) := by
  let s1 := ((s.setTile t { (s.tile t) with mail := rest }).onTile t (fun x => { x with credits := cs })).send u (.grantPlaced rd st)
  have htile : s1.tile t = { (s.tile t) with mail := rest, credits := cs } := by
    simp [s1, State.tile_send_other _ _ hu.symm]
  have hrun : s1.xqRun t = s1.onTile t (fun x => { x with xq := [] }.xwaitSettle) := State.xqRun_nil (by simp [htile, hx])
  have hself : (s1.xqRun t).tile t = s1.tile t := State.tile_xqRun_nil (by simp [htile, hx]) (by simp [htile, hs])
  have hother : (s1.xqRun t).tile u = s1.tile u := by rw [hrun]; exact State.tile_onTile_other _ _ hu
  refine ⟨s1.xqRun t, ?_, ?_, ?_, ?_⟩
  · simp only [exec, execGrantMessage, if_neg (Nat.not_le.2 ht), hm]
    rw [takeFirst_head rest rfl]
    refine (if_neg (not_not.2 hr)).trans ?_
    simp only [hg, hst, State.answerGrant]
    rfl
  · rw [hself, htile]
  · rw [hother]
    simp only [s1, State.mail_send, State.tile_onTile_other _ _ hu, State.tile_setTile_other _ _ hu]
  · rw [hself, htile]

/-- A grant that finds no place goes back, and the table stays. -/
theorem grantMessage_refused (ht : t < s.tileCount)
    (hm : (s.tile t).mail = .grant mod u k g m rd st none :: rest) (hst : st.tile = u) (hu : u ≠ t)
    (hr : (s.tile t).fld TILE.CORE_READY = 1) (hg : grantTable (s.tile t).credits mod u k g m = none) :
    Gives (exec (.grantMessage t) s) (fun s' => (s'.tile t).credits = (s.tile t).credits
      ∧ (s'.tile u).mail = (s.tile u).mail ++ [.grantBack k g m rd st Status.CREDIT_TABLE_FULL] ∧ (s'.tile t).mail = rest) := by
  refine ⟨(s.setTile t { (s.tile t) with mail := rest }).send u (.grantBack k g m rd st Status.CREDIT_TABLE_FULL), ?_, ?_, ?_, ?_⟩
  · simp only [exec, execGrantMessage, if_neg (Nat.not_le.2 ht), hm]
    rw [takeFirst_head rest rfl]
    refine (if_neg (not_not.2 hr)).trans ?_
    simp only [hg, hst, State.answerGrant]
  · rw [State.tile_send_other _ _ hu.symm, State.tile_setTile_same]
  · rw [State.mail_send, State.tile_setTile_other _ _ hu]
  · rw [State.tile_send_other _ _ hu.symm, State.tile_setTile_same]

/-- A grant that comes back ends its WGRANT, and its count returns while the window has the grant's generation. -/
theorem grantReturn_gives (ht : t < s.tileCount) (hm : (s.tile t).mail = .grantBack k g m rd st c :: rest)
    (hstale : (s.tile t).stale s.count st = false) :
    Gives (exec (.grantReturn t) s) (fun s' => OnlyTile t s s' ∧ (s'.tile t).mail = rest
      ∧ ((s'.tile t).window k).granted = (if ((s.tile t).window k).gen = g then ((s.tile t).window k).granted - m
          else ((s.tile t).window k).granted)
      ∧ (∀ j, j ≠ k → (s'.tile t).window j = (s.tile t).window j)
      ∧ (rd ≠ 0 → (s'.tile t).getS rd = c.setWidth 64) ∧ (∀ r, r ≠ rd → (s'.tile t).getS r = (s.tile t).getS r)) := by
  let x0 : Tile := { (s.tile t) with mail := rest }
  let d := x0.window k
  let x1 : Tile := if d.gen = g then x0.setWindow k { d with granted := d.granted - m } else x0
  have hx1 : x1.mail = rest ∧ (x1.window k).granted = (if d.gen = g then d.granted - m else d.granted)
      ∧ (∀ j, j ≠ k → x1.window j = x0.window j) ∧ ∀ r, x1.getS r = x0.getS r := by
    by_cases hg : d.gen = g
    · refine ⟨by simp [x1, hg, x0, Tile.setWindow], by simp [x1, hg, Tile.setWindow, Tile.window], fun j hj => ?_, fun r => ?_⟩
      · simp [x1, hg, Tile.setWindow, Tile.window, Map.get_set_other _ _ _ _ hj]
      · simp [x1, hg, Tile.setWindow, Tile.getS]
    · exact ⟨by simp [x1, hg, x0], by simp [x1, hg, d], by simp [x1, hg], by simp [x1, hg]⟩
  obtain ⟨hmail, hwin, hwins, hget⟩ := hx1
  have hstale' : ¬x0.stale s.count st = true := by
    have e : x0.stale s.count st = (s.tile t).stale s.count st := rfl
    rw [e, hstale]; decide
  refine ⟨s.setTile t { x1.complete rd (c.setWidth 64) with grantsOut := x1.grantsOut - 1 }, ?_, OnlyTile.setTile _ _ _, ?_⟩
  · simp only [exec, execGrantReturn, if_neg (Nat.not_le.2 ht), hm]
    rw [takeFirst_head rest rfl]
    simp only [x0] at hstale'
    simp only [if_neg hstale']
    rfl
  · rw [State.tile_setTile_same]
    have hw : ∀ j, (x1.complete rd (c.setWidth 64)).window j = x1.window j := fun j => by rw [Tile.complete_eq]; rfl
    refine ⟨by rw [Tile.complete_eq]; exact hmail, ?_, fun j hj => ?_, fun h => ?_, fun r h => ?_⟩
    · exact (congrArg Window.granted (hw k)).trans hwin
    · exact (hw j).trans (hwins j hj)
    · exact Tile.getS_complete_same x1 _ h
    · exact (Tile.getS_complete_other x1 _ h).trans (hget r)

theorem winClosedRefusal_gives (ht : t < s.tileCount) (hm : (s.tile t).mail = .winClosed mod u k :: rest) :
    Gives (exec (.winClosedRefusal t) s) (fun s' => OnlyTile t s s'
      ∧ (s'.tile t).credits = (s.tile t).credits.filter (fun c => !c.is mod u k) ∧ (s'.tile t).mail = rest) := by
  refine ⟨s.setTile t { (s.tile t) with mail := rest, credits := (s.tile t).credits.filter (fun c => !c.is mod u k) }, ?_,
    OnlyTile.setTile _ _ _, by simp, by simp⟩
  simp only [exec, execWinClosedRefusal, if_neg (Nat.not_le.2 ht), hm]
  rw [takeFirst_head rest rfl]

/-- The unicast XSEND that waited for credit ends alone, nothing else being queued. -/
theorem creditTimeout_gives {q : QInsn} (ht : t < s.tileCount) (hx : (s.tile t).xq = [q]) (hop : q.op = 0x03)
    (hw : (s.tile t).creditWait = true) (hs : (s.tile t).stall = .none) :
    Gives (exec (.creditTimeout t) s) (fun s' => OnlyTile t s s' ∧ (s'.tile t).xq = [] ∧ (s'.tile t).creditWait = false
      ∧ (fRD q.w ≠ 0 → (s'.tile t).getS (fRD q.w) = Status.CREDIT_TIMEOUT.setWidth 64)
      ∧ (∀ r, r ≠ fRD q.w → (s'.tile t).getS r = (s.tile t).getS r)
      ∧ (s'.tile t).fld TILE.TIMEOUTS = min ((s.tile t).fld TILE.TIMEOUTS + 1) (2 ^ TILE.TIMEOUTS.width - 1)) := by
  let x0 : Tile := { (s.tile t) with xq := [], creditWait := false }
  let x1 := x0.complete (fRD q.w) (Status.CREDIT_TIMEOUT.setWidth 64)
  let x2 := (x1.bumpFld TILE.TIMEOUTS).post 3
  have hfields : x2.xq = [] ∧ x2.creditWait = false ∧ x2.stall = .none := by
    have hx1 : x1 = { x0 with s := x1.s, busy := x0.busy.erase (fRD q.w) } := Tile.complete_eq _ _ _
    exact ⟨congrArg Tile.xq hx1, congrArg Tile.creditWait hx1, (congrArg Tile.stall hx1).trans hs⟩
  obtain ⟨hxq, hcw, hst⟩ := hfields
  have htile : ((s.setTile t x2).xqRun t).tile t = x2 := by
    rw [State.tile_xqRun_nil (by simp [hxq]) (by simp [hst]), State.tile_setTile_same]
  refine ⟨(s.setTile t x2).xqRun t, ?_, (OnlyTile.setTile _ _ _).xqRun_nil (by simp [hxq]), ?_⟩
  · simp only [exec, execCreditTimeout, if_neg (Nat.not_le.2 ht), hx, hop, hw, and_self, if_true]
    rfl
  · rw [htile]
    refine ⟨hxq, hcw, fun h => ?_, fun r h => ?_, ?_⟩
    · exact Tile.getS_complete_same x0 _ h
    · exact Tile.getS_complete_other x0 _ h
    · have hpend : x2.fld TILE.TIMEOUTS = (x1.bumpFld TILE.TIMEOUTS).fld TILE.TIMEOUTS :=
        Tile.fld_setFld_other _ _ (by decide) (.inl (by decide))
      rw [hpend, Tile.fld_bumpFld_same _ _ (by decide), Tile.fld_complete]
      rfl

/-! ### Replies (R37, R81, R93) -/

/-- The tile after the reply of a request is applied. -/
def Tile.replied (x : Tile) (rd : Nat) (v : Word) (kind : ReplyKind) : Tile :=
  match kind with
  | .swait => { x.complete rd v with stall := if x.stall = .swait rd then .none else x.stall }
  | .sig => { x.complete rd v with sigsOut := x.sigsOut - 1 }
  | .value => x.complete rd v

theorem State.applyReply_reply (s : State) (t rd : Nat) (v : Word) (kind : ReplyKind) :
    s.applyReply t (.reply st rd v kind) = s.onTile t (fun x => x.replied rd v kind) := by
  cases kind <;> rfl

/-- What the reply of a request leaves of its tile. -/
theorem Tile.replied_eq (x : Tile) (rd : Nat) (v : Word) (kind : ReplyKind) :
    x.replied rd v kind = { x with s := (x.complete rd v).s, busy := x.busy.erase rd
                                   stall := if kind = .swait ∧ x.stall = .swait rd then .none else x.stall
                                   sigsOut := if kind = .sig then x.sigsOut - 1 else x.sigsOut } := by
  cases kind
  case swait => simp only [Tile.replied, true_and]; rw [Tile.complete_eq]; rfl
  case sig => simp only [Tile.replied]; rw [Tile.complete_eq]; rfl
  case value => simp only [Tile.replied]; rw [Tile.complete_eq]; rfl

/-- A reply of the domain's epoch and time, where both queues are empty and no XWAIT is stalled, acts on its tile alone. -/
theorem replyArrival_current {v : Word} {kind : ReplyKind} (ht : t < s.tileCount) (hm : (s.tile t).mail = .reply st rd v kind :: rest)
    (hv : (s.tile t).vq = []) (hx : (s.tile t).xq = []) (hs : ∀ r, (s.tile t).stall ≠ .xwait r)
    (hstale : (s.tile t).stale s.count st = false) :
    Gives (exec (.replyArrival t) s) (fun s' => OnlyTile t s s'
      ∧ s'.tile t = ({ (s.tile t) with mail := rest } : Tile).replied rd v kind) := by
  let x0 : Tile := { (s.tile t) with mail := rest }
  let s1 := (s.setTile t x0).onTile t (fun x => x.replied rd v kind)
  have htile : s1.tile t = x0.replied rd v kind := by simp [s1]
  have hvq : (s1.tile t).vq = [] := by rw [htile, Tile.replied_eq]; exact hv
  have hxq : (s1.tile t).xq = [] := by rw [htile, Tile.replied_eq]; exact hx
  have hst : ∀ r, (s1.tile t).stall ≠ .xwait r := by
    intro r
    rw [htile, Tile.replied_eq]
    show (if _ then _ else _) ≠ _
    split
    · simp
    · exact hs r
  have hstale' : ¬x0.stale s.count st = true := by
    have e : x0.stale s.count st = (s.tile t).stale s.count st := rfl
    rw [e, hstale]; decide
  refine ⟨(s1.drainVec t).xqRun t, ?_, ?_, ?_⟩
  · simp only [exec, execReplyArrival, if_neg (Nat.not_le.2 ht), hm]
    rw [takeFirst_head rest rfl]
    simp only [x0] at hstale'
    simp only [replyStamp, if_neg hstale', State.applyReply_reply]
    rfl
  · rw [State.drainVec_nil hvq]
    exact ((OnlyTile.setTile _ _ _).onTile _).xqRun_nil hxq
  · rw [State.drainVec_nil hvq, State.tile_xqRun_nil hxq hst, htile]

/-- A stale reply is dropped and counted. -/
theorem replyArrival_stale {v : Word} {kind : ReplyKind} (ht : t < s.tileCount) (hm : (s.tile t).mail = .reply st rd v kind :: rest)
    (hstale : (s.tile t).stale s.count st = true) :
    Gives (exec (.replyArrival t) s) (fun s' => OnlyTile t s s'
      ∧ s'.tile t = ({ (s.tile t) with mail := rest } : Tile).bumpFld TILE.STALE_REPLIES) := by
  refine ⟨s.setTile t (({ (s.tile t) with mail := rest } : Tile).bumpFld TILE.STALE_REPLIES), ?_, OnlyTile.setTile _ _ _, by simp⟩
  have hstale' : ({ (s.tile t) with mail := rest } : Tile).stale s.count st = true := hstale
  simp only [exec, execReplyArrival, if_neg (Nat.not_le.2 ht), hm]
  rw [takeFirst_head rest rfl]
  simp only [replyStamp, if_pos hstale']

end

/-- Settles O31: a lemma for each of the grant, its return, the WIN_CLOSED refusal, the credit timeout and the reply. -/
theorem creditsAndReplies : Obligations.CreditsAndReplies := by
  unfold Obligations.CreditsAndReplies
  intro t u k m g mod rd st c rest s x entry told ht
  refine ⟨?grant, grantReturn_gives ht, winClosedRefusal_gives ht, ?timeout, ?reply, ?other⟩
  case grant =>
    intro hm hst hu hr hx hs
    refine ⟨fun he hl => grantMessage_placed ht hm hst hu hr hx hs (grantTable_new g m he hl), fun he => ?_,
      fun he hl => grantMessage_refused ht hm hst hu hr (grantTable_full g m he hl)⟩
    obtain ⟨s', hs', hcredits, htold⟩ := grantMessage_placed ht hm hst hu hr hx hs (grantTable_hit g m he)
    exact ⟨s', hs', htold, hcredits⟩
  case timeout => exact fun q hx hop hw hs => creditTimeout_gives ht hx hop hw hs
  case reply =>
    intro v kind hm hst hv hx
    have hxw : ∀ r, (s.tile t).stall ≠ .xwait r := by
      intro r
      rw [show (s.tile t).stall = _ from hst]
      split <;> simp
    refine ⟨fun hstale => ?_, fun hstale => ?_⟩
    · obtain ⟨s', hs', honly, htile⟩ := replyArrival_current ht hm hv hx hxw hstale
      have hreg : ∀ r, (s'.tile t).getS r = (({ (s.tile t) with mail := rest } : Tile).complete rd v).getS r := by
        intro r; rw [htile, Tile.replied_eq]; rfl
      refine ⟨s', hs', honly, by rw [htile, Tile.replied_eq], fun h => (hreg rd).trans (Tile.getS_complete_same _ v h),
        fun r h => (hreg r).trans (Tile.getS_complete_other _ v h), by rw [htile, Tile.replied_eq], ?_, by rw [htile, Tile.replied_eq]⟩
      rw [htile, Tile.replied_eq]
      show (if kind = .swait ∧ (s.tile t).stall = .swait rd then Stall.none else (s.tile t).stall) = .none
      rw [show (s.tile t).stall = _ from hst]
      by_cases hk : kind = .swait
      · simp [hk]
      · simp [hk]
    · obtain ⟨s', hs', honly, htile⟩ := replyArrival_stale ht hm hstale
      refine ⟨s', hs', honly, by rw [htile]; rfl, by rw [htile]; rfl, by rw [htile]; rfl, by rw [htile]; rfl, ?_⟩
      rw [htile, Tile.fld_bumpFld_same _ _ (by decide)]
      rfl
  case other =>
    intro v r2 kind hm hst hk hv hx hstale
    have hst' : (s.tile t).stall = .swait r2 := hst
    obtain ⟨s', hs', _, htile⟩ := replyArrival_current ht hm hv hx (by simp [hst']) hstale
    refine ⟨s', hs', ?_⟩
    show (s'.tile t).stall = .swait r2
    rw [htile, Tile.replied_eq]
    simp [hk, hst']

end Sys2Proof.Machine
end

section
/-! LEMMAS. The state of module reset (O3): nothing is listed in any of its maps, so everything reads as its reset value. -/
namespace Sys2Proof.Machine

/-- At module reset every tile is as at power-on. -/
@[simp] theorem State.reset_tile (t : Nat) : State.reset.tile t = {} := rfl

theorem epochs_powerOn : ({} : Tile).fld TILE.CORE_EPOCH = 0 ∧ ({} : Tile).fld TILE.RTR_EPOCH = 0 := by decide +kernel

/-- A field of the module right after reset is the field of its register's reset value. -/
theorem State.reset_fld (f : Fld) : State.reset.fld f = bits (modReset (canonical f.off)).toNat f.lsb f.width := rfl

/-- No stack starts with its spare channel in use. -/
theorem bits_modReset_spareUsed : ∀ k < 16,
    bits (modReset (canonical (HBM.SPARE_USED k).off)).toNat (HBM.SPARE_USED k).lsb (HBM.SPARE_USED k).width = 0 := by
  decide +kernel

/-- The rings' control registers stand below every block that is held once. -/
theorem canonical_ring_control {n : Nat} (hn : n < 64) : canonical (HIF.ring n + 0x10) = HIF.ring n + 0x10 :=
  canonical_of_hif (by simp only [HIF.ring]; omega)

theorem reset_ringDisabled {n : Nat} (hn : n < 64) : State.reset.fld (HIF.ENABLE n) = 0 := by
  obtain ⟨⟨-, henable⟩, -⟩ := bits_modReset_ring n hn
  rw [State.reset_fld]
  simp only [HIF.ENABLE, canonical_ring_control hn]
  exact henable

/-- Settles O3: every map of the reset state is empty, so each clause is a reset value read off its definition. -/
theorem resetValues : Obligations.ResetValues := by
  unfold Obligations.ResetValues
  refine ⟨rfl, fun t a => rfl, fun t k => rfl, fun t k => ⟨rfl, rfl⟩, fun t => epochs_powerOn, fun t => ⟨rfl, rfl⟩,
    fun t r hr => ?others, fun t r => rfl, fun k hk => bits_modReset_spareUsed k hk, fun n hn => reset_ringDisabled hn,
    by decide +kernel, by decide +kernel, fun a => rfl⟩
  case others => simp [Tile.getS, Tile.getP, hr]

end Sys2Proof.Machine
end

section
/-! LEMMAS. What answers and records leave (R38, R350, R401 to R405, R484): they reach the mail of tiles, the transmit
queues, the backlog and the Afterglow log, and nothing else. -/
namespace Sys2Proof.Machine

/-- A predicate that every step of a fold keeps. -/
theorem foldl_keeps {α β : Type} {P : β → Prop} {f : β → α → β} {xs : List α} {b : β} (h : P b) (hf : ∀ b x, P b → P (f b x)) :
    P (xs.foldl f b) := by
  induction xs generalizing b with
  | nil => exact h
  | cons x xs ih => exact ih (hf _ _ h)

theorem ite_keeps {β : Type} {P : β → Prop} {c : Prop} [Decidable c] {a b : β} (ha : P a) (hb : P b) : P (if c then a else b) := by
  split <;> assumption

/-- From `s₀` to `s` nothing has happened but answers on their way and records taken. -/
structure Answered (s₀ s : State) : Prop where
  rest : { s with tiles := s₀.tiles, ports := s₀.ports, regs := s₀.regs, free := s₀.free, rel := s₀.rel, nl := s₀.nl
                  hif := { s.hif with backlog := s₀.hif.backlog } } = s₀
  rd : ∀ o, canonical o ≠ 0x20 → s.rd o = s₀.rd o
  tile : ∀ u, ∃ m, s.tile u = { (s₀.tile u) with mail := m }

namespace Answered
variable {s₀ s s' : State}

theorem refl : Answered s s := ⟨rfl, fun _ _ => rfl, fun _ => ⟨_, rfl⟩⟩

theorem trans (h : Answered s₀ s) (h' : Answered s s') : Answered s₀ s' := by
  refine ⟨?_, fun o ho => (h'.rd o ho).trans (h.rd o ho), fun u => ?_⟩
  · calc _ = { { s' with tiles := s.tiles, ports := s.ports, regs := s.regs, free := s.free, rel := s.rel, nl := s.nl
                         hif := { s'.hif with backlog := s.hif.backlog } } with
            tiles := s₀.tiles, ports := s₀.ports, regs := s₀.regs, free := s₀.free, rel := s₀.rel, nl := s₀.nl
            hif := { s'.hif with backlog := s₀.hif.backlog } } := rfl
      _ = { s with tiles := s₀.tiles, ports := s₀.ports, regs := s₀.regs, free := s₀.free, rel := s₀.rel, nl := s₀.nl
                   hif := { s'.hif with backlog := s₀.hif.backlog } } := by rw [h'.rest]
      _ = { s with tiles := s₀.tiles, ports := s₀.ports, regs := s₀.regs, free := s₀.free, rel := s₀.rel, nl := s₀.nl
                   hif := { s.hif with backlog := s₀.hif.backlog } } := by rw [← congrArg State.hif h'.rest]
      _ = s₀ := h.rest
  · obtain ⟨m, hm⟩ := h.tile u
    obtain ⟨m', hm'⟩ := h'.tile u
    exact ⟨m', by rw [hm', hm]⟩

theorem hbm (h : Answered s₀ s) : s.hbm = s₀.hbm := (congrArg State.hbm h.rest :)
theorem halo (h : Answered s₀ s) : s.halo = s₀.halo := (congrArg State.halo h.rest :)
theorem hbmStacks (h : Answered s₀ s) : s.hbmStacks = s₀.hbmStacks := (congrArg State.hbmStacks h.rest :)
theorem routers (h : Answered s₀ s) : s.routers = s₀.routers := (congrArg State.routers h.rest :)
theorem spares (h : Answered s₀ s) : s.spares = s₀.spares := (congrArg State.spares h.rest :)

theorem fld (h : Answered s₀ s) {f : Fld} (hf : canonical f.off ≠ 0x20) : s.fld f = s₀.fld f := by
  simp only [State.fld, h.rd _ hf]

theorem tileFld (h : Answered s₀ s) (u : Nat) (f : Fld) : (s.tile u).fld f = (s₀.tile u).fld f := by
  obtain ⟨m, hm⟩ := h.tile u
  rw [hm]; rfl

/-! ### Each of them -/

theorem onMail (hs : Answered s₀ s) (t : Nat) (f : Tile → List Msg) :
    Answered s₀ (s.onTile t (fun x => { x with mail := f x })) := by
  refine hs.trans ⟨rfl, fun _ _ => rfl, fun u => ?_⟩
  by_cases hu : u = t
  · subst hu; exact ⟨_, State.tile_onTile_same s u _⟩
  · exact ⟨_, State.tile_onTile_other s _ hu⟩

theorem send {t : Nat} {m : Msg} (hs : Answered s₀ s) : Answered s₀ (s.send t m) := hs.onMail t _

theorem setPort {p : Nat} {q : Port} (hs : Answered s₀ s) : Answered s₀ (s.setPort p q) :=
  hs.trans ⟨rfl, fun _ _ => rfl, fun _ => ⟨_, rfl⟩⟩


theorem sendReply {h : Hdr} {payload : List Byte} (hs : Answered s₀ s) : Answered s₀ (s.sendReply h payload) := by
  unfold State.sendReply
  split
  · exact hs
  · exact ite_keeps hs.setPort hs

theorem answerTo {dest : Sender} {target : Nat} {c : BitVec 16} {dark : Option (Nat × Nat)} (hs : Answered s₀ s) :
    Answered s₀ (s.answerTo dest target c dark) := by
  unfold State.answerTo
  split
  · exact hs.send
  · exact hs.send
  · exact hs.send
  · exact hs.send
  · exact hs.sendReply
  · exact hs

theorem semAnswer {m : SemMsg} {v : Word} (hs : Answered s₀ s) : Answered s₀ (s.semAnswer m v) := by
  refine ite_keeps hs ?_
  split
  · exact hs.send
  · exact hs.sendReply

theorem answerHeld {t : Nat} {ws : List RemoteWrite} {rs : List ReadReq} (hs : Answered s₀ s) : Answered s₀ (s.answerHeld t ws rs) := by
  refine foldl_keeps (foldl_keeps hs fun _ _ h => h.answerTo) fun _ _ h => ?_
  split
  · exact h.send
  · exact h.sendReply
  · exact h

theorem answerGrant {st : Stamp} {away : Option (Nat × BitVec 24 × BitVec 16)} {c : BitVec 16} {m : Msg} (hs : Answered s₀ s) :
    Answered s₀ (s.answerGrant st away c m) := by
  unfold State.answerGrant
  split
  · exact hs.send
  · exact hs.sendReply

theorem answerGrants {ms : List Msg} (hs : Answered s₀ s) : Answered s₀ (s.answerGrants ms) := by
  refine foldl_keeps hs fun _ _ h => ?_
  split
  · exact h.answerGrant
  · exact h

theorem dropCopies {t : Nat} {x : Tile} (hs : Answered s₀ s) : Answered s₀ (s.dropCopies t x) :=
  foldl_keeps hs fun _ _ h => foldl_keeps h fun _ _ h' => h'.send

theorem refuseHbm {r : HbmReq} {c : BitVec 16} (hs : Answered s₀ s) : Answered s₀ (s.refuseHbm r c) := by
  unfold State.refuseHbm
  split
  · exact hs.send
  · exact hs.sendReply
  · exact hs.answerTo

theorem updBacklog {b : List Entry} (hs : Answered s₀ s) : Answered s₀ { s with hif := { s.hif with backlog := b } } :=
  hs.trans ⟨rfl, fun _ _ => rfl, fun _ => ⟨_, rfl⟩⟩

theorem backlogFull {v : Nat} (hs : Answered s₀ s) : Answered s₀ (s.setFld HIF.BACKLOG_FULL v) :=
  hs.trans ⟨rfl, fun _ ho => State.rd_wr_other s _ ho, fun _ => ⟨_, rfl⟩⟩

theorem post {e : Entry} (hs : Answered s₀ s) : Answered s₀ (s.post e) :=
  ite_keeps hs.backlogFull.updBacklog hs.updBacklog

theorem event {kind code port : Nat} {c : BitVec 16} {detail : Nat} (hs : Answered s₀ s) : Answered s₀ (s.event kind code port c detail) :=
  ite_keeps hs hs.post

theorem updRel {r : Reliability} {n : Nightlight} (hs : Answered s₀ s) : Answered s₀ { s with rel := r, nl := n } :=
  hs.trans ⟨rfl, fun _ _ => rfl, fun _ => ⟨_, rfl⟩⟩

theorem logGlow {kind : Nat} {c : BitVec 16} {unit detail : Nat} (hs : Answered s₀ s) : Answered s₀ (s.logGlow kind c unit detail) :=
  event (ite_keeps hs.updRel hs.updRel)

end Answered

/-- A record and its event reach no tile. -/
theorem State.tiles_logGlow (s : State) (kind : Nat) (c : BitVec 16) (unit detail : Nat) : (s.logGlow kind c unit detail).tiles = s.tiles := by
  refine (Posted.event _ 6 0 0 c _).tiles.trans ?_
  split <;> rfl

end Sys2Proof.Machine
end

section
/-! LEMMAS. What a failing unit leaves (R239, R240, R281 to R284, R357, R364, R456 to R459): the routers but for the one that
fails, and the temperature and level that HBM_STATUS of every stack holds in its ten low bits. -/
namespace Sys2Proof.Machine

/-! ### Registers that share no offset with the low bits of HBM_STATUS -/

theorem canonical_mod (o : Nat) : canonical o % 0x10_0000 = o % 0x10_0000 := by
  unfold canonical
  split
  · omega
  · split
    · omega
    · split <;> omega

/-- HBM_STATUS is held under its own offset, which no other register shares. -/
theorem canonical_eq_hbmBase {o j : Nat} (_hj : j < 16) (h : canonical o = hbmBase j) : o = hbmBase j := by
  have hm := canonical_mod o
  rw [h] at hm
  unfold canonical hbmBase at *
  split at h
  · omega
  · split at h
    · omega
    · split at h <;> omega

theorem canonical_hbmBase {j : Nat} : canonical (hbmBase j) = hbmBase j := by
  unfold canonical hbmBase
  rw [if_neg (by omega), if_neg (by omega), if_neg (by omega)]

/-- A field whose write changes neither temperature nor level. -/
def Fld.cool (f : Fld) : Prop :=
  f.lsb + f.width ≤ 64 ∧ (10 ≤ f.lsb ∨ f.off < 0x100_0000 ∨ 0x200_0000 ≤ f.off ∨ f.off % 0x10_0000 ≠ 0)

theorem State.fld_setFld_cool (s : State) {f : Fld} (v : Nat) (hf : f.cool) {j l w : Nat} (hj : j < 16) (hw : l + w ≤ 10) :
    (s.setFld f v).fld ⟨hbmBase j, l, w⟩ = s.fld ⟨hbmBase j, l, w⟩ := by
  obtain ⟨hlen, hplace⟩ := hf
  refine s.fld_setFld_other v hlen ?_
  by_cases he : f.off = hbmBase j
  · exact .inr ⟨he.symm, .inr (by unfold hbmBase at he; show l + w ≤ f.lsb; omega)⟩
  · left
    show canonical (hbmBase j) ≠ canonical f.off
    rw [canonical_hbmBase]
    exact fun h => he (canonical_eq_hbmBase hj h.symm)

/-- From `s₀` to `s` every stack has kept its temperature and its level, and where `grid` is set every router its state. -/
structure Kept (grid : Bool) (s₀ s : State) : Prop where
  routers : grid = true → s.routers = s₀.routers
  temps : ∀ j l w, j < 16 → l + w ≤ 10 → s.fld ⟨hbmBase j, l, w⟩ = s₀.fld ⟨hbmBase j, l, w⟩

theorem Answered.kept {s₀ s : State} (h : Answered s₀ s) (grid : Bool) : Kept grid s₀ s :=
  ⟨fun _ => h.routers, fun _ _ _ hj _ => h.fld (by rw [canonical_hbmBase]; unfold hbmBase; omega)⟩

namespace Kept
variable {grid : Bool} {s₀ s s' : State}

theorem refl : Kept grid s s := ⟨fun _ => rfl, fun _ _ _ _ _ => rfl⟩

theorem trans (h : Kept grid s₀ s) (h' : Kept grid s s') : Kept grid s₀ s' :=
  ⟨fun hg => (h'.routers hg).trans (h.routers hg), fun j l w hj hw => (h'.temps j l w hj hw).trans (h.temps j l w hj hw)⟩

theorem answered (hs : Kept grid s₀ s) (h : Answered s s') : Kept grid s₀ s' := hs.trans (h.kept grid)

/-- A change of anything but a register or a router. -/
theorem upd (hs : Kept grid s₀ s) (hregs : s'.regs = s.regs := by rfl) (hrtr : s'.routers = s.routers := by rfl) :
    Kept grid s₀ s' :=
  hs.trans ⟨fun _ => hrtr, fun _ _ _ _ _ => State.fld_congr hregs _⟩

theorem setFld {f : Fld} {v : Nat} (hs : Kept grid s₀ s) (hf : f.cool) : Kept grid s₀ (s.setFld f v) :=
  hs.trans ⟨fun _ => rfl, fun _ _ _ hj hw => s.fld_setFld_cool v hf hj hw⟩

theorem setTile {t : Nat} {x : Tile} (hs : Kept grid s₀ s) : Kept grid s₀ (s.setTile t x) := hs.upd
theorem onTile {t : Nat} {f : Tile → Tile} (hs : Kept grid s₀ s) : Kept grid s₀ (s.onTile t f) := hs.upd
theorem setPort {p : Nat} {q : Port} (hs : Kept grid s₀ s) : Kept grid s₀ (s.setPort p q) := hs.upd
theorem setUnit {u : Nat} {e : UnitEntry} (hs : Kept grid s₀ s) : Kept grid s₀ (s.setUnit u e) := hs.upd
theorem setSpare {u : Nat} {x : SpareUnit} (hs : Kept grid s₀ s) : Kept grid s₀ (s.setSpare u x) := hs.upd
theorem setStack {k : Nat} {x : Stack} (hs : Kept grid s₀ s) : Kept grid s₀ (s.setStack k x) := hs.upd
theorem setColls {a : Nat} {l : List Coll} (hs : Kept grid s₀ s) : Kept grid s₀ (s.setColls a l) := hs.upd
theorem addCause {c : Cause} (hs : Kept grid s₀ s) : Kept grid s₀ (s.addCause c) := hs.upd
theorem endJob {c : BitVec 16} (hs : Kept grid s₀ s) : Kept grid s₀ (s.endJob c) := hs.upd
theorem draw {w : Nat} (hs : Kept grid s₀ s) : Kept grid s₀ (s.draw w).2 := hs.upd
theorem updLh {l : Lighthouse} (hs : Kept grid s₀ s) : Kept grid s₀ { s with lh := l } := hs.upd
theorem updHif {h : HostIf} (hs : Kept grid s₀ s) : Kept grid s₀ { s with hif := h } := hs.upd
theorem updRel {r : Reliability} (hs : Kept grid s₀ s) : Kept grid s₀ { s with rel := r } := hs.upd
theorem updMoves {m : List MapMove} (hs : Kept grid s₀ s) : Kept grid s₀ { s with moves := m } := hs.upd

theorem send {t : Nat} {m : Msg} (hs : Kept grid s₀ s) : Kept grid s₀ (s.send t m) := hs.upd
theorem sendReply {h : Hdr} {bs : List Byte} (hs : Kept grid s₀ s) : Kept grid s₀ (s.sendReply h bs) :=
  hs.answered (.sendReply .refl)
theorem answerTo {dest : Sender} {t : Nat} {c : BitVec 16} {dark : Option (Nat × Nat)} (hs : Kept grid s₀ s) :
    Kept grid s₀ (s.answerTo dest t c dark) := hs.answered (.answerTo .refl)
theorem event {kind code port : Nat} {c : BitVec 16} {detail : Nat} (hs : Kept grid s₀ s) :
    Kept grid s₀ (s.event kind code port c detail) := hs.answered (.event .refl)
theorem logGlow {kind : Nat} {c : BitVec 16} {unit detail : Nat} (hs : Kept grid s₀ s) :
    Kept grid s₀ (s.logGlow kind c unit detail) := hs.answered (.logGlow .refl)

/-! ### Ports -/

theorem bfBase_le (p : Nat) : 0x200_0000 ≤ bfBase p := Nat.le_add_right _ _

/-- A field of the ports, the engines or a later block. -/
theorem setAbove {f : Fld} {v : Nat} (hs : Kept grid s₀ s) (ho : 0x200_0000 ≤ f.off) (h : f.lsb + f.width ≤ 64 := by exact Nat.le_of_ble_eq_true rfl) :
    Kept grid s₀ (s.setFld f v) :=
  hs.setFld ⟨h, .inr (.inr (.inl ho))⟩

theorem setState {p v : Nat} (hs : Kept grid s₀ s) : Kept grid s₀ (s.setFld (BF.STATE p) v) := hs.setAbove (bfBase_le p)
theorem setEpoch {p v : Nat} (hs : Kept grid s₀ s) : Kept grid s₀ (s.setFld (BF.EPOCH p) v) := hs.setAbove (bfBase_le p)
theorem setFenceWhy {p v : Nat} (hs : Kept grid s₀ s) : Kept grid s₀ (s.setFld (BF.FENCE_WHY p) v) := hs.setAbove (bfBase_le p)
theorem setLastDesc {a v : Nat} (hs : Kept grid s₀ s) : Kept grid s₀ (s.setFld (CE.LAST_DESC a) v) :=
  hs.setAbove ((bfBase_le _).trans (Nat.le_add_right _ _))
theorem setLastStatus {a v : Nat} (hs : Kept grid s₀ s) : Kept grid s₀ (s.setFld (CE.LAST_STATUS a) v) :=
  hs.setAbove ((bfBase_le _).trans (Nat.le_add_right _ _))
/-- A field of HBM_STATUS above the temperature and the level. -/
theorem setHigh {f : Fld} {v : Nat} (hs : Kept grid s₀ s) (hl : 10 ≤ f.lsb := by exact Nat.le_of_ble_eq_true rfl)
    (h : f.lsb + f.width ≤ 64 := by exact Nat.le_of_ble_eq_true rfl) :
    Kept grid s₀ (s.setFld f v) :=
  hs.setFld ⟨h, .inl hl⟩

theorem control {p : Nat} {k : Control} {bs : List Byte} (hs : Kept grid s₀ s) : Kept grid s₀ (s.control p k bs) :=
  ite_keeps (setPort hs) hs

theorem relayAnswered {p : Nat} {r : AwayRecord} {acked : Bool} (hs : Kept grid s₀ s) : Kept grid s₀ (s.relayAnswered p r acked) :=
  ite_keeps (updHif hs) hs

theorem answerRecord {c : BitVec 16} {r : AwayRecord} (hs : Kept grid s₀ s) : Kept grid s₀ (s.answerRecord c r) := by
  unfold State.answerRecord
  split
  · exact send hs
  · exact sendReply hs

theorem answerRecords {p : Nat} {c : BitVec 16} (hs : Kept grid s₀ s) : Kept grid s₀ (s.answerRecords p c) :=
  foldl_keeps (setPort (foldl_keeps hs fun _ _ h => relayAnswered h)) fun _ _ h => answerRecord h

theorem collStop {a d : Nat} {c : BitVec 16} (hs : Kept grid s₀ s) : Kept grid s₀ (s.collStop a d c) :=
  addCause (setLastStatus (setLastDesc (setColls hs)))

theorem failColls {p : Nat} {c : BitVec 16} (hs : Kept grid s₀ s) : Kept grid s₀ (s.failColls p c) :=
  foldl_keeps hs fun _ _ h => collStop h

theorem loseChild {p : Nat} (hs : Kept grid s₀ s) : Kept grid s₀ (s.loseChild p) := hs.upd
theorem dropSource {p : Nat} (hs : Kept grid s₀ s) : Kept grid s₀ (s.dropSource p) := hs.upd

theorem resetPort {p : Nat} {full : Bool} (hs : Kept grid s₀ s) : Kept grid s₀ (s.resetPort p full) :=
  loseChild (failColls (ite_keeps (setEpoch (setPort (answerRecords hs))) (setState (setEpoch (setPort (answerRecords hs))))))

theorem fencePort {p why : Nat} (hs : Kept grid s₀ s) : Kept grid s₀ (s.fencePort p why) :=
  dropSource (loseChild (failColls (setFenceWhy (setState (setPort (answerRecords (control hs)))))))

/-! ### Cores, rows, gateways -/

theorem loseContents {t : Nat} (hs : Kept grid s₀ s) : Kept grid s₀ (s.loseContents t) := by
  unfold State.loseContents
  exact onTile (draw (draw (draw (draw (draw hs)))))

theorem resetCore {t : Nat} (hs : Kept grid s₀ s) : Kept grid s₀ (s.resetCore t) :=
  loseContents ((setTile hs).answered (.dropCopies (.answerGrants (.answerHeld .refl))))

theorem resetRouter {t : Nat} (hs : Kept grid s₀ s) : Kept grid s₀ (s.resetRouter t) :=
  foldl_keeps (foldl_keeps (setTile hs) fun _ _ h => foldl_keeps h fun _ _ h' => h'.answered (.semAnswer .refl))
    fun _ _ h => h.answered (.semAnswer .refl)

theorem retireRow {r : Nat} (hs : Kept grid s₀ s) : Kept grid s₀ (s.retireRow r) := by
  refine ite_keeps hs ?_
  extract_lets s₁ s₂ s₃
  have h₃ : Kept grid s₀ s₃ := foldl_keeps (updMoves (endJob (addCause hs))) fun _ _ h => setSpare h
  clear_value s₃
  split
  · exact h₃.upd
  · exact logGlow h₃.upd

theorem eclipseTile {phys : Nat} (hs : Kept grid s₀ s) : Kept grid s₀ (s.eclipseTile phys).1 := by
  unfold State.eclipseTile
  extract_lets r p
  split
  · exact setSpare hs
  · extract_lets s₁
    have h₁ : Kept grid s₀ s₁ := onTile (resetCore hs)
    clear_value s₁
    split
    · exact retireRow h₁
    · split
      · exact updMoves h₁
      · exact h₁

theorem loseMember {m : Nat} (hs : Kept grid s₀ s) : Kept grid s₀ (s.loseMember m) := updLh hs

theorem failGateway {g : Nat} (hs : Kept grid s₀ s) : Kept grid s₀ (s.failGateway g) :=
  ite_keeps hs (ite_keeps (updLh hs) (loseMember (logGlow (draw (draw (updLh hs))))))

/-- What a router takes with it once it is marked as failed. -/
theorem failRouter_rest {phys : Nat} (up : s.router (phys / 64) (phys % 64) = .up)
    (hs : Kept grid s₀ { s with routers := Map.set .up s.routers phys .failed }) : Kept grid s₀ (s.failRouter phys) := by
  unfold State.failRouter
  extract_lets r p s₁ s₂ u s₃ e s₄ s₅ s₆ s₇
  have h₂ : Kept grid s₀ s₂ := by
    simp only [s₂]
    split
    · exact onTile (resetRouter hs)
    · exact hs
  clear_value s₂
  have h₄ : Kept grid s₀ s₄ := logGlow (eclipseTile (setUnit h₂))
  clear_value s₄
  have h₅ : Kept grid s₀ s₅ := foldl_keeps h₄ fun _ _ h => setHigh h
  have h₇ : Kept grid s₀ s₇ := foldl_keeps (foldl_keeps h₅ fun _ _ h => fencePort h) fun _ _ h => failGateway h
  clear_value s₇
  rw [if_neg (not_not.2 up)]
  exact ite_keeps (retireRow h₇) h₇

/-- A router fails: every other thing that fails with it keeps the routers. -/
theorem failRouter {phys : Nat} (hs : Kept grid s₀ s) (hr : grid = true → s.router (phys / 64) (phys % 64) ≠ .up) :
    Kept grid s₀ (s.failRouter phys) := by
  by_cases up : s.router (phys / 64) (phys % 64) = .up
  · have hg : grid = false := by
      cases grid with
      | true => exact absurd up (hr rfl)
      | false => rfl
    subst hg
    exact failRouter_rest up (hs.trans ⟨fun h => Bool.noConfusion h, fun _ _ _ _ _ => rfl⟩)
  · have e : s.failRouter phys = s := if_pos up
    rwa [e]

/-! ### Channels, charges -/

/-- A channel's register word lies within its stack's block, past HBM_STATUS. -/
theorem setChannel {k ch o l w v : Nat} (hs : Kept grid s₀ s) (hch : ch < 16) (ho : o = hbmBase k + 0x100 + 8 * ch) (hw : l + w ≤ 64) :
    Kept grid s₀ (s.setFld ⟨o, l, w⟩ v) :=
  hs.setFld ⟨hw, .inr (.inr (.inr (by show o % 0x10_0000 ≠ 0; unfold hbmBase at ho; omega)))⟩

theorem refuseHbm {r : HbmReq} {c : BitVec 16} (hs : Kept grid s₀ s) : Kept grid s₀ (s.refuseHbm r c) := hs.answered (.refuseHbm .refl)

theorem resetChannel {k ch : Nat} (hs : Kept grid s₀ s) (hch : ch < 16) : Kept grid s₀ (s.resetChannel k ch) :=
  foldl_keeps (setChannel (setChannel (setStack hs) hch rfl (by decide)) hch rfl (by decide)) fun _ _ h => refuseHbm h

theorem eclipseChannel {k ch : Nat} (hs : Kept grid s₀ s) : Kept grid s₀ (s.eclipseChannel k ch) :=
  ite_keeps hs (ite_keeps (setHigh (setStack (setHigh hs))) (ite_keeps (setHigh hs) (logGlow (updLh (setHigh hs)))))

theorem exclude (hs : Kept grid s₀ s) : Kept grid s₀ s.exclude := by
  unfold State.exclude
  extract_lets us s₁
  have h₁ : Kept grid s₀ s₁ := foldl_keeps hs fun _ _ h => setUnit h
  clear_value s₁
  exact h₁.upd

/-- The routers stay where the unit is no router in service. -/
theorem eclipse {u : Nat} {permanent : Bool} (hs : Kept grid s₀ s)
    (hr : grid = true → u / 2 ^ 28 = 1 → s.router (u % 2 ^ 16 / 64) (u % 2 ^ 16 % 64) ≠ .up) : Kept grid s₀ (s.eclipse u permanent) := by
  unfold State.eclipse
  extract_lets e s₁ i
  have h₁ : Kept grid s₀ s₁ := setUnit hs
  have hr₁ : grid = true → u / 2 ^ 28 = 1 → s₁.router (i / 64) (i % 64) ≠ .up := hr
  have hi : i % 16 < 16 := Nat.mod_lt _ (by decide)
  clear_value s₁
  split
  · exact logGlow (eclipseTile h₁)
  next hu => exact logGlow (failRouter h₁ fun hg => hr₁ hg hu)
  · exact logGlow (eclipseChannel (resetChannel h₁ hi))
  · exact logGlow (fencePort (resetPort h₁))
  · exact ite_keeps (loseMember (logGlow h₁)) (logGlow h₁)
  · exact logGlow (exclude h₁)

theorem makePermanent {u rule : Nat} {c : BitVec 16} (hs : Kept grid s₀ s)
    (hr : grid = true → u / 2 ^ 28 = 1 → s.router (u % 2 ^ 16 / 64) (u % 2 ^ 16 % 64) ≠ .up) : Kept grid s₀ (s.makePermanent u rule c) := by
  refine ite_keeps hs ?_
  have hrtr : (s.logGlow 2 c u rule).routers = s.routers := (Answered.logGlow .refl).routers
  refine eclipse (updRel (setUnit (logGlow hs))) fun hg hu => ?_
  show Map.get .up (s.logGlow 2 c u rule).routers _ ≠ _
  rw [hrtr]
  exact hr hg hu

theorem charge {u : Nat} {c : BitVec 16} (hs : Kept grid s₀ s)
    (hr : grid = true → u / 2 ^ 28 = 1 → s.router (u % 2 ^ 16 / 64) (u % 2 ^ 16 % 64) ≠ .up) : Kept grid s₀ (s.charge u c) :=
  ite_keeps (makePermanent (setUnit hs) hr) (logGlow (setUnit hs))

end Kept
end Sys2Proof.Machine
end

section
/-! LEMMAS. The grid's commands (O44): the row maps under a move, a router that fails, cores and routers that reset. -/
namespace Sys2Proof.Machine

/-! ### Moves of a logical position (R234 to R236) -/

/-- The column map after a move. -/
def MapMove.column (m : MapMove) (moved : Map (Option Nat)) : Map (Option Nat) :=
  Map.set none moved (m.row * 60 + m.col) (if m.dest = m.col + m.col / 15 then none else some m.dest)

/-- The tile that a move takes to another core and router: it holds its next XSTART. -/
def State.movedTile (s : State) (m : MapMove) (t : Nat) : Tile :=
  { (s.tile t).onUnit (s.spare (m.row * 64 + m.dest)) with startHeld := some (s.count + BitVec.ofNat 64 s.switchTicks) }

theorem State.applyMove_unmapped {s : State} {m : MapMove} (h : s.tileAt m.row (s.physCol m.row m.col) = none) :
    s.applyMove m = { s with moved := m.column s.moved } := by
  simp only [State.applyMove, h, MapMove.column]

theorem State.applyMove_mapped {s : State} {m : MapMove} {t : Nat} (h : s.tileAt m.row (s.physCol m.row m.col) = some t) :
    ∃ spares, s.applyMove m = ({ s with moved := m.column s.moved, spares := spares } : State).setTile t (s.movedTile m t) := by
  simp only [State.applyMove, h, MapMove.column]
  exact ⟨_, rfl⟩

/-- A move names a column for its own position and for no other. -/
theorem State.physCol_applyMove (s : State) (m : MapMove) {r c : Nat} (hm : m.col < 60) (hc : c < 60) :
    (s.applyMove m).physCol r c = if (r, c) = (m.row, m.col) then m.dest else s.physCol r c := by
  have hmoved : (s.applyMove m).moved = m.column s.moved := by
    cases h : s.tileAt m.row (s.physCol m.row m.col) with
    | none => rw [State.applyMove_unmapped h]
    | some t =>
      obtain ⟨spares, e⟩ := State.applyMove_mapped h
      rw [e]; rfl
  have hkey : (r, c) = (m.row, m.col) ↔ r * 60 + c = m.row * 60 + m.col := by
    rw [Prod.mk.injEq]
    omega
  rw [State.physCol, hmoved, MapMove.column, Map.get_set]
  by_cases h : r * 60 + c = m.row * 60 + m.col
  · obtain ⟨hr', hc'⟩ := Prod.mk.inj (hkey.2 h)
    rw [if_pos h, if_pos (hkey.2 h), hc']
    split
    · exact (‹m.dest = _›).symm
    · rfl
  · rw [if_neg h, if_neg (mt hkey.1 h), State.physCol]

/-- Writing a register changes no byte and no tag. -/
theorem Tile.bytes_setFld {x y : Tile} (h : y.spad = x.spad ∧ y.tags = x.tags) (f : Fld) (v : Nat) :
    (y.setFld f v).spad = x.spad ∧ (y.setFld f v).tags = x.tags := by
  rwa [Tile.setFld_spad, Tile.setFld_tags]

theorem Tile.onUnit_bytes (x : Tile) (u : SpareUnit) : (x.onUnit u).spad = x.spad ∧ (x.onUnit u).tags = x.tags := by
  have hpowered : ∀ y : Tile, y.spad = x.spad ∧ y.tags = x.tags →
      ((y.setFld TILE.CORE_EPOCH u.coreEpoch).setFld TILE.RTR_EPOCH u.rtrEpoch).spad = x.spad
      ∧ ((y.setFld TILE.CORE_EPOCH u.coreEpoch).setFld TILE.RTR_EPOCH u.rtrEpoch).tags = x.tags :=
    fun y h => Tile.bytes_setFld (Tile.bytes_setFld h _ _) _ _
  unfold Tile.onUnit
  dsimp only
  split
  · exact hpowered _ (Tile.bytes_setFld (Tile.bytes_setFld ⟨rfl, rfl⟩ _ _) _ _)
  · exact hpowered _ ⟨rfl, rfl⟩

theorem State.movedTile_bytes (s : State) (m : MapMove) (t : Nat) :
    (s.movedTile m t).spad = (s.tile t).spad ∧ (s.movedTile m t).tags = (s.tile t).tags := by
  have h := (s.tile t).onUnit_bytes (s.spare (m.row * 64 + m.dest))
  unfold State.movedTile
  dsimp only
  exact h

/-- The tile at the place goes, every other tile stays. -/
theorem State.tile_applyMove (s : State) (m : MapMove) (u : Nat) :
    (s.applyMove m).tile u = if s.tileAt m.row (s.physCol m.row m.col) = some u then s.movedTile m u else s.tile u := by
  cases h : s.tileAt m.row (s.physCol m.row m.col) with
  | none => rw [State.applyMove_unmapped h]; rfl
  | some t =>
    obtain ⟨spares, e⟩ := State.applyMove_mapped h
    rw [e]
    by_cases hu : u = t
    · subst hu
      rw [if_pos rfl]
      exact State.tile_setTile_same _ _ _
    · rw [if_neg (fun e => hu (Option.some.inj e).symm)]
      exact State.tile_setTile_other _ _ hu

theorem State.hbm_applyMove (s : State) (m : MapMove) : (s.applyMove m).hbm = s.hbm := by
  cases h : s.tileAt m.row (s.physCol m.row m.col) with
  | none => rw [State.applyMove_unmapped h]
  | some t =>
    obtain ⟨spares, e⟩ := State.applyMove_mapped h
    rw [e]; rfl

/-- What a move is (R235, R236). -/
def MovesTo (s s' : State) (r c dest : Nat) : Prop :=
  s'.physCol r c = dest ∧ (∀ u, (s'.tile u).spad = (s.tile u).spad ∧ (s'.tile u).tags = (s.tile u).tags)
  ∧ s'.hbm = s.hbm ∧ (∀ r' c', r' < 48 → c' < 60 → (r', c') ≠ (r, c) → s'.physCol r' c' = s.physCol r' c')
  ∧ ∀ u, s.tileAt r (s.physCol r c) = some u → (s'.tile u).startHeld = some (s.count + BitVec.ofNat 64 s.switchTicks)

theorem State.applyMove_movesTo (s : State) (m : MapMove) (hm : m.col < 60) : MovesTo s (s.applyMove m) m.row m.col m.dest := by
  refine ⟨?_, fun u => ?_, s.hbm_applyMove m, fun r c _ hc hne => ?_, fun u hu => ?_⟩
  · rw [s.physCol_applyMove m hm hm, if_pos rfl]
  · rw [s.tile_applyMove m u]
    split
    · exact s.movedTile_bytes m u
    · exact ⟨rfl, rfl⟩
  · rw [s.physCol_applyMove m hm hc, if_neg hne]
  · rw [s.tile_applyMove m u, if_pos hu, State.movedTile]

theorem mapChange_moves {s : State} {m : MapMove} (hp : s.betweenPhases = true) (hb : s.fld BCN.STATE ≠ 5) (hs : s.moves = [m])
    (hm : m.col < 60) : Gives (exec .mapChange s) (fun s' => s'.moves = [] ∧ MovesTo s s' m.row m.col m.dest) := by
  refine ⟨{ s.applyMove m with moves := [] }, ?_, rfl, s.applyMove_movesTo m hm⟩
  simp only [exec, execMapChange, if_neg hb, State.changeMap, if_pos hp, hs, List.foldl]

/-- No move while a tile is in a phase or the Beacon is lost. -/
theorem mapChange_waits {s : State} (h : ¬(s.betweenPhases = true ∧ s.fld BCN.STATE ≠ 5)) : exec .mapChange s = .next s := by
  show execMapChange s = .next s
  unfold execMapChange
  split
  · rfl
  · rw [State.changeMap, if_neg fun hp => h ⟨hp, ‹_›⟩]

theorem tileSubstitute_waits {s : State} {row col : Nat} (hr : row < 48) (hc : col < 64)
    (h : ¬(s.betweenPhases = true ∧ s.fld BCN.STATE ≠ 5)) : exec (.tileSubstitute row col) s = .next s := by
  have hstay : (!s.betweenPhases || decide (s.fld BCN.STATE = 5)) = true := by
    cases hp : s.betweenPhases with
    | false => rfl
    | true => simpa [hp] using h
  show execTileSubstitute row col s = .next s
  unfold execTileSubstitute
  rw [if_neg (by omega)]
  split
  · rw [if_pos hstay]
  · rfl

section
variable {s : State} {row col u c : Nat} (hr : row < 48) (hc : col < 64) (ht : s.tileAt row col = some u)
  (hcol : s.colAt row col = some c) (hp : s.betweenPhases = true) (hb : s.fld BCN.STATE ≠ 5) (hm : s.moves = [])
include hr hc ht hcol hp hm

include hb in
/-- With no change of the maps waiting, a substitution is a move to the spare that is chosen. -/
theorem tileSubstitute_moves {q : Nat} (hq : s.chooseSpare row col = some q) :
    Gives (exec (.tileSubstitute row col) s) (fun s' => MovesTo s s' row c q) := by
  have hc60 : c < 60 := List.mem_range.1 (List.mem_of_find?_eq_some hcol)
  refine ⟨s.applyMove ⟨row, c, q⟩, ?_, s.applyMove_movesTo ⟨row, c, q⟩ hc60⟩
  show execTileSubstitute row col s = _
  unfold execTileSubstitute
  rw [if_neg (by omega), ht, hcol]
  simp [hp, hb, hm, hq]

theorem tileSubstitute_stays (hq : s.chooseSpare row col = none) : exec (.tileSubstitute row col) s = .next s := by
  show execTileSubstitute row col s = _
  unfold execTileSubstitute
  rw [if_neg (by omega), ht, hcol]
  simp [hp, hm, hq]

end

/-! ### Routers (R239) -/

/-- A change of one router is read at its own place and at no other. -/
theorem router_set {s s' : State} {row col : Nat} {v : Router} (h : s'.routers = Map.set .up s.routers (row * 64 + col) v)
    (hc : col < 64) : s'.router row col = v ∧ ∀ r c, c < 64 → (r, c) ≠ (row, col) → s'.router r c = s.router r c := by
  refine ⟨?_, fun r c hc' hne => ?_⟩
  · rw [State.router, h, Map.get_set_same]
  · rw [State.router, h, Map.get_set_other _ _ _ _ fun e => hne (Prod.mk.injEq _ _ _ _ ▸ (by omega)), State.router]

theorem routerFailure_fails {s : State} {row col : Nat} (hr : row < 48) (hc : col < 64) (up : s.router row col = .up) :
    Gives (exec (.routerFailure row col) s) (fun s' => s'.router row col = .failed
      ∧ ∀ r c, r < 48 → c < 64 → (r, c) ≠ (row, col) → s'.router r c = s.router r c) := by
  let phys := row * 64 + col
  let s₀ : State := { s with routers := Map.set .up s.routers phys .failed }
  have hrow : phys / 64 = row := by simp only [phys]; omega
  have hcol : phys % 64 = col := by simp only [phys]; omega
  have hfail : Kept true s₀ (s.failRouter phys) := Kept.failRouter_rest (by rw [hrow, hcol]; exact up) .refl
  have hunit : routerUnit phys % 2 ^ 16 = phys := by simp only [routerUnit, phys]; omega
  have hdown : (s.failRouter phys).router row col ≠ .up := by
    rw [State.router, hfail.routers rfl, show row * 64 + col = phys from rfl, Map.get_set_same]
    simp
  let s₁ := (s.failRouter phys).setUnit (routerUnit phys)
    { (s.failRouter phys).unit (routerUnit phys) with state := max 2 ((s.failRouter phys).unit (routerUnit phys)).state }
  have hall : Kept true s₀ (s₁.charge (routerUnit phys) 0) := by
    refine (Kept.setUnit hfail).charge fun _ _ => ?_
    rw [hunit, hrow, hcol]
    exact hdown
  obtain ⟨hself, hothers⟩ := router_set (s := s) (row := row) (v := .failed) (hall.routers rfl) hc
  refine ⟨s₁.charge (routerUnit phys) 0, ?_, hself, fun r c _ hc' hne => hothers r c hc' hne⟩
  show execRouterFailure row col s = _
  unfold execRouterFailure
  rw [if_neg (by omega), if_neg (by simp [up])]

theorem routerBypassSwitch_bypasses {s : State} {row col : Nat} (hr : row < 48) (hc : col < 64) (down : s.router row col = .failed) :
    Gives (exec (.routerBypassSwitch row col) s) (fun s' => s'.router row col = .bypassed
      ∧ (∀ r c, r < 48 → c < 64 → (r, c) ≠ (row, col) → s'.router r c = s.router r c) ∧ s'.tiles = s.tiles) := by
  let s' : State := { s with routers := Map.set .up s.routers (row * 64 + col) .bypassed }
  obtain ⟨hself, hothers⟩ := router_set (s := s) (s' := s') (row := row) (v := .bypassed) rfl hc
  refine ⟨s', ?_, hself, fun r c _ hc' hne => hothers r c hc' hne, rfl⟩
  show execRouterBypassSwitch row col s = _
  unfold execRouterBypassSwitch
  rw [if_neg (by omega), if_pos down]

/-! ### Router resets (R36, R39, R73, R263) -/

/-- What a router reset leaves of its tile. -/
def Tile.routerReset (x : Tile) (now : BitVec 64) : Tile :=
  { x.setFld TILE.RTR_EPOCH ((x.fld TILE.RTR_EPOCH + 1) % 2 ^ 16) with sems := [], semOps := [], rtrReady := false, rtrResetAt := now }

/-- Beyond its own tile a router that resets answers what it held. -/
theorem State.resetRouter_answered (s : State) (t : Nat) :
    Answered (s.setTile t ((s.tile t).routerReset s.count)) (s.resetRouter t) :=
  foldl_keeps (foldl_keeps .refl fun _ _ h => foldl_keeps h fun _ _ h' => h'.semAnswer) fun _ _ h => h.semAnswer

theorem routerReset_mapped {s : State} {row col u : Nat} (hr : row < 48) (hc : col < 64) (ht : s.tileAt row col = some u) :
    Gives (exec (.routerReset row col) s) (fun s' => (s'.tile u).fld TILE.RTR_EPOCH = ((s.tile u).fld TILE.RTR_EPOCH + 1) % 2 ^ 16
      ∧ (s'.tile u).sems = [] ∧ (s'.tile u).semOps = [] ∧ (s'.tile u).rtrReady = false ∧ (s'.tile u).rtrResetAt = s.count
      ∧ ∀ v, (s'.tile v).spad = (s.tile v).spad ∧ (s'.tile v).s = (s.tile v).s ∧ (s'.tile v).v = (s.tile v).v) := by
  let s₁ := s.setTile u ((s.tile u).routerReset s.count)
  let s₂ := (s.resetRouter u).logGlow 0x0D 0 (routerUnit (row * 64 + col)) (((s.resetRouter u).tile u).fld TILE.RTR_EPOCH)
  have hans : Answered s₁ s₂ := (s.resetRouter_answered u).logGlow
  have hself : s₁.tile u = (s.tile u).routerReset s.count := State.tile_setTile_same _ _ _
  obtain ⟨m, hm⟩ := hans.tile u
  rw [hself] at hm
  refine ⟨s₂, ?_, ?_, congrArg Tile.sems hm, congrArg Tile.semOps hm, congrArg Tile.rtrReady hm, congrArg Tile.rtrResetAt hm,
    fun v => ?_⟩
  · show execRouterReset row col s = _
    unfold execRouterReset
    rw [if_neg (by omega), ht]
  · rw [hans.tileFld, hself]
    refine ((s.tile u).fld_setFld_same TILE.RTR_EPOCH _ (by decide)).trans ?_
    exact Nat.mod_mod _ _
  · obtain ⟨m', hm'⟩ := hans.tile v
    rw [hm']
    by_cases hv : v = u
    · subst hv; rw [hself]; exact ⟨rfl, rfl, rfl⟩
    · rw [State.tile_setTile_other _ _ hv]; exact ⟨rfl, rfl, rfl⟩

theorem State.spare_setSpare_same (s : State) (u : Nat) (x : SpareUnit) : (s.setSpare u x).spare u = x := Map.get_set_same ..

/-- The router of a spare resets in its own record. -/
theorem routerReset_spare {s : State} {row col : Nat} (hr : row < 48) (hc : col < 64) (ht : s.tileAt row col = none) :
    Gives (exec (.routerReset row col) s) (fun s' => s'.spare (row * 64 + col) = { s.spare (row * 64 + col) with
      rtrEpoch := ((s.spare (row * 64 + col)).rtrEpoch + 1) % 2 ^ 16, rtrResetAt := s.count, rtrReady := false } ∧ s'.tiles = s.tiles) := by
  let s₁ := s.resetSpareRouter (row * 64 + col)
  let s₂ := s₁.logGlow 0x0D 0 (routerUnit (row * 64 + col)) (s₁.spare (row * 64 + col)).rtrEpoch
  have hspares : s₂.spares = s₁.spares := (Answered.logGlow .refl).spares
  refine ⟨s₂, ?_, ?_, State.tiles_logGlow _ _ _ _ _⟩
  · show execRouterReset row col s = _
    unfold execRouterReset
    rw [if_neg (by omega), ht]
  · rw [State.spare, hspares]
    exact State.spare_setSpare_same _ _ _

theorem routerReady_mapped {s : State} {row col u : Nat} (hr : row < 48) (hc : col < 64) (ht : s.tileAt row col = some u)
    (hp : s.pwr.state = .p0) :
    Gives (exec (.routerReady row col) s) (fun s' => OnlyTile u s s' ∧ s'.tile u = { (s.tile u) with rtrReady := true }) := by
  refine ⟨s.onTile u (fun x => { x with rtrReady := true }), ?_, OnlyTile.setTile _ _ _, State.tile_onTile_same _ _ _⟩
  show execRouterReady row col s = _
  unfold execRouterReady
  rw [if_neg (by omega), if_neg (not_not.2 hp), ht]

theorem routerReady_spare {s : State} {row col : Nat} (hr : row < 48) (hc : col < 64) (ht : s.tileAt row col = none)
    (hp : s.pwr.state = .p0) :
    Gives (exec (.routerReady row col) s) (fun s' =>
      s'.spare (row * 64 + col) = { s.spare (row * 64 + col) with rtrReady := true } ∧ s'.tiles = s.tiles) := by
  refine ⟨s.spareRouterReady (row * 64 + col), ?_, State.spare_setSpare_same _ _ _, rfl⟩
  show execRouterReady row col s = _
  unfold execRouterReady
  rw [if_neg (by omega), if_neg (not_not.2 hp), ht]

/-! ### Core resets (R36, R39, R71, R72) -/

/-- A map under writes of all keys below `n`. -/
theorem get_foldl_set_range {α : Type} [DecidableEq α] (d : α) (f : Nat → α) (m : Map α) (n k : Nat) :
    Map.get d ((List.range n).foldl (fun m w => Map.set d m w (f w)) m) k = if k < n then f k else Map.get d m k := by
  induction n with
  | zero => rfl
  | succ n ih =>
    rw [List.range_succ, List.foldl_append]
    simp only [List.foldl]
    rw [Map.get_set, ih]
    by_cases h : k = n
    · rw [if_pos h, if_pos (by omega), h]
    · rw [if_neg h]
      by_cases hk : k < n
      · rw [if_pos hk, if_pos (by omega)]
      · rw [if_neg hk, if_neg (by omega)]

/-- A window after all have closed (R72). -/
theorem Tile.window_closeAll (x : Tile) {k : Nat} (hk : k < 64) :
    x.closeAll.window k = { x.window k with st := .closed, gen := (x.window k).gen + 1, granted := 0, held := none } := by
  show Map.get {} ((List.range 64).foldl (fun m w => Map.set {} m w
    { x.window w with st := .closed, gen := (x.window w).gen + 1, granted := 0, held := none }) x.wins) k = _
  rw [get_foldl_set_range, if_pos hk]

/-- What the register writes of a core reset keep. -/
structure SameStores (x y : Tile) : Prop where
  tags : y.tags = x.tags
  wins : y.wins = x.wins
  sems : y.sems = x.sems
  resetAt : y.resetAt = x.resetAt
  halted : y.halted = x.halted

theorem SameStores.wr {x y : Tile} (h : SameStores x y) (o : Nat) (v : Word) : SameStores x (y.wr o v) :=
  ⟨h.tags, h.wins, h.sems, h.resetAt, h.halted⟩

theorem SameStores.setFld {x y : Tile} (h : SameStores x y) (f : Fld) (v : Nat) : SameStores x (y.setFld f v) := h.wr _ _

/-- The tile after a core reset, but for the contents that are lost. -/
theorem Tile.afterReset_stores (x : Tile) (now : BitVec 64) :
    SameStores { tags := [], wins := x.closeAll.wins, sems := x.sems, resetAt := now, halted := true } (x.afterReset now) := by
  unfold Tile.afterReset
  refine foldl_keeps (P := SameStores _) (SameStores.wr (SameStores.setFld (SameStores.setFld ?_ _ _) _ _) _ _)
    fun _ _ h => h.setFld _ _
  exact ⟨rfl, rfl, rfl, rfl, rfl⟩

/-- Its epoch is one on and it is not ready: the words written after them stand elsewhere. -/
theorem Tile.afterReset_core (x : Tile) (now : BitVec 64) :
    (x.afterReset now).fld TILE.CORE_EPOCH = (x.fld TILE.CORE_EPOCH + 1) % 2 ^ 16 ∧ (x.afterReset now).fld TILE.CORE_READY = 0 := by
  unfold Tile.afterReset
  extract_lets u v
  have hv : v.fld TILE.CORE_EPOCH = (x.fld TILE.CORE_EPOCH + 1) % 2 ^ 16 ∧ v.fld TILE.CORE_READY = 0 := by
    constructor
    · show bits (Tile.rd (Tile.wr _ 0x308 0) 0x40).toNat 0 16 = _
      rw [Tile.rd_wr_other _ _ (by decide)]
      refine (Tile.fld_setFld_other _ (f := TILE.CORE_READY) (g := TILE.CORE_EPOCH) 0 (by decide) (.inr (.inr (by decide)))).trans ?_
      exact (Tile.fld_setFld_same _ TILE.CORE_EPOCH _ (by decide)).trans (Nat.mod_mod _ _)
    · show bits (Tile.rd (Tile.wr _ 0x308 0) 0x40).toNat 32 1 = _
      rw [Tile.rd_wr_other _ _ (by decide)]
      exact Tile.fld_setFld_same _ TILE.CORE_READY 0 (by decide)
  clear_value v
  refine foldl_keeps (P := fun y : Tile => y.fld TILE.CORE_EPOCH = _ ∧ y.fld TILE.CORE_READY = 0) hv fun y k ⟨hepoch, hready⟩ => ?_
  have hword : (y.setFld (anchorSet k) 0).rd 0x40 = y.rd 0x40 := Tile.rd_wr_other _ _ (by simp [anchorSet])
  have hfld : ∀ f : Fld, f.off = 0x40 → (y.setFld (anchorSet k) 0).fld f = y.fld f := fun f hf => by simp only [Tile.fld, hf, hword]
  exact ⟨(hfld _ rfl).trans hepoch, (hfld _ rfl).trans hready⟩

/-- Contents that are lost are the bytes and the registers of one tile. -/
theorem State.loseContents_eq (s : State) (t : Nat) : ∃ n spad r p v acc, s.loseContents t =
    ({ s with free := n } : State).onTile t (fun x => { x with spad := spad, s := r, p := p, v := v, acc := acc }) := by
  unfold State.loseContents
  exact ⟨_, _, _, _, _, _, rfl⟩

theorem tileCoreReset_resets {s : State} {t : Nat} (ht : t < s.tileCount) :
    Gives (exec (.tileCoreReset t) s) (fun s' =>
      (s'.tile t).fld TILE.CORE_EPOCH = ((s.tile t).fld TILE.CORE_EPOCH + 1) % 2 ^ 16 ∧ (s'.tile t).fld TILE.CORE_READY = 0
      ∧ (∀ k, (s'.tile t).full k = false)
      ∧ (∀ k, k < 64 → ((s'.tile t).window k).st = .closed ∧ ((s'.tile t).window k).gen = ((s.tile t).window k).gen + 1)
      ∧ (s'.tile t).resetAt = s.count ∧ (s'.tile t).halted = true ∧ (s'.tile t).sems = (s.tile t).sems ∧ s'.hbm = s.hbm
      ∧ ∀ u, u ≠ t → (s'.tile u).spad = (s.tile u).spad ∧ (s'.tile u).s = (s.tile u).s ∧ (s'.tile u).tags = (s.tile u).tags) := by
  let x := s.tile t
  let s₁ := s.setTile t (x.afterReset s.count)
  let s₂ := ((s₁.answerHeld t (x.writes ++ x.heldWrites) x.reads).answerGrants x.mail).dropCopies t x
  have hans : Answered s₁ s₂ := Answered.refl.answerHeld.answerGrants.dropCopies
  obtain ⟨n, spad, r, p, v, acc, hlose⟩ := s₂.loseContents_eq t
  let s₃ := s.resetCore t
  have hs₃ : s₃ = _ := hlose
  let s₄ := s₃.logGlow 0x0D 0 (coreUnit (s₃.physOf t)) ((s₃.tile t).fld TILE.CORE_EPOCH)
  have hlog : Answered s₃ s₄ := .logGlow .refl
  -- the tile itself: the contents are lost, the rest is as after the reset but for mail
  obtain ⟨m, hm⟩ := hans.tile t
  obtain ⟨m', hm'⟩ := hlog.tile t
  have hstores := x.afterReset_stores s.count
  have hcore := x.afterReset_core s.count
  have hx : s₁.tile t = x.afterReset s.count := State.tile_setTile_same _ _ _
  generalize x.afterReset s.count = y at hstores hcore hx
  obtain ⟨htags, hwins, hsems, hreset, hhalted⟩ := hstores
  obtain ⟨hepoch, hready⟩ := hcore
  have hfree : ∀ u, ({ s₂ with free := n } : State).tile u = s₂.tile u := fun _ => rfl
  have hself : s₄.tile t = { y with mail := m', spad := spad, s := r, p := p, v := v, acc := acc } := by
    rw [hm', hs₃, State.tile_onTile_same, hfree, hm, hx]
  refine ⟨s₄, ?_, ?_, ?_, fun k => ?_, fun k hk => ?_, ?_, ?_, ?_, ?_, fun u hu => ?_⟩
  · show execTileCoreReset t s = _
    unfold execTileCoreReset
    rw [if_neg (Nat.not_le.2 ht)]
  · rw [hself]; exact hepoch
  · rw [hself]; exact hready
  · rw [hself]
    show Map.get false y.tags k = false
    rw [htags]; rfl
  · have hw : (s₄.tile t).window k = x.closeAll.window k := by
      rw [hself]
      show Map.get {} y.wins k = _
      rw [hwins]; rfl
    rw [hw, Tile.window_closeAll x hk]
    exact ⟨rfl, rfl⟩
  · rw [hself]; exact hreset
  · rw [hself]; exact hhalted
  · rw [hself]; exact hsems
  · rw [hlog.hbm, hs₃]
    exact hans.hbm
  · obtain ⟨m₁, hm₁⟩ := hlog.tile u
    obtain ⟨m₂, hm₂⟩ := hans.tile u
    rw [hm₁, hs₃, State.tile_onTile_other _ _ hu, hfree, hm₂, State.tile_setTile_other _ _ hu]
    exact ⟨rfl, rfl, rfl⟩

theorem tileCoreReady_powered {s : State} {t : Nat} (ht : t < s.tileCount) (hp : s.pwr.state = .p0)
    (hr : (s.tile t).fld TILE.CORE_READY = 0) (hpw : (s.tile t).fld TILE.CORE_PWR = 1) (hsaved : s.savedTile t = none) (hj : s.job = none) :
    Gives (exec (.tileCoreReady t) s) (fun s' => OnlyTile t s s' ∧ s'.tile t = (s.tile t).setFld TILE.CORE_READY 1) := by
  refine ⟨s.setTile t ((s.tile t).setFld TILE.CORE_READY 1), ?_, OnlyTile.setTile _ _ _, State.tile_setTile_same _ _ _⟩
  show execTileCoreReady t s = _
  have hjob : ∀ x, (s.setTile t x).job = none := fun _ => hj
  unfold execTileCoreReady
  rw [if_neg (Nat.not_le.2 ht), if_neg (by simp [hp, hr, hpw]), State.coreReady, hsaved]
  simp only [hjob]

theorem tileCoreReady_unpowered {s : State} {t : Nat} (ht : t < s.tileCount) (hpw : (s.tile t).fld TILE.CORE_PWR = 0) :
    exec (.tileCoreReady t) s = .next s := by
  show execTileCoreReady t s = _
  unfold execTileCoreReady
  rw [if_neg (Nat.not_le.2 ht), if_pos (.inr (.inr hpw))]

/-- Settles O44: a lemma for each command, the row maps read through the move, the rest through what answers leave. -/
theorem gridCommands : Obligations.GridCommands := by
  unfold Obligations.GridCommands
  intro t row col s x moves others mayMove
  refine ⟨fun m ⟨hp, hb⟩ hs _ hc => mapChange_moves hp hb hs hc,
    fun h => ⟨mapChange_waits h, fun hr hc => tileSubstitute_waits hr hc h⟩, fun hr hc => ⟨?substitute, routerFailure_fails hr hc,
      routerBypassSwitch_bypasses hr hc, ?mapped, ?spare⟩, fun ht => tileCoreReset_resets ht, ?ready⟩
  case substitute =>
    exact fun u c ht hcol ⟨hp, hb⟩ hm => ⟨fun q hq => tileSubstitute_moves hr hc ht hcol hp hb hm hq,
      fun hq => tileSubstitute_stays hr hc ht hcol hp hm hq⟩
  case mapped => exact fun u ht => ⟨routerReset_mapped hr hc ht, fun hp => routerReady_mapped hr hc ht hp⟩
  case spare => exact fun ht => ⟨routerReset_spare hr hc ht, fun hp => routerReady_spare hr hc ht hp⟩
  case ready =>
    exact fun ht hp hr => ⟨fun hpw hsaved hj => tileCoreReady_powered ht hp hr hpw hsaved hj, fun hpw => tileCoreReady_unpowered ht hpw⟩

end Sys2Proof.Machine
end

section
/-! LEMMAS. One request of a channel queue (O45; R279, R290 to R292): a read or a write within one block that holds no
storage error and lies in no version region. -/
namespace Sys2Proof.Machine

@[simp] theorem State.stack_setStack_same (s : State) (k : Nat) (x : Stack) : (s.setStack k x).stack k = x := Map.get_set_same ..
theorem State.stack_setStack_other (s : State) {k j : Nat} (x : Stack) (h : j ≠ k) : (s.setStack k x).stack j = s.stack j :=
  Map.get_set_other _ _ _ _ h

/-- Of a stack that holds one request its channel takes that one. -/
theorem State.takeHbm_single {s : State} {k ch : Nat} {r : HbmReq} (h : (s.stack k).queue = [(ch, r)]) :
    ∃ turn, s.takeHbm k ch = some (r, s.setStack k { s.stack k with queue := [], turn := turn }) := by
  have hnext : (s.stack k).next ch = some (ch, r) := by
    unfold Stack.next
    rw [h]
    cases hn : r.near <;> simp [hn]
  refine ⟨Map.set 0 (s.stack k).turn ch (r.index + 1), ?_⟩
  simp only [State.takeHbm, hnext, h, List.erase_cons_head]

/-- A block lies in no region where none is in use, and its storage holds no error. -/
structure State.Clean (s : State) : Prop where
  bad : s.hbmBad = []
  soft : s.hbmSoft = []
  vregs : s.vregs = []
  wf : Memory.wf s.hbm = true

namespace State.Clean
variable {s : State} (hc : s.Clean)
include hc

theorem checkBursts (a n : Nat) : s.checkBursts a n = s := by simp [State.checkBursts, keysIn, hc.bad, hc.soft]

theorem coverBursts (a n : Nat) : s.coverBursts a n = s := by
  have hsame : ∀ b c, b = s.hbmBad → c = s.hbmSoft → ({ s with hbmBad := b, hbmSoft := c } : State) = s := by
    rintro _ _ rfl rfl; rfl
  simp only [State.coverBursts, hc.bad, hc.soft, List.filter_nil]
  rw [hsame _ _ hc.bad.symm hc.soft.symm, hc.checkBursts]

theorem touchesRegion (a n : Nat) : s.touchesRegion a n = false := by simp [State.touchesRegion, hc.vregs]

theorem regionOfBlock (b : Nat) : s.regionOfBlock b = none := by simp [State.regionOfBlock, hc.vregs]

end State.Clean

/-- Bytes within one block are one piece. -/
theorem blockPieces_single {a n : Nat} (h0 : 0 < n) (h : a % 4096 + n ≤ 4096) : blockPieces a n = [(a, n)] := by
  have hone : (a + n + 4095) / 4096 - a / 4096 = 1 := by omega
  have hmax : max a (a / 4096 * 4096) = a := by omega
  have hmin : min (a + n) ((a / 4096 + 1) * 4096) - a = n := by omega
  simp [blockPieces, hone, hmax, hmin]

section
variable {s : State} {a : Nat} (hc : s.Clean)
include hc

theorem State.readPart_clean (n : Nat) (hl : s.channelLost (a / 4096) = false) :
    s.readPart a n = ⟨s, 0, readRun 0 s.hbm a n, s.haloOf (a / 4096)⟩ := by
  simp [State.readPart, hc.checkBursts, hl]

/-- A plain read of a block: its bytes, or POISON_CONSUMED. -/
theorem State.gatherPlain_clean {n : Nat} (h0 : 0 < n) (h : a % 4096 + n ≤ 4096) (hl : s.channelLost (a / 4096) = false) :
    s.gatherPlain a n = { st := s, status := if haloPoison (s.haloOf (a / 4096)) then Status.POISON_CONSUMED else 0
                          data := readRun 0 s.hbm a n } := by
  simp [State.gatherPlain, hc.touchesRegion, blockPieces_single h0 h, s.readPart_clean hc n hl]

variable {r : HbmReq}

theorem State.serveReq_read (hw : r.write = none) (hh : r.halo = false) (h0 : 0 < r.len) (h : r.addr.toNat % 4096 + r.len ≤ 4096)
    (hl : s.channelLost (r.addr.toNat / 4096) = false) :
    s.serveReq r = if haloPoison (s.haloOf (r.addr.toNat / 4096)) then s.refuseHbm r Status.POISON_CONSUMED
      else s.replyRead r (readRun 0 s.hbm r.addr.toNat r.len) := by
  unfold State.serveReq
  rw [hw]
  simp only [hh, Bool.false_eq_true, if_false, s.gatherPlain_clean hc h0 h hl]
  cases haloPoison (s.haloOf (r.addr.toNat / 4096)) with
  | true => exact if_pos (show Status.POISON_CONSUMED ≠ 0 by decide)
  | false => simp

/-- A plain write of a block that is not poisoned: its bytes, and BARE set. -/
theorem State.writePart_clean (bs : List Byte) (hp : haloPoison (s.haloOf (a / 4096)) = false) :
    s.writePart a bs = ({ s with hbm := writeRun 0 s.hbm a bs } : State).setHalo (a / 4096) (haloPut (s.haloOf (a / 4096)) 97 1 1) := by
  have hclear : s.clearPoison (a / 4096) = s := by simp [State.clearPoison, hp]
  simp only [State.writePart, hc.coverBursts, hclear, ite_self]
  rfl

theorem State.serveReq_writePlain {bs : List Byte} (hw : r.write = some bs) (hh : r.halo = false) (h0 : 0 < bs.length)
    (h : r.addr.toNat % 4096 + bs.length ≤ 4096) (hp : haloPoison (s.haloOf (r.addr.toNat / 4096)) = false) :
    s.serveReq r = (({ s with hbm := writeRun 0 s.hbm r.addr.toNat bs } : State).setHalo (r.addr.toNat / 4096)
      (haloPut (s.haloOf (r.addr.toNat / 4096)) 97 1 1)).answerTo r.sender 0 0 none := by
  unfold State.serveReq
  rw [hw]
  simp [hh, hc.touchesRegion, blockPieces_single h0 h, s.writePart_clean hc bs hp]

/-- A whole block with its Halo: the bytes and the Halo named. -/
theorem State.storeBlock_clean {b : Nat} (bs : List Byte) (h : BitVec 256) (hp : haloPoison (s.haloOf b) = false) :
    s.storeBlock b bs h = ({ s with hbm := writeRun 0 s.hbm (b * 4096) bs } : State).setHalo b h := by
  have hclear : s.clearPoison b = s := by simp [State.clearPoison, hp]
  simp only [State.storeBlock, hc.coverBursts, hclear]

theorem State.writeArrival_clean {bs : List Byte} {h : BitVec 256} (hlen : bs.length = 4096) (hm : haloMatches bs h = true)
    (hph : haloPoison h = false) (hp : haloPoison (s.haloOf (r.addr.toNat / 4096)) = false) :
    s.writeArrival r (bs ++ bytesOf h.toNat 32) =
      (({ s with hbm := writeRun 0 s.hbm (r.addr.toNat / 4096 * 4096) bs } : State).setHalo (r.addr.toNat / 4096)
        (buildHalo bs r.gen.toNat r.lepoch.toNat 0), 0) := by
  have hone : (bs ++ bytesOf h.toNat 32).length / 4128 = 1 := by simp [hlen]
  have hdata : (bs ++ bytesOf h.toNat 32).take 4096 = bs := by rw [← hlen]; exact List.take_left
  have hhalo : BitVec.ofNat 256 (ofBytes (((bs ++ bytesOf h.toNat 32).drop 4096).take 32)) = h := by
    rw [← hlen, List.drop_left, List.take_of_length_le (by simp), ofBytes_bytesOf, Nat.mod_eq_of_lt (by exact h.isLt)]
    simp
  have hblock : s.writeBlock (r.addr.toNat / 4096) bs r.gen.toNat r.lepoch.toNat none =
      (({ s with hbm := writeRun 0 s.hbm (r.addr.toNat / 4096 * 4096) bs } : State).setHalo (r.addr.toNat / 4096)
        (buildHalo bs r.gen.toNat r.lepoch.toNat 0), 0) := by
    simp only [State.writeBlock, hc.regionOfBlock, s.storeBlock_clean hc _ _ hp]
  unfold State.writeArrival
  simp only [hone, List.range_one, List.foldl, Nat.mul_zero, Nat.add_zero, Nat.mul_one, List.drop_zero, hdata, hhalo, hm, hph,
    Bool.not_true, Bool.false_eq_true, if_false, hblock]
  simp

theorem State.serveReq_writeBlock {bs : List Byte} {h : BitVec 256} (hw : r.write = some (bs ++ bytesOf h.toNat 32)) (hh : r.halo = true)
    (ha : r.addr.toNat % 4096 = 0) (hlen : bs.length = 4096) (hm : haloMatches bs h = true)
    (hph : haloPoison h = false) (hp : haloPoison (s.haloOf (r.addr.toNat / 4096)) = false) :
    s.serveReq r = (({ s with hbm := writeRun 0 s.hbm r.addr.toNat bs } : State).setHalo (r.addr.toNat / 4096)
      (buildHalo bs r.gen.toNat r.lepoch.toNat 0)).answerTo r.sender 0 0 none := by
  have haddr : r.addr.toNat / 4096 * 4096 = r.addr.toNat := by omega
  unfold State.serveReq
  rw [hw]
  simp only [hh, if_true, s.writeArrival_clean hc hlen hm hph hp, haddr, ne_eq, not_true_eq_false, if_false]

end

/-! ### The queue's next request -/

/-- One request waits at a stack that serves. -/
structure Asks (s : State) (k ch : Nat) (r : HbmReq) : Prop where
  stack : k < 16
  channel : ch < 16
  active : s.pwr.state = .p0
  level : s.fld (HBM.TLEVEL k) ≠ 3
  queue : (s.stack k).queue = [(ch, r)]

/-- What taking the request leaves of everything that its service reads. -/
structure Taken (s : State) (k : Nat) (z : State) : Prop where
  rest : { z with hbmStacks := s.hbmStacks } = s
  queue : (z.stack k).queue = []
  copying : ∀ j, (z.stack j).copying = (s.stack j).copying

namespace Taken
variable {s z : State} {k : Nat} (h : Taken s k z)
include h

theorem hbm : z.hbm = s.hbm := (congrArg State.hbm h.rest :)
theorem halo : z.halo = s.halo := (congrArg State.halo h.rest :)
theorem tiles : z.tiles = s.tiles := (congrArg State.tiles h.rest :)
theorem regs : z.regs = s.regs := (congrArg State.regs h.rest :)

theorem haloOf (b : Nat) : z.haloOf b = s.haloOf b := by simp only [State.haloOf, h.halo]
theorem tile (t : Nat) : z.tile t = s.tile t := by simp only [State.tile, h.tiles]

theorem clean (hc : s.Clean) : z.Clean :=
  ⟨(congrArg State.hbmBad h.rest :).trans hc.bad, (congrArg State.hbmSoft h.rest :).trans hc.soft,
    by rw [State.vregs, h.regs]; exact hc.vregs, by rw [h.hbm]; exact hc.wf⟩

theorem channelLost (b : Nat) : z.channelLost b = s.channelLost b := by
  have hfld : ∀ f, z.fld f = s.fld f := fun f => State.fld_congr h.regs f
  have hphys : ∀ k c, z.physChannel k c = s.physChannel k c := fun k c => by rw [State.physChannel, hfld, hfld, State.physChannel]
  have hchan : z.channelOf b = s.channelOf b := by rw [State.channelOf, State.place, hfld, hphys]; rfl
  rw [State.channelLost, hchan, hfld, h.copying, State.channelLost]

end Taken

theorem Asks.taken {s : State} {k ch : Nat} {r : HbmReq} (h : Asks s k ch r) : ∃ z, s.takeHbm k ch = some (r, z) ∧ Taken s k z := by
  obtain ⟨turn, ht⟩ := State.takeHbm_single h.queue
  refine ⟨_, ht, rfl, by simp, fun j => ?_⟩
  by_cases hj : j = k
  · subst hj; simp
  · rw [State.stack_setStack_other _ _ hj]

theorem Asks.hbmRead {s : State} {k ch : Nat} {r : HbmReq} (h : Asks s k ch r) (hw : r.write = none) :
    ∃ z, Taken s k z ∧ exec (.hbmRead k ch) s = .next (z.serveReq r) := by
  obtain ⟨z, hz, htaken⟩ := h.taken
  obtain ⟨hk, hch, hp, hl, -⟩ := h
  refine ⟨z, htaken, ?_⟩
  show execHbmRead k ch s = _
  simp [execHbmRead, serveNext, State.hbmActive, Nat.not_le.2 hk, Nat.not_le.2 hch, hp, hl, hz, hw]

theorem Asks.hbmWrite {s : State} {k ch : Nat} {r : HbmReq} {bs : List Byte} (h : Asks s k ch r) (hw : r.write = some bs) :
    ∃ z, Taken s k z ∧ exec (.hbmWrite k ch) s = .next (z.serveReq r) := by
  obtain ⟨z, hz, htaken⟩ := h.taken
  obtain ⟨hk, hch, hp, hl, -⟩ := h
  refine ⟨z, htaken, ?_⟩
  show execHbmWrite k ch s = _
  simp [execHbmWrite, serveNext, State.hbmActive, Nat.not_le.2 hk, Nat.not_le.2 hch, hp, hl, hz, hw]

/-- A stack at level 3, and one outside P0, serves nothing. -/
theorem hbm_asleep {s : State} {k ch : Nat} (hk : k < 16) (hch : ch < 16) (h : s.fld (HBM.TLEVEL k) = 3 ∨ s.pwr.state ≠ .p0) :
    exec (.hbmRead k ch) s = .next s ∧ exec (.hbmWrite k ch) s = .next s := by
  have hserve : ∀ w, serveNext w k ch s = .next s := by
    intro w
    unfold serveNext
    rw [if_neg (by omega), if_pos (by simpa [State.hbmActive] using h)]
  exact ⟨hserve false, hserve true⟩

section
variable {s : State} {k ch : Nat} {r : HbmReq} {st : Stamp} {d : LoadDst} (hasks : Asks s k ch r) (hc : s.Clean)
include hasks hc

/-- A read of an unpoisoned block is answered with its bytes, of a poisoned one with POISON_CONSUMED. -/
theorem hbmRead_answers (h0 : 0 < r.len) (hin : r.addr.toNat % 4096 + r.len ≤ 4096)
    (hl : s.channelLost (r.addr.toNat / 4096) = false) (hw : r.write = none) (hh : r.halo = false) (hs : r.sender = .message st 0)
    (hd : r.dst = some d) (m : Msg)
    (hm : m = if haloPoison (s.haloOf (r.addr.toNat / 4096)) then .load st d r.pc Status.POISON_CONSUMED []
      else .load st d r.pc 0 ((List.range r.len).map (fun i => Map.get 0 s.hbm (r.addr.toNat + i)))) :
    Gives (exec (.hbmRead k ch) s) (fun z => ((z.tile st.tile).mail = (s.tile st.tile).mail ++ [m] ∧ (z.stack k).queue = [])
      ∧ z.hbm = s.hbm ∧ z.halo = s.halo) := by
  obtain ⟨z, ht, he⟩ := hasks.hbmRead hw
  have hwf : Map.risesFrom 0 s.hbm = true := by
    have := hc.wf
    simp only [Memory.wf, Map.wf, Bool.and_eq_true] at this
    exact this.1
  have hserved : z.serveReq r = z.send st.tile m := by
    rw [z.serveReq_read (ht.clean hc) hw hh h0 hin (by rw [ht.channelLost, hl]), ht.haloOf, ht.hbm, readRun_eq 0 s.hbm _ _ hwf, hm]
    split <;> simp [State.refuseHbm, State.replyRead, hs, hd]
  refine ⟨z.serveReq r, he, ?_⟩
  rw [hserved]
  exact ⟨⟨by rw [State.mail_send, ht.tile], ht.queue⟩, ht.hbm, ht.halo⟩

omit hc in
/-- What a write that is stored leaves. -/
theorem hbmWrite_stored {data bs : List Byte} {h : BitVec 256} (hw : r.write = some data) (hs : r.sender = .dma st 0)
    (hserved : ∀ z, Taken s k z → z.serveReq r =
      (({ z with hbm := writeRun 0 z.hbm r.addr.toNat bs } : State).setHalo (r.addr.toNat / 4096) h).answerTo r.sender 0 0 none) :
    Gives (exec (.hbmWrite k ch) s) (fun z =>
      ((z.tile st.tile).mail = (s.tile st.tile).mail ++ [.answer (.dma st 0) 0 0 none] ∧ (z.stack k).queue = [])
      ∧ (∀ i, Map.get 0 z.hbm i = if r.addr.toNat ≤ i ∧ i < r.addr.toNat + bs.length then bs.getD (i - r.addr.toNat) 0
          else Map.get 0 s.hbm i)
      ∧ z.haloOf (r.addr.toNat / 4096) = h ∧ (∀ b, b ≠ r.addr.toNat / 4096 → z.haloOf b = s.haloOf b)) := by
  obtain ⟨z, ht, he⟩ := hasks.hbmWrite hw
  refine ⟨z.serveReq r, he, ?_⟩
  rw [hserved z ht, hs]
  refine ⟨⟨?_, ht.queue⟩, fun i => ?_, Map.get_set_same .., fun b hb => ?_⟩
  · exact (State.mail_send _ _ _).trans (by rw [← ht.tile]; rfl)
  · exact (get_writeRun 0 z.hbm _ bs i).trans (by rw [ht.hbm])
  · exact (Map.get_set_other _ _ _ _ hb).trans (ht.haloOf b)

end

/-- BARE reads 1 once it was set. -/
theorem haloBare_put (h : BitVec 256) : haloBare (haloPut h 97 1 1) = true := by
  have hlt : putBits h.toNat 97 1 1 < 2 ^ 256 := putBits_lt h.isLt (by decide)
  rw [haloBare, haloPut, BitVec.toNat_ofNat, Nat.mod_eq_of_lt hlt, bit, testBit_putBits]
  simp

end Sys2Proof.Machine
end

section
/-! LEMMAS. Sparing, resets, poison and scrubbing of channels (O45; R281, R283, R285, R286, R292). -/
namespace Sys2Proof.Machine

/-! ### Fields of one register -/

theorem State.fld_setFld_val (s : State) (o l w : Nat) {v : Nat} (h : l + w ≤ 64) (hv : v < 2 ^ w) :
    (s.setFld ⟨o, l, w⟩ v).fld ⟨o, l, w⟩ = v :=
  (s.fld_setFld_at o l w v h).trans (Nat.mod_eq_of_lt hv)

theorem State.fld_setFld_word (s : State) (o l w l' w' v : Nat) (h : l + w ≤ 64) (d : l + w ≤ l' ∨ l' + w' ≤ l) :
    (s.setFld ⟨o, l, w⟩ v).fld ⟨o, l', w'⟩ = s.fld ⟨o, l', w'⟩ :=
  s.fld_setFld_other v h (.inr ⟨rfl, d⟩)

theorem State.fld_bumpFld_room (s : State) (o l w : Nat) (h : l + w ≤ 64) (hroom : s.fld ⟨o, l, w⟩ + 1 < 2 ^ w) :
    (s.bumpFld ⟨o, l, w⟩).fld ⟨o, l, w⟩ = s.fld ⟨o, l, w⟩ + 1 := by
  rw [State.bumpFld, show bump w (s.fld ⟨o, l, w⟩) = s.fld ⟨o, l, w⟩ + 1 from if_pos hroom]
  exact s.fld_setFld_val o l w h hroom

/-! ### Poison -/

theorem bit_haloPut (h : BitVec 256) {l n : Nat} (v i : Nat) (hl : l + n ≤ 256) :
    bit (haloPut h l n v).toNat i = if l ≤ i ∧ i < l + n then v.testBit (i - l) else bit h.toNat i := by
  have hlt : putBits h.toNat l n v < 2 ^ 256 := putBits_lt h.isLt hl
  rw [haloPut, BitVec.toNat_ofNat, Nat.mod_eq_of_lt hlt, bit, testBit_putBits]
  rfl

theorem haloPoison_put (h : BitVec 256) (o : Nat) : haloPoison (haloPut (haloPut h 96 1 1) 112 16 o) = true := by
  rw [haloPoison, bit_haloPut _ _ _ (by decide), if_neg (by decide), bit_haloPut _ _ _ (by decide), if_pos (by decide)]
  rfl

theorem haloPoison_seal (data : List Byte) (h : BitVec 256) : haloPoison (sealHalo data h) = haloPoison h := by
  rw [haloPoison, sealHalo, bit_haloPut _ _ _ (by decide), if_neg (by decide), haloPoison]

/-- Poison changes the Halo of its block and nothing else. -/
theorem State.poison_eq (s : State) (b o : Nat) : ∃ h, s.poison b o = s.setHalo b h ∧ haloPoison h = true ∨ s.poison b o = s ∧ haloPoison (s.haloOf b) = true := by
  by_cases hp : haloPoison (s.haloOf b) = true
  · exact ⟨0, .inr ⟨by simp [State.poison, hp], hp⟩⟩
  · refine ⟨_, .inl ⟨by simp only [State.poison, if_neg hp]; rfl, ?_⟩⟩
    split
    · exact haloPoison_put _ _
    · rw [haloPoison_seal]; exact haloPoison_put _ _

/-- From `s` to `z` the blocks listed were poisoned. -/
structure Poisoned (l : List Nat) (s z : State) : Prop where
  rest : { z with halo := s.halo } = s
  listed : ∀ b ∈ l, haloPoison (z.haloOf b) = true
  others : ∀ b, b ∉ l → z.haloOf b = s.haloOf b

theorem Poisoned.foldl (o : Nat) (l : List Nat) (s : State) : Poisoned l s (l.foldl (fun (s : State) b => s.poison b o) s) := by
  induction l generalizing s with
  | nil => exact ⟨rfl, fun b hb => absurd hb (List.not_mem_nil), fun _ _ => rfl⟩
  | cons b l ih =>
    obtain ⟨hrest, hlisted, hothers⟩ := ih (s.poison b o)
    have hstep : { s.poison b o with halo := s.halo } = s ∧ haloPoison ((s.poison b o).haloOf b) = true
        ∧ ∀ c, c ≠ b → (s.poison b o).haloOf c = s.haloOf c := by
      obtain ⟨h, ⟨e, hp⟩ | ⟨e, hp⟩⟩ := s.poison_eq b o
      · rw [e]
        exact ⟨rfl, (congrArg haloPoison (Map.get_set_same ..)).trans hp, fun c hc => Map.get_set_other _ _ _ _ hc⟩
      · rw [e]; exact ⟨rfl, hp, fun _ _ => rfl⟩
    obtain ⟨hsame, hself, hnot⟩ := hstep
    refine ⟨?_, fun c hc => ?_, fun c hc => ?_⟩
    · rw [List.foldl_cons]
      generalize (l.foldl (fun (s : State) b => s.poison b o) (s.poison b o)) = z at hrest
      rw [← hrest] at hsame
      exact hsame
    · by_cases hl : c ∈ l
      · exact hlisted c hl
      · rcases List.mem_cons.1 hc with rfl | hc
        · exact (congrArg haloPoison (hothers c hl)).trans hself
        · exact absurd hc hl
    · exact (hothers c fun hl => hc (List.mem_cons_of_mem _ hl)).trans (hnot c fun e => hc (e ▸ List.mem_cons_self))

/-! ### Sparing (R281) -/

theorem State.stack_setFld (s : State) (f : Fld) (v k : Nat) : (s.setFld f v).stack k = s.stack k := rfl

/-- The map of a stack switches to its spare. -/
def State.switchSpare (s : State) (k lch : Nat) : State :=
  ((s.setFld (HBM.COPY_BUSY k) 0).setFld (HBM.SPARE_USED k) 1).setFld (HBM.SPARE_FOR k) lch

theorem State.fld_switchSpare (s : State) (k : Nat) {lch : Nat} (hl : lch < 15) :
    (s.switchSpare k lch).fld (HBM.COPY_BUSY k) = 0 ∧ (s.switchSpare k lch).fld (HBM.SPARE_USED k) = 1
    ∧ (s.switchSpare k lch).fld (HBM.SPARE_FOR k) = lch := by
  let s₂ := s.setFld (HBM.COPY_BUSY k) 0
  let s₃ := s₂.setFld (HBM.SPARE_USED k) 1
  refine ⟨?_, ?_, s₃.fld_setFld_val (hbmBase k) 11 4 (by decide) (by omega)⟩
  · exact (s₃.fld_setFld_word (hbmBase k) 11 4 15 1 lch (by decide) (by decide)).trans
      ((s₂.fld_setFld_word (hbmBase k) 10 1 15 1 1 (by decide) (by decide)).trans
        (s.fld_setFld_val (hbmBase k) 15 1 (by decide) (by decide)))
  · exact (s₃.fld_setFld_word (hbmBase k) 11 4 10 1 lch (by decide) (by decide)).trans
      (s₂.fld_setFld_val (hbmBase k) 10 1 (by decide) (by decide))

theorem State.switchSpare_keeps (s : State) (k lch : Nat) : (s.switchSpare k lch).hbm = s.hbm ∧ (s.switchSpare k lch).halo = s.halo
    ∧ (s.switchSpare k lch).stack k = s.stack k := by
  unfold State.switchSpare
  refine ⟨?_, ?_, ?_⟩
  · rw [State.setFld_hbm, State.setFld_hbm, State.setFld_hbm]
  · rw [State.setFld_halo, State.setFld_halo, State.setFld_halo]
  · rw [State.stack_setFld, State.stack_setFld, State.stack_setFld]

theorem exec_sparingCopyDone {s : State} {k lch : Nat} (hk : k < 16) (hcopy : (s.stack k).copying = some lch)
    (hbad : s.hbmBad = []) (hsoft : s.hbmSoft = []) :
    exec (.sparingCopyDone k) s = .next ((s.setStack k { s.stack k with copying := none }).switchSpare k lch) := by
  show execSparingCopyDone k s = _
  unfold execSparingCopyDone
  rw [if_neg (Nat.not_le.2 hk), hcopy]
  simp only [hbad, hsoft, List.map_nil, List.filter_nil, List.foldl_nil, State.switchSpare]

theorem sparingCopyDone_switches {s : State} {k lch : Nat} (hk : k < 16) (hl : lch < 15) (hcopy : (s.stack k).copying = some lch)
    (hbad : s.hbmBad = []) (hsoft : s.hbmSoft = []) :
    Gives (exec (.sparingCopyDone k) s) (fun z => z.fld (HBM.COPY_BUSY k) = 0 ∧ z.fld (HBM.SPARE_USED k) = 1 ∧ z.fld (HBM.SPARE_FOR k) = lch
      ∧ z.physChannel k lch = 15 ∧ (z.stack k).copying = none ∧ z.hbm = s.hbm ∧ z.halo = s.halo) := by
  obtain ⟨hbusy, hused, hfor⟩ := (s.setStack k { s.stack k with copying := none }).fld_switchSpare k hl
  obtain ⟨hhbm, hhalo, hstack⟩ := (s.setStack k { s.stack k with copying := none }).switchSpare_keeps k lch
  refine ⟨_, exec_sparingCopyDone hk hcopy hbad hsoft, hbusy, hused, hfor, if_pos ⟨hused, hfor⟩, ?_, hhbm, hhalo⟩
  rw [hstack, State.stack_setStack_same]

/-! ### Channel resets (R283) -/

theorem canonical_channel_ne {k ch : Nat} (hch : ch < 16) : canonical (hbmBase k + 0x100 + 8 * ch) ≠ 0x20 := by
  have h := canonical_mod (hbmBase k + 0x100 + 8 * ch)
  unfold hbmBase at *
  omega

/-- The stack after a channel's reset: without the channel's requests, which its journal names, and with the count noted. -/
def State.resetStack (s : State) (k ch : Nat) : Stack :=
  let x := s.stack k
  { x with
    queue := x.queue.filter (fun e => decide (e.1 ≠ ch))
    journal := x.journal ++ (x.queue.filter (fun e => decide (e.1 = ch))).flatMap (fun e => match e.2.write with
      | some bs => (s.writtenBlocks e.2 bs).map (fun b => (ch, b))
      | none => [])
    resetAt := Map.set 0 x.resetAt ch s.count }

/-- The registers of a channel that resets. -/
def State.resetChannelFlds (s : State) (k ch : Nat) : State :=
  (s.setFld (HBM.CH_EPOCH k ch) ((s.fld (HBM.CH_EPOCH k ch) + 1) % 2 ^ 16)).setFld (HBM.CH_READY k ch) 0

theorem State.fld_resetChannelFlds (s : State) (k ch : Nat) :
    (s.resetChannelFlds k ch).fld (HBM.CH_EPOCH k ch) = (s.fld (HBM.CH_EPOCH k ch) + 1) % 2 ^ 16
    ∧ (s.resetChannelFlds k ch).fld (HBM.CH_READY k ch) = 0 :=
  ⟨(State.fld_setFld_word _ (hbmBase k + 0x100 + 8 * ch) 16 1 0 16 0 (by decide) (by decide)).trans
      (s.fld_setFld_val (hbmBase k + 0x100 + 8 * ch) 0 16 (by decide) (Nat.mod_lt _ (by decide))),
    State.fld_setFld_val _ (hbmBase k + 0x100 + 8 * ch) 16 1 (by decide) (by decide)⟩

theorem State.resetChannelFlds_keeps (s : State) (k ch : Nat) : (s.resetChannelFlds k ch).hbm = s.hbm
    ∧ (s.resetChannelFlds k ch).halo = s.halo ∧ (s.resetChannelFlds k ch).hbmStacks = s.hbmStacks := by
  unfold State.resetChannelFlds
  refine ⟨?_, ?_, ?_⟩
  · rw [State.setFld_hbm, State.setFld_hbm]
  · rw [State.setFld_halo, State.setFld_halo]
  · rw [State.setFld_hbmStacks, State.setFld_hbmStacks]

/-- Beyond its own registers and its stack a channel that resets answers its requests. -/
theorem State.resetChannel_answered (s : State) (k ch : Nat) :
    Answered ((s.setStack k (s.resetStack k ch)).resetChannelFlds k ch) (s.resetChannel k ch) :=
  foldl_keeps .refl fun _ _ h => h.refuseHbm

theorem channelReset_resets {s : State} {k ch : Nat} (hk : k < 16) (hch : ch < 16) (aw : s.awake = true) :
    Gives (exec (.channelReset k ch) s) (fun z => z.fld (HBM.CH_EPOCH k ch) = (s.fld (HBM.CH_EPOCH k ch) + 1) % 2 ^ 16
      ∧ z.fld (HBM.CH_READY k ch) = 0 ∧ (z.stack k).queue = (s.stack k).queue.filter (fun e => decide (e.1 ≠ ch))
      ∧ Map.get 0 (z.stack k).resetAt ch = s.count ∧ z.hbm = s.hbm ∧ z.halo = s.halo) := by
  have hexec : exec (.channelReset k ch) s = .next ((s.resetChannel k ch).logGlow 0x0D 0 (channelUnit k ch)
      ((s.resetChannel k ch).fld (HBM.CH_EPOCH k ch))) := by
    show execChannelReset k ch s = _
    unfold execChannelReset
    rw [if_neg (by omega), if_neg (by simp [aw])]
  refine ⟨_, hexec, ?_⟩
  have hans := (s.resetChannel_answered k ch).logGlow (kind := 0x0D) (c := 0) (unit := channelUnit k ch)
    (detail := (s.resetChannel k ch).fld (HBM.CH_EPOCH k ch))
  generalize (s.resetChannel k ch).logGlow _ _ _ _ = z at hans ⊢
  obtain ⟨hepoch, hready⟩ := (s.setStack k (s.resetStack k ch)).fld_resetChannelFlds k ch
  obtain ⟨hhbm, hhalo, hstacks⟩ := (s.setStack k (s.resetStack k ch)).resetChannelFlds_keeps k ch
  have hstack : z.stack k = s.resetStack k ch := by
    rw [State.stack, hans.hbmStacks, hstacks]
    exact s.stack_setStack_same k _
  have hne := canonical_channel_ne (k := k) hch
  exact ⟨(hans.fld hne).trans hepoch, (hans.fld hne).trans hready, by rw [hstack]; rfl, by rw [hstack]; exact Map.get_set_same ..,
    hans.hbm.trans hhbm, hans.halo.trans hhalo⟩

/-- The blocks of a channel's journal. -/
def Stack.journalled (x : Stack) (ch : Nat) : List Nat := (x.journal.filter (fun e => decide (e.1 = ch))).map (·.2)

theorem Stack.mem_journalled (x : Stack) (ch b : Nat) : b ∈ x.journalled ch ↔ (ch, b) ∈ x.journal := by
  simp only [Stack.journalled, List.mem_map, List.mem_filter, decide_eq_true_eq]
  constructor
  · rintro ⟨⟨c, b'⟩, ⟨hmem, rfl⟩, rfl⟩; exact hmem
  · exact fun hmem => ⟨(ch, b), ⟨hmem, rfl⟩, rfl⟩

/-- The stack without a channel's journal. -/
def State.dropJournal (s : State) (k ch : Nat) : State :=
  s.setStack k { s.stack k with journal := (s.stack k).journal.filter (fun e => decide (e.1 ≠ ch)) }

theorem State.haloOf_setFld (s : State) (f : Fld) (v b : Nat) : (s.setFld f v).haloOf b = s.haloOf b := rfl

theorem exec_channelReady {s : State} {k ch : Nat} (hk : k < 16) (hch : ch < 16) (hr : s.fld (HBM.CH_READY k ch) = 0) :
    exec (.channelReady k ch) s = .next ((((s.stack k).journalled ch).foldl (fun (s : State) b => s.poison b (0x1000 + k * 16 + ch))
      (s.dropJournal k ch)).setFld (HBM.CH_READY k ch) 1) := by
  show execChannelReady k ch s = _
  unfold execChannelReady
  rw [if_neg (by omega), if_neg (by omega)]
  rfl

theorem channelReady_poisons {s : State} {k ch : Nat} (hk : k < 16) (hch : ch < 16) (hr : s.fld (HBM.CH_READY k ch) = 0) :
    Gives (exec (.channelReady k ch) s) (fun z => z.fld (HBM.CH_READY k ch) = 1 ∧ z.hbm = s.hbm
      ∧ (∀ b, (ch, b) ∈ (s.stack k).journal → haloPoison (z.haloOf b) = true)
      ∧ (∀ b, (ch, b) ∉ (s.stack k).journal → z.haloOf b = s.haloOf b) ∧ ∀ e ∈ (z.stack k).journal, e.1 ≠ ch) := by
  obtain ⟨hrest, hlisted, hothers⟩ := Poisoned.foldl (0x1000 + k * 16 + ch) ((s.stack k).journalled ch) (s.dropJournal k ch)
  refine ⟨_, exec_channelReady hk hch hr, ?_⟩
  generalize ((s.stack k).journalled ch).foldl (fun (s : State) b => s.poison b (0x1000 + k * 16 + ch)) (s.dropJournal k ch) = z
    at hrest hlisted hothers
  have hbm : z.hbm = s.hbm := (congrArg State.hbm hrest :)
  have hstack : z.stack k = (s.dropJournal k ch).stack k := congrArg (fun m => Map.get ({} : Stack) m k) (congrArg State.hbmStacks hrest :)
  refine ⟨z.fld_setFld_val (hbmBase k + 0x100 + 8 * ch) 16 1 (by decide) (by decide), ?_,
    fun b hb => ?_, fun b hb => ?_, fun e he => ?_⟩
  · rw [State.setFld_hbm, hbm]
  · rw [State.haloOf_setFld]
    exact hlisted b (((s.stack k).mem_journalled ch b).2 hb)
  · rw [State.haloOf_setFld]
    exact hothers b (mt ((s.stack k).mem_journalled ch b).1 hb)
  · rw [State.stack_setFld, hstack, State.dropJournal, State.stack_setStack_same] at he
    exact of_decide_eq_true (List.mem_filter.1 he).2

/-! ### Scrubbing (R285, R286) -/

/-- The one correctable burst of a block is found by a read of the block. -/
theorem State.checkBursts_single {s : State} {u blk : Nat} (hu : u / 128 = blk) (hsoft : s.hbmSoft = [(u, true)]) (hbad : s.hbmBad = []) :
    s.checkBursts (blk * 4096) 4096 = ({ s with hbmSoft := [] } : State).bumpFld (HBM.CORRECTED (s.place blk).1) := by
  have hlo : blk * 4096 / 32 = blk * 128 := by omega
  have hk : (blk * 4096 + 4096 + 31) / 32 - blk * 128 = 128 := by omega
  have hin : blk * 128 ≤ u ∧ u < blk * 128 + 128 := by omega
  have hkeys : keysIn s.hbmSoft (blk * 128) 128 = [u] := by simp [keysIn, hsoft, hin]
  have hsingle : s.softBurst u = ({ s with hbmSoft := [] } : State).bumpFld (HBM.CORRECTED (s.place blk).1) := by
    simp only [State.softBurst, hsoft, hu, Map.set, if_true, Map.erase]
  have hnone : keysIn (s.softBurst u).hbmBad (blk * 128) 128 = [] := by
    rw [hsingle, State.bumpFld_hbmBad, hbad]
    rfl
  rw [State.checkBursts, hlo, hk, hkeys, ← hsingle]
  exact congrArg (List.foldl State.badBurst (s.softBurst u)) hnone

theorem scrubRead_corrects {s : State} {u blk : Nat} (hb : blk < 188743680) (hp : s.pwr.state = .p0) (hh : s.fld HBM.SCRUB_H ≠ 0)
    (hr : s.channelReady blk = true) (ha : s.stackAsleep blk = false) (hl : s.channelLost blk = false) (hu : u / 128 = blk)
    (hsoft : s.hbmSoft = [(u, true)]) (hbad : s.hbmBad = []) (hroom : s.fld (HBM.CORRECTED (s.place blk).1) + 1 < 2 ^ 24) :
    Gives (exec (.scrubRead blk) s) (fun z => z.hbmSoft = [] ∧ z.hbm = s.hbm ∧ z.halo = s.halo
      ∧ z.fld (HBM.CORRECTED (s.place blk).1) = s.fld (HBM.CORRECTED (s.place blk).1) + 1) := by
  let s₁ : State := { s with hbmSoft := [] }
  refine ⟨s₁.bumpFld (HBM.CORRECTED (s.place blk).1), ?_, State.bumpFld_hbmSoft _ _, State.bumpFld_hbm _ _, State.bumpFld_halo _ _,
    s₁.fld_bumpFld_room (hbmBase (s.place blk).1 + 0x200) 0 24 (by decide) hroom⟩
  show execScrubRead blk s = _
  unfold execScrubRead
  rw [if_neg (show ¬blockCount ≤ blk from Nat.not_le.2 hb), if_neg (by simp [State.hbmActive, hp, hh, hr, ha, hl]), State.checkBursts_single hu hsoft hbad]

/-! ### Temperature levels (R287) -/

theorem nextLevel_high (cur : Nat) {temp : Nat} (h : 105 ≤ temp) : nextLevel cur temp = 3 := by
  simp [nextLevel, levelAt, h]

theorem nextLevel_low (cur : Nat) {temp : Nat} (h : temp ≤ 82) : nextLevel cur temp = 0 := by
  have hoff : ∀ l, 1 ≤ l → (decide (levelAt l ≤ temp) || (decide (l ≤ cur) && decide (levelAt l < temp + 3))) = false := by
    intro l hl
    have h1 : ¬levelAt l ≤ temp := by unfold levelAt; omega
    have h2 : ¬levelAt l < temp + 3 := by unfold levelAt; omega
    simp [h1, h2]
  simp [nextLevel, hoff]

theorem nextLevel_lt (cur temp : Nat) : nextLevel cur temp < 2 ^ 2 := by
  unfold nextLevel
  extract_lets on
  split
  · decide
  · split
    · decide
    · split <;> decide

end Sys2Proof.Machine
end

section
/-! LEMMAS. No service of a channel queue and no work of a collective engine changes a stack's temperature or level (O45; R287,
R303). -/
namespace Sys2Proof.Machine
namespace Kept
variable {s₀ s s' : State}

theorem iteOf {β : Type} {p : β → State} {c : Prop} [Decidable c] {a b : β} (ha : Kept false s₀ (p a)) (hb : Kept false s₀ (p b)) :
    Kept false s₀ (p (if c then a else b)) := by
  split <;> assumption

theorem foldlOf {α β : Type} {p : β → State} {f : β → α → β} {xs : List α} {b : β} (h : Kept false s₀ (p b))
    (hf : ∀ b x, Kept false s₀ (p b) → Kept false s₀ (p (f b x))) : Kept false s₀ (p (xs.foldl f b)) :=
  foldl_keeps (P := fun b => Kept false s₀ (p b)) h hf

theorem chargeChannel {k ch : Nat} {c : BitVec 16} (hs : Kept false s₀ s) : Kept false s₀ (s.chargeChannel k ch c) :=
  charge hs fun h => Bool.noConfusion h

/-- The counters of a stack stand past HBM_STATUS. -/
theorem cool_counter {k l w : Nat} (hw : l + w ≤ 64) : (⟨hbmBase k + 0x200, l, w⟩ : Fld).cool :=
  ⟨hw, .inr (.inr (.inr (by show (hbmBase k + 0x200) % 0x10_0000 ≠ 0; unfold hbmBase; omega)))⟩

theorem bumpCorrected {k : Nat} (hs : Kept false s₀ s) : Kept false s₀ (s.bumpFld (HBM.CORRECTED k)) := hs.setFld (cool_counter (by decide))
theorem bumpUncorrected {k : Nat} (hs : Kept false s₀ s) : Kept false s₀ (s.bumpFld (HBM.UNCORRECTED k)) :=
  hs.setFld (cool_counter (by decide))
theorem bumpCrcFails {k : Nat} (hs : Kept false s₀ s) : Kept false s₀ (s.bumpFld (HBM.CRC_FAILS k)) := hs.setFld (cool_counter (by decide))
theorem bumpCleared {k : Nat} (hs : Kept false s₀ s) : Kept false s₀ (s.bumpFld (HBM.POISON_CLEARED k)) :=
  hs.setFld (cool_counter (by decide))
theorem bumpEngine {f : Fld} (hs : Kept false s₀ s) (ho : 0x200_0000 ≤ f.off) (h : f.lsb + f.width ≤ 64 := by exact Nat.le_of_ble_eq_true rfl) :
    Kept false s₀ (s.bumpFld f) := hs.setAbove ho h

theorem ceBase_le (a o : Nat) : 0x200_0000 ≤ ceBase a + o := (bfBase_le _).trans (Nat.le_add_right _ _)

theorem setHalo {b : Nat} {h : BitVec 256} (hs : Kept false s₀ s) : Kept false s₀ (s.setHalo b h) := hs.upd
theorem updHbm {m : Map Byte} (hs : Kept false s₀ s) : Kept false s₀ { s with hbm := m } := hs.upd
theorem updBad {m : Map Byte} {bad : Map Bool} (hs : Kept false s₀ s) : Kept false s₀ { s with hbm := m, hbmBad := bad } := hs.upd
theorem updBursts {bad soft : Map Bool} (hs : Kept false s₀ s) : Kept false s₀ { s with hbmBad := bad, hbmSoft := soft } := hs.upd
theorem updSoft {soft : Map Bool} (hs : Kept false s₀ s) : Kept false s₀ { s with hbmSoft := soft } := hs.upd
theorem updOut {m : Map (List (Nat × Packet))} (hs : Kept false s₀ s) : Kept false s₀ { s with collOut := m } := hs.upd
theorem updHeld {m : Map (List (BitVec 384 × List Byte × BitVec 64))} (hs : Kept false s₀ s) : Kept false s₀ { s with collHeld := m } := hs.upd

theorem drawBytes {n : Nat} (hs : Kept false s₀ s) : Kept false s₀ (s.drawBytes n).2 := by
  induction n generalizing s with
  | zero => exact hs
  | succ n ih => exact ih (draw hs)

/-! ### Blocks (chapter 10) -/

theorem poison {b o : Nat} (hs : Kept false s₀ s) : Kept false s₀ (s.poison b o) := ite_keeps hs (setHalo hs)

theorem badBurst {u : Nat} (hs : Kept false s₀ s) : Kept false s₀ (s.badBurst u) := by
  unfold State.badBurst
  exact chargeChannel (poison (bumpUncorrected (updBad (drawBytes hs))))

theorem softBurst {u : Nat} (hs : Kept false s₀ s) : Kept false s₀ (s.softBurst u) := bumpCorrected (updSoft hs)

theorem checkBursts {a n : Nat} (hs : Kept false s₀ s) : Kept false s₀ (s.checkBursts a n) :=
  foldl_keeps (foldl_keeps hs fun _ _ h => softBurst h) fun _ _ h => badBurst h

theorem coverBursts {a n : Nat} (hs : Kept false s₀ s) : Kept false s₀ (s.coverBursts a n) := checkBursts (updBursts hs)

theorem readPart {a n : Nat} (hs : Kept false s₀ s) : Kept false s₀ (s.readPart a n).st :=
  ite_keeps (poison (checkBursts hs)) (checkBursts hs)

theorem crcFailed {b : Nat} (hs : Kept false s₀ s) : Kept false s₀ (s.crcFailed b) :=
  chargeChannel (logGlow (poison (bumpCrcFails hs)))

theorem readBlock {b g lepoch : Nat} (hs : Kept false s₀ s) : Kept false s₀ (s.readBlock b g lepoch).st := by
  unfold State.readBlock
  extract_lets r c s₁ s₂ h s₃
  have h₂ : Kept false s₀ s₂ := ite_keeps (poison (checkBursts hs)) (checkBursts hs)
  have h₃ : Kept false s₀ s₃ := ite_keeps (crcFailed h₂) h₂
  clear_value s₃
  refine iteOf hs ?_
  split
  · exact iteOf h₃ h₃
  · exact iteOf (addCause h₃) (iteOf (iteOf h₃ h₃) (iteOf h₃ (iteOf (crcFailed h₃) h₃)))

theorem clearPoison {b : Nat} (hs : Kept false s₀ s) : Kept false s₀ (s.clearPoison b) :=
  ite_keeps (setHalo (logGlow (bumpCleared hs))) hs

theorem writePart {a : Nat} {bs : List Byte} (hs : Kept false s₀ s) : Kept false s₀ (s.writePart a bs) := by
  unfold State.writePart
  exact setHalo (updHbm (ite_keeps (clearPoison (coverBursts hs)) (coverBursts hs)))

theorem storeBlock {b : Nat} {bs : List Byte} {h : BitVec 256} (hs : Kept false s₀ s) : Kept false s₀ (s.storeBlock b bs h) := by
  unfold State.storeBlock
  exact setHalo (updHbm (clearPoison (coverBursts hs)))

theorem writeBlock {b : Nat} {bs : List Byte} {g lepoch : Nat} {p : Option Nat} (hs : Kept false s₀ s) :
    Kept false s₀ (s.writeBlock b bs g lepoch p).1 := by
  unfold State.writeBlock
  extract_lets put
  have hput : ∀ {s b att}, Kept false s₀ s → Kept false s₀ (put s b att) := fun h => by
    unfold put
    extract_lets s₁
    have h₁ : Kept false s₀ s₁ := storeBlock h
    split
    · exact poison h₁
    · exact h₁
  split
  · exact hput hs
  · refine iteOf hs (iteOf hs ?_)
    split
    · exact hs
    · exact ite_keeps (setHigh (hput hs)) (hput hs)

/-! ### Queues (R279) -/

theorem gatherPlain {a n : Nat} (hs : Kept false s₀ s) : Kept false s₀ (s.gatherPlain a n).st :=
  iteOf hs (foldlOf hs fun _ _ h => iteOf h (readPart h))

theorem gatherBlocks {b k g lepoch : Nat} (hs : Kept false s₀ s) : Kept false s₀ (s.gatherBlocks b k g lepoch).st :=
  foldlOf hs fun _ _ h => iteOf h (readBlock h)

theorem replyRead {r : HbmReq} {data : List Byte} (hs : Kept false s₀ s) : Kept false s₀ (s.replyRead r data) := by
  unfold State.replyRead
  split
  · exact send hs
  · exact sendReply hs
  · exact hs

theorem writeArrival {r : HbmReq} {bs : List Byte} (hs : Kept false s₀ s) : Kept false s₀ (s.writeArrival r bs).1 :=
  foldlOf hs fun _ _ h => iteOf h (writeBlock (ite_keeps (logGlow (bumpCrcFails h)) h))

theorem serveReq {r : HbmReq} (hs : Kept false s₀ s) : Kept false s₀ (s.serveReq r) := by
  unfold State.serveReq
  split
  · extract_lets g
    have hg : Kept false s₀ g.st := iteOf (gatherBlocks hs) (gatherPlain hs)
    exact ite_keeps (refuseHbm hg) (replyRead hg)
  · extract_lets w
    have hw : Kept false s₀ w.1 := iteOf (writeArrival hs) (iteOf hs (foldl_keeps hs fun _ _ h => writePart h))
    exact ite_keeps (refuseHbm hw) (answerTo hw)

theorem takeHbm {k ch : Nat} {r : HbmReq} (hs : Kept false s₀ s) (e : s.takeHbm k ch = some (r, s')) : Kept false s₀ s' := by
  unfold State.takeHbm at e
  extract_lets x at e
  split at e
  · cases e
  · cases e; exact setStack hs

theorem serveChannel {k ch n : Nat} (hs : Kept false s₀ s) : Kept false s₀ (State.serveChannel k ch n s) := by
  induction n generalizing s with
  | zero => exact hs
  | succ n ih =>
    unfold State.serveChannel
    split
    next e => exact ih (serveReq (takeHbm hs e))
    next => exact hs

theorem serveBefore {b : Nat} (hs : Kept false s₀ s) : Kept false s₀ (s.serveBefore b) := serveChannel hs

/-! ### Semaphores at their home -/

theorem setSem {t n : Nat} {e : Sem} (hs : Kept false s₀ s) : Kept false s₀ (s.setSem t n e) := hs.upd

theorem semAnswer {m : SemMsg} {v : Word} (hs : Kept false s₀ s) : Kept false s₀ (s.semAnswer m v) := hs.answered (.semAnswer .refl)

theorem releaseWaiter {t n : Nat} {w : Waiter} (hs : Kept false s₀ s) : Kept false s₀ (s.releaseWaiter t n w) := by
  unfold State.releaseWaiter
  split
  · exact send hs
  · exact sendReply hs

theorem semApply {t : Nat} {m : SemMsg} (hs : Kept false s₀ s) : Kept false s₀ (s.semApply t m) := by
  unfold State.semApply
  extract_lets
  split
  · exact ite_keeps (semAnswer hs) (semAnswer (foldl_keeps (setSem hs) fun _ _ h => releaseWaiter h))
  · exact semAnswer (foldl_keeps (setSem hs) fun _ _ h => releaseWaiter h)
  · exact ite_keeps (semAnswer hs) (semAnswer (setSem hs))
  · exact ite_keeps (semAnswer (setSem hs)) (ite_keeps (semAnswer hs) (setSem hs))
  · exact semAnswer hs

/-! ### Collective engines (chapter 12) -/

theorem ceRead {d : BitVec 512} {a n : Nat} (hs : Kept false s₀ s) : Kept false s₀ (s.ceRead d a n).st := by
  unfold State.ceRead
  split
  · refine iteOf hs ?_
    extract_lets s₁
    have h₁ : Kept false s₀ s₁ := foldl_keeps hs fun _ _ h => serveBefore h
    exact iteOf (iteOf (readBlock h₁) (iteOf (readBlock h₁) (readBlock h₁))) (gatherPlain h₁)
  · exact iteOf hs (setTile hs)
  · exact hs
  · exact hs

theorem ceWrite {d : BitVec 512} {a : Nat} {bs halo : List Byte} (hs : Kept false s₀ s) : Kept false s₀ (s.ceWrite d a bs halo).1 := by
  unfold State.ceWrite
  split
  · refine iteOf hs ?_
    extract_lets s₁
    have h₁ : Kept false s₀ s₁ := foldl_keeps hs fun _ _ h => serveBefore h
    exact iteOf (iteOf (writeBlock h₁) (storeBlock h₁)) (iteOf h₁ (foldl_keeps h₁ fun _ _ h => writePart h))
  · exact hs
  · exact hs

theorem collFail {a d : Nat} {c : BitVec 16} (hs : Kept false s₀ s) : Kept false s₀ (s.collFail a d c) := by
  unfold State.collFail
  extract_lets s₁ s₂
  have h₂ : Kept false s₀ s₂ := ite_keeps (endJob (collStop hs)) (collStop hs)
  exact ite_keeps (addCause h₂) h₂

theorem collDone {a : Nat} {d : BitVec 512} (hs : Kept false s₀ s) : Kept false s₀ (s.collDone a d) := ite_keeps (semApply hs) hs

section
variable {w : Work} (hw : Kept false s₀ w.st)
include hw

theorem emit {a h chunk addr held : Nat} {anch : Int} {fell : Bool} {bs halo : List Byte} :
    Kept false s₀ (w.emit a h chunk addr held anch fell bs halo).st :=
  iteOf hw (iteOf hw (updOut (setPort hw)))

theorem own {off n : Nat} : Kept false s₀ (w.own off n).1.st :=
  iteOf (p := fun r : Work × List Byte × List Byte => r.1.st) hw (ceRead hw)

theorem out {off : Nat} {bs halo : List Byte} : Kept false s₀ (w.out off bs halo).st := iteOf hw (ceWrite hw)

theorem meet {anch : Int} : Kept false s₀ (w.meet anch).st := hw

theorem done {a : Nat} {fell : Bool} : Kept false s₀ (w.done a fell) := by
  unfold Work.done
  extract_lets s₁
  have h₁ : Kept false s₀ s₁ := ite_keeps (setAbove hw (ceBase_le a 0x1000)) hw
  exact ite_keeps (collFail h₁) (setColls h₁)

end

section
variable {w : Work} (hw : Kept false s₀ w.st)
include hw

theorem pass {a n r c h off held : Nat} {anch : Int} {fell : Bool} {bs : List Byte} :
    Kept false s₀ (w.pass a n r c h off held anch fell bs).st :=
  iteOf (emit hw) (iteOf (emit (meet (out hw))) (meet (out hw)))

theorem startReduce {a n r : Nat} : Kept false s₀ (w.startReduce a n r).st :=
  foldlOf hw fun _ _ h => foldlOf h fun _ _ h => pass (meet (own h))

theorem startGather {a n r : Nat} : Kept false s₀ (w.startGather a n r).st :=
  foldlOf hw fun _ _ h => foldlOf h fun _ _ h => iteOf (emit (iteOf (own h) (out (own h)))) (iteOf (own h) (out (own h)))

theorem land {a n r q h off : Nat} {anch : Int} {fell : Bool} {bs halo : List Byte} :
    Kept false s₀ (w.land a n r q h off anch fell bs halo).st :=
  iteOf (collDone (iteOf (emit (out hw)) (out hw))) (iteOf (emit (out hw)) (out hw))

theorem take {a : Nat} {hdr : Hdr} {bs : List Byte} : Kept false s₀ (w.take a hdr bs).1.st := by
  unfold Work.take
  extract_lets d n r chunk c h off len o src c₁ w₁ anch x f held data halo w₂
  have h₁ : Kept false s₀ w₁.st := own hw
  have h₂ : Kept false s₀ w₂.st := iteOf (meet hw) hw
  clear_value w₁ w₂
  split
  · split
    · exact pass (meet h₁)
    · exact pass h₁
  · exact land h₂

end

theorem collRun {a : Nat} {c : Coll} (hs : Kept false s₀ s) : Kept false s₀ (s.collRun a c) :=
  ite_keeps (done (foldlOf hs fun _ _ h => out (own h))) (ite_keeps (done (startReduce hs)) (ite_keeps hs (done (startGather hs))))

theorem collArrive {a : Nat} {c : Coll} {header : BitVec 384} {payload : List Byte} {cdig : BitVec 64} (hs : Kept false s₀ s) :
    Kept false s₀ (s.collArrive a c header payload cdig) :=
  ite_keeps (ite_keeps (collFail (event (bumpEngine hs (ceBase_le a 0x1008)))) (control (setColls (bumpEngine hs (ceBase_le a 0x1008)))))
    (ite_keeps (collFail (bumpEngine hs (ceBase_le a 0x1008))) (done (take hs)))

theorem collContribution {a : Nat} {header : BitVec 384} {payload : List Byte} {cdig : BitVec 64} (hs : Kept false s₀ s) :
    Kept false s₀ (s.collContribution a header payload cdig) := by
  unfold State.collContribution
  split
  · exact ite_keeps (updHeld hs) (collArrive hs)
  · exact updHeld hs

theorem collCatchUp {a i : Nat} (hs : Kept false s₀ s) : Kept false s₀ (s.collCatchUp a i) :=
  foldl_keeps (updHeld hs) fun _ _ h => collContribution h

theorem collWake (hs : Kept false s₀ s) : Kept false s₀ s.collWake :=
  foldl_keeps hs fun _ _ h => foldl_keeps h fun _ _ h' => collCatchUp (ite_keeps (collRun (setColls h')) h')

end Kept
end Sys2Proof.Machine
end

section
/-! LEMMAS. A reading of a stack's temperature (O45; R287, R303), and the whole of O45. -/
namespace Sys2Proof.Machine

theorem mem_placeCause (c : Cause) (l : List Cause) : c ∈ placeCause c l := by
  induction l with
  | nil => exact List.mem_cons_self
  | cons x l ih =>
    unfold placeCause
    split
    · exact List.mem_cons_self
    · exact List.mem_cons_of_mem _ ih

/-- A cause that reaches Lighthouse is among those of the vote. -/
theorem State.mem_addCause (s : State) (c : Cause) : { c with cycle := s.cycle } ∈ (s.addCause c).causes := mem_placeCause _ _

/-- The temperature and the level as a reading sets them. -/
def State.setTemp (s : State) (k temp level : Nat) : State := (s.setFld (HBM.TEMP k) temp).setFld (HBM.TLEVEL k) level

theorem State.fld_setTemp (s : State) {k temp level : Nat} (ht : temp < 2 ^ 8) (hl : level < 2 ^ 2) :
    (s.setTemp k temp level).fld (HBM.TEMP k) = temp ∧ (s.setTemp k temp level).fld (HBM.TLEVEL k) = level :=
  ⟨(State.fld_setFld_word _ (hbmBase k) 8 2 0 8 level (by decide) (by decide)).trans (s.fld_setFld_val (hbmBase k) 0 8 (by decide) ht),
    State.fld_setFld_val _ (hbmBase k) 8 2 (by decide) hl⟩

theorem State.fld_setTemp_other (s : State) {k j temp level : Nat} (hj : j ≠ k) :
    (s.setTemp k temp level).fld (HBM.TLEVEL j) = s.fld (HBM.TLEVEL j) := by
  have hne : canonical (HBM.TLEVEL j).off ≠ canonical (HBM.TLEVEL k).off := by
    show canonical (hbmBase j) ≠ canonical (hbmBase k)
    rw [canonical_hbmBase, canonical_hbmBase]
    unfold hbmBase
    omega
  have hwidth : ∀ k, (HBM.TEMP k).lsb + (HBM.TEMP k).width ≤ 64 ∧ (HBM.TLEVEL k).lsb + (HBM.TLEVEL k).width ≤ 64 :=
    fun _ => ⟨Nat.le_of_ble_eq_true rfl, Nat.le_of_ble_eq_true rfl⟩
  exact (State.fld_setFld_other _ level (hwidth k).2 (.inl hne)).trans (s.fld_setFld_other temp (hwidth k).1 (.inl hne))

theorem State.setTemp_keeps (s : State) (k temp level : Nat) :
    (s.setTemp k temp level).hbm = s.hbm ∧ (s.setTemp k temp level).stack k = s.stack k := by
  unfold State.setTemp
  exact ⟨by rw [State.setFld_hbm, State.setFld_hbm], by rw [State.stack_setFld, State.stack_setFld]⟩

/-- What a reading is read as afterwards. -/
structure Reads (s : State) (k temp : Nat) (z : State) : Prop where
  stored : z.fld (HBM.TEMP k) = temp
  level : z.fld (HBM.TLEVEL k) = nextLevel (s.fld (HBM.TLEVEL k)) temp
  others : ∀ j, j < 16 → j ≠ k → z.fld (HBM.TLEVEL j) = s.fld (HBM.TLEVEL j)

theorem Reads.of_kept {s z : State} {k temp : Nat} (hk : k < 16) (ht : temp < 2 ^ 8)
    (h : Kept false (s.setTemp k temp (nextLevel (s.fld (HBM.TLEVEL k)) temp)) z) : Reads s k temp z := by
  obtain ⟨htemp, hlevel⟩ := s.fld_setTemp (k := k) ht (nextLevel_lt (s.fld (HBM.TLEVEL k)) temp)
  exact ⟨(h.temps k 0 8 hk (by decide)).trans htemp, (h.temps k 8 2 hk (by decide)).trans hlevel,
    fun j hj hjk => (h.temps j 8 2 hj (by decide)).trans (s.fld_setTemp_other hjk)⟩

/-- A stack without requests has nothing to serve. -/
theorem State.serveAll_empty {s : State} {k : Nat} (hq : (s.stack k).queue = []) :
    (List.range 16).foldl (fun (s : State) ch => State.serveChannel k ch (s.stack k).queue.length s) s = s := by
  refine foldl_keeps (P := fun z => z = s) rfl fun z ch hz => ?_
  rw [hz, hq]
  rfl

/-- The duties, and what marks the module unfit, as a state's levels set them. -/
def State.tempDuties (s : State) : State :=
  let hot := (List.range 16).any (fun k => decide (2 ≤ s.fld (HBM.TLEVEL k)))
  { s with
    pwr := { s.pwr with memory := s.memoryDuty, hot := s.pwr.hot && hot }
    lh := { s.lh with unfit := if s.pwr.hot && !hot then s.lh.unfit.erase s.self.toNat else s.lh.unfit } }

/-- The duties of a state that holds a reading, and HBM_HOT where the stack has entered level 2. -/
def State.noteTemp (s : State) (k old new : Nat) : State :=
  if old < 2 ∧ new = 2 then s.tempDuties.report Status.HBM_HOT k else s.tempDuties

/-- What a stack that enters level 3 serves before it sleeps. -/
def State.serveAll (s : State) (k : Nat) : State :=
  (List.range 16).foldl (fun (s : State) ch => State.serveChannel k ch (s.stack k).queue.length s) s

/-- What a reading that changes the level from `old` to `new` leads to, once it is stored. -/
def State.afterReading (s : State) (k old new : Nat) : Result :=
  if old < 3 ∧ new = 3 then
    .next ((((s.noteTemp k old new).serveAll k).report Status.HBM_OVERTEMP k).addCause { bit := 9, status := Status.HBM_OVERTEMP })
  else if old = 3 ∧ new < 3 then .next (s.noteTemp k old new).collWake else .next (s.noteTemp k old new)

theorem execStackTempRead_eq {s : State} {k : Nat} {temp : BitVec 8} (hk : k < 16) (aw : s.awake = true) :
    execStackTempRead k temp s = State.afterReading
      ((s.setFld (HBM.TEMP k) temp.toNat).setFld (HBM.TLEVEL k) (nextLevel (s.fld (HBM.TLEVEL k)) temp.toNat))
      k (s.fld (HBM.TLEVEL k)) (nextLevel (s.fld (HBM.TLEVEL k)) temp.toNat) := by
  unfold execStackTempRead
  rw [if_neg (Nat.not_le.2 hk), if_neg (by simp [aw])]
  rfl

theorem State.noteTemp_kept (s : State) (k old new : Nat) : Kept false s (s.noteTemp k old new)
    ∧ (s.noteTemp k old new).hbm = s.hbm ∧ (s.noteTemp k old new).stack k = s.stack k := by
  have hduties : s.tempDuties.hbm = s.hbm ∧ s.tempDuties.stack k = s.stack k := ⟨rfl, rfl⟩
  have kept : Kept false s s.tempDuties := .upd .refl
  unfold State.noteTemp
  generalize s.tempDuties = z at hduties kept ⊢
  obtain ⟨hbm, hstack⟩ := hduties
  split
  · have h : Answered z (z.report Status.HBM_HOT k) := .event .refl
    exact ⟨kept.answered h, h.hbm.trans hbm, (congrArg (fun m => Map.get ({} : Stack) m k) h.hbmStacks).trans hstack⟩
  · exact ⟨kept, hbm, hstack⟩

/-- A stored reading keeps every temperature and level; only a stack that was at level 3 or has requests changes HBM. -/
theorem State.afterReading_keeps (x : State) (k old new : Nat) : Gives (x.afterReading k old new) (fun z => Kept false x z
    ∧ ((x.stack k).queue = [] → old < 3 → z.hbm = x.hbm ∧ (new = 3 → ∃ c ∈ z.causes, c.bit = 9 ∧ c.status = Status.HBM_OVERTEMP))) := by
  obtain ⟨kept, hbm, hstack⟩ := x.noteTemp_kept k old new
  unfold State.afterReading
  generalize x.noteTemp _ _ _ = y at kept hbm hstack ⊢
  split
  next hup =>
    have hserved : Kept false x (y.serveAll k) := foldl_keeps kept fun _ _ h => h.serveChannel
    have hempty : (x.stack k).queue = [] → (y.serveAll k).hbm = x.hbm := fun hq =>
      (congrArg State.hbm (State.serveAll_empty (by rw [hstack, hq]))).trans hbm
    generalize y.serveAll k = z at hserved hempty ⊢
    have hreport : Answered z (z.report Status.HBM_OVERTEMP k) := .event .refl
    generalize z.report Status.HBM_OVERTEMP k = w at hreport ⊢
    exact ⟨_, rfl, (hserved.answered hreport).addCause, fun hq _ =>
      ⟨hreport.hbm.trans (hempty hq), fun _ => ⟨_, w.mem_addCause _, rfl, rfl⟩⟩⟩
  next hup =>
    split
    next hdown => exact ⟨_, rfl, kept.collWake, fun _ hl => absurd hdown.1 (Nat.ne_of_lt hl)⟩
    next => exact ⟨_, rfl, kept, fun _ hl => ⟨hbm, fun hn => absurd ⟨hl, hn⟩ hup⟩⟩

theorem stackTempRead_reads {s : State} {k : Nat} {temp : BitVec 8} (hk : k < 16) (aw : s.awake = true) :
    Gives (exec (.stackTempRead k temp) s) (fun z => Reads s k temp.toNat z
      ∧ ((s.stack k).queue = [] → s.fld (HBM.TLEVEL k) < 3 → z.hbm = s.hbm
        ∧ (105 ≤ temp.toNat → ∃ c ∈ z.causes, c.bit = 9 ∧ c.status = Status.HBM_OVERTEMP))) := by
  obtain ⟨hbm, hstack⟩ := s.setTemp_keeps k temp.toNat (nextLevel (s.fld (HBM.TLEVEL k)) temp.toNat)
  obtain ⟨z, hz, kept, hempty⟩ := (s.setTemp k temp.toNat (nextLevel (s.fld (HBM.TLEVEL k)) temp.toNat)).afterReading_keeps k
    (s.fld (HBM.TLEVEL k)) (nextLevel (s.fld (HBM.TLEVEL k)) temp.toNat)
  refine ⟨z, (execStackTempRead_eq hk aw).trans hz, .of_kept hk temp.isLt kept, fun hq hl => ?_⟩
  obtain ⟨hz, hcause⟩ := hempty (by rw [hstack, hq]) hl
  exact ⟨hz.trans hbm, fun ht => hcause (nextLevel_high _ ht)⟩

/-- Settles O45: a lemma for each command, a request being served as one block's read or write. -/
theorem hbmCommands : Obligations.HbmCommands := by
  unfold Obligations.HbmCommands
  intro k ch blk r st d s a clean inBlock asks answered
  have asksOf : asks → Asks s k ch r := fun ⟨hk, hch, hp, hl, hq⟩ => ⟨hk, hch, hp, hl, hq⟩
  have cleanOf : clean → s.Clean := fun ⟨hb, hs, hv, hw⟩ => ⟨hb, hs, hv, hw⟩
  refine ⟨?read, ?write, ?block, fun hk hch h => hbm_asleep hk hch h,
    fun lch hk hl hcopy hbad hsoft => sparingCopyDone_switches hk hl hcopy hbad hsoft,
    fun hk hch => ⟨fun aw => channelReset_resets hk hch aw, fun hr => channelReady_poisons hk hch hr⟩,
    fun u hb hp hh hr ha hl hu hsoft hbad hroom => scrubRead_corrects hb hp hh hr ha hl hu hsoft hbad hroom, ?temp⟩
  case read =>
    intro ha hc ⟨h0, hin, hl⟩ hw hh hs hd
    exact ⟨fun hp => hbmRead_answers (asksOf ha) (cleanOf hc) h0 hin hl hw hh hs hd _ (by rw [hp]; rfl),
      fun hp => hbmRead_answers (asksOf ha) (cleanOf hc) h0 hin hl hw hh hs hd _ (by rw [hp]; rfl)⟩
  case write =>
    intro bs ha hc ⟨h0, hin, hl⟩ hw hh hs hp
    obtain ⟨z, hz, hans, hbytes, hself, hothers⟩ := hbmWrite_stored (asksOf ha) hw hs fun z ht => by
      rw [z.serveReq_writePlain (ht.clean (cleanOf hc)) hw hh h0 hin (by rw [ht.haloOf]; exact hp), ht.haloOf]
    exact ⟨z, hz, hans, hbytes, (congrArg haloBare hself).trans (haloBare_put _), hothers⟩
  case block =>
    intro bs h ha hc halign hl hlen hm hph hw hh hs hp
    obtain ⟨z, hz, hans, hbytes, hself, hothers⟩ := hbmWrite_stored (asksOf ha) hw hs fun z ht =>
      z.serveReq_writeBlock (ht.clean (cleanOf hc)) hw hh halign hlen hm hph (by rw [ht.haloOf]; exact hp)
    exact ⟨z, hz, hans, by rw [hlen] at hbytes; exact hbytes, hself, hothers⟩
  case temp =>
    intro temp hk aw
    obtain ⟨z, hz, ⟨htemp, hlevel, hothers⟩, hempty⟩ := stackTempRead_reads (temp := temp) hk aw
    exact ⟨z, hz, htemp, fun h => hlevel.trans (nextLevel_high _ h), fun h => hlevel.trans (nextLevel_low _ h), hothers, hempty⟩

end Sys2Proof.Machine
end

section
/-! LEMMAS. The registers that outlive a module reset, the stop of the rails (R515, R529, R544), and what an event entry of the
power rows leaves (O57). -/
namespace Sys2Proof.Machine

/-! ### Registers -/

/-- A field whose register is not the one written. -/
theorem State.fld_wr_far (s : State) (v : Word) {f : Fld} {o : Nat} (h : canonical f.off ≠ canonical o) : (s.wr o v).fld f = s.fld f := by
  simp only [State.fld, s.rd_wr_other v h]

theorem State.fld_setFld_far (s : State) {f g : Fld} (v : Nat) (h : canonical g.off ≠ canonical f.off) : (s.setFld f v).fld g = s.fld g :=
  s.fld_wr_far _ h

/-- The registers of the island stay, the others read their reset values. -/
theorem State.rd_moduleReset (s : State) {o : Nat} (h : canonical o ≠ bcnBase + 0x28) :
    s.moduleReset.rd o = if islandReg (canonical o) then s.rd o else modReset (canonical o) := by
  unfold State.moduleReset State.setFld
  rw [State.rd_wr_other _ _ (by exact h), State.rd_wr_other _ _ (by exact h)]
  exact get_filter ..

theorem State.fld_moduleReset_island (s : State) {f : Fld} (h : islandReg (canonical f.off) = true) : s.moduleReset.fld f = s.fld f := by
  have hne : canonical f.off ≠ bcnBase + 0x28 := fun e => by rw [e] at h; exact absurd h (by decide)
  simp only [State.fld, s.rd_moduleReset hne, h, if_true]

theorem State.fld_moduleReset_zero (s : State) {f : Fld} (h : islandReg (canonical f.off) = false) (hne : canonical f.off ≠ bcnBase + 0x28) :
    s.moduleReset.fld f = bits (modReset (canonical f.off)).toNat f.lsb f.width := by
  simp only [State.fld, s.rd_moduleReset hne, h, Bool.false_eq_true, if_false]

/-! ### The stop of the rails -/

/-- What is left of `s₀` when every rail but Nightlight's is off. -/
structure Rails (s₀ s : State) : Prop where
  state : s.pwr.state = .s3
  lowPower : s.fld PWR.LOWPOWER = 1
  ready : s.fld HIF.READY = 0
  bootWait : s.fld HIF.BOOT_WAIT = 0
  hbm : s.hbm = []
  tiles : s.tiles = []
  cur : s.lh.cur = none
  jobs : s.lh.jobs = []
  mem : s.hif.mem = s₀.hif.mem
  cal : s.fld NVM.CAL = s₀.fld NVM.CAL
  sec : s.nl.sec = s₀.nl.sec

theorem State.moduleReset_rest (s : State) : s.moduleReset.hbm = [] ∧ s.moduleReset.tiles = [] ∧ s.moduleReset.lh.cur = none
    ∧ s.moduleReset.lh.jobs = [] ∧ s.moduleReset.hif.mem = s.hif.mem ∧ s.moduleReset.nl.sec = s.nl.sec ∧ s.moduleReset.nl.settings = s.nl.settings
    ∧ s.moduleReset.nl.journal = s.nl.journal ∧ s.moduleReset.pins.slot = s.pins.slot ∧ s.moduleReset.pwr.bootEvents = s.pwr.bootEvents
    ∧ s.moduleReset.nl.presUntil = s.nl.presUntil := by
  exact ⟨rfl, rfl, rfl, rfl, rfl, rfl, rfl, rfl, rfl, rfl, rfl⟩

/-- What the stop of the rails notes outside the registers. -/
def State.railsOff (s : State) : State :=
  let t := s.draw 8
  let s := t.2.smbSet 0x4000
  { s with pwr := { s.pwr with state := .s3, islandTemp := t.1.toNat } }

theorem State.stopRails_eq (s : State) : s.stopRails = ((s.moduleReset.setFld PWR.LOWPOWER 1).setFld HIF.BOOT_WAIT 0).railsOff := rfl

theorem State.railsOff_keeps (s : State) : s.railsOff.pwr.state = .s3 ∧ s.railsOff.regs = s.regs
    ∧ s.railsOff.hbm = s.hbm ∧ s.railsOff.tiles = s.tiles ∧ s.railsOff.lh = s.lh ∧ s.railsOff.hif = s.hif ∧ s.railsOff.nl = s.nl :=
  ⟨rfl, rfl, rfl, rfl, rfl, rfl, rfl⟩

theorem State.fld_railsOff (s : State) (f : Fld) : s.railsOff.fld f = s.fld f := State.fld_congr s.railsOff_keeps.2.1 f

/-- A register of the island but for PWR_NL_STAT, which shows the low-power mode. -/
theorem State.fld_stopRails_island (s : State) {f : Fld} (h : islandReg (canonical f.off) = true) (hf : canonical f.off ≠ pwrBase + 0x28) :
    s.stopRails.fld f = s.fld f := by
  have hboot : canonical f.off ≠ canonical HIF.BOOT_WAIT.off := fun e => by rw [e] at h; exact absurd h (by decide)
  rw [s.stopRails_eq, State.fld_railsOff, State.fld_setFld_far _ _ hboot, State.fld_setFld_far _ _ (by exact hf), s.fld_moduleReset_island h]

theorem State.stopRails_rails (s : State) : Rails s s.stopRails := by
  have hcal := s.fld_stopRails_island (f := NVM.CAL) (by decide) (by decide)
  have hready : s.moduleReset.fld HIF.READY = 0 := s.fld_moduleReset_zero (by decide) (by decide)
  obtain ⟨hhbm, htiles, hcur, hjobs, hmem, hsec, -⟩ := s.moduleReset_rest
  rw [s.stopRails_eq] at hcal ⊢
  generalize s.moduleReset = y at *
  obtain ⟨hstate, -, hhbm', htiles', hlh, hhif, hnl⟩ := ((y.setFld PWR.LOWPOWER 1).setFld HIF.BOOT_WAIT 0).railsOff_keeps
  refine ⟨hstate, ?low, ?ready, ?wait, ?_, ?_, ?_, ?_, ?_, hcal, ?_⟩
  case low =>
    rw [State.fld_railsOff, State.fld_setFld_far _ _ (by decide)]
    exact State.fld_setFld_val _ _ _ _ (by decide) (by decide)
  case ready =>
    rw [State.fld_railsOff]
    calc _ = (y.setFld PWR.LOWPOWER 1).fld HIF.READY := State.fld_setFld_word _ 0x10 1 1 0 1 0 (by decide) (by decide)
      _ = y.fld HIF.READY := State.fld_setFld_far _ _ (by decide)
      _ = 0 := hready
  case wait =>
    rw [State.fld_railsOff]
    exact State.fld_setFld_val _ _ _ _ (by decide) (by decide)
  · rw [hhbm', State.setFld_hbm, State.setFld_hbm, hhbm]
  · rw [htiles', State.setFld_tiles, State.setFld_tiles, htiles]
  · rw [hlh, State.setFld_lh, State.setFld_lh, hcur]
  · rw [hlh, State.setFld_lh, State.setFld_lh, hjobs]
  · rw [hhif, State.setFld_hif, State.setFld_hif, hmem]
  · rw [hnl, State.setFld_nl, State.setFld_nl, hsec]

theorem State.mem_atBoot (s : State) (c : BitVec 16) : c ∈ (s.atBoot c).pwr.bootEvents := by
  show c ∈ if s.pwr.bootEvents.contains c then s.pwr.bootEvents else s.pwr.bootEvents ++ [c]
  split
  next h => simpa using h
  next => simp

/-! ### Registers and event entries -/

/-- From `s₀` to `s` nothing has changed but registers and the backlog. -/
def Marked (s₀ s : State) : Prop := { s with regs := s₀.regs, hif := { s.hif with backlog := s₀.hif.backlog } } = s₀

/-- Tiles, HBM and host memory are as before. -/
def SameBytes (s₀ s : State) : Prop := s.tiles = s₀.tiles ∧ s.hbm = s₀.hbm ∧ s.hif.mem = s₀.hif.mem

theorem SameBytes.trans {s₀ s s' : State} (h : SameBytes s₀ s) (h' : SameBytes s s') : SameBytes s₀ s' := by
  obtain ⟨ht, hh, hm⟩ := h
  obtain ⟨ht', hh', hm'⟩ := h'
  exact ⟨ht'.trans ht, hh'.trans hh, hm'.trans hm⟩

namespace Marked
variable {s₀ s s' : State}

theorem refl : Marked s s := rfl

theorem trans (h : Marked s₀ s) (h' : Marked s s') : Marked s₀ s' := by
  unfold Marked at *
  calc _ = { { s' with regs := s.regs, hif := { s'.hif with backlog := s.hif.backlog } } with
        regs := s₀.regs, hif := { s'.hif with backlog := s₀.hif.backlog } } := rfl
    _ = { s with regs := s₀.regs, hif := { s'.hif with backlog := s₀.hif.backlog } } := by rw [h']
    _ = { s with regs := s₀.regs, hif := { s.hif with backlog := s₀.hif.backlog } } := by rw [← congrArg State.hif h']
    _ = s₀ := h

theorem wr (s : State) (o : Nat) (v : Word) : Marked s (s.wr o v) := rfl
theorem setFld (h : Marked s₀ s) (f : Fld) (v : Nat) : Marked s₀ (s.setFld f v) := h.trans rfl
theorem bumpFld (h : Marked s₀ s) (f : Fld) : Marked s₀ (s.bumpFld f) := h.setFld f _

theorem post (s : State) (e : Entry) : Marked s (s.post e) := by
  obtain ⟨b, h⟩ | h := s.post_cases e
  · rw [h]; rfl
  · rw [h]; rfl

theorem event (h : Marked s₀ s) (kind code port : Nat) (c : BitVec 16) (detail : Nat) : Marked s₀ (s.event kind code port c detail) := by
  unfold State.event
  split
  · exact h
  · exact h.trans (.post s _)

theorem tiles (h : Marked s₀ s) : s.tiles = s₀.tiles := (congrArg State.tiles h :)
theorem hbm (h : Marked s₀ s) : s.hbm = s₀.hbm := (congrArg State.hbm h :)
theorem mem (h : Marked s₀ s) : s.hif.mem = s₀.hif.mem := (congrArg (fun z => z.hif.mem) h :)
theorem pwr (h : Marked s₀ s) : s.pwr = s₀.pwr := (congrArg State.pwr h :)
theorem nl (h : Marked s₀ s) : s.nl = s₀.nl := (congrArg State.nl h :)
theorem rel (h : Marked s₀ s) : s.rel = s₀.rel := (congrArg State.rel h :)
theorem causes (h : Marked s₀ s) : s.causes = s₀.causes := (congrArg State.causes h :)
theorem ports (h : Marked s₀ s) : s.ports = s₀.ports := (congrArg State.ports h :)
theorem lh (h : Marked s₀ s) : s.lh = s₀.lh := (congrArg State.lh h :)
theorem sameBytes (h : Marked s₀ s) : SameBytes s₀ s := ⟨h.tiles, h.hbm, h.mem⟩

end Marked

/-- An event entry changes no register but HIF_FAULT. -/
theorem State.fld_event (s : State) (kind code port : Nat) (c : BitVec 16) (detail : Nat) {f : Fld} (hf : canonical f.off ≠ 0x20) :
    (s.event kind code port c detail).fld f = s.fld f :=
  (Answered.event (Answered.refl (s := s))).fld hf

/-! ### What a row of power sets beside registers -/

/-- The state with what the regulation stage and Nightlight hold set. -/
def State.withPwr (s : State) (p : Power) : State := { s with pwr := p }

theorem State.withPwr_pwr (s : State) (p : Power) : (s.withPwr p).pwr = p := rfl
theorem State.withPwr_regs (s : State) (p : Power) : (s.withPwr p).regs = s.regs := rfl
theorem State.withPwr_causes (s : State) (p : Power) : (s.withPwr p).causes = s.causes := rfl
theorem State.withPwr_cycle (s : State) (p : Power) : (s.withPwr p).cycle = s.cycle := rfl
theorem State.withPwr_pins (s : State) (p : Power) : (s.withPwr p).pins = s.pins := rfl
theorem State.withPwr_hbm (s : State) (p : Power) : (s.withPwr p).hbm = s.hbm := rfl
theorem State.withPwr_nl (s : State) (p : Power) : (s.withPwr p).nl = s.nl := rfl
theorem State.withPwr_hif (s : State) (p : Power) : (s.withPwr p).hif = s.hif := rfl
theorem State.withPwr_tiles (s : State) (p : Power) : (s.withPwr p).tiles = s.tiles := rfl
theorem State.fld_withPwr (s : State) (p : Power) (f : Fld) : (s.withPwr p).fld f = s.fld f := State.fld_congr (s.withPwr_regs p) f
theorem State.smbSet_pwr (s : State) (v : BitVec 16) : (s.smbSet v).pwr = s.pwr := rfl
theorem State.smbSet_regs (s : State) (v : BitVec 16) : (s.smbSet v).regs = s.regs := rfl
theorem State.smbSet_causes (s : State) (v : BitVec 16) : (s.smbSet v).causes = s.causes := rfl
theorem State.fld_smbSet (s : State) (v : BitVec 16) (f : Fld) : (s.smbSet v).fld f = s.fld f := State.fld_congr (s.smbSet_regs v) f
theorem State.atBoot_regs (s : State) (c : BitVec 16) : (s.atBoot c).regs = s.regs := rfl
theorem State.fld_atBoot (s : State) (c : BitVec 16) (f : Fld) : (s.atBoot c).fld f = s.fld f := State.fld_congr (s.atBoot_regs c) f
theorem State.losePower_pwr (s : State) (c : BitVec 16) : (s.losePower c).pwr = s.pwr := rfl
theorem State.losePower_regs (s : State) (c : BitVec 16) : (s.losePower c).regs = s.regs := rfl
theorem State.fld_losePower (s : State) (c : BitVec 16) (f : Fld) : (s.losePower c).fld f = s.fld f := State.fld_congr (s.losePower_regs c) f
theorem State.event_pwr (s : State) (kind code port : Nat) (c : BitVec 16) (detail : Nat) : (s.event kind code port c detail).pwr = s.pwr :=
  (Marked.refl.event ..).pwr
theorem State.event_causes (s : State) (kind code port : Nat) (c : BitVec 16) (detail : Nat) :
    (s.event kind code port c detail).causes = s.causes := (Marked.refl.event ..).causes

/-! What Nightlight and the regulation stage note of a stop changes nothing of it. -/

theorem Rails.withPwr {s₀ s : State} (h : Rails s₀ s) {p : Power} (hp : p.state = s.pwr.state) : Rails s₀ (s.withPwr p) :=
  ⟨hp.trans h.state, h.lowPower, h.ready, h.bootWait, h.hbm, h.tiles, h.cur, h.jobs, h.mem, h.cal, h.sec⟩

theorem Rails.smbSet {s₀ s : State} (h : Rails s₀ s) (v : BitVec 16) : Rails s₀ (s.smbSet v) :=
  ⟨h.state, h.lowPower, h.ready, h.bootWait, h.hbm, h.tiles, h.cur, h.jobs, h.mem, h.cal, h.sec⟩

theorem Rails.atBoot {s₀ s : State} (h : Rails s₀ s) (c : BitVec 16) : Rails s₀ (s.atBoot c) :=
  ⟨h.state, h.lowPower, h.ready, h.bootWait, h.hbm, h.tiles, h.cur, h.jobs, h.mem, h.cal, h.sec⟩

namespace SameBytes
variable {s₀ s : State}

theorem refl : SameBytes s s := ⟨rfl, rfl, rfl⟩
theorem marked (h : SameBytes s₀ s) {s' : State} (h' : Marked s s') : SameBytes s₀ s' := h.trans h'.sameBytes
theorem setFld (h : SameBytes s₀ s) (f : Fld) (v : Nat) : SameBytes s₀ (s.setFld f v) := h.marked (Marked.refl.setFld f v)
theorem bumpFld (h : SameBytes s₀ s) (f : Fld) : SameBytes s₀ (s.bumpFld f) := h.setFld f _
theorem event (h : SameBytes s₀ s) (kind code port : Nat) (c : BitVec 16) (detail : Nat) :
    SameBytes s₀ (s.event kind code port c detail) := h.marked (Marked.refl.event ..)
theorem withPwr (h : SameBytes s₀ s) (p : Power) : SameBytes s₀ (s.withPwr p) := h
theorem smbSet (h : SameBytes s₀ s) (v : BitVec 16) : SameBytes s₀ (s.smbSet v) := h
theorem losePower (h : SameBytes s₀ s) (c : BitVec 16) : SameBytes s₀ (s.losePower c) := h

end SameBytes

end Sys2Proof.Machine
end

section
/-! LEMMAS. The input of a module that is awake (O57; R514, R515). -/
namespace Sys2Proof.Machine
variable {s : State}

theorem supplied_of_awake (aw : s.awake = true) : s.supplied = true := by
  simp only [State.awake, State.supplied, Bool.and_eq_true] at *
  exact aw.2

theorem awake_of_p0 (h : s.pwr.state = .p0) : s.awake = true := by simp [State.awake, h]

theorem State.awake_congr {z : State} (h : z.pwr.state = s.pwr.state) : z.awake = s.awake := by simp only [State.awake, h]

/-- The cause that a loss of POWER_OK adds in this cycle. -/
def State.noPower (s : State) : Cause := { bit := 9, status := Status.PWR_INPUT, cycle := s.cycle }

theorem State.noPower_mem (s : State) : s.noPower ∈ (s.losePower Status.PWR_INPUT).causes := mem_placeCause _ _

/-! ### Measurements -/

/-- What the monitor holds of a measurement. -/
def Power.measured (p : Power) (vin power : Nat) : Power := { p with current := if vin = 0 then 0 else power * 10000 / vin }

/-- A measurement as it is noted. -/
def State.vinRead (s : State) (vin power : Nat) : State :=
  (s.setFld PWR.VIN (min vin 1023)).withPwr ((s.setFld PWR.VIN (min vin 1023)).pwr.measured vin power)

def Power.inRange (p : Power) : Power := { p with range := false, input := 16 }

/-- The end of an input fault, if there was one. -/
def State.vinEnds (s : State) : State :=
  (fun z : State => z.withPwr z.pwr.inRange) (if s.pwr.range then s.losePower Status.PWR_INPUT else s)

theorem State.takeVin_eq (s : State) (vin power : Nat) : s.takeVin vin power = (fun z => if vinOk vin then z.vinEnds else z)
    (if (s.vinRead vin power).awake then s.vinRead vin power else (s.vinRead vin power).setFld PWR.POWER_W (min power 4095)) := rfl

theorem Power.measured_keeps (p : Power) (vin power : Nat) :
    (p.measured vin power).state = p.state ∧ (p.measured vin power).range = p.range ∧ (p.measured vin power).input = p.input := ⟨rfl, rfl, rfl⟩

theorem State.vinRead_pwr (s : State) (vin power : Nat) : (s.vinRead vin power).pwr = s.pwr.measured vin power := by
  rw [State.vinRead, State.withPwr_pwr, State.setFld_pwr]

theorem State.vinRead_causes (s : State) (vin power : Nat) : (s.vinRead vin power).causes = s.causes := by
  rw [State.vinRead, State.withPwr_causes, State.setFld_causes]

theorem State.vinRead_cycle (s : State) (vin power : Nat) : (s.vinRead vin power).cycle = s.cycle := by
  rw [State.vinRead, State.withPwr_cycle, State.setFld_cycle]

theorem State.vinRead_vin (s : State) (vin power : Nat) : (s.vinRead vin power).fld PWR.VIN = min vin 1023 := by
  rw [State.vinRead, State.fld_withPwr]
  exact s.fld_setFld_val _ 32 10 (by decide) (Nat.lt_succ_of_le (Nat.min_le_right ..))

theorem State.vinRead_sameBytes (s : State) (vin power : Nat) : SameBytes s (s.vinRead vin power) := (SameBytes.refl.setFld _ _).withPwr _

theorem vinSample_eq (aw : s.awake = true) (vin power : Nat) :
    exec (.vinSample vin power) s = .next (if vinOk vin then (s.vinRead vin power).vinEnds else s.vinRead vin power) := by
  have aw' : (s.vinRead vin power).awake = true := by rw [State.awake_congr (s := s) (by rw [s.vinRead_pwr, (s.pwr.measured_keeps ..).1]), aw]
  show execVinSample vin power s = _
  unfold execVinSample
  rw [if_pos (supplied_of_awake aw), State.takeVin_eq, if_pos aw']

/-- What a measurement in range leaves: a step that an input fault overlapped has lost POWER_OK. -/
theorem State.vinEnds_keeps (s : State) : s.vinEnds.pwr.range = false ∧ s.vinEnds.pwr.input = 16 ∧ s.vinEnds.fld PWR.VIN = s.fld PWR.VIN
    ∧ (s.pwr.range = true → s.noPower ∈ s.vinEnds.causes) ∧ (s.pwr.range = false → s.vinEnds.causes = s.causes) ∧ SameBytes s s.vinEnds := by
  unfold State.vinEnds
  split
  next h => exact ⟨rfl, rfl, s.fld_losePower Status.PWR_INPUT _, fun _ => s.noPower_mem, fun h' => absurd (h'.symm.trans h) Bool.false_ne_true, .refl⟩
  next h => exact ⟨rfl, rfl, rfl, fun h' => absurd h' h, fun _ => rfl, .refl⟩

theorem vinSample_inRange {vin power : Nat} (aw : s.awake = true) (hlo : 400 ≤ vin) (hhi : vin ≤ 600) :
    Gives (exec (.vinSample vin power) s) (fun z => z.pwr.range = false ∧ z.pwr.input = 16 ∧ z.fld PWR.VIN = vin
      ∧ (s.pwr.range = true → s.noPower ∈ z.causes) ∧ (s.pwr.range = false → z.causes = s.causes) ∧ SameBytes s z) := by
  obtain ⟨hout, hfull, hsame, hon, hoff, hbytes⟩ := (s.vinRead vin power).vinEnds_keeps
  obtain ⟨-, hrange, -⟩ := s.pwr.measured_keeps vin power
  rw [vinSample_eq aw, if_pos (by simp [vinOk, hlo, hhi])]
  rw [s.vinRead_vin, Nat.min_eq_left (by omega)] at hsame
  rw [s.vinRead_pwr, hrange] at hon hoff
  rw [State.noPower, s.vinRead_cycle] at hon
  rw [s.vinRead_causes] at hoff
  exact ⟨_, rfl, hout, hfull, hsame, hon, hoff, (s.vinRead_sameBytes vin power).trans hbytes⟩

theorem vinOk_out {vin : Nat} (h : vin < 400 ∨ 600 < vin) : vinOk vin = false := by
  simp only [vinOk, Bool.and_eq_false_iff, decide_eq_false_iff_not]
  omega

theorem vinSample_out {vin power : Nat} (aw : s.awake = true) (h : vin < 400 ∨ 600 < vin) :
    Gives (exec (.vinSample vin power) s) (fun z => z.pwr.input = s.pwr.input ∧ z.fld PWR.VIN = min vin 1023
      ∧ z.causes = s.causes ∧ SameBytes s z) := by
  rw [vinSample_eq aw, if_neg (by simp [vinOk_out h])]
  exact ⟨_, rfl, by rw [s.vinRead_pwr, (s.pwr.measured_keeps ..).2.2], s.vinRead_vin vin power, s.vinRead_causes vin power, s.vinRead_sameBytes vin power⟩

/-! ### Faults and collapses -/

def Power.outOfRange (p : Power) : Power := { p with range := true, input := 8 }

theorem inputRangeFault_faults {vin : Nat} (aw : s.awake = true) (h : vin < 400 ∨ 600 < vin) (hr : s.pwr.range = false) :
    Gives (exec (.inputRangeFault vin) s) (fun z => z.pwr.range = true ∧ z.pwr.input = 8 ∧ z.pins.smbStatus.getLsbD 13 = true
      ∧ s.noPower ∈ z.causes ∧ SameBytes s z) := by
  have he : exec (.inputRangeFault vin) s =
      .next ((((s.withPwr s.pwr.outOfRange).losePower Status.PWR_INPUT).event 7 0 0 Status.PWR_INPUT 0).smbSet 0x2000) := by
    show execInputRangeFault vin s = _
    unfold execInputRangeFault State.inputFault
    rw [if_pos (by simp [aw, vinOk_out h]), if_neg (by simp [hr])]
    rfl
  have hpwr : ((((s.withPwr s.pwr.outOfRange).losePower Status.PWR_INPUT).event 7 0 0 Status.PWR_INPUT 0).smbSet 0x2000).pwr = s.pwr.outOfRange := by
    rw [State.smbSet_pwr, State.event_pwr, State.losePower_pwr, State.withPwr_pwr]
  refine ⟨_, he, by rw [hpwr, Power.outOfRange], by rw [hpwr, Power.outOfRange], ?_, ?_,
    (((SameBytes.refl.withPwr _).losePower _).event ..).smbSet _⟩
  · generalize State.event _ 7 0 0 _ 0 = w
    show (w.pins.smbStatus ||| 0x2000).getLsbD 13 = true
    rw [BitVec.getLsbD_or]
    simp
  · rw [State.smbSet_causes, State.event_causes]
    exact (s.withPwr s.pwr.outOfRange).noPower_mem

theorem inputCollapse_inRange {vin : Nat} (hlo : 370 ≤ vin) (hhi : vin ≤ 630) : exec (.inputCollapse vin) s = .next s := by
  show execInputCollapse vin s = _
  unfold execInputCollapse
  rw [if_neg (by simp only [Bool.and_eq_true, Bool.or_eq_true, decide_eq_true_eq]; omega)]

def Power.faultLow (p : Power) : Power := { p with faultPin := true }

/-- The stop of the rails that a fault of the supply makes, with PWR_FAULT_N. -/
def State.faultStop (s : State) : State := s.stopRails.withPwr s.stopRails.pwr.faultLow

theorem State.faultStop_rails (s : State) : Rails s s.faultStop := s.stopRails_rails.withPwr rfl

theorem State.faultStop_pin (s : State) : s.faultStop.pwr.faultPin = true := by rw [State.faultStop, State.withPwr_pwr, Power.faultLow]

theorem State.atBoot_faultPin (s : State) (c : BitVec 16) : (s.atBoot c).pwr.faultPin = s.pwr.faultPin := rfl

theorem State.collapse_eq (s : State) : s.collapse = ((if s.awake then s.faultStop else s).atBoot Status.PWR_INPUT).smbSet 0x2000 := rfl

theorem inputCollapse_stops {vin : Nat} (aw : s.awake = true) (h : vin < 370 ∨ 630 < vin) :
    Gives (exec (.inputCollapse vin) s) (fun z => Rails s z ∧ z.pwr.faultPin = true ∧ Status.PWR_INPUT ∈ z.pwr.bootEvents) := by
  show Gives (execInputCollapse vin s) _
  unfold execInputCollapse
  rw [if_pos (by simp [supplied_of_awake aw, h]), State.collapse_eq, if_pos aw]
  exact ⟨_, rfl, (s.faultStop_rails.atBoot _).smbSet _, by rw [State.smbSet_pwr, State.atBoot_faultPin, s.faultStop_pin],
    by rw [State.smbSet_pwr]; exact s.faultStop.mem_atBoot _⟩

end Sys2Proof.Machine
end

section
/-! LEMMAS. The power cap and the thermal limits (O57; R519, R520, R529). -/
namespace Sys2Proof.Machine
variable {s : State}

/-! ### The cap (R520) -/

/-- The cap duty after a step. -/
def capNext (w mean old : Nat) : Nat := if w < mean then max 1 (old - 1) else if 100 * mean < 95 * w then min 16 (old + 1) else old

def Power.capped (p : Power) (cap one : Nat) : Power := { p with cap := cap, oneFor := one }

/-- A step of the controller before what it reports. -/
def State.capDuty (s : State) (mean new one : Nat) : State := (s.setFld PWR.POWER_W (min mean 4095)).withPwr (s.pwr.capped new one)

/-- The report of a cap that sets in. -/
def State.capEntry (s : State) (old new : Nat) : State :=
  if old = 16 ∧ new < 16 then (s.bumpFld PWR.CAP_ENTRIES).event 7 0 0 Status.PWR_CAPPED 0 else s

/-- The report of a cap that cannot be met. -/
def State.capFails (s : State) (w mean100 new one : Nat) : State :=
  if new = 1 ∧ 100 ≤ one ∧ 102 * w < 100 * mean100 ∧ s.fld PWR.CAP_UNMET = 0 then
    (s.setFld PWR.CAP_UNMET 1).event 7 1 0 Status.PWR_CAPPED 0
  else s

theorem State.capStep_eq (s : State) (mean mean100 : Nat) : s.capStep mean mean100 = (fun w old => (fun new => (fun one =>
    ((s.capDuty mean new one).capEntry old new).capFails w mean100 new one) (if new = 1 ∧ old = 1 then s.pwr.oneFor + 1 else 0))
    (capNext w mean old)) (s.fld PWR.CAP_W) s.pwr.cap := rfl

theorem State.capDuty_power (s : State) (mean new one : Nat) : (s.capDuty mean new one).fld PWR.POWER_W = min mean 4095 := by
  rw [State.capDuty, State.fld_withPwr]
  exact s.fld_setFld_val _ 20 12 (by decide) (Nat.lt_succ_of_le (Nat.min_le_right ..))

theorem State.capDuty_entries (s : State) (mean new one : Nat) : (s.capDuty mean new one).fld PWR.CAP_ENTRIES = s.fld PWR.CAP_ENTRIES := by
  rw [State.capDuty, State.fld_withPwr, State.fld_setFld_far _ _ (by decide)]

theorem State.capEntry_marked (s : State) (old new : Nat) : Marked s (s.capEntry old new) :=
  ite_keeps ((Marked.refl.bumpFld _).event ..) .refl

theorem State.capFails_marked (s : State) (w mean100 new one : Nat) : Marked s (s.capFails w mean100 new one) :=
  ite_keeps ((Marked.refl.setFld _ _).event ..) .refl

theorem State.fld_capEntry (s : State) (old new : Nat) {f : Fld} (hf : canonical f.off ≠ 0x20) (hf' : canonical f.off ≠ pwrBase + 0x30) :
    (s.capEntry old new).fld f = s.fld f := by
  unfold State.capEntry
  split
  · rw [State.fld_event _ _ _ _ _ _ hf]
    exact State.fld_setFld_far _ _ (by exact hf')
  · rfl

/-- PWR_STAT's other fields, and every other register. -/
theorem State.fld_capFails (s : State) (w mean100 new one : Nat) {f : Fld} (hf : canonical f.off ≠ 0x20)
    (hf' : canonical f.off ≠ pwrBase ∨ f.off = pwrBase ∧ f.lsb + f.width ≤ 42) : (s.capFails w mean100 new one).fld f = s.fld f := by
  unfold State.capFails
  split
  · rw [State.fld_event _ _ _ _ _ _ hf]
    exact s.fld_setFld_other _ (by decide) (hf'.imp id fun ⟨h, h'⟩ => ⟨h, .inr h'⟩)
  · rfl

theorem State.capEntry_counts (s : State) {old new : Nat} (ho : old = 16) (hn : new < 16) (hroom : s.fld PWR.CAP_ENTRIES + 1 < 2 ^ 16) :
    (s.capEntry old new).fld PWR.CAP_ENTRIES = s.fld PWR.CAP_ENTRIES + 1 := by
  rw [State.capEntry, if_pos ⟨ho, hn⟩, State.fld_event _ _ _ _ _ _ (by decide)]
  exact s.fld_bumpFld_room _ 32 16 (by decide) hroom

theorem State.capFails_unmet (s : State) {w mean100 new one : Nat} (hn : new = 1) (ho : 100 ≤ one) (hw : 102 * w < 100 * mean100) :
    (s.capFails w mean100 new one).fld PWR.CAP_UNMET = 1 := by
  unfold State.capFails
  split
  · rw [State.fld_event _ _ _ _ _ _ (by decide)]
    exact s.fld_setFld_val _ _ _ (by decide) (by decide)
  next h =>
    have hz : s.fld PWR.CAP_UNMET ≠ 0 := fun hz => h ⟨hn, ho, hw, hz⟩
    have hlt : s.fld PWR.CAP_UNMET < 2 ^ 1 := s.fld_lt _
    omega

theorem capControl_steps {mean mean100 : Nat} (aw : s.awake = true) : Gives (exec (.capControl mean mean100) s) (fun z =>
    z.fld PWR.POWER_W = min mean 4095 ∧ SameBytes s z
      ∧ (s.fld PWR.CAP_W < mean → z.pwr.cap = max 1 (s.pwr.cap - 1)) ∧ (100 * mean < 95 * s.fld PWR.CAP_W → z.pwr.cap = min 16 (s.pwr.cap + 1))
      ∧ (mean ≤ s.fld PWR.CAP_W → 95 * s.fld PWR.CAP_W ≤ 100 * mean → z.pwr.cap = s.pwr.cap)
      ∧ (s.fld PWR.CAP_W < mean → s.pwr.cap = 16 → s.fld PWR.CAP_ENTRIES + 1 < 2 ^ 16 → z.fld PWR.CAP_ENTRIES = s.fld PWR.CAP_ENTRIES + 1)
      ∧ (s.fld PWR.CAP_W < mean → s.pwr.cap = 1 → 99 ≤ s.pwr.oneFor → 102 * s.fld PWR.CAP_W < 100 * mean100 → z.fld PWR.CAP_UNMET = 1)) := by
  have he : exec (.capControl mean mean100) s = .next (s.capStep mean mean100) := if_pos aw
  have hbytes : ∀ new one, SameBytes s (s.capDuty mean new one) := fun _ _ => (SameBytes.refl.setFld _ _).withPwr _
  rw [he, State.capStep_eq]
  beta_reduce
  generalize s.fld PWR.CAP_W = w
  generalize hnew : capNext w mean s.pwr.cap = new
  generalize hone : (if new = 1 ∧ s.pwr.cap = 1 then s.pwr.oneFor + 1 else 0) = one
  have hcap : (((s.capDuty mean new one).capEntry s.pwr.cap new).capFails w mean100 new one).pwr.cap = new := by
    rw [(State.capFails_marked ..).pwr, (State.capEntry_marked ..).pwr, State.capDuty, State.withPwr_pwr, Power.capped]
  have hdown : w < mean → new = max 1 (s.pwr.cap - 1) := fun h => by rw [← hnew, capNext, if_pos h]
  refine ⟨_, rfl, ?power, ((hbytes _ _).marked (State.capEntry_marked ..)).marked (State.capFails_marked ..), fun h => hcap.trans (hdown h),
    fun h => ?up, fun h h' => ?stay, fun h h16 hroom => ?entry, fun h h1 h99 hw => ?unmet⟩
  case power =>
    rw [State.fld_capFails _ _ _ _ _ (by decide) (.inr (by decide)), State.fld_capEntry _ _ _ (by decide) (by decide), s.capDuty_power]
  case up => rw [hcap, ← hnew, capNext, if_neg (by omega), if_pos h]
  case stay => rw [hcap, ← hnew, capNext, if_neg (by omega), if_neg (by omega)]
  case entry =>
    have hlt : new < 16 := by have := hdown h; omega
    rw [State.fld_capFails _ _ _ _ _ (by decide) (.inl (by decide)),
      State.capEntry_counts _ h16 hlt (by rw [s.capDuty_entries]; exact hroom), s.capDuty_entries]
  case unmet =>
    have hn : new = 1 := by have := hdown h; omega
    exact State.capFails_unmet _ hn (by rw [← hone, if_pos ⟨hn, h1⟩]; omega) hw

/-! ### Duties below 105 °C (R529) -/

def thermBand (tj : Nat) : Nat := if tj < 95 then 0 else if tj < 98 then 1 else 2

/-- The samples that TJ has been in a band. -/
def Power.samples (p : Power) (band : Nat) : Nat := if band = p.band then p.tempo + 1 else 0

/-- The thermal duty after a sample in a band that has lasted for `n`. -/
def Power.thermNext (p : Power) (band n : Nat) : Nat :=
  if band = 0 ∧ 1000 ≤ n then min 16 (p.therm + 1) else if band = 2 ∧ 100 ≤ n then max 1 (p.therm - 1) else p.therm

def tempoNext (band n : Nat) : Nat := if (band = 0 ∧ 1000 ≤ n) ∨ (band = 2 ∧ 100 ≤ n) then 0 else n

def Power.duties (p : Power) (therm band tempo : Nat) : Power := { p with therm := therm, band := band, tempo := tempo }

/-- The report of a throttling that sets in. -/
def State.thermEntry (s : State) (band was : Nat) : State :=
  if band = 2 ∧ was ≠ 2 then ((s.bumpFld PWR.THROTTLES).event 7 0 0 Status.THERM_THROTTLE 0).smbSet 4 else s

theorem State.thermStep_eq (s : State) (tj : Nat) : s.thermStep tj = (fun z : State => z.withPwr
    (z.pwr.duties (s.pwr.thermNext (thermBand tj) (s.pwr.samples (thermBand tj))) (thermBand tj) (tempoNext (thermBand tj) (s.pwr.samples (thermBand tj)))))
    (s.thermEntry (thermBand tj) s.pwr.band) := rfl

theorem State.thermEntry_pwr (s : State) (band was : Nat) : (s.thermEntry band was).pwr = s.pwr := by
  unfold State.thermEntry
  split
  · rw [State.smbSet_pwr, State.event_pwr, State.bumpFld_pwr]
  · rfl

theorem State.thermStep_pwr (s : State) (tj : Nat) : (s.thermStep tj).pwr = s.pwr.duties (s.pwr.thermNext (thermBand tj) (s.pwr.samples (thermBand tj)))
    (thermBand tj) (tempoNext (thermBand tj) (s.pwr.samples (thermBand tj))) := by
  rw [State.thermStep_eq, State.withPwr_pwr, State.thermEntry_pwr]

theorem State.thermStep_sameBytes (s : State) (tj : Nat) : SameBytes s (s.thermStep tj) := by
  rw [State.thermStep_eq]
  exact SameBytes.withPwr (ite_keeps (((SameBytes.refl.bumpFld _).event ..).smbSet _) .refl) _

theorem State.fld_thermStep (s : State) (tj : Nat) {f : Fld} (hf : canonical f.off ≠ 0x20) (hf' : canonical f.off ≠ pwrBase + 0x30) :
    (s.thermStep tj).fld f = s.fld f := by
  rw [State.thermStep_eq, State.fld_withPwr]
  unfold State.thermEntry
  split
  · rw [State.fld_smbSet, State.fld_event _ _ _ _ _ _ hf]
    exact State.fld_setFld_far _ _ (by exact hf')
  · rfl

theorem State.thermStep_counts (s : State) {tj : Nat} (hb : thermBand tj = 2) (hp : s.pwr.band ≠ 2) (hroom : s.fld PWR.THROTTLES + 1 < 2 ^ 16) :
    (s.thermStep tj).fld PWR.THROTTLES = s.fld PWR.THROTTLES + 1 := by
  rw [State.thermStep_eq, State.fld_withPwr, State.thermEntry, if_pos ⟨hb, hp⟩, State.fld_smbSet, State.fld_event _ _ _ _ _ _ (by decide)]
  exact s.fld_bumpFld_room _ 0 16 (by decide) hroom

theorem thermBand_hot {tj : Nat} (h : 98 ≤ tj) : thermBand tj = 2 := by rw [thermBand, if_neg (by omega), if_neg (by omega)]
theorem thermBand_cool {tj : Nat} (h : tj < 95) : thermBand tj = 0 := if_pos h

/-! ### Engines that go on with nothing queued (R519) -/

/-- No tile has an instruction queued for its engines. -/
def State.EnginesEmpty (s : State) : Prop := ∀ t, (s.tile t).vq = [] ∧ (s.tile t).mq = [] ∧ (s.tile t).xq = []

theorem State.drainMat_nil {s : State} {t : Nat} (h : (s.tile t).mq = []) : s.drainMat t = s := by
  unfold State.drainMat
  rw [h]
  split <;> rfl

theorem Tile.xwaitSettle_queues (x : Tile) : x.xwaitSettle.vq = x.vq ∧ x.xwaitSettle.mq = x.mq ∧ x.xwaitSettle.xq = x.xq := by
  unfold Tile.xwaitSettle Tile.putS
  split
  · split
    · split <;> exact ⟨rfl, rfl, rfl⟩
    · exact ⟨rfl, rfl, rfl⟩
  · exact ⟨rfl, rfl, rfl⟩

/-- With nothing queued only tiles change, whose XWAIT may end. -/
theorem State.redrain_empty {s : State} (h : s.EnginesEmpty) : s.redrain.pwr = s.pwr ∧ s.redrain.regs = s.regs := by
  have hfold : s.redrain.EnginesEmpty ∧ s.redrain.pwr = s.pwr ∧ s.redrain.regs = s.regs := by
    refine foldl_keeps (P := fun z : State => z.EnginesEmpty ∧ z.pwr = s.pwr ∧ z.regs = s.regs) ⟨h, rfl, rfl⟩ fun z t hz => ?_
    obtain ⟨hempty, hpwr, hregs⟩ := hz
    obtain ⟨hv, hm, hx⟩ := hempty t
    rw [State.drainVec_nil hv, State.drainMat_nil hm, State.xqRun_nil hx]
    refine ⟨fun u => ?_, hpwr, hregs⟩
    by_cases hu : u = t
    · subst hu
      rw [State.tile_onTile_same]
      obtain ⟨hv', hm', hx'⟩ := Tile.xwaitSettle_queues { z.tile u with xq := [] }
      exact ⟨hv'.trans hv, hm'.trans hm, hx'⟩
    · rw [State.tile_onTile_other z _ hu]
      exact hempty u
  exact hfold.2

end Sys2Proof.Machine
end

section
/-! LEMMAS. Commits of the journal (R496, R497), samples of TJ (R529). -/
namespace Sys2Proof.Machine
variable {s : State}

/-! ### Commits of the journal -/

/-- From `n` to `m` pages and the journal's entries alone have been written. -/
def Journalled (n m : Nightlight) : Prop := { m with
  journal := n.journal, journalNext := n.journalNext, pageAt := n.pageAt, pageWrites := n.pageWrites, retired := n.retired, badPages := n.badPages } = n

namespace Journalled
variable {n m k : Nightlight}

theorem refl : Journalled n n := rfl

theorem trans (h : Journalled n m) (h' : Journalled m k) : Journalled n k := by
  unfold Journalled at *
  calc _ = { { k with
        journal := m.journal, journalNext := m.journalNext, pageAt := m.pageAt, pageWrites := m.pageWrites, retired := m.retired, badPages := m.badPages } with
        journal := n.journal, journalNext := n.journalNext, pageAt := n.pageAt, pageWrites := n.pageWrites, retired := n.retired, badPages := n.badPages } := rfl
    _ = _ := by rw [h', h]

theorem writePage (n : Nightlight) (l : Nat) : Journalled n (n.writePage l) := by
  unfold Nightlight.writePage
  extract_lets p n' q
  have h : Journalled n n' := ite_keeps rfl rfl
  exact h.trans rfl

theorem writePages (n : Nightlight) (ls : List Nat) : Journalled n (ls.foldl Nightlight.writePage n) :=
  foldl_keeps .refl fun _ _ h => h.trans (.writePage ..)

theorem sec (h : Journalled n m) : m.sec = n.sec := (congrArg Nightlight.sec h :)

end Journalled

/-- The state with Nightlight's memory set. -/
def State.withNl (s : State) (n : Nightlight) : State := { s with nl := n }

/-- From `s₀` to `s` nothing has changed but registers, pages and the journal. -/
structure Committed (s₀ s : State) : Prop where
  rest : { s with regs := s₀.regs, nl := s₀.nl } = s₀
  nl : Journalled s₀.nl s.nl

namespace Committed
variable {s₀ s s' : State}

theorem trans (h : Committed s₀ s) (h' : Committed s s') : Committed s₀ s' := by
  refine ⟨?_, h.nl.trans h'.nl⟩
  calc _ = { { s' with regs := s.regs, nl := s.nl } with regs := s₀.regs, nl := s₀.nl } := rfl
    _ = { s with regs := s₀.regs, nl := s₀.nl } := by rw [h'.rest]
    _ = s₀ := h.rest

theorem setFld (s : State) (f : Fld) (v : Nat) : Committed s (s.setFld f v) := ⟨rfl, rfl⟩

theorem withNl {n : Nightlight} (h : Journalled s.nl n) : Committed s (s.withNl n) := ⟨rfl, h⟩

theorem writePages (s : State) (ls : List Nat) : Committed s (s.writePages ls) := ⟨rfl, .writePages ..⟩

theorem hbm (h : Committed s₀ s) : s.hbm = s₀.hbm := (congrArg State.hbm h.rest :)
theorem tiles (h : Committed s₀ s) : s.tiles = s₀.tiles := (congrArg State.tiles h.rest :)
theorem hif (h : Committed s₀ s) : s.hif = s₀.hif := (congrArg State.hif h.rest :)
theorem pwr (h : Committed s₀ s) : s.pwr = s₀.pwr := (congrArg State.pwr h.rest :)
theorem rel (h : Committed s₀ s) : s.rel = s₀.rel := (congrArg State.rel h.rest :)

end Committed

/-- The floor that a commit writes. -/
def State.nextFloor (s : State) (exact : Bool) : Nat :=
  if !s.bcn.holds then s.fld NVM.FLOOR else if exact then s.count.toNat else (s.count.toNat + 2 ^ 30) % 2 ^ 64

/-- The page that a commit writes. -/
def State.journalPage (s : State) (floor : Nat) : JournalPage := {
  number := s.nl.journalNext + 1, life := (List.range 8).map (fun i => BitVec.ofNat 64 (s.fld (NVM.LIFE i)))
  floor := BitVec.ofNat 64 floor, utc := BitVec.ofNat 64 s.utc }

def Nightlight.addPage (n : Nightlight) (page : JournalPage) : Nightlight :=
  { n with journal := Map.set {} n.journal (n.journalNext % 64) page, journalNext := n.journalNext + 1 }

/-- A commit once the floor stands. -/
def State.commitPage (s : State) (floor : Nat) : State :=
  (s.withNl (s.nl.addPage (s.journalPage floor))).writePages [20 + s.nl.journalNext % 64]

theorem State.commitJournal_eq (s : State) (exact : Bool) :
    s.commitJournal exact = (s.setFld NVM.FLOOR (s.nextFloor exact)).commitPage (s.nextFloor exact) := rfl

theorem State.commitPage_committed (s : State) (floor : Nat) : Committed s (s.commitPage floor) ∧ (s.commitPage floor).regs = s.regs := by
  have hpage : Committed s (s.withNl (s.nl.addPage (s.journalPage floor))) := .withNl rfl
  exact ⟨hpage.trans (.writePages ..), rfl⟩

theorem State.commitJournal_committed (s : State) (exact : Bool) : Committed s (s.commitJournal exact) := by
  rw [State.commitJournal_eq]
  exact .trans (.setFld ..) (State.commitPage_committed ..).1

theorem State.fld_commitJournal (s : State) (exact : Bool) {f : Fld} (hf : canonical f.off ≠ nvmBase + 0x140) :
    (s.commitJournal exact).fld f = s.fld f := by
  rw [State.commitJournal_eq, State.fld_congr (State.commitPage_committed ..).2]
  exact State.fld_setFld_far _ _ (by exact hf)

theorem State.commitJournal_floor (s : State) (hb : s.bcn.holds = true) : (s.commitJournal true).fld NVM.FLOOR = s.count.toNat := by
  rw [State.commitJournal_eq, State.fld_congr (State.commitPage_committed ..).2, State.nextFloor, hb]
  exact s.fld_setFld_val _ 0 64 (by decide) s.count.isLt

theorem State.raiseLife_committed (s : State) (n : Nat) : Committed s (s.raiseLife n) :=
  .trans (.setFld ..) (State.commitJournal_committed ..)

theorem State.fld_raiseLife (s : State) (n : Nat) {f : Fld} (hf : canonical f.off ≠ nvmBase + 0x140)
    (hf' : canonical f.off ≠ canonical (NVM.LIFE n).off) : (s.raiseLife n).fld f = s.fld f :=
  (State.fld_commitJournal _ _ hf).trans (s.fld_setFld_far _ hf')

theorem State.raiseLife_counts (s : State) {n : Nat} (hn : canonical (NVM.LIFE n).off ≠ nvmBase + 0x140) (hroom : s.fld (NVM.LIFE n) + 1 < 2 ^ 64) :
    (s.raiseLife n).fld (NVM.LIFE n) = s.fld (NVM.LIFE n) + 1 :=
  (State.fld_commitJournal _ _ hn).trans (s.fld_bumpFld_room _ 0 64 (by decide) hroom)

/-! ### A sample of TJ -/

def Power.resumed (p : Power) : Power := { p with stopped := false, therm := 1 }
def Power.halted (p : Power) : Power := { p with therm := 0, stopped := true, band := 2, tempo := 0 }
def Power.shut (p : Power) : Power := { p with shutdown := true, faultPin := true }

theorem State.thermStop_eq (s : State) :
    s.thermStop = (((s.withPwr s.pwr.halted).bumpFld PWR.STOPS).event 7 0 0 Status.THERM_THROTTLE 0).smbSet 4 := rfl

theorem State.thermShutdown_eq (s : State) : s.thermShutdown =
    (fun z : State => z.withPwr z.pwr.shut) (((s.raiseLife 7).stopRails.atBoot Status.THERM_SHUTDOWN).smbSet 4) := rfl

theorem State.takeTj_eq (s : State) (tj : Nat) : s.takeTj tj = (fun z : State =>
    if 115 ≤ tj then z.thermShutdown
    else if z.pwr.stopped then
      if 102 ≤ tj then z else ((z.withPwr z.pwr.resumed).thermStep tj).redrain
    else if 105 ≤ tj then z.thermStop
    else z.thermStep tj) (s.setFld PWR.TJ (min tj 255)) := rfl

/-- What the row of a sample does once TJ is noted. -/
theorem tjSample_eq {tj : Nat} (aw : s.awake = true) : exec (.tjSample tj) s = .next (s.takeTj tj) := if_pos aw

/-- What a module that has noted TJ below 115 °C is. -/
structure Sampled (s z : State) (tj : Nat) : Prop where
  tj : z.fld PWR.TJ = tj
  pwr : z.pwr = s.pwr
  bytes : SameBytes s z
  counts : ∀ f : Fld, f.off = pwrBase + 0x30 → z.fld f = s.fld f

theorem State.noteTj_sampled (s : State) {tj : Nat} (h : tj < 115) : Sampled s (s.setFld PWR.TJ (min tj 255)) tj := by
  refine ⟨?_, s.setFld_pwr .., SameBytes.refl.setFld _ _, fun f hf => State.fld_setFld_far _ _ (by rw [hf]; decide)⟩
  rw [Nat.min_eq_left (by omega)]
  exact s.fld_setFld_val _ 12 8 (by decide) (by omega)

theorem Rails.of_committed {s₀ s₁ s : State} (h : Rails s₁ s) (hc : Committed s₀ s₁) (hcal : s₁.fld NVM.CAL = s₀.fld NVM.CAL) : Rails s₀ s :=
  { h with mem := h.mem.trans (congrArg HostIf.mem hc.hif), cal := h.cal.trans hcal, sec := h.sec.trans hc.nl.sec }

theorem tjSample_shuts {tj : Nat} (aw : s.awake = true) (hroom : s.fld (NVM.LIFE 7) + 1 < 2 ^ 64) (h : 115 ≤ tj) :
    Gives (exec (.tjSample tj) s) (fun z => Rails s z ∧ z.pwr.shutdown = true ∧ z.pwr.faultPin = true
      ∧ z.fld (NVM.LIFE 7) = s.fld (NVM.LIFE 7) + 1) := by
  have he : exec (.tjSample tj) s = .next (s.setFld PWR.TJ (min tj 255)).thermShutdown := by
    rw [tjSample_eq aw, State.takeTj_eq]
    exact congrArg _ (if_pos h)
  have hlife : (s.setFld PWR.TJ (min tj 255)).fld (NVM.LIFE 7) = s.fld (NVM.LIFE 7) := State.fld_setFld_far _ _ (by decide)
  have hcal : ((s.setFld PWR.TJ (min tj 255)).raiseLife 7).fld NVM.CAL = s.fld NVM.CAL := by
    rw [State.fld_raiseLife _ _ (by decide) (by decide), State.fld_setFld_far _ _ (by decide)]
  have hc : Committed s ((s.setFld PWR.TJ (min tj 255)).raiseLife 7) := .trans (.setFld ..) (State.raiseLife_committed ..)
  have hrails := (((State.stopRails_rails _).of_committed hc hcal).atBoot Status.THERM_SHUTDOWN).smbSet 4
  refine ⟨_, he, ?_⟩
  rw [State.thermShutdown_eq]
  refine ⟨hrails.withPwr rfl, rfl, rfl, ?_⟩
  rw [State.fld_withPwr, State.fld_smbSet, State.fld_atBoot, State.fld_stopRails_island _ (by decide) (by decide),
    State.raiseLife_counts _ (by decide) (by rw [hlife]; exact hroom), hlife]

/-- The rows of a sample below 115 °C. -/
theorem tjSample_below {tj : Nat} (aw : s.awake = true) (h : tj < 115) : ∃ z, Sampled s z tj ∧ exec (.tjSample tj) s = .next
    (if s.pwr.stopped then if 102 ≤ tj then z else ((z.withPwr z.pwr.resumed).thermStep tj).redrain
      else if 105 ≤ tj then z.thermStop else z.thermStep tj) := by
  refine ⟨_, s.noteTj_sampled h, ?_⟩
  rw [tjSample_eq aw, State.takeTj_eq, ← s.setFld_pwr PWR.TJ (min tj 255)]
  exact congrArg _ (if_neg (by omega))

theorem tjSample_stops {tj : Nat} (aw : s.awake = true) (hlo : 105 ≤ tj) (hhi : tj < 115) (hs : s.pwr.stopped = false)
    (hroom : s.fld PWR.STOPS + 1 < 2 ^ 16) : Gives (exec (.tjSample tj) s) (fun z => z.pwr.therm = 0 ∧ z.pwr.stopped = true
      ∧ z.fld PWR.STOPS = s.fld PWR.STOPS + 1 ∧ z.fld PWR.TJ = tj ∧ SameBytes s z) := by
  obtain ⟨z, hz, he⟩ := tjSample_below aw hhi
  rw [hs, if_neg Bool.false_ne_true, if_pos hlo] at he
  have hstops : (z.withPwr z.pwr.halted).fld PWR.STOPS = s.fld PWR.STOPS := by rw [State.fld_withPwr, hz.counts _ rfl]
  have hpwr : z.thermStop.pwr = z.pwr.halted := by
    rw [State.thermStop_eq, State.smbSet_pwr, State.event_pwr, State.bumpFld_pwr, State.withPwr_pwr]
  refine ⟨_, he, by rw [hpwr, Power.halted], by rw [hpwr, Power.halted], ?_, ?_, ?_⟩
  · rw [State.thermStop_eq, State.fld_smbSet, State.fld_event _ _ _ _ _ _ (by decide), ← hstops]
    exact State.fld_bumpFld_room _ _ 16 16 (by decide) (by rw [← hstops] at hroom; exact hroom)
  · rw [State.thermStop_eq, State.fld_smbSet, State.fld_event _ _ _ _ _ _ (by decide)]
    exact (State.fld_setFld_far _ _ (by decide)).trans hz.tj
  · rw [State.thermStop_eq]
    exact (((hz.bytes.withPwr _).bumpFld _).event ..).smbSet _

theorem tjSample_waits {tj : Nat} (aw : s.awake = true) (hlo : 102 ≤ tj) (hhi : tj < 115) (hs : s.pwr.stopped = true) :
    Gives (exec (.tjSample tj) s) (fun z => z.pwr = s.pwr ∧ z.fld PWR.TJ = tj ∧ SameBytes s z) := by
  obtain ⟨z, hz, he⟩ := tjSample_below aw hhi
  rw [hs, if_pos rfl, if_pos hlo] at he
  exact ⟨_, he, hz.pwr, hz.tj, hz.bytes⟩

theorem Power.thermNext_pos {p : Power} (h : p.therm = 1) (band n : Nat) : 1 ≤ p.thermNext band n := by
  unfold Power.thermNext
  split
  · omega
  · split <;> omega

theorem tjSample_resumes {tj : Nat} (aw : s.awake = true) (hlo : tj < 102) (hs : s.pwr.stopped = true) (hq : s.EnginesEmpty) :
    Gives (exec (.tjSample tj) s) (fun z => z.pwr.stopped = false ∧ 1 ≤ z.pwr.therm ∧ z.fld PWR.TJ = tj) := by
  obtain ⟨z, hz, he⟩ := tjSample_below aw (by omega : tj < 115)
  rw [hs, if_pos rfl, if_neg (by omega)] at he
  have hbytes : SameBytes s ((z.withPwr z.pwr.resumed).thermStep tj) := (hz.bytes.withPwr _).trans (State.thermStep_sameBytes ..)
  have hempty : ((z.withPwr z.pwr.resumed).thermStep tj).EnginesEmpty := fun t => by
    rw [State.tile, hbytes.1]
    exact hq t
  obtain ⟨hpwr, hregs⟩ := State.redrain_empty hempty
  refine ⟨_, he, ?_, ?_, ?_⟩
  · rw [hpwr, State.thermStep_pwr, State.withPwr_pwr]
    rfl
  · rw [hpwr, State.thermStep_pwr, State.withPwr_pwr]
    exact Power.thermNext_pos rfl _ _
  · rw [State.fld_congr hregs, State.fld_thermStep _ _ (by decide) (by decide), State.fld_withPwr, hz.tj]

/-- A sample of an engine that goes on takes a step of the thermal duty. -/
theorem tjSample_steps {tj : Nat} (aw : s.awake = true) (hhi : tj < 105) (hs : s.pwr.stopped = false) :
    Gives (exec (.tjSample tj) s) (fun z => z.pwr = s.pwr.duties (s.pwr.thermNext (thermBand tj) (s.pwr.samples (thermBand tj)))
      (thermBand tj) (tempoNext (thermBand tj) (s.pwr.samples (thermBand tj))) ∧ SameBytes s z
      ∧ (thermBand tj = 2 → s.pwr.band ≠ 2 → s.fld PWR.THROTTLES + 1 < 2 ^ 16 → z.fld PWR.THROTTLES = s.fld PWR.THROTTLES + 1)) := by
  obtain ⟨z, hz, he⟩ := tjSample_below aw (by omega : tj < 115)
  rw [hs, if_neg Bool.false_ne_true, if_neg (by omega)] at he
  refine ⟨_, he, by rw [z.thermStep_pwr, hz.pwr], hz.bytes.trans (z.thermStep_sameBytes tj), fun hb hp hroom => ?_⟩
  have hthr := hz.counts PWR.THROTTLES rfl
  rw [z.thermStep_counts hb (by rw [hz.pwr]; exact hp) (by rw [hthr]; exact hroom), hthr]

theorem tjSample_throttles {tj : Nat} (aw : s.awake = true) (hlo : 98 ≤ tj) (hhi : tj < 105) (hs : s.pwr.stopped = false) (hb : s.pwr.band ≠ 2)
    (hroom : s.fld PWR.THROTTLES + 1 < 2 ^ 16) : Gives (exec (.tjSample tj) s) (fun z => z.pwr.band = 2 ∧ z.pwr.therm = s.pwr.therm
      ∧ z.fld PWR.THROTTLES = s.fld PWR.THROTTLES + 1 ∧ SameBytes s z) := by
  obtain ⟨z, he, hpwr, hbytes, hcount⟩ := tjSample_steps aw hhi hs
  rw [thermBand_hot hlo, Power.samples, if_neg (Ne.symm hb)] at hpwr
  exact ⟨z, he, by rw [hpwr]; rfl, by rw [hpwr]; rfl, hcount (thermBand_hot hlo) hb hroom, hbytes⟩

theorem tjSample_falls {tj : Nat} (aw : s.awake = true) (hlo : 98 ≤ tj) (hhi : tj < 105) (hs : s.pwr.stopped = false) (hb : s.pwr.band = 2)
    (ht : s.pwr.tempo = 99) : Gives (exec (.tjSample tj) s) (fun z => z.pwr.therm = max 1 (s.pwr.therm - 1) ∧ z.pwr.tempo = 0 ∧ SameBytes s z) := by
  obtain ⟨z, he, hpwr, hbytes, -⟩ := tjSample_steps aw hhi hs
  rw [thermBand_hot hlo, Power.samples, if_pos hb.symm, ht] at hpwr
  exact ⟨z, he, by rw [hpwr]; rfl, by rw [hpwr]; rfl, hbytes⟩

theorem tjSample_rises {tj : Nat} (aw : s.awake = true) (hhi : tj < 95) (hs : s.pwr.stopped = false) (hb : s.pwr.band = 0)
    (ht : s.pwr.tempo = 999) : Gives (exec (.tjSample tj) s) (fun z => z.pwr.therm = min 16 (s.pwr.therm + 1) ∧ z.pwr.tempo = 0 ∧ SameBytes s z) := by
  obtain ⟨z, he, hpwr, hbytes, -⟩ := tjSample_steps aw (by omega : tj < 105) hs
  rw [thermBand_cool hhi, Power.samples, if_pos hb.symm, ht] at hpwr
  exact ⟨z, he, by rw [hpwr]; rfl, by rw [hpwr]; rfl, hbytes⟩

theorem tjSample_island {tj : Nat} (h : s.pwr.state = .s3) : exec (.tjSample tj) s =
    .next { s with pwr := { s.pwr with islandTemp := tj, shutdown := s.pwr.shutdown && decide (60 ≤ tj) } } := by
  show execTjSample tj s = _
  unfold execTjSample
  rw [if_neg (by simp [State.awake, h]), if_pos (by simp [State.supplied, h])]

/-! ### A stack at level 3 for 10 s -/

theorem hbmLevel3Timeout_hot {k : Nat} (hk : k < 16) (aw : s.awake = true) (h : s.fld (HBM.TLEVEL k) = 3) :
    Gives (exec (.hbmLevel3Timeout k) s) (fun z => z.pwr.hot = true ∧ s.self.toNat ∈ z.lh.unfit ∧ SameBytes s z) := by
  show Gives (execHbmLevel3Timeout k s) _
  unfold execHbmLevel3Timeout
  rw [if_neg (by omega), if_pos (by simp [aw, h])]
  exact ⟨_, rfl, rfl, List.mem_cons_self, rfl, rfl, rfl⟩

theorem hbmLevel3Timeout_cool {k : Nat} (hk : k < 16) (h : s.fld (HBM.TLEVEL k) ≠ 3) : exec (.hbmLevel3Timeout k) s = .next s := by
  show execHbmLevel3Timeout k s = _
  unfold execHbmLevel3Timeout
  rw [if_neg (by omega), if_neg (by simp [h])]

end Sys2Proof.Machine
end

section
/-! LEMMAS. What Nightlight reads and keeps (O57; R491 to R498, R511, R517, R518, R524). -/
namespace Sys2Proof.Machine
variable {s : State}

/-! ### Pages read -/

/-- From `s₀` to `s` Nightlight has read pages: of the registers only HIF_FAULT, counters, floor and settings changed. -/
structure Read (s₀ s : State) : Prop where
  latched : s.nl.latched = s₀.nl.latched
  presUntil : s.nl.presUntil = s₀.nl.presUntil
  rd : ∀ o, canonical o ≠ 0x20 → (canonical o < nvmBase + 0x100 ∨ nvmBase + 0x200 ≤ canonical o) → canonical o ∉ settingOffsets → s.rd o = s₀.rd o

namespace Read
variable {s₀ s s' : State}

theorem refl : Read s s := ⟨rfl, rfl, fun _ _ _ _ => rfl⟩

theorem trans (h : Read s₀ s) (h' : Read s s') : Read s₀ s' :=
  ⟨h'.latched.trans h.latched, h'.presUntil.trans h.presUntil, fun o h₁ h₂ h₃ => (h'.rd o h₁ h₂ h₃).trans (h.rd o h₁ h₂ h₃)⟩

theorem report (h : Read s₀ s) (c : BitVec 16) (detail : Nat) : Read s₀ (s.report c detail) := by
  have hm : Marked s (s.report c detail) := Marked.refl.event ..
  exact h.trans ⟨congrArg Nightlight.latched hm.nl, congrArg Nightlight.presUntil hm.nl,
    fun o ho _ _ => (Answered.event (Answered.refl (s := s))).rd o ho⟩

theorem withNl (h : Read s₀ s) {n : Nightlight} (hl : n.latched = s.nl.latched) (hp : n.presUntil = s.nl.presUntil) : Read s₀ (s.withNl n) :=
  h.trans ⟨hl, hp, fun _ _ _ _ => rfl⟩

theorem writePages (h : Read s₀ s) (ls : List Nat) : Read s₀ (s.writePages ls) :=
  have hn : Journalled s.nl (s.writePages ls).nl := .writePages ..
  h.trans ⟨(congrArg Nightlight.latched hn :), (congrArg Nightlight.presUntil hn :), fun _ _ _ _ => rfl⟩

theorem setting (h : Read s₀ s) {o : Nat} (ho : canonical o ∈ settingOffsets) (v : Word) : Read s₀ (s.wr o v) :=
  h.trans ⟨rfl, rfl, fun _ _ _ hn => State.rd_wr_other _ _ fun e => hn (by rw [e]; exact ho)⟩

theorem counter (h : Read s₀ s) {f : Fld} (hf : nvmBase + 0x100 ≤ canonical f.off ∧ canonical f.off < nvmBase + 0x200) (v : Nat) :
    Read s₀ (s.setFld f v) :=
  h.trans ⟨rfl, rfl, fun _ _ ho _ => State.rd_wr_other _ _ fun e => by rw [e] at ho; omega⟩

theorem unstage (h : Read s₀ s) : Read s₀ s.unstage := by
  unfold State.unstage
  exact ((h.setting (by decide) _).setting (by decide) _).setting (by decide) _

/-- A field that is none of those read. -/
theorem fld (h : Read s₀ s) {f : Fld} (h₁ : canonical f.off ≠ 0x20) (h₂ : canonical f.off < nvmBase + 0x100 ∨ nvmBase + 0x200 ≤ canonical f.off)
    (h₃ : canonical f.off ∉ settingOffsets) : s.fld f = s₀.fld f := by
  simp only [State.fld, h.rd _ h₁ h₂ h₃]

end Read

/-- The copies of the settings as they are read. -/
def Nightlight.withSettings (n : Nightlight) (a b : Settings) (current : Bool) : Nightlight := { n with copyA := a, copyB := b, current := current }

theorem Read.withSettings {s₀ z : State} (h : Read s₀ z) (a b : Settings) (current : Bool) : Read s₀ (z.withNl (z.nl.withSettings a b current)) :=
  h.withNl rfl rfl

/-- The settings are read; one bad copy is rewritten from the other. -/
def State.mendSettings (s : State) (badA badB : Bool) : State :=
  if badA && badB then (s.withNl (s.nl.withSettings {} {} false)).report Status.NVM_UE 0
  else if !badA && !badB then s.withNl (s.nl.withSettings s.nl.copyA s.nl.copyB (decide (s.nl.copyA.seq < s.nl.copyB.seq)))
  else ((s.withNl (s.nl.withSettings (if !badB then s.nl.copyB else s.nl.copyA) (if !badB then s.nl.copyB else s.nl.copyA) (!badB))).writePages
    (settingPages (!(!badB)))).report Status.NVM_UE 0

theorem State.readSettings_eq (s : State) :
    s.readSettings = (s.mendSettings ((settingPages false).any s.pageBad) ((settingPages true).any s.pageBad)).unstage := rfl

theorem State.readSettings_read (s : State) : Read s s.readSettings := by
  rw [State.readSettings_eq]
  refine Read.unstage (ite_keeps ?_ (ite_keeps ?_ ?_))
  · exact (Read.refl.withSettings ..).report ..
  · exact Read.refl.withSettings ..
  · exact ((Read.refl.withSettings ..).writePages _).report ..

theorem State.loadJournal_read (s : State) : Read s s.loadJournal := by
  unfold State.loadJournal
  extract_lets p
  clear_value p
  refine Read.counter ?_ (by decide) _
  simp only [List.range, List.range.loop, List.foldl]
  exact (((((((Read.refl.counter (by decide) _).counter (by decide) _).counter (by decide) _).counter (by decide) _).counter (by decide) _).counter
    (by decide) _).counter (by decide) _).counter (by decide) _

/-! ### A brown-out (R517) -/

/-- The island's registers but for the calendar and the counters reset. -/
def State.islandLost (s : State) : State :=
  { s with regs := s.regs.filter (fun e => !(decide (pwrBase + 0x10 ≤ e.1) && decide (e.1 < pwrBase + 0x30))) }

def Nightlight.restarted (n : Nightlight) : Nightlight := { n with storing := none, presUntil := none }

theorem State.brownOut_eq (s : State) : s.brownOut = (fun z : State => (z.withNl z.nl.restarted).atBoot Status.PWR_BROWNOUT)
    ((s.bumpFld PWR.BROWNOUTS).islandLost.readSettings.setFld PWR.NL_BROWNOUT 1) := rfl

theorem State.rd_islandLost (s : State) (o : Nat) : s.islandLost.rd o =
    if pwrBase + 0x10 ≤ canonical o ∧ canonical o < pwrBase + 0x30 then modReset (canonical o) else s.rd o := by
  have h := get_filter (modReset (canonical o)) s.regs (fun k => !(decide (pwrBase + 0x10 ≤ k) && decide (k < pwrBase + 0x30))) (canonical o)
  refine h.trans ?_
  by_cases hc : pwrBase + 0x10 ≤ canonical o ∧ canonical o < pwrBase + 0x30
  · rw [if_pos hc, if_neg (by simp [hc.1, hc.2])]
  · rw [if_neg hc, if_pos (by simp only [Bool.not_eq_true', Bool.and_eq_false_iff, decide_eq_false_iff_not]; omega)]
    rfl

theorem State.fld_islandLost_reset (s : State) {f : Fld} (h : pwrBase + 0x10 ≤ canonical f.off ∧ canonical f.off < pwrBase + 0x30) :
    s.islandLost.fld f = bits (modReset (canonical f.off)).toNat f.lsb f.width := by
  simp only [State.fld, State.rd_islandLost, if_pos h]

theorem State.fld_islandLost (s : State) {f : Fld} (h : ¬(pwrBase + 0x10 ≤ canonical f.off ∧ canonical f.off < pwrBase + 0x30)) :
    s.islandLost.fld f = s.fld f := by
  simp only [State.fld, State.rd_islandLost, if_neg h]

theorem State.withNl_regs (s : State) (n : Nightlight) : (s.withNl n).regs = s.regs := rfl
theorem State.fld_withNl (s : State) (n : Nightlight) (f : Fld) : (s.withNl n).fld f = s.fld f := State.fld_congr (s.withNl_regs n) f

/-- What a brown-out leaves of a register apart from PWR_NL_STAT that reading the settings does not touch. -/
theorem State.fld_brownOut (s : State) {f : Fld} (h₀ : canonical f.off ≠ canonical PWR.NL_BROWNOUT.off) (h₁ : canonical f.off ≠ 0x20)
    (h₂ : canonical f.off < nvmBase + 0x100 ∨ nvmBase + 0x200 ≤ canonical f.off) (h₃ : canonical f.off ∉ settingOffsets) :
    s.brownOut.fld f = (s.bumpFld PWR.BROWNOUTS).islandLost.fld f := by
  rw [State.brownOut_eq, State.fld_atBoot, State.fld_withNl, State.fld_setFld_far _ _ h₀]
  exact (State.readSettings_read _).fld h₁ h₂ h₃

theorem brownout_resets (hp : s.pwr.state = .s3) (hl : s.fld PWR.LOWPOWER = 1) (hroom : s.fld PWR.BROWNOUTS + 1 < 2 ^ 16) :
    Gives (exec .brownout s) (fun z => z.fld PWR.NL_BROWNOUT = 1 ∧ z.fld PWR.WAKE_AT = 0 ∧ z.fld PWR.WAKE_UTC = 0
      ∧ z.fld PWR.BROWNOUTS = s.fld PWR.BROWNOUTS + 1 ∧ z.nl.presUntil = none ∧ Status.PWR_BROWNOUT ∈ z.pwr.bootEvents
      ∧ z.fld NVM.CAL = s.fld NVM.CAL) := by
  have he : exec .brownout s = .next s.brownOut := if_pos ⟨hp, hl⟩
  refine ⟨_, he, ?_, ?_, ?_, ?_, ?_, ?_, ?_⟩
  · rw [State.brownOut_eq, State.fld_atBoot, State.fld_withNl]
    exact State.fld_setFld_val _ _ _ _ (by decide) (by decide)
  · rw [State.fld_brownOut _ (by decide) (by decide) (by decide) (by decide), State.fld_islandLost_reset _ (by decide)]
    decide
  · rw [State.fld_brownOut _ (by decide) (by decide) (by decide) (by decide), State.fld_islandLost_reset _ (by decide)]
    decide
  · rw [State.fld_brownOut _ (by decide) (by decide) (by decide) (by decide), State.fld_islandLost _ (by decide)]
    exact s.fld_bumpFld_room _ 48 16 (by decide) hroom
  · rw [State.brownOut_eq]; rfl
  · rw [State.brownOut_eq]; exact State.mem_atBoot ..
  · rw [State.fld_brownOut _ (by decide) (by decide) (by decide) (by decide), State.fld_islandLost _ (by decide)]
    exact State.fld_setFld_far _ _ (by decide)

/-! ### The input is gone (R518) -/

/-- What Nightlight keeps without its supply. -/
structure KeptInMram (s₀ s : State) : Prop where
  sec : s.nl.sec = s₀.nl.sec
  settings : s.nl.settings = s₀.nl.settings
  journal : s.nl.journal = s₀.nl.journal
  cal : s.fld NVM.CAL = s₀.fld NVM.CAL
  mem : s.hif.mem = s₀.hif.mem

def Nightlight.unsupplied (n : Nightlight) : Nightlight := { n with sealOpen := false, latched := false, presUntil := none }

def Power.off (p : Power) (events : List (BitVec 16)) : Power :=
  { state := .off, bootEvents := events, perst := p.perst, rst := p.rst, refStable := false }

/-- A module that has been reset without its supply. -/
def State.unsupplied (s : State) (events : List (BitVec 16)) : State :=
  { s with regs := [], nl := s.nl.unsupplied, pwr := s.pwr.off events, pins := { slot := s.pins.slot, board := s.pins.board } }

theorem State.goOff_eq (s : State) : s.goOff = ((s.moduleReset.unsupplied s.pwr.bootEvents).wr NVM.CAL.off (s.rd NVM.CAL.off)).setFld NVM.CAL_VALID
    (s.fld NVM.CAL_VALID) := rfl

/-- What `unsupplied` leaves, once the calendar is written back. -/
theorem State.unsupplied_keeps (s : State) (events : List (BitVec 16)) : (s.unsupplied events).pwr.state = .off ∧ (s.unsupplied events).hbm = s.hbm
    ∧ (s.unsupplied events).tiles = s.tiles ∧ (s.unsupplied events).lh = s.lh ∧ (s.unsupplied events).hif = s.hif
    ∧ (s.unsupplied events).nl = s.nl.unsupplied := ⟨rfl, rfl, rfl, rfl, rfl, rfl⟩

theorem Nightlight.unsupplied_keeps (n : Nightlight) : n.unsupplied.sec = n.sec ∧ n.unsupplied.settings = n.settings ∧ n.unsupplied.journal = n.journal
    ∧ n.unsupplied.presUntil = none := ⟨rfl, rfl, rfl, rfl⟩

theorem State.goOff_keeps (s : State) : s.goOff.pwr.state = .off ∧ s.goOff.hbm = [] ∧ s.goOff.tiles = [] ∧ s.goOff.lh.cur = none
    ∧ s.goOff.nl.presUntil = none ∧ KeptInMram s s.goOff := by
  obtain ⟨hhbm, htiles, hcur, -, hmem, hsec, hset, hjournal, -⟩ := s.moduleReset_rest
  obtain ⟨hstate', hhbm', htiles', hlh', hhif', hnl'⟩ := s.moduleReset.unsupplied_keeps s.pwr.bootEvents
  obtain ⟨usec, uset, ujournal, upres⟩ := s.moduleReset.nl.unsupplied_keeps
  have hm := (Marked.wr (s.moduleReset.unsupplied s.pwr.bootEvents) NVM.CAL.off (s.rd NVM.CAL.off)).setFld NVM.CAL_VALID (s.fld NVM.CAL_VALID)
  have hcal : s.goOff.fld NVM.CAL = s.fld NVM.CAL := by
    rw [State.goOff_eq, State.fld_setFld_far _ _ (by decide)]
    simp only [State.fld, State.rd_wr_same]
  rw [← State.goOff_eq] at hm
  exact ⟨(congrArg Power.state hm.pwr).trans hstate', hm.hbm.trans (hhbm'.trans hhbm), hm.tiles.trans (htiles'.trans htiles),
    by rw [hm.lh, hlh', hcur], by rw [hm.nl, hnl', upres],
    ⟨by rw [hm.nl, hnl', usec, hsec], by rw [hm.nl, hnl', uset, hset], by rw [hm.nl, hnl', ujournal, hjournal], hcal, by rw [hm.mem, hhif', hmem]⟩⟩

theorem State.stopRails_kept (s : State) : KeptInMram s s.stopRails := by
  have hr := s.stopRails_rails
  obtain ⟨-, -, -, -, -, -, hset, hjournal, -⟩ := s.moduleReset_rest
  have hnl : s.stopRails.nl = s.moduleReset.nl := by
    obtain ⟨-, -, -, -, -, -, h⟩ := ((s.moduleReset.setFld PWR.LOWPOWER 1).setFld HIF.BOOT_WAIT 0).railsOff_keeps
    rw [s.stopRails_eq, h, State.setFld_nl, State.setFld_nl]
  exact ⟨hr.sec, by rw [hnl, hset], by rw [hnl, hjournal], hr.cal, hr.mem⟩

theorem KeptInMram.withPwr {s₀ z : State} (h : KeptInMram s₀ z) (p : Power) : KeptInMram s₀ (z.withPwr p) :=
  ⟨h.sec, h.settings, h.journal, h.cal, h.mem⟩

theorem KeptInMram.atBoot {s₀ z : State} (h : KeptInMram s₀ z) (c : BitVec 16) : KeptInMram s₀ (z.atBoot c) :=
  ⟨h.sec, h.settings, h.journal, h.cal, h.mem⟩

theorem KeptInMram.smbSet {s₀ z : State} (h : KeptInMram s₀ z) (v : BitVec 16) : KeptInMram s₀ (z.smbSet v) :=
  ⟨h.sec, h.settings, h.journal, h.cal, h.mem⟩

theorem State.collapse_kept (s : State) : KeptInMram s s.collapse := by
  rw [State.collapse_eq]
  refine KeptInMram.smbSet (KeptInMram.atBoot ?_ _) _
  split
  · exact s.stopRails_kept.withPwr _
  · exact ⟨rfl, rfl, rfl, rfl, rfl⟩

theorem inputRemoval_keeps (h : s.pwr.state ≠ .off) : Gives (exec .inputRemoval s) (fun z => z.pwr.state = .off ∧ z.hbm = [] ∧ z.tiles = []
    ∧ z.lh.cur = none ∧ z.hif.mem = s.hif.mem
    ∧ (z.nl.sec = s.nl.sec ∧ z.nl.settings = s.nl.settings ∧ z.nl.journal = s.nl.journal ∧ z.fld NVM.CAL = s.fld NVM.CAL) ∧ z.nl.presUntil = none) := by
  have he : exec .inputRemoval s = .next s.collapse.goOff := if_pos (by simp [State.supplied, h])
  obtain ⟨hsec, hset, hjournal, hcal, hmem⟩ := s.collapse_kept
  obtain ⟨hstate, hhbm, htiles, hcur, hpres, ⟨hsec', hset', hjournal', hcal', hmem'⟩⟩ := s.collapse.goOff_keeps
  exact ⟨_, he, hstate, hhbm, htiles, hcur, hmem'.trans hmem,
    ⟨hsec'.trans hsec, hset'.trans hset, hjournal'.trans hjournal, hcal'.trans hcal⟩, hpres⟩

end Sys2Proof.Machine
end

section
/-! LEMMAS. The return of the input (O57; R492, R498, R511, R526). -/
namespace Sys2Proof.Machine
variable {s : State}

/-! ### Units due for a test -/

/-- The unit's test is due at once. -/
def State.testNow (s : State) (u : Nat) : State := s.setUnit u { s.unit u with testDue := s.utc }

theorem State.testNow_due (s : State) (u v : Nat) :
    ((s.testNow u).unit v).testDue = if v = u then s.utc else (s.unit v).testDue := by
  by_cases h : v = u
  · subst h
    rw [if_pos rfl]
    exact congrArg UnitEntry.testDue (Map.get_set_same ..)
  · rw [if_neg h]
    exact congrArg UnitEntry.testDue (Map.get_set_other _ _ _ _ h)

/-- Every unit of a list becomes due, and the units that were stay so. -/
theorem State.foldl_testNow (g : Nat → Nat) (is : List Nat) (s : State) :
    (is.foldl (fun (s : State) i => s.testNow (g i)) s).regs = s.regs ∧ (is.foldl (fun (s : State) i => s.testNow (g i)) s).nl = s.nl
    ∧ ∀ u, (u ∈ is.map g ∨ (s.unit u).testDue = s.utc) → ((is.foldl (fun (s : State) i => s.testNow (g i)) s).unit u).testDue = s.utc := by
  induction is generalizing s with
  | nil => exact ⟨rfl, rfl, fun u h => h.resolve_left List.not_mem_nil⟩
  | cons i is ih =>
    obtain ⟨hregs, hnl, hdue⟩ := ih (s.testNow (g i))
    have hutc : (s.testNow (g i)).utc = s.utc := State.fld_congr (by rfl) _
    refine ⟨hregs, hnl, fun u hu => (hdue u ?_).trans hutc⟩
    rw [hutc, State.testNow_due]
    by_cases hi : u = g i
    · exact .inr (if_pos hi)
    · rw [if_neg hi]
      exact hu.imp_left fun hm => (List.mem_cons.1 hm).resolve_left hi

/-- The tests of every tile core are due. -/
def State.CoresDue (s : State) : Prop := ∀ u, u < 3072 → (s.unit u).testDue = s.utc

/-! ### The stages of a return -/

/-- A calendar that lost its supply starts from the newest commit. -/
def State.calLost (s : State) (utc : Nat) : State := (s.setFld NVM.CAL utc).setFld NVM.CAL_VALID 0

def State.withRel (s : State) (r : Reliability) : State := { s with rel := r }

/-- The Afterglow pages as they are read, with the units of those that cannot be. -/
def State.historyRead (s : State) (bad : Bool) (kept : List (BitVec 512)) (us : List Nat) : State :=
  (fun z : State => if bad then z.report Status.NVM_UE 0 else z)
    (us.foldl (fun (s : State) i => s.testNow (unitAt i)) (s.withRel { s.rel with log := kept }))

theorem State.readHistory_eq (s : State) : ∃ bad kept us, s.readHistory = s.historyRead bad kept us := ⟨_, _, _, rfl⟩

def Nightlight.unlatched (n : Nightlight) : Nightlight := { n with latched := false }

/-- What the seal latch found becomes the tamper mark. -/
def State.latchRead (s : State) : State :=
  (fun z : State => (if z.nl.sec.tamper then z else z.commitSec { z.nl.sec with tamper := true }).raiseLife 6) (s.withNl s.nl.unlatched)

def Power.returned (p : Power) (vbatOk : Bool) : Power := { p with state := .s3, wake := true, cold := true, vbatOk := vbatOk }

/-- The pages of settings and counters read, with the mark of a low VBAT. -/
def State.returning (s : State) (vbatOk : Bool) : State := s.loadJournal.readSettings.setFld NVM.VBAT_LOW (ofBool (!vbatOk))

/-- The calendar and the history as a return finds them. -/
def State.dated (s : State) (vbatOk : Bool) : State :=
  (if vbatOk then s.returning vbatOk
    else (List.range 3072).foldl (fun (s : State) u => s.testNow u) ((s.returning vbatOk).calLost (s.returning vbatOk).newestPage.utc.toNat)).readHistory

theorem State.comeUp_eq (s : State) (slot : BitVec 3) (board vbatOk : Bool) : s.comeUp slot board vbatOk =
    (fun z : State => { z with pwr := z.pwr.returned vbatOk, pins := { z.pins with slot := slot, board := board } })
    ((fun z : State => if z.nl.latched then z.latchRead else z) (s.dated vbatOk)) := rfl

/-! ### What they leave -/

theorem State.historyRead_keeps (s : State) (bad : Bool) (kept : List (BitVec 512)) (us : List Nat) :
    (∀ f : Fld, canonical f.off ≠ 0x20 → (s.historyRead bad kept us).fld f = s.fld f) ∧ (s.historyRead bad kept us).nl = s.nl
    ∧ (s.CoresDue → (s.historyRead bad kept us).CoresDue) := by
  obtain ⟨hregs, hnl, hdue⟩ := State.foldl_testNow unitAt us (s.withRel { s.rel with log := kept })
  unfold State.historyRead
  generalize us.foldl _ _ = z at hregs hnl hdue ⊢
  have hz : z.CoresDue ∨ ¬s.CoresDue := by
    by_cases h : s.CoresDue
    · refine .inl fun u hu => (hdue u (.inr (h u hu))).trans ?_
      exact (State.fld_congr hregs _).symm
    · exact .inr h
  have hm : Marked z (z.report Status.NVM_UE 0) := Marked.refl.event ..
  cases bad with
  | false => exact ⟨fun f _ => State.fld_congr hregs f, hnl, fun h => hz.resolve_right (not_not.2 h)⟩
  | true =>
    refine ⟨fun f hf => (State.fld_event _ _ _ _ _ _ hf).trans (State.fld_congr hregs f), hm.nl.trans hnl, fun h u hu => ?_⟩
    have hutc : (z.report Status.NVM_UE 0).utc = z.utc := State.fld_event _ _ _ _ _ _ (by decide)
    show ((z.report Status.NVM_UE 0).unit u).testDue = (z.report Status.NVM_UE 0).utc
    rw [hutc, ← hz.resolve_right (not_not.2 h) u hu, State.unit, hm.rel]
    rfl

theorem Nightlight.sec_setSec (n : Nightlight) (x : SecState) : (n.setSec x).sec = { x with seq := n.sec.seq + 1 } := by
  unfold Nightlight.setSec
  cases h : n.secCurrent <;> rfl

theorem State.commitSec_keeps (s : State) (x : SecState) : (s.commitSec x).nl.sec.tamper = x.tamper ∧ (s.commitSec x).regs = s.regs
    ∧ (s.commitSec x).rel = s.rel := by
  have hn : Journalled (s.nl.setSec x) (s.commitSec x).nl := .writePages ..
  exact ⟨by rw [hn.sec, Nightlight.sec_setSec], rfl, rfl⟩

theorem State.latchRead_keeps (s : State) : s.latchRead.nl.sec.tamper = true ∧ s.latchRead.rel = s.rel
    ∧ ∀ f : Fld, canonical f.off ≠ nvmBase + 0x140 → canonical f.off ≠ canonical (NVM.LIFE 6).off → s.latchRead.fld f = s.fld f := by
  have hmark : ∀ z : State, (fun w : State => w.nl.sec.tamper = true ∧ w.regs = z.regs ∧ w.rel = z.rel)
      (if z.nl.sec.tamper then z else z.commitSec { z.nl.sec with tamper := true }) := fun z => by
    split
    next h => exact ⟨h, rfl, rfl⟩
    next => exact z.commitSec_keeps _
  obtain ⟨htamper, hregs, hrel⟩ := hmark (s.withNl s.nl.unlatched)
  unfold State.latchRead
  beta_reduce
  generalize (if (s.withNl s.nl.unlatched).nl.sec.tamper = true then _ else _) = w at htamper hregs hrel ⊢
  have hc := w.raiseLife_committed 6
  refine ⟨by rw [hc.nl.sec, htamper], hc.rel.trans hrel, fun f hf hf' => ?_⟩
  rw [w.fld_raiseLife 6 hf hf', State.fld_congr hregs, State.fld_withNl]

theorem State.returning_keeps (s : State) (vbatOk : Bool) : (s.returning vbatOk).fld NVM.VBAT_LOW = ofBool (!vbatOk)
    ∧ (s.returning vbatOk).fld NVM.CAL = s.fld NVM.CAL ∧ (s.returning vbatOk).nl.latched = s.nl.latched := by
  have hr := s.loadJournal_read.trans s.loadJournal.readSettings_read
  have hb : ofBool (!vbatOk) < 2 ^ 1 := by cases vbatOk <;> decide
  unfold State.returning
  generalize s.loadJournal.readSettings = z at hr ⊢
  refine ⟨z.fld_setFld_val _ 1 1 (by decide) hb, (State.fld_setFld_far _ _ (by decide)).trans (hr.fld (by decide) (by decide) (by decide)), ?_⟩
  rw [State.setFld_nl]
  exact hr.latched

theorem State.calLost_keeps (s : State) (utc : Nat) : (s.calLost utc).fld NVM.CAL_VALID = 0
    ∧ (s.calLost utc).fld NVM.VBAT_LOW = s.fld NVM.VBAT_LOW ∧ (s.calLost utc).nl = s.nl := by
  unfold State.calLost
  refine ⟨State.fld_setFld_val _ _ _ _ (by decide) (by decide), ?_, by rw [State.setFld_nl, State.setFld_nl]⟩
  exact (State.fld_setFld_word _ (nvmBase + 0x208) 0 1 1 1 0 (by decide) (by decide)).trans (State.fld_setFld_far _ _ (by decide))

/-- What the module is once its calendar and its history are read. -/
structure Dated (s z : State) (vbatOk : Bool) : Prop where
  latched : z.nl.latched = s.nl.latched
  good : vbatOk = true → z.fld NVM.CAL = s.fld NVM.CAL ∧ z.fld NVM.VBAT_LOW = 0
  lost : vbatOk = false → z.fld NVM.CAL_VALID = 0 ∧ z.fld NVM.VBAT_LOW = 1 ∧ z.CoresDue

theorem State.dated_dated (s : State) (vbatOk : Bool) : Dated s (s.dated vbatOk) vbatOk := by
  obtain ⟨hlow, hcal, hlatched⟩ := s.returning_keeps vbatOk
  unfold State.dated
  generalize s.returning vbatOk = y at hlow hcal hlatched ⊢
  cases vbatOk with
  | true =>
    rw [if_pos rfl]
    obtain ⟨bad, kept, us, e⟩ := y.readHistory_eq
    obtain ⟨hfld, hnl, -⟩ := y.historyRead_keeps bad kept us
    rw [← e] at hfld hnl
    exact ⟨by rw [hnl, hlatched], fun _ => ⟨(hfld _ (by decide)).trans hcal, (hfld _ (by decide)).trans hlow⟩, fun h => Bool.noConfusion h⟩
  | false =>
    rw [if_neg Bool.false_ne_true]
    obtain ⟨hvalid, hlow', hnl'⟩ := y.calLost_keeps y.newestPage.utc.toNat
    obtain ⟨hregs, hnl'', hdue⟩ := State.foldl_testNow id (List.range 3072) (y.calLost y.newestPage.utc.toNat)
    simp only [id, List.map_id_fun] at hregs hnl'' hdue
    generalize y.calLost _ = x at hvalid hlow' hnl' hregs hnl'' hdue ⊢
    generalize List.foldl _ x (List.range 3072) = w at hregs hnl'' hdue ⊢
    have hcores : w.CoresDue := fun u hu => (hdue u (.inl (List.mem_range.2 hu))).trans (State.fld_congr hregs _).symm
    obtain ⟨bad, kept, us, e⟩ := w.readHistory_eq
    obtain ⟨hfld, hnl, hkeep⟩ := w.historyRead_keeps bad kept us
    rw [← e] at hfld hnl hkeep
    refine ⟨by rw [hnl, hnl'', hnl', hlatched], fun h => Bool.noConfusion h, fun _ => ⟨?_, ?_, hkeep hcores⟩⟩
    · rw [hfld _ (by decide), State.fld_congr hregs, hvalid]
    · rw [hfld _ (by decide), State.fld_congr hregs, hlow', hlow]
      rfl

theorem Dated.latchRead {z : State} {vbatOk : Bool} (h : Dated s z vbatOk) : (s.nl.latched = true → z.latchRead.nl.sec.tamper = true)
    ∧ (vbatOk = true → z.latchRead.fld NVM.CAL = s.fld NVM.CAL ∧ z.latchRead.fld NVM.VBAT_LOW = 0)
    ∧ (vbatOk = false → z.latchRead.fld NVM.CAL_VALID = 0 ∧ z.latchRead.fld NVM.VBAT_LOW = 1 ∧ z.latchRead.CoresDue) := by
  obtain ⟨htamper, hrel, hfld⟩ := z.latchRead_keeps
  have hcal := hfld NVM.CAL (by decide) (by decide)
  refine ⟨fun _ => htamper, fun hv => ?_, fun hv => ?_⟩
  · obtain ⟨hc, hl⟩ := h.good hv
    exact ⟨hcal.trans hc, (hfld _ (by decide) (by decide)).trans hl⟩
  · obtain ⟨hc, hl, hd⟩ := h.lost hv
    refine ⟨(hfld _ (by decide) (by decide)).trans hc, (hfld _ (by decide) (by decide)).trans hl, fun u hu => ?_⟩
    rw [State.unit, hrel]
    exact (hd u hu).trans hcal.symm

theorem powerUp_wakes {slot : BitVec 3} {board vbatOk : Bool} (h : s.pwr.state = .off) : Gives (exec (.powerUp slot board vbatOk) s) (fun z =>
    z.pwr.state = .s3 ∧ z.pwr.wake = true ∧ z.pwr.cold = true ∧ z.pins.slot = slot ∧ z.pins.board = board
    ∧ (vbatOk = true → z.fld NVM.CAL = s.fld NVM.CAL ∧ z.fld NVM.VBAT_LOW = 0)
    ∧ (vbatOk = false → z.fld NVM.CAL_VALID = 0 ∧ z.fld NVM.VBAT_LOW = 1 ∧ ∀ u, u < 3072 → (z.unit u).testDue = z.utc)
    ∧ (s.nl.latched = true → z.nl.sec.tamper = true)) := by
  have he : exec (.powerUp slot board vbatOk) s = .next (s.comeUp slot board vbatOk) := if_pos h
  rw [he, State.comeUp_eq]
  have hd := s.dated_dated vbatOk
  generalize s.dated vbatOk = z at hd ⊢
  beta_reduce
  have hout : ∃ w, (if z.nl.latched then z.latchRead else z) = w ∧ (s.nl.latched = true → w.nl.sec.tamper = true)
      ∧ (vbatOk = true → w.fld NVM.CAL = s.fld NVM.CAL ∧ w.fld NVM.VBAT_LOW = 0)
      ∧ (vbatOk = false → w.fld NVM.CAL_VALID = 0 ∧ w.fld NVM.VBAT_LOW = 1 ∧ w.CoresDue) := by
    refine ⟨_, rfl, ?_⟩
    split
    next => exact hd.latchRead
    next hn => exact ⟨fun hl => absurd (hd.latched.trans hl) hn, hd.good, hd.lost⟩
  obtain ⟨w, hw, htamper, hgood, hlost⟩ := hout
  rw [hw]
  exact ⟨_, rfl, rfl, rfl, rfl, rfl, rfl, hgood, hlost, htamper⟩

theorem powerUp_stays {slot : BitVec 3} {board vbatOk : Bool} (h : s.pwr.state ≠ .off) : exec (.powerUp slot board vbatOk) s = .next s := if_neg h

end Sys2Proof.Machine
end

section
/-! LEMMAS. Wake events, PLLs of the module itself, PWR_RST_N and HIF_PERST_N (O57; R525, R528, R543, R544). -/
namespace Sys2Proof.Machine
variable {s : State}

/-! ### Wake events -/

/-- The module is in S2 or S3 and no shutdown holds it there. -/
def State.asleep (s : State) : Prop := s.pwr.shutdown = false ∧ (s.pwr.state = .s2 ∨ s.pwr.state = .s3)

theorem State.wakeUp_asleep (h : s.asleep) : s.wakeUp = { s with pwr := { s.pwr with wake := true } } := by
  obtain ⟨hs, h | h⟩ := h <;> exact if_pos (by simp [hs, h])

theorem State.wakeIf_enabled {source : Nat} (h : s.asleep) (he : (s.fld PWR.WAKE_EN).testBit source = true) :
    s.wakeIf source = { s with pwr := { s.pwr with wake := true } } := (if_pos he).trans (State.wakeUp_asleep h)

theorem wakeN_disabled (he : (s.fld PWR.WAKE_EN).testBit 1 = false) : exec .wakeN s = .next s :=
  congrArg _ (if_neg (by simp [he]))

theorem wakeAtCount_wakes (h : s.asleep) (he : (s.fld PWR.WAKE_EN).testBit 0 = true) (hp : s.pwr.state = .s2) (hn : s.fld PWR.NEXT = 2)
    (hc : s.fld BCN.COUNT = s.fld PWR.WAKE_AT) : exec .wakeAtCount s = .next { s with pwr := { s.pwr with wake := true } } := by
  rw [← State.wakeIf_enabled h he]
  exact if_pos (by simp [State.countAlarm, hp, hn, hc])

theorem wakeAtUtc_wakes (h : s.asleep) (he : (s.fld PWR.WAKE_EN).testBit 3 = true) (hz : s.fld PWR.WAKE_UTC ≠ 0)
    (hu : s.utc = s.fld PWR.WAKE_UTC) : exec .wakeAtUtc s = .next { s with pwr := { s.pwr with wake := true } } := by
  rw [← State.wakeIf_enabled h he]
  exact if_pos ⟨hz, hu⟩

theorem wakeAtUtc_other (h : s.fld PWR.WAKE_UTC = 0 ∨ s.utc ≠ s.fld PWR.WAKE_UTC) : exec .wakeAtUtc s = .next s :=
  if_neg fun ⟨hz, hu⟩ => h.elim hz fun hn => hn hu

theorem wakeComplete_asleep (h : s.pwr.wake = false) : exec .wakeComplete s = .next s := if_pos (by simp [h])

theorem wakeComplete_waits (hp : s.pwr.state = .s3) (h : s.pwr.refStable = false ∨ s.pwr.rst = true) : exec .wakeComplete s = .next s := by
  show execWakeComplete s = _
  unfold execWakeComplete
  split
  · rfl
  · rw [if_neg (by rw [hp]; decide), if_neg (by simp only [hp]; rcases h with h | h <;> simp [h])]

/-! ### PLLs of the module -/

def Power.withUnlocked (p : Power) (l : List (Nat × Nat)) : Power := { p with unlocked := l }
def Power.withLocked (p : Power) (l : Option (Nat × Nat)) : Power := { p with locked := l }

/-- The state with a PLL noted as unlocked. -/
def State.unlockPll (s : State) (pll unit : Nat) : State := s.withPwr (s.pwr.withUnlocked ((pll, unit) :: s.pwr.unlocked.erase (pll, unit)))

/-- The state with a PLL no longer noted. -/
def State.lockPll (s : State) (pll unit : Nat) : State := s.withPwr (s.pwr.withUnlocked (s.pwr.unlocked.erase (pll, unit)))

theorem pllLockLoss_eq {pll unit : Nat} (hp : s.pwr.state = .p0) (hpll : isPll pll unit = true) :
    exec (.pllLockLoss pll unit) s = .next (s.losePll pll unit) := by
  show execPllLockLoss pll unit s = _
  unfold execPllLockLoss
  rw [if_neg (by simp [hpll]), if_pos (by simp [awake_of_p0 hp, hp])]

theorem pllRelock_eq {pll unit : Nat} (aw : s.awake = true) (hm : (pll, unit) ∈ s.pwr.unlocked) (hpll : isPll pll unit = true) :
    exec (.pllRelock pll unit) s = .next (s.gainPll pll unit) := by
  show execPllRelock pll unit s = _
  unfold execPllRelock
  rw [if_neg (by simp [hpll]), if_pos (by simp [aw, hm])]

theorem pllLockLoss_arithmetic (hp : s.pwr.state = .p0) :
    Gives (exec (.pllLockLoss 0 0) s) (fun z => s.noPower ∈ z.causes ∧ (0, 0) ∈ z.pwr.unlocked ∧ SameBytes s z) := by
  have e : s.losePll 0 0 = ((s.unlockPll 0 0).losePower Status.PWR_INPUT).event 7 0 0 Status.PWR_INPUT 0 := rfl
  rw [pllLockLoss_eq hp (by decide), e]
  refine ⟨_, rfl, ?_, ?_, ((SameBytes.refl.withPwr _).losePower _).event ..⟩
  · rw [State.event_causes]
    exact (s.unlockPll 0 0).noPower_mem
  · rw [State.event_pwr, State.losePower_pwr, State.unlockPll, State.withPwr_pwr]
    exact List.mem_cons_self

/-- The Beacon in holdover, with what it locked to before. -/
def State.holdOver (s : State) (was : Nat × Nat) : State := ((s.withPwr (s.pwr.withLocked (some was))).setFld BCN.STATE 3).setFld BCN.SRC 15

theorem State.losePll_timing (s : State) : s.losePll 1 0 = (fun z : State => if z.fld BCN.STATE = 1 ∨ z.fld BCN.STATE = 2 then
    z.holdOver (z.fld BCN.STATE, z.fld BCN.SRC) else z) (s.unlockPll 1 0) := rfl

/-- The Beacon's state and source set; its count stays. -/
theorem State.beacon_set (s : State) {st src : Nat} (hst : st < 2 ^ 3) (hsrc : src < 2 ^ 4) :
    ((s.setFld BCN.STATE st).setFld BCN.SRC src).fld BCN.STATE = st ∧ ((s.setFld BCN.STATE st).setFld BCN.SRC src).fld BCN.SRC = src
    ∧ ((s.setFld BCN.STATE st).setFld BCN.SRC src).count = s.count :=
  ⟨(State.fld_setFld_word _ (bcnBase + 0x18) 3 4 0 3 src (by decide) (by decide)).trans (s.fld_setFld_val _ 0 3 (by decide) hst),
    State.fld_setFld_val _ _ 3 4 (by decide) hsrc,
    (State.rd_wr_other _ _ (by decide)).trans (State.rd_wr_other _ _ (by decide))⟩

theorem State.count_withPwr (s : State) (p : Power) : (s.withPwr p).count = s.count := by
  simp only [State.count, State.rd, State.withPwr_regs]

theorem pllLockLoss_timing (hp : s.pwr.state = .p0) (hb : s.fld BCN.STATE = 1 ∨ s.fld BCN.STATE = 2) : Gives (exec (.pllLockLoss 1 0) s) (fun z =>
    z.fld BCN.STATE = 3 ∧ z.fld BCN.SRC = 15 ∧ z.pwr.locked = some (s.fld BCN.STATE, s.fld BCN.SRC) ∧ z.count = s.count ∧ SameBytes s z) := by
  have hfld : ∀ f, (s.unlockPll 1 0).fld f = s.fld f := s.fld_withPwr _
  rw [pllLockLoss_eq hp (by decide), State.losePll_timing]
  beta_reduce
  rw [hfld, hfld, if_pos hb]
  refine ⟨_, rfl, ?_⟩
  unfold State.holdOver
  obtain ⟨hst, hsrc, hcount⟩ := ((s.unlockPll 1 0).withPwr ((s.unlockPll 1 0).pwr.withLocked (some (s.fld BCN.STATE, s.fld BCN.SRC)))).beacon_set
    (st := 3) (src := 15) (by decide) (by decide)
  refine ⟨hst, hsrc, ?_, ?_, (((SameBytes.refl.withPwr _).withPwr _).setFld _ _).setFld _ _⟩
  · rw [State.setFld_pwr, State.setFld_pwr, State.withPwr_pwr, Power.withLocked]
  · rw [hcount, State.count_withPwr, State.unlockPll, State.count_withPwr]

/-- The end of a holdover. -/
def State.endHoldOver (s : State) (st src : Nat) : State := if s.fld BCN.STATE = 3 then (s.setFld BCN.STATE st).setFld BCN.SRC src else s

theorem State.gainPll_timing {st src : Nat} (hl : s.pwr.locked = some (st, src)) :
    s.gainPll 1 0 = ((s.lockPll 1 0).withPwr ((s.lockPll 1 0).pwr.withLocked none)).endHoldOver st src := by
  unfold State.gainPll
  dsimp only
  rw [hl]
  rfl

theorem pllRelock_timing {st src : Nat} (aw : s.awake = true) (hm : (1, 0) ∈ s.pwr.unlocked) (hl : s.pwr.locked = some (st, src)) (hst : st < 8)
    (hsrc : src < 16) (hb : s.fld BCN.STATE = 3) : Gives (exec (.pllRelock 1 0) s) (fun z => z.fld BCN.STATE = st ∧ z.fld BCN.SRC = src
      ∧ z.pwr.locked = none ∧ z.count = s.count ∧ SameBytes s z) := by
  have hb' : ((s.lockPll 1 0).withPwr ((s.lockPll 1 0).pwr.withLocked none)).fld BCN.STATE = 3 := by
    rw [State.fld_withPwr, State.lockPll, State.fld_withPwr, hb]
  rw [pllRelock_eq aw hm (by decide), State.gainPll_timing hl, State.endHoldOver, if_pos hb']
  refine ⟨_, rfl, ?_⟩
  obtain ⟨hst', hsrc', hcount⟩ := ((s.lockPll 1 0).withPwr ((s.lockPll 1 0).pwr.withLocked none)).beacon_set (st := st) (src := src) hst hsrc
  refine ⟨hst', hsrc', ?_, ?_, (((SameBytes.refl.withPwr _).withPwr _).setFld _ _).setFld _ _⟩
  · rw [State.setFld_pwr, State.setFld_pwr, State.withPwr_pwr, Power.withLocked]
  · rw [hcount, State.count_withPwr, State.lockPll, State.count_withPwr]

theorem pllRelock_other {pll unit : Nat} (aw : s.awake = true) (hm : (pll, unit) ∈ s.pwr.unlocked) (h2 : 2 ≤ pll) (hpll : isPll pll unit = true) :
    exec (.pllRelock pll unit) s = .next { s with pwr := { s.pwr with unlocked := s.pwr.unlocked.erase (pll, unit) } } := by
  rw [pllRelock_eq aw hm hpll]
  match pll, h2 with
  | n + 2, _ => rfl

/-! ### PWR_RST_N -/

def Power.resetLow (p : Power) : Power := { p with rst := true, wake := false }

theorem pwrRstN_stops (aw : s.awake = true) : Gives (exec .pwrRstN s) (fun z => Rails s z ∧ z.pwr.rst = true ∧ z.pwr.wake = false) := by
  have he : exec .pwrRstN s = .next (s.stopRails.withPwr s.stopRails.pwr.resetLow) := by
    show execPwrRstN s = _
    unfold execPwrRstN
    rw [if_neg (by simp [supplied_of_awake aw]), if_pos aw]
    rfl
  exact ⟨_, he, s.stopRails_rails.withPwr rfl, rfl, rfl⟩

theorem pwrRstN_asleep (h : s.pwr.state = .s3) : exec .pwrRstN s = .next { s with pwr := { s.pwr with rst := true, wake := false } } := by
  show execPwrRstN s = _
  unfold execPwrRstN
  rw [if_neg (by simp [State.supplied, h]), if_neg (by simp [State.awake, h])]

theorem pwrRstRelease_wakes (h : s.pwr.rst = true) : Gives (exec .pwrRstRelease s) (fun z => z.pwr.rst = false ∧ (s.asleep → z.pwr.wake = true)
    ∧ SameBytes s z ∧ z.regs = s.regs) := by
  have he : exec .pwrRstRelease s = .next { s with pwr := { s.pwr with rst := false } }.wakeUp := if_pos h
  refine ⟨_, he, ?_⟩
  unfold State.wakeUp
  split
  next => exact ⟨rfl, fun _ => rfl, ⟨rfl, rfl, rfl⟩, rfl⟩
  next hn =>
    refine ⟨rfl, fun ⟨hs, hp⟩ => absurd ?_ hn, ⟨rfl, rfl, rfl⟩, rfl⟩
    rcases hp with hp | hp <;> simp [hs, hp]

theorem pwrRstRelease_stays (h : s.pwr.rst = false) : exec .pwrRstRelease s = .next s := if_neg (by simp [h])

/-! ### The host port trains (R391, R543) -/

/-- What training writes: a rate, a width, whether in FLIT mode. -/
def State.linked (s : State) (gen width flit : Nat) : State := ((s.setFld HIF.LINK_GEN gen).setFld HIF.LINK_WIDTH width).setFld HIF.FLIT flit

/-- What the other end and the module agree on. -/
def State.linkGen (s : State) : Nat := 4 + (s.draw 2).1.toNat % 3

theorem State.trainHost_eq (s : State) : s.trainHost =
    ((s.draw 2).2.draw 1).2.linked s.linkGen (if ((s.draw 2).2.draw 1).1 = 0 then 8 else 16) (ofBool (decide (s.linkGen = 6))) := rfl

/-- What training leaves: everything but the port's rate, width and mode. -/
structure Trained (s₀ s : State) : Prop where
  gen : 4 ≤ s.fld HIF.LINK_GEN ∧ s.fld HIF.LINK_GEN ≤ 6
  bytes : SameBytes s₀ s
  pwr : s.pwr = s₀.pwr
  fld : ∀ f : Fld, canonical f.off ≠ 0x10 ∨ f.off = 0x10 ∧ f.lsb + f.width ≤ 32 → s.fld f = s₀.fld f

theorem State.linked_fld (s : State) (gen width flit : Nat) {f : Fld} (hf : canonical f.off ≠ 0x10 ∨ f.off = 0x10 ∧ f.lsb + f.width ≤ 32) :
    (s.linked gen width flit).fld f = s.fld f := by
  have apart : ∀ l, 32 ≤ l → ∀ w, canonical f.off ≠ canonical 0x10 ∨ f.off = 0x10 ∧ (l + w ≤ f.lsb ∨ f.lsb + f.width ≤ l) := fun l hl w =>
    hf.imp (fun h => by exact h) fun ⟨h, h'⟩ => ⟨h, .inr (h'.trans hl)⟩
  unfold State.linked
  rw [State.fld_setFld_other _ _ (by decide) (apart 40 (by decide) 1), State.fld_setFld_other _ _ (by decide) (apart 35 (by decide) 5),
    State.fld_setFld_other _ _ (by decide) (apart 32 (by decide) 3)]

theorem State.linked_gen (s : State) {gen : Nat} (width flit : Nat) (hg : gen < 2 ^ 3) : (s.linked gen width flit).fld HIF.LINK_GEN = gen :=
  (State.fld_setFld_word _ 0x10 40 1 32 3 flit (by decide) (by decide)).trans
    ((State.fld_setFld_word _ 0x10 35 5 32 3 width (by decide) (by decide)).trans (s.fld_setFld_val _ 32 3 (by decide) hg))

theorem State.linked_marked (s : State) (gen width flit : Nat) : Marked s (s.linked gen width flit) :=
  ((Marked.refl.setFld _ _).setFld _ _).setFld _ _

theorem State.trainHost_trained (s : State) : Trained s s.trainHost := by
  have hg : 4 ≤ s.linkGen ∧ s.linkGen ≤ 6 := by unfold State.linkGen; omega
  have hpwr : ((s.draw 2).2.draw 1).2.pwr = s.pwr := by rw [State.draw_pwr, State.draw_pwr]
  have hregs : ((s.draw 2).2.draw 1).2.regs = s.regs := by rw [State.draw_regs, State.draw_regs]
  have hbytes : SameBytes s ((s.draw 2).2.draw 1).2 := ⟨rfl, rfl, rfl⟩
  rw [State.trainHost_eq]
  refine ⟨?_, hbytes.marked (State.linked_marked ..), (State.linked_marked ..).pwr.trans hpwr, fun f hf => ?_⟩
  · rw [State.linked_gen _ _ _ (by omega)]
    exact hg
  · rw [State.linked_fld _ _ _ _ hf, State.fld_congr hregs]

def Power.faultHigh (p : Power) : Power := { p with faultPin := false }

theorem State.bootWait_eq (s : State) : s.bootWait =
    (s.trainHost.setFld HIF.BOOT_WAIT 1).withPwr ((s.trainHost.setFld HIF.BOOT_WAIT 1).pwr.faultHigh) := rfl

/-- What a boot that waits for its image is. -/
structure Waiting (s₀ s : State) : Prop where
  wait : s.fld HIF.BOOT_WAIT = 1
  gen : 4 ≤ s.fld HIF.LINK_GEN ∧ s.fld HIF.LINK_GEN ≤ 6
  bytes : SameBytes s₀ s
  pwr : s.pwr = s₀.pwr.faultHigh
  ready : s.fld HIF.READY = s₀.fld HIF.READY
  fld : ∀ f : Fld, canonical f.off ≠ 0x10 → s.fld f = s₀.fld f

theorem State.bootWait_waiting (s : State) : Waiting s s.bootWait := by
  obtain ⟨hgen, hbytes, hpwr, hfld⟩ := s.trainHost_trained
  have hready := hfld HIF.READY (.inr (by decide))
  rw [State.bootWait_eq]
  generalize s.trainHost = z at hgen hbytes hpwr hfld hready ⊢
  refine ⟨?_, ?_, (hbytes.setFld _ _).withPwr _, ?_, ?_, fun f hf => ?_⟩
  · rw [State.fld_withPwr]
    exact z.fld_setFld_val _ 1 1 (by decide) (by decide)
  · rw [State.fld_withPwr]
    exact (z.fld_setFld_word 0x10 1 1 32 3 1 (by decide) (by decide)).symm ▸ hgen
  · rw [State.withPwr_pwr, State.setFld_pwr, hpwr]
  · rw [State.fld_withPwr]
    exact (z.fld_setFld_word 0x10 1 1 0 1 1 (by decide) (by decide)).trans hready
  · rw [State.fld_withPwr, State.fld_setFld_far _ _ (by exact hf), hfld f (.inl hf)]

def Power.released (p : Power) : Power := { p with perst := false }

/-- What the port's release leads to once the pin is noted as high. -/
def State.perstHigh (s : State) : Result :=
  if !s.awake then .next s
  else if s.fld HIF.READY = 0 ∧ s.fld HIF.BOOT_WAIT = 0 then .next s.bootWait
  else .next s.trainHost

theorem hifPerstNRelease_eq (hp : s.pwr.perst = true) : exec .hifPerstNRelease s = (s.withPwr s.pwr.released).perstHigh := if_neg (by simp [hp])

theorem hifPerstNRelease_waits (hp : s.pwr.perst = true) (hp0 : s.pwr.state = .p0) (hr : s.fld HIF.READY = 0) (hb : s.fld HIF.BOOT_WAIT = 0) :
    Gives (exec .hifPerstNRelease s) (fun z => z.pwr.perst = false ∧ z.fld HIF.BOOT_WAIT = 1 ∧ 4 ≤ z.fld HIF.LINK_GEN ∧ z.fld HIF.LINK_GEN ≤ 6
      ∧ SameBytes s z) := by
  have aw : (s.withPwr s.pwr.released).awake = true := awake_of_p0 hp0
  have he : exec .hifPerstNRelease s = .next (s.withPwr s.pwr.released).bootWait := by
    rw [hifPerstNRelease_eq hp, State.perstHigh, aw, if_neg (by decide), State.fld_withPwr, State.fld_withPwr, if_pos ⟨hr, hb⟩]
  obtain ⟨hwait, ⟨hlo, hhi⟩, hbytes, hpwr, -, -⟩ := (s.withPwr s.pwr.released).bootWait_waiting
  exact ⟨_, he, by rw [hpwr]; rfl, hwait, hlo, hhi, (SameBytes.refl.withPwr _).trans hbytes⟩

theorem hifPerstNRelease_asleep (hp : s.pwr.perst = true) (hs : s.awake = false) :
    exec .hifPerstNRelease s = .next { s with pwr := { s.pwr with perst := false } } := by
  have hs' : (s.withPwr s.pwr.released).awake = false := (State.awake_congr rfl).trans hs
  rw [hifPerstNRelease_eq hp, State.perstHigh, hs', if_pos (by decide)]
  rfl

theorem hifPerstNRelease_stays (hp : s.pwr.perst = false) : exec .hifPerstNRelease s = .next s := if_pos (by simp [hp])

end Sys2Proof.Machine
end

section
/-! LEMMAS. A boot (O57; R499, R524, R526, R537, R543). -/
namespace Sys2Proof.Machine
variable {s : State}

/-- What reading pages of NVM leaves: the power state, the bytes of the module, every register but HIF_FAULT. -/
structure PagesRead (s₀ s : State) : Prop where
  pwr : s.pwr = s₀.pwr
  bytes : SameBytes s₀ s
  fld : ∀ f : Fld, canonical f.off ≠ 0x20 → s.fld f = s₀.fld f

namespace PagesRead
variable {s₀ s s' : State}

theorem refl : PagesRead s s := ⟨rfl, .refl, fun _ _ => rfl⟩

theorem withNl (h : PagesRead s₀ s) (n : Nightlight) : PagesRead s₀ (s.withNl n) :=
  ⟨h.pwr, h.bytes, fun f hf => (s.fld_withNl n f).trans (h.fld f hf)⟩

theorem writePages (h : PagesRead s₀ s) (ls : List Nat) : PagesRead s₀ (s.writePages ls) := h.withNl _

theorem report (h : PagesRead s₀ s) (c : BitVec 16) (detail : Nat) : PagesRead s₀ (s.report c detail) :=
  ⟨(s.event_pwr ..).trans h.pwr, h.bytes.event .., fun f hf => (s.fld_event _ _ _ _ _ hf).trans (h.fld f hf)⟩

end PagesRead

def Nightlight.withSec (n : Nightlight) (a b : SecState) (current : Bool) : Nightlight := { n with secA := a, secB := b, secCurrent := current }

/-- The security state is read; one bad copy is rewritten from the other. -/
def State.mendSec (s : State) (badA badB : Bool) : State :=
  if badA && badB then s.report Status.NVM_UE 0
  else if !badA && !badB then s.withNl (s.nl.withSec s.nl.secA s.nl.secB (decide (s.nl.secA.seq < s.nl.secB.seq)))
  else ((s.withNl (s.nl.withSec (if !badB then s.nl.secB else s.nl.secA) (if !badB then s.nl.secB else s.nl.secA) (!badB))).writePages
    (secPages (!(!badB)))).report Status.NVM_UE 0

theorem State.readSec_eq (s : State) : s.readSec = s.mendSec ((secPages false).any s.pageBad) ((secPages true).any s.pageBad) := rfl

theorem State.readSec_read (s : State) : PagesRead s s.readSec := by
  rw [State.readSec_eq]
  refine ite_keeps ?_ (ite_keeps ?_ ?_)
  · exact PagesRead.refl.report ..
  · exact PagesRead.refl.withNl _
  · exact ((PagesRead.refl.withNl _).writePages _).report ..

/-- What the boot ROM leaves. -/
structure Booted (s₀ s : State) : Prop where
  state : s.pwr.state = s₀.pwr.state ∧ s.pwr.wake = s₀.pwr.wake
  ready : s.fld HIF.READY = s₀.fld HIF.READY
  wait : s.fld HIF.BOOT_WAIT = if s₀.pwr.perst then 0 else 1
  bytes : SameBytes s₀ s
  fld : ∀ f : Fld, canonical f.off ≠ 0x20 → canonical f.off ≠ 0x10 → s.fld f = s₀.fld f

theorem State.bootRom_eq (s : State) : s.bootRom = if s.readSec.pwr.perst then s.readSec.setFld HIF.BOOT_WAIT 0 else s.readSec.bootWait := rfl

theorem State.bootRom_booted (s : State) : Booted s s.bootRom := by
  obtain ⟨hpwr, hbytes, hfld⟩ := s.readSec_read
  have hready := hfld HIF.READY (by decide)
  rw [State.bootRom_eq]
  generalize s.readSec = z at hpwr hbytes hfld hready ⊢
  split
  next hp =>
    refine ⟨by rw [State.setFld_pwr, hpwr]; exact ⟨rfl, rfl⟩, ?_, ?_, hbytes.setFld _ _, fun f hf hf' => (z.fld_setFld_far _ (by exact hf')).trans (hfld f hf)⟩
    · exact (z.fld_setFld_word 0x10 1 1 0 1 0 (by decide) (by decide)).trans hready
    · rw [← hpwr, hp, if_pos rfl]
      exact z.fld_setFld_val _ _ _ (by decide) (by decide)
  next hp =>
    obtain ⟨hwait, -, hbytes', hpwr', hready', hfld'⟩ := z.bootWait_waiting
    refine ⟨by rw [hpwr', hpwr]; exact ⟨rfl, rfl⟩, hready'.trans hready, ?_, hbytes.trans hbytes', fun f hf hf' => (hfld' f hf').trans (hfld f hf)⟩
    rw [← hpwr, if_neg hp, hwait]

/-! ### The stages of a boot -/

def Power.booted (p : Power) : Power := { p with state := .p0, cold := false, wake := false }

/-- The straps latched, PWR_MODE[NEXT] and the low-power mode cleared. -/
def State.strapped (s : State) : State :=
  (((s.setFld BCN.SLOT s.pins.slot.toNat).setFld BCN.BOARD (ofBool s.pins.board)).setFld PWR.NEXT 0).setFld PWR.LOWPOWER 0

/-- The power defaults of NVM_PWR_DEF, which a boot from Off takes. -/
def State.powerDef (s : State) : Nat := (s.committed (nvmBase + 0x440)).toNat

def State.fromOff (s : State) (cold : Bool) : State :=
  if cold then (s.setFld PWR.CAP_W (bits s.powerDef 0 12)).setFld PWR.WAKE_EN (bits s.powerDef 12 4) else s

/-- A module reset on its way to P0. -/
def State.rebooting (s : State) : State := s.moduleReset.withPwr s.moduleReset.pwr.booted

theorem State.boot_eq (s : State) : s.boot = ((s.rebooting.strapped.fromOff s.pwr.cold).raiseLife 1).bootRom := rfl

theorem State.strapped_marked (s : State) : Marked s s.strapped := (((Marked.refl.setFld _ _).setFld _ _).setFld _ _).setFld _ _

theorem State.strapped_keeps (s : State) : s.strapped.fld BCN.SLOT = s.pins.slot.toNat ∧ s.strapped.fld PWR.LOWPOWER = 0
    ∧ s.strapped.fld HIF.READY = s.fld HIF.READY := by
  unfold State.strapped
  refine ⟨?_, State.fld_setFld_val _ _ 1 1 (by decide) (by decide), ?_⟩
  · rw [State.fld_setFld_far _ _ (by decide), State.fld_setFld_far _ _ (by decide)]
    exact (State.fld_setFld_word _ (bcnBase + 0x28) 19 1 16 3 _ (by decide) (by decide)).trans (s.fld_setFld_val _ 16 3 (by decide) s.pins.slot.isLt)
  · rw [State.fld_setFld_far _ _ (by decide), State.fld_setFld_far _ _ (by decide), State.fld_setFld_far _ _ (by decide), State.fld_setFld_far _ _ (by decide)]

theorem State.fromOff_marked (s : State) (cold : Bool) : Marked s (s.fromOff cold) := ite_keeps ((Marked.refl.setFld _ _).setFld _ _) .refl

theorem State.fld_fromOff (s : State) (cold : Bool) {f : Fld} (hf : canonical f.off ≠ pwrBase + 8) (hf' : canonical f.off ≠ pwrBase + 0x10) :
    (s.fromOff cold).fld f = s.fld f := by
  unfold State.fromOff
  split
  · rw [State.fld_setFld_far _ _ (by exact hf'), State.fld_setFld_far _ _ (by exact hf)]
  · rfl

theorem State.fromOff_cap (s : State) : (s.fromOff true).fld PWR.CAP_W = bits s.powerDef 0 12 := by
  rw [State.fromOff, if_pos rfl, State.fld_setFld_far _ _ (by decide)]
  exact s.fld_setFld_val _ 0 12 (by decide) (bits_lt ..)

theorem State.rebooting_keeps (s : State) : s.rebooting.fld HIF.READY = 0 ∧ s.rebooting.hbm = [] ∧ s.rebooting.tiles = []
    ∧ s.rebooting.pwr = s.moduleReset.pwr.booted ∧ s.rebooting.nl.settings = s.nl.settings ∧ s.rebooting.pins.slot = s.pins.slot := by
  obtain ⟨hhbm, htiles, -, -, -, -, hset, -, hslot, -⟩ := s.moduleReset_rest
  have hready : s.moduleReset.fld HIF.READY = 0 := s.fld_moduleReset_zero (by decide) (by decide)
  unfold State.rebooting
  rw [State.fld_withPwr, State.withPwr_hbm, State.withPwr_tiles, State.withPwr_pwr, State.withPwr_nl, State.withPwr_pins]
  exact ⟨hready, hhbm, htiles, rfl, hset, hslot⟩

theorem State.moduleReset_perst (s : State) : s.moduleReset.pwr.perst = s.pwr.perst := rfl

/-- The cap of a boot from Off is that of the settings in force. -/
theorem State.powerDef_strapped (s : State) : s.rebooting.strapped.powerDef = (s.committed (nvmBase + 0x440)).toNat := by
  obtain ⟨-, -, -, -, hset, -⟩ := s.rebooting_keeps
  rw [State.powerDef, State.committed, State.committed, s.rebooting.strapped_marked.nl, hset]

theorem wakeComplete_boots (hw : s.pwr.wake = true) (hp : s.pwr.state = .s3) (hc : s.pwr.refStable = true) (hr : s.pwr.rst = false) :
    Gives (exec .wakeComplete s) (fun z => z.pwr.state = .p0 ∧ z.pwr.wake = false ∧ z.fld HIF.READY = 0
      ∧ z.fld HIF.BOOT_WAIT = (if s.pwr.perst then 0 else 1) ∧ z.fld BCN.SLOT = s.pins.slot.toNat ∧ z.fld PWR.LOWPOWER = 0 ∧ z.hbm = [] ∧ z.tiles = []
      ∧ (s.pwr.cold = true → z.fld PWR.CAP_W = bits (s.committed (nvmBase + 0x440)).toNat 0 12)) := by
  have he : exec .wakeComplete s = .next s.boot := by
    show execWakeComplete s = _
    unfold execWakeComplete
    rw [if_neg (by simp [hw]), if_neg (by rw [hp]; decide), if_pos (by simp [hp, hc, hr])]
  have hperst := s.moduleReset_perst
  have hcap : s.pwr.cold = true → (s.rebooting.strapped.fromOff s.pwr.cold).fld PWR.CAP_W = bits (s.committed (nvmBase + 0x440)).toNat 0 12 := fun h => by
    rw [h, State.fromOff_cap, State.powerDef_strapped]
  obtain ⟨hready, hhbm, htiles, hpwr, -, hslot⟩ := s.rebooting_keeps
  obtain ⟨hslot', hlow, hready'⟩ := s.rebooting.strapped_keeps
  have hm := s.rebooting.strapped_marked.trans (s.rebooting.strapped.fromOff_marked s.pwr.cold)
  have hfld : ∀ f : Fld, canonical f.off ≠ pwrBase + 8 → canonical f.off ≠ pwrBase + 0x10 →
      (s.rebooting.strapped.fromOff s.pwr.cold).fld f = s.rebooting.strapped.fld f := fun f h h' => State.fld_fromOff _ _ h h'
  refine ⟨_, he, ?_⟩
  rw [State.boot_eq]
  generalize s.rebooting.strapped.fromOff s.pwr.cold = y at hm hfld hcap ⊢
  have hcommit := y.raiseLife_committed 1
  have hlife : ∀ f : Fld, canonical f.off ≠ nvmBase + 0x140 → canonical f.off ≠ canonical (NVM.LIFE 1).off → (y.raiseLife 1).fld f = y.fld f :=
    fun f h h' => y.fld_raiseLife 1 h h'
  generalize y.raiseLife 1 = w at hcommit hlife ⊢
  obtain ⟨⟨hstate, hwake⟩, hready₁, hwait, ⟨htiles₁, hhbm₁, -⟩, hfld₁⟩ := w.bootRom_booted
  have hpw : w.pwr = s.moduleReset.pwr.booted := hcommit.pwr.trans (hm.pwr.trans hpwr)
  refine ⟨by rw [hstate, hpw]; rfl, by rw [hwake, hpw]; rfl, ?_, ?_, ?_, ?_, ?_, ?_, fun h => ?_⟩
  · rw [hready₁, hlife _ (by decide) (by decide), hfld _ (by decide) (by decide), hready', hready]
  · rw [hwait, hpw, ← hperst]; rfl
  · rw [hfld₁ _ (by decide) (by decide), hlife _ (by decide) (by decide), hfld _ (by decide) (by decide), hslot', hslot]
  · rw [hfld₁ _ (by decide) (by decide), hlife _ (by decide) (by decide), hfld _ (by decide) (by decide), hlow]
  · rw [hhbm₁, hcommit.hbm, hm.hbm, hhbm]
  · rw [htiles₁, hcommit.tiles, hm.tiles, htiles]
  · rw [hfld₁ _ (by decide) (by decide), hlife _ (by decide) (by decide), hcap h]

end Sys2Proof.Machine
end

section
/-! LEMMAS. Every core and router reset, on entry into S2 and when the arithmetic PLL has lock again (O57; R34, R521, R522, R528). -/
namespace Sys2Proof.Machine
variable {s : State}

/-! ### A fold that visits each member of a list once -/

/-- What a step establishes for the member that it visits, and keeps for the others, holds of every member in the end. -/
theorem foldl_visits {α β : Type} {f : β → α → β} {ok : α → Prop} {Before After : α → β → Prop}
    (hvisit : ∀ z x, ok x → Before x z → After x (f z x)) (hbefore : ∀ z x y, ok x → ok y → y ≠ x → Before y z → Before y (f z x))
    (hafter : ∀ z x y, ok x → ok y → y ≠ x → After y z → After y (f z x))
    (xs : List α) (hok : ∀ x ∈ xs, ok x) (hnd : xs.Nodup) (z : β) (h : ∀ x ∈ xs, Before x z) : ∀ x ∈ xs, After x (xs.foldl f z) := by
  have hstays : ∀ (ys : List α) (y : α) (w : β), (∀ x ∈ ys, ok x) → ok y → y ∉ ys → After y w → After y (ys.foldl f w) := by
    intro ys y
    induction ys with
    | nil => exact fun _ _ _ _ h => h
    | cons x ys ih =>
      intro w hys hyok hy hw
      obtain ⟨hx, hy'⟩ := not_or.1 (fun h => hy (List.mem_cons.2 h))
      exact ih _ (fun u hu => hys u (List.mem_cons_of_mem _ hu)) hyok hy' (hafter _ _ _ (hys x List.mem_cons_self) hyok hx hw)
  induction xs generalizing z with
  | nil => exact fun _ hx => absurd hx List.not_mem_nil
  | cons a xs ih =>
    obtain ⟨ha, hnd'⟩ := List.nodup_cons.1 hnd
    have haok := hok a List.mem_cons_self
    have hxs : ∀ x ∈ xs, ok x := fun x hx => hok x (List.mem_cons_of_mem _ hx)
    intro x hx
    rcases List.mem_cons.1 hx with rfl | hx
    · exact hstays xs x _ hxs haok ha (hvisit _ _ haok (h x List.mem_cons_self))
    · exact ih hxs hnd' _ (fun y hy => hbefore _ _ _ haok (hxs y hy) (fun e => ha (by rw [← e]; exact hy)) (h y (List.mem_cons_of_mem _ hy))) x hx

/-! ### What resets of tiles leave of the rest -/

/-- A control message to a module is queued at a port, or has no way. -/
theorem State.controlTo_cases (s : State) (m : Nat) (k : Control) (bs : List Byte) :
    s.controlTo m k bs = s ∨ ∃ p q, s.controlTo m k bs = s.setPort p q := by
  unfold State.controlTo
  extract_lets dst
  split
  · exact .inl rfl
  · split
    · exact .inr ⟨_, _, rfl⟩
    · exact .inl rfl

/-- From `s₀` to `s` HBM, the power state, the commands in hand and the shape of the grid have stayed. -/
structure Still (s₀ s : State) : Prop where
  hbm : s.hbm = s₀.hbm
  pwr : s.pwr = s₀.pwr
  started : s.hif.started = s₀.hif.started
  retired : s.retired = s₀.retired

theorem Answered.still {s₀ s : State} (h : Answered s₀ s) : Still s₀ s :=
  ⟨h.hbm, (congrArg State.pwr h.rest :), (congrArg (fun z => z.hif.started) h.rest :), (congrArg State.retired h.rest :)⟩

namespace Still
variable {s₀ s s' : State}

theorem refl : Still s s := ⟨rfl, rfl, rfl, rfl⟩
theorem trans (h : Still s₀ s) (h' : Still s s') : Still s₀ s' :=
  ⟨h'.hbm.trans h.hbm, h'.pwr.trans h.pwr, h'.started.trans h.started, h'.retired.trans h.retired⟩
theorem setTile (h : Still s₀ s) (t : Nat) (x : Tile) : Still s₀ (s.setTile t x) := h.trans ⟨rfl, rfl, rfl, rfl⟩
theorem onTile (h : Still s₀ s) (t : Nat) (f : Tile → Tile) : Still s₀ (s.onTile t f) := h.setTile t _
theorem setSpare (h : Still s₀ s) (u : Nat) (x : SpareUnit) : Still s₀ (s.setSpare u x) := h.trans ⟨rfl, rfl, rfl, rfl⟩
theorem setPort (h : Still s₀ s) (p : Nat) (q : Port) : Still s₀ (s.setPort p q) := h.trans ⟨rfl, rfl, rfl, rfl⟩
theorem withLh (h : Still s₀ s) (l : Lighthouse) : Still s₀ { s with lh := l } := h.trans ⟨rfl, rfl, rfl, rfl⟩

theorem controlTo (h : Still s₀ s) (m : Nat) (k : Control) (bs : List Byte) : Still s₀ (s.controlTo m k bs) := by
  obtain e | ⟨p, q, e⟩ := s.controlTo_cases m k bs
  · rw [e]; exact h
  · rw [e]; exact h.setPort p q

theorem tellAsleep (h : Still s₀ s) : Still s₀ s.tellAsleep := ite_keeps (h.withLh _) (h.controlTo ..)

theorem loseContents (h : Still s₀ s) (t : Nat) : Still s₀ (s.loseContents t) := by
  obtain ⟨n, spad, r, p, v, acc, e⟩ := s.loseContents_eq t
  have hfree : Still s₀ { s with free := n } := h.trans ⟨rfl, rfl, rfl, rfl⟩
  rw [e]
  exact hfree.onTile ..

theorem resetCore (h : Still s₀ s) (t : Nat) : Still s₀ (s.resetCore t) := by
  have hans : Answered (s.setTile t ((s.tile t).afterReset s.count)) _ :=
    Answered.refl.answerHeld (t := t) (ws := (s.tile t).writes ++ (s.tile t).heldWrites) (rs := (s.tile t).reads)
      |>.answerGrants (ms := (s.tile t).mail) |>.dropCopies (t := t) (x := s.tile t)
  exact ((h.setTile t _).trans hans.still).loseContents t

theorem resetRouter (h : Still s₀ s) (t : Nat) : Still s₀ (s.resetRouter t) := (h.setTile t _).trans (s.resetRouter_answered t).still

theorem resetSpares (h : Still s₀ s) : Still s₀ s.resetSpares := foldl_keeps h fun _ _ h' => (h'.setSpare ..).setSpare ..

end Still

/-- Spares are no tiles. -/
theorem State.tiles_resetSpares (s : State) : s.resetSpares.tiles = s.tiles :=
  foldl_keeps (P := fun z : State => z.tiles = s.tiles) rfl fun _ _ h => h

/-! ### The fields of a tile's status under the resets -/

/-- A field of TILE_STATUS that the router does not hold. -/
def Fld.ofCore (f : Fld) : Prop := f.lsb + f.width ≤ 16 ∨ 32 ≤ f.lsb

/-- A core that resets: its epoch and its readiness change, and no other tile's. -/
theorem State.resetCore_fld (s : State) (t u : Nat) (f : Fld) :
    ((s.resetCore t).tile u).fld f = if u = t then ((s.tile t).afterReset s.count).fld f else (s.tile u).fld f := by
  have hans : Answered (s.setTile t ((s.tile t).afterReset s.count)) _ :=
    Answered.refl.answerHeld (t := t) (ws := (s.tile t).writes ++ (s.tile t).heldWrites) (rs := (s.tile t).reads)
      |>.answerGrants (ms := (s.tile t).mail) |>.dropCopies (t := t) (x := s.tile t)
  have hlose : ∀ z : State, ((z.loseContents t).tile u).fld f = (z.tile u).fld f := fun z => by
    obtain ⟨n, spad, r, p, v, acc, e⟩ := z.loseContents_eq t
    have hfree : ({ z with free := n } : State).tile u = z.tile u := rfl
    rw [e]
    by_cases hu : u = t
    · subst hu
      rw [State.tile_onTile_same, hfree]
      rfl
    · rw [State.tile_onTile_other _ _ hu, hfree]
  refine (hlose _).trans ((hans.tileFld u f).trans ?_)
  split
  next hu => rw [hu, State.tile_setTile_same]
  next hu => rw [State.tile_setTile_other _ _ hu]

/-- A router that resets leaves the core's fields of every tile. -/
theorem State.resetRouter_fld (s : State) (t u : Nat) {f : Fld} (hf : f.ofCore) : ((s.resetRouter t).tile u).fld f = (s.tile u).fld f := by
  rw [(s.resetRouter_answered t).tileFld]
  by_cases hu : u = t
  · subst hu
    rw [State.tile_setTile_same]
    exact Tile.fld_setFld_other _ _ (by decide) (.inr hf.symm)
  · rw [State.tile_setTile_other _ _ hu]

/-- A core and its router reset together. -/
def State.resetBoth (s : State) (t : Nat) : State := (s.resetCore t).resetRouter t

theorem Still.resetBoth {s₀ s : State} (h : Still s₀ s) (t : Nat) : Still s₀ (s.resetBoth t) := (h.resetCore t).resetRouter t

theorem State.resetBoth_self (s : State) (t : Nat) : ((s.resetBoth t).tile t).fld TILE.CORE_READY = 0
    ∧ ((s.resetBoth t).tile t).fld TILE.CORE_EPOCH = ((s.tile t).fld TILE.CORE_EPOCH + 1) % 2 ^ 16 := by
  obtain ⟨hepoch, hready⟩ := (s.tile t).afterReset_core s.count
  unfold State.resetBoth
  rw [State.resetRouter_fld _ _ _ (.inr (by decide)), State.resetRouter_fld _ _ _ (.inl (by decide)), State.resetCore_fld, State.resetCore_fld,
    if_pos rfl, if_pos rfl]
  exact ⟨hready, hepoch⟩

theorem State.resetBoth_other (s : State) {t u : Nat} (hu : u ≠ t) {f : Fld} (hf : f.ofCore) : ((s.resetBoth t).tile u).fld f = (s.tile u).fld f := by
  unfold State.resetBoth
  rw [State.resetRouter_fld _ _ _ hf, State.resetCore_fld, if_neg hu]

/-! ### The arithmetic PLL has lock again -/

/-- What the tiles have to load again. -/
def State.reloadAll (s : State) : State := if s.lh.cur.isSome then { s with lh := { s.lh with reload := s.tileList } } else s

/-- Every core and router reset, the spares' with them. -/
def State.resetAll (s : State) : State := (s.tileList.foldl (fun (s : State) t => s.resetBoth t) s).resetSpares

theorem State.gainPll_arithmetic (s : State) : s.gainPll 0 0 = (s.lockPll 0 0).resetAll.reloadAll := by
  unfold State.gainPll
  extract_lets p y w
  have hy : s.lockPll 0 0 = y := rfl
  rw [hy]
  clear_value y
  split
  · have hw : y.resetAll = w := rfl
    rw [hw]
    clear_value w
    rfl
  · contradiction
  · contradiction

theorem State.reloadAll_keeps (s : State) : s.reloadAll.tiles = s.tiles ∧ s.reloadAll.hbm = s.hbm := by
  unfold State.reloadAll
  split <;> exact ⟨rfl, rfl⟩

theorem State.tileCount_withPwr (s : State) (p : Power) : (s.withPwr p).tileCount = s.tileCount := rfl

theorem pllRelock_arithmetic (aw : s.awake = true) (hm : (0, 0) ∈ s.pwr.unlocked) : Gives (exec (.pllRelock 0 0) s) (fun z => z.hbm = s.hbm
    ∧ ∀ t, t < s.tileCount → (z.tile t).fld TILE.CORE_READY = 0 ∧ (z.tile t).fld TILE.CORE_EPOCH = ((s.tile t).fld TILE.CORE_EPOCH + 1) % 2 ^ 16) := by
  rw [pllRelock_eq aw hm (by decide), State.gainPll_arithmetic, State.resetAll]
  have htile : ∀ t, (s.lockPll 0 0).tile t = s.tile t := fun t => by simp only [State.tile, State.lockPll, State.withPwr_tiles]
  have hlist : (s.lockPll 0 0).tileList = List.range s.tileCount := by rw [State.tileList, State.lockPll, State.tileCount_withPwr]
  have hhbm : (s.lockPll 0 0).hbm = s.hbm := s.withPwr_hbm _
  generalize s.lockPll 0 0 = y at htile hlist hhbm ⊢
  have hstill : Still y (y.tileList.foldl (fun (s : State) t => s.resetBoth t) y) := foldl_keeps .refl fun _ _ h => h.resetBoth _
  have hreset : ∀ t ∈ y.tileList, ((y.tileList.foldl (fun (s : State) t => s.resetBoth t) y).tile t).fld TILE.CORE_READY = 0
      ∧ ((y.tileList.foldl (fun (s : State) t => s.resetBoth t) y).tile t).fld TILE.CORE_EPOCH = ((y.tile t).fld TILE.CORE_EPOCH + 1) % 2 ^ 16 := by
    refine foldl_visits (ok := fun _ => True) (Before := fun t (z : State) => (z.tile t).fld TILE.CORE_EPOCH = (y.tile t).fld TILE.CORE_EPOCH)
      (After := fun t (z : State) => (z.tile t).fld TILE.CORE_READY = 0 ∧ (z.tile t).fld TILE.CORE_EPOCH = ((y.tile t).fld TILE.CORE_EPOCH + 1) % 2 ^ 16)
      (fun z t _ hz => ?_) (fun z t u _ _ hu hz => ?_) (fun z t u _ _ hu hz => ?_) _ (fun _ _ => trivial) (by rw [hlist]; exact List.nodup_range) _ fun _ _ => rfl
    · obtain ⟨hready, hepoch⟩ := z.resetBoth_self t
      exact ⟨hready, by rw [hepoch, hz]⟩
    · rw [z.resetBoth_other hu (.inl (by decide))]
      exact hz
    · rw [z.resetBoth_other hu (.inr (by decide)), z.resetBoth_other hu (.inl (by decide))]
      exact hz
  generalize y.tileList.foldl _ y = w at hstill hreset ⊢
  obtain ⟨htiles, hhbm'⟩ := w.resetSpares.reloadAll_keeps
  refine ⟨_, rfl, hhbm'.trans ((hstill.resetSpares).hbm.trans hhbm), fun t ht => ?_⟩
  have hw : w.resetSpares.reloadAll.tile t = w.tile t := by simp only [State.tile, htiles, w.tiles_resetSpares]
  rw [hw, ← htile]
  exact hreset t (by rw [hlist]; exact List.mem_range.2 ht)

end Sys2Proof.Machine
end

section
/-! LEMMAS. Entry into S2 (O57; R34, R261, R521). -/
namespace Sys2Proof.Machine
variable {s : State}

/-! ### Nothing is due (R261) -/

/-- No event of this count waits. -/
def State.NoneDue (s : State) : Prop := s.moves = [] ∧ s.bcn.pendingTick = none ∧ s.bcn.trees = []
  ∧ ∀ st, s.lh.step = some st → st.result = none ∨ s.count ≠ st.flip

theorem State.changeMap_none (h : s.moves = []) : s.changeMap = s := by
  have e : ({ s with moves := [] } : State) = s := by rw [← h]
  unfold State.changeMap
  split
  · rw [h]; exact e
  · rfl

theorem State.changeTick_none (h : s.bcn.pendingTick = none) : s.changeTick = s := by
  unfold State.changeTick
  rw [h]

theorem State.closeNode_none (h : s.bcn.trees = []) (m : Nat) : s.closeNode m = s := by
  have hm : s.tree m = none := by rw [State.tree, h]; rfl
  unfold State.closeNode
  rw [hm]

theorem State.closeDue_none (h : s.bcn.trees = []) : s.closeDue = s :=
  foldl_keeps (P := fun z => z = s) rfl fun _ m hz => by rw [hz, s.closeNode_none h m]

theorem State.flipDue_none (h : ∀ st, s.lh.step = some st → st.result = none ∨ s.count ≠ st.flip) : s.flipDue = s := by
  unfold State.flipDue
  split
  next st j hst _ => exact if_pos ((h st hst).imp (fun hr => by rw [hr]; rfl) .inl)
  next => rfl

theorem State.runDue_none (h : s.NoneDue) : s.runDue 5 = s := by
  obtain ⟨hmoves, htick, htrees, hflip⟩ := h
  unfold State.runDue
  split
  · rfl
  · rw [if_pos (by decide), if_pos (by decide), if_pos (by decide), if_pos (by decide), State.changeMap_none hmoves, State.changeTick_none htick,
      State.closeDue_none htrees, State.flipDue_none hflip]

/-- The conditions of an entry by Lighthouse, with no event due. -/
structure Enters (s : State) : Prop where
  due : s.NoneDue
  state : s.pwr.state = .p0
  lh : s.lh.inReset = false
  cur : s.lh.cur = none
  beacon : s.fld BCN.STATE ≠ 5
  copies : ∀ o ∈ s.hif.ops, o.state = 1 → cOpc o.desc ≠ 0x10 ∧ cOpc o.desc ≠ 0x11

theorem State.job_none (h : s.lh.cur = none) : s.job = none := by
  unfold State.job
  rw [h]

theorem Enters.mayEnter (h : Enters s) (hn : s.fld PWR.NEXT ≠ 0) (hj : s.fld PWR.NEXT = 3 → ∀ j ∈ s.lh.jobs, s.self.toNat ∉ j.box) :
    s.mayEnter = true := by
  have hactive : s.jobActive = false := by unfold State.jobActive; rw [State.job_none h.cur]
  have hcopies : s.hif.ops.any (fun o => isCopy o.desc && decide (o.state = 1)) = false := by
    simp only [List.any_eq_false, isCopy, Bool.and_eq_true, Bool.or_eq_true, decide_eq_true_eq, not_and]
    intro o ho hc hs
    obtain ⟨h1, h2⟩ := h.copies o ho hs
    exact hc.elim h1 h2
  have hjobs : (decide (s.fld PWR.NEXT ≠ 3) || !s.lh.jobs.any (fun j => j.box.contains s.self.toNat)) = true := by
    by_cases h3 : s.fld PWR.NEXT = 3
    · rw [Bool.or_eq_true, Bool.not_eq_true']
      refine .inr (List.any_eq_false.2 fun j hm => ?_)
      simpa using hj h3 j hm
    · simp [h3]
  unfold State.mayEnter
  rw [hactive, hcopies, hjobs, h.state, h.lh]
  simp [hn]

theorem powerEntry_enters (h : Enters s) (hn : s.fld PWR.NEXT ≠ 0) (hj : s.fld PWR.NEXT = 3 → ∀ j ∈ s.lh.jobs, s.self.toNat ∉ j.box) :
    exec .powerEntry s = if s.fld PWR.NEXT = 3 then .next s.enterS3 else .next s.enterS2 := by
  show execPowerEntry s = _
  unfold execPowerEntry
  rw [State.runDue_none h.due]
  exact if_neg (by simp [h.mayEnter hn hj, h.beacon])

theorem powerEntry_stays (hd : s.NoneDue) (h : s.pwr.state ≠ .p0 ∨ s.fld PWR.NEXT = 0 ∨ s.lh.inReset = true ∨ s.fld BCN.STATE = 5) :
    exec .powerEntry s = .next s := by
  have hstay : !s.mayEnter ∨ s.fld BCN.STATE = 5 := by
    unfold State.mayEnter
    rcases h with h | h | h | h <;> simp [h]
  show execPowerEntry s = _
  unfold execPowerEntry
  rw [State.runDue_none hd]
  exact if_pos hstay

/-! ### The entry of a command that ends -/

/-- From `s₀` to `s` entries of commands were made: tiles, HBM, the power state and every register but HIF_FAULT stay. -/
structure Told (s₀ s : State) : Prop where
  tiles : s.tiles = s₀.tiles
  hbm : s.hbm = s₀.hbm
  pwr : s.pwr = s₀.pwr
  fld : ∀ f : Fld, canonical f.off ≠ 0x20 → s.fld f = s₀.fld f

namespace Told
variable {s₀ s s' : State}

theorem refl : Told s s := ⟨rfl, rfl, rfl, fun _ _ => rfl⟩
theorem trans (h : Told s₀ s) (h' : Told s s') : Told s₀ s' :=
  ⟨h'.tiles.trans h.tiles, h'.hbm.trans h.hbm, h'.pwr.trans h.pwr, fun f hf => (h'.fld f hf).trans (h.fld f hf)⟩
theorem post (h : Told s₀ s) (e : Entry) : Told s₀ (s.post e) :=
  h.trans ⟨(Marked.post s e).tiles, (Marked.post s e).hbm, (Marked.post s e).pwr, fun _ hf => (Answered.post (.refl (s := s))).fld hf⟩
theorem draw (h : Told s₀ s) (w : Nat) : Told s₀ (s.draw w).2 := h.trans ⟨rfl, rfl, rfl, fun _ _ => State.fld_congr (by rfl) _⟩
theorem updHif (h : Told s₀ s) (x : HostIf) : Told s₀ { s with hif := x } := h.trans ⟨rfl, rfl, rfl, fun _ _ => State.fld_congr (by rfl) _⟩

theorem postFor (h : Told s₀ s) (ring : Nat) (e : Entry) : Told s₀ (s.postFor ring e) := ite_keeps (h.post _) (h.updHif _)

theorem resultOf (h : Told s₀ s) (r : Option (BitVec 64)) : Told s₀ (s.resultOf r).2 := by
  cases r with
  | none => exact h.draw 64
  | some v => exact h

theorem finish (h : Told s₀ s) (ring : Nat) (d : BitVec 512) (c : BitVec 16) (r : Option (BitVec 64)) : Told s₀ (s.finish ring d c r) := by
  unfold State.finish
  split
  · exact h
  · exact ite_keeps (h.updHif _) (((h.updHif _).resultOf r).postFor ..)

theorem refuseDesc (h : Told s₀ s) (ring : Nat) (d : BitVec 512) (c : BitVec 16) : Told s₀ (s.refuseDesc ring d c) := (h.draw 64).postFor ..

end Told

theorem takeFirst_of_mem {α : Type} {p : α → Bool} {x : α} {l : List α} (hx : x ∈ l) (hp : p x = true) : ∃ r, takeFirst p l = some r := by
  induction l with
  | nil => exact absurd hx List.not_mem_nil
  | cons y l ih =>
    unfold takeFirst
    split
    · exact ⟨_, rfl⟩
    next hy =>
      rcases List.mem_cons.1 hx with rfl | hx
      · exact absurd hp hy
      · obtain ⟨r, hr⟩ := ih hx
        exact ⟨_, by rw [hr]; rfl⟩

/-- A command of a ring that asks for its entry ends with one. -/
theorem State.finish_posts (s : State) {ring : Nat} {d : BitVec 512} {running : Bool} (c : BitVec 16) (r : Option (BitVec 64)) (hr : ring < 64)
    (hn : cNocpl d = false) (hm : ⟨ring, d, running⟩ ∈ s.hif.started) :
    ∃ b e, (s.finish ring d c r).hif.backlog = b ++ [e] ∧ e.ring = ring ∧ e.cid = cCid d ∧ e.status = c := by
  obtain ⟨x, hx⟩ := takeFirst_of_mem (p := fun x => decide (x.ring = ring) && decide (x.desc = d)) hm (by simp)
  have hpost : ∀ (z : State) (e : Entry), z.postFor ring e = z.post { e with ring := ring, module := z.self } := fun _ _ => if_pos hr
  unfold State.finish
  rw [hx]
  dsimp only
  rw [if_neg (by simp [hn]), hpost]
  obtain ⟨b, hb⟩ := State.post_backlog _ _
  exact ⟨b, _, hb, rfl, rfl, rfl⟩

def Power.withEntering (p : Power) (x : Option (Nat × Option (Nat × BitVec 512))) : Power := { p with entering := x }

theorem State.entered_some {ring : Nat} {d : BitVec 512} {n : Nat} (h : s.pwr.entering = some (n, some (ring, d))) :
    s.entered = (s.withPwr (s.pwr.withEntering none)).finish ring d 0 none := by
  unfold State.entered
  rw [h]
  rfl

theorem State.entered_told (s : State) : Told (s.withPwr (s.pwr.withEntering none)) s.entered := by
  unfold State.entered
  extract_lets r p z
  have hz : s.withPwr (s.pwr.withEntering none) = z := rfl
  rw [hz]
  clear_value z r
  rcases r with _ | ⟨ring, d⟩
  · exact .refl
  · exact Told.refl.finish ..

/-! ### The entry into S2 -/

/-- Every tile reset and without power. -/
def State.sleepTiles (s : State) : State :=
  s.tileList.foldl (fun (s : State) t => (s.resetBoth t).onTile t (fun x => x.setFld TILE.CORE_PWR 0)) s

def Power.inState (p : Power) (x : PowerState) : Power := { p with state := x }

theorem State.enterS2_eq (s : State) : s.enterS2 =
    (fun w : State => (w.withPwr (w.pwr.inState .s2)).entered) s.tellAsleep.saveLive.sleepTiles.resetSpares := by
  unfold State.enterS2
  extract_lets y w
  have hw : s.tellAsleep.saveLive.sleepTiles.resetSpares = w := rfl
  rw [hw]
  clear_value w
  rfl

theorem State.tellAsleep_cur (s : State) : s.tellAsleep.lh.cur = s.lh.cur := by
  have hcontrol : ∀ m k bs, (s.controlTo m k bs).lh = s.lh := fun m k bs => by
    obtain e | ⟨p, q, e⟩ := s.controlTo_cases m k bs <;> rw [e]
    rfl
  unfold State.tellAsleep
  split
  · rfl
  · rw [hcontrol]

theorem State.saveLive_none (h : s.lh.cur = none) : s.saveLive = s := by
  unfold State.saveLive
  rw [State.job_none h]

/-- A tile's core is reset and without power. -/
def Tile.Down (x : Tile) : Prop := x.fld TILE.CORE_READY = 0 ∧ x.fld TILE.CORE_PWR = 0

theorem State.sleepTile_self (z : State) (t : Nat) : (((z.resetBoth t).onTile t (fun x => x.setFld TILE.CORE_PWR 0)).tile t).Down := by
  obtain ⟨hready, -⟩ := z.resetBoth_self t
  rw [State.tile_onTile_same]
  refine ⟨?_, Tile.fld_setFld_same _ _ _ (by decide)⟩
  rw [Tile.fld_setFld_other _ _ (by decide) (.inr (by decide)), hready]

theorem State.sleepTile_other (z : State) {t u : Nat} (hu : u ≠ t) (h : (z.tile u).Down) :
    (((z.resetBoth t).onTile t (fun x => x.setFld TILE.CORE_PWR 0)).tile u).Down := by
  obtain ⟨hready, hpwr⟩ := h
  rw [State.tile_onTile_other _ _ hu]
  exact ⟨(z.resetBoth_other hu (.inr (by decide))).trans hready, (z.resetBoth_other hu (.inr (by decide))).trans hpwr⟩

theorem State.sleepTiles_keeps (s : State) : Still s s.sleepTiles ∧ ∀ t, t < s.tileCount → (s.sleepTiles.tile t).Down := by
  refine ⟨foldl_keeps .refl fun _ _ h => (h.resetBoth _).onTile _ _, fun t ht => ?_⟩
  exact foldl_visits (ok := fun _ => True) (Before := fun _ _ => True) (After := fun t (z : State) => (z.tile t).Down)
    (fun z t _ _ => z.sleepTile_self t) (fun _ _ _ _ _ _ _ => trivial) (fun z t u _ _ hu h => z.sleepTile_other hu h) _ (fun _ _ => trivial) List.nodup_range _ (fun _ _ => trivial) t (List.mem_range.2 ht)

theorem powerEntry_s2 (h : Enters s) (hn : s.fld PWR.NEXT = 2) : Gives (exec .powerEntry s) (fun z => z.pwr.state = .s2 ∧ z.pwr.entering = none
    ∧ z.hbm = s.hbm ∧ (∀ t, t < s.tileCount → (z.tile t).Down)
    ∧ ∀ ring d, s.pwr.entering = some (2, some (ring, d)) → ring < 64 → cNocpl d = false → ⟨ring, d, true⟩ ∈ s.hif.started →
        ∃ b e, z.hif.backlog = b ++ [e] ∧ e.ring = ring ∧ e.cid = cCid d ∧ e.status = 0) := by
  have he := powerEntry_enters h (by omega) (by omega)
  rw [if_neg (by omega), State.enterS2_eq, State.saveLive_none (by rw [State.tellAsleep_cur, h.cur])] at he
  have htell : Still s s.tellAsleep := Still.refl.tellAsleep
  obtain ⟨hsleep, hdown⟩ := s.tellAsleep.sleepTiles_keeps
  have hstill : Still s s.tellAsleep.sleepTiles.resetSpares := (htell.trans hsleep).resetSpares
  have hdown' : ∀ t, t < s.tileCount → (s.tellAsleep.sleepTiles.resetSpares.tile t).Down := fun t ht => by
    rw [State.tile, State.tiles_resetSpares]
    exact hdown t (by rw [State.tileCount, htell.retired]; exact ht)
  generalize s.tellAsleep.sleepTiles.resetSpares = w at he hstill hdown'
  have hpwr : (w.withPwr (w.pwr.inState .s2)).pwr = s.pwr.inState .s2 := by rw [State.withPwr_pwr, hstill.pwr]
  have htold := (w.withPwr (w.pwr.inState .s2)).entered_told
  refine ⟨_, he, ?_, ?_, ?_, fun t ht => ?_, fun ring d hent hr hc hm => ?_⟩
  · rw [htold.pwr, State.withPwr_pwr, hpwr]; rfl
  · rw [htold.pwr, State.withPwr_pwr]; rfl
  · rw [htold.hbm, State.withPwr_hbm, State.withPwr_hbm, hstill.hbm]
  · rw [State.tile, htold.tiles, State.withPwr_tiles, State.withPwr_tiles]
    exact hdown' t ht
  · beta_reduce
    rw [State.entered_some (n := 2) (ring := ring) (d := d) (by rw [hpwr, ← hent]; rfl)]
    refine State.finish_posts _ 0 none hr hc (running := true) ?_
    rw [State.withPwr_hif, State.withPwr_hif, hstill.started]
    exact hm

end Sys2Proof.Machine
end

section
/-! LEMMAS. PLLs of Lighthouse, of an HBM stack and of a port (O57; R283, R357, R425, R528). -/
namespace Sys2Proof.Machine
variable {s : State}

/-! ### The channels of a stack -/

theorem canonical_channel_apart {k ch ch' : Nat} (hch : ch < 16) (hch' : ch' < 16) (hne : ch' ≠ ch) :
    canonical (hbmBase k + 0x100 + 8 * ch') ≠ canonical (hbmBase k + 0x100 + 8 * ch) := by
  intro h
  have h₁ := canonical_mod (hbmBase k + 0x100 + 8 * ch)
  have h₂ := canonical_mod (hbmBase k + 0x100 + 8 * ch')
  rw [h] at h₂
  unfold hbmBase at h₁ h₂
  omega

/-- A channel reset and recorded. -/
def State.resetAndLog (s : State) (k ch : Nat) : State :=
  let s := s.resetChannel k ch
  s.logGlow 0x0D 0 (channelUnit k ch) (s.fld (HBM.CH_EPOCH k ch))

theorem State.resetAndLog_answered (s : State) (k ch : Nat) :
    Answered ((s.setStack k (s.resetStack k ch)).resetChannelFlds k ch) (s.resetAndLog k ch) :=
  (s.resetChannel_answered k ch).logGlow

theorem State.resetAndLog_hbm (s : State) (k ch : Nat) : (s.resetAndLog k ch).hbm = s.hbm := by
  obtain ⟨hhbm, -⟩ := (s.setStack k (s.resetStack k ch)).resetChannelFlds_keeps k ch
  exact (s.resetAndLog_answered k ch).hbm.trans hhbm

theorem State.fld_setStack (s : State) (k : Nat) (x : Stack) (f : Fld) : (s.setStack k x).fld f = s.fld f := State.fld_congr (by rfl) f

theorem State.resetAndLog_self (s : State) {k ch : Nat} (hch : ch < 16) :
    (s.resetAndLog k ch).fld (HBM.CH_READY k ch) = 0 ∧ (s.resetAndLog k ch).fld (HBM.CH_EPOCH k ch) = (s.fld (HBM.CH_EPOCH k ch) + 1) % 2 ^ 16 := by
  obtain ⟨hepoch, hready⟩ := (s.setStack k (s.resetStack k ch)).fld_resetChannelFlds k ch
  have hans := s.resetAndLog_answered k ch
  rw [hans.fld (canonical_channel_ne hch), hans.fld (canonical_channel_ne hch)]
  exact ⟨hready, hepoch.trans (by rw [State.fld_setStack])⟩

theorem State.resetAndLog_other (s : State) {k ch ch' : Nat} (hch : ch < 16) (hch' : ch' < 16) (hne : ch' ≠ ch) {l w : Nat} :
    (s.resetAndLog k ch).fld ⟨hbmBase k + 0x100 + 8 * ch', l, w⟩ = s.fld ⟨hbmBase k + 0x100 + 8 * ch', l, w⟩ := by
  have hfar := canonical_channel_apart (k := k) hch hch' hne
  rw [(s.resetAndLog_answered k ch).fld (canonical_channel_ne hch'), State.resetChannelFlds, State.fld_setFld_far _ _ (by exact hfar),
    State.fld_setFld_far _ _ (by exact hfar), State.fld_setStack]

/-- The channels of a stack that have not failed. -/
def State.goodChannels (s : State) (k : Nat) : List Nat := (List.range 16).filter (fun ch => !(s.fld (HBM.FAILED k)).testBit ch)

theorem State.losePll_stack (s : State) (k : Nat) : s.losePll 3 k =
    ((s.unlockPll 3 k).goodChannels k).foldl (fun (s : State) ch => s.resetAndLog k ch) (s.unlockPll 3 k) := rfl

theorem State.mem_goodChannels {k ch : Nat} : ch ∈ s.goodChannels k ↔ ch < 16 ∧ (s.fld (HBM.FAILED k)).testBit ch = false := by
  simp [State.goodChannels]

theorem pllLockLoss_stack {k : Nat} (hp : s.pwr.state = .p0) (hk : k < 16) : Gives (exec (.pllLockLoss 3 k) s) (fun z => z.hbm = s.hbm
    ∧ ∀ ch, ch < 16 → (s.fld (HBM.FAILED k)).testBit ch = false →
      z.fld (HBM.CH_READY k ch) = 0 ∧ z.fld (HBM.CH_EPOCH k ch) = (s.fld (HBM.CH_EPOCH k ch) + 1) % 2 ^ 16) := by
  have hhbm : (s.unlockPll 3 k).hbm = s.hbm := s.withPwr_hbm _
  have hfld : ∀ f, (s.unlockPll 3 k).fld f = s.fld f := s.fld_withPwr _
  rw [pllLockLoss_eq hp (pll := 3) (unit := k) (decide_eq_true hk), State.losePll_stack]
  generalize s.unlockPll 3 k = y at hhbm hfld ⊢
  refine ⟨_, rfl, ?_, fun ch hch hgood => ?_⟩
  · exact (foldl_keeps (P := fun z : State => z.hbm = y.hbm) rfl fun z ch hz => (z.resetAndLog_hbm k ch).trans hz).trans hhbm
  · rw [← hfld] at hgood
    rw [← hfld]
    refine foldl_visits (ok := fun ch => ch < 16) (Before := fun ch (z : State) => z.fld (HBM.CH_EPOCH k ch) = y.fld (HBM.CH_EPOCH k ch))
      (After := fun ch (z : State) => z.fld (HBM.CH_READY k ch) = 0 ∧ z.fld (HBM.CH_EPOCH k ch) = (y.fld (HBM.CH_EPOCH k ch) + 1) % 2 ^ 16)
      (fun z c hc hz => ?_) (fun z c c' hc hc' hne hz => (z.resetAndLog_other hc hc' hne).trans hz)
      (fun z c c' hc hc' hne hz => ⟨(z.resetAndLog_other hc hc' hne).trans hz.1, (z.resetAndLog_other hc hc' hne).trans hz.2⟩)
      (y.goodChannels k) (fun c hc => (State.mem_goodChannels.1 hc).1) (List.nodup_range.filter _) y (fun _ _ => rfl)
      ch (State.mem_goodChannels.2 ⟨hch, hgood⟩)
    obtain ⟨hready, hepoch⟩ := z.resetAndLog_self (k := k) hc
    exact ⟨hready, by rw [hepoch, hz]⟩

/-! ### A port -/

/-- A collective engine's registers stand past its ports' status. -/
theorem canonical_engine_apart (a p : Nat) : canonical (bfBase p) ≠ canonical (ceBase a + 0x1000) := by
  intro h
  have h₁ := canonical_mod (bfBase p)
  have h₂ := canonical_mod (ceBase a + 0x1000)
  rw [h] at h₁
  unfold bfBase at h₁
  unfold ceBase bfBase at h₁ h₂
  omega

theorem canonical_port_ne (p : Nat) : canonical (bfBase p) ≠ 0x20 := by
  have h := canonical_mod (bfBase p)
  unfold bfBase at *
  omega

/-- The port's epoch and HBM are as before. -/
structure PortKept (p : Nat) (s₀ s : State) : Prop where
  hbm : s.hbm = s₀.hbm
  epoch : s.fld (BF.EPOCH p) = s₀.fld (BF.EPOCH p)

namespace PortKept
variable {p : Nat} {s₀ s s' : State}

theorem refl : PortKept p s s := ⟨rfl, rfl⟩
theorem trans (h : PortKept p s₀ s) (h' : PortKept p s s') : PortKept p s₀ s' := ⟨h'.hbm.trans h.hbm, h'.epoch.trans h.epoch⟩
theorem answered (h : PortKept p s₀ s) (h' : Answered s s') : PortKept p s₀ s' := h.trans ⟨h'.hbm, h'.fld (canonical_port_ne p)⟩
theorem updHif (h : PortKept p s₀ s) (x : HostIf) : PortKept p s₀ { s with hif := x } := h.trans ⟨rfl, State.fld_congr (by rfl) _⟩

theorem answerRecords (h : PortKept p s₀ s) (c : BitVec 16) : PortKept p s₀ (s.answerRecords p c) := by
  have hrelay : ∀ (z : State) (r : AwayRecord), PortKept p z (z.relayAnswered p r false) := fun z r => ite_keeps (refl.updHif _) refl
  have hrecord : ∀ (z : State) (r : AwayRecord), PortKept p z (z.answerRecord c r) := fun z r => by
    unfold State.answerRecord
    split
    · exact refl.answered (.send .refl)
    · exact refl.answered (.sendReply .refl)
  exact foldl_keeps ((foldl_keeps h fun _ _ h' => h'.trans (hrelay ..)).answered (.setPort .refl)) fun _ _ h' => h'.trans (hrecord ..)

end PortKept

/-- The port is held in its reset with the epoch that it has, and HBM is as before. -/
structure PortDown (p epoch : Nat) (s₀ s : State) : Prop where
  hbm : s.hbm = s₀.hbm
  epoch : s.fld (BF.EPOCH p) = epoch
  inReset : (s.port p).inReset = true

namespace PortDown
variable {p epoch : Nat} {s₀ s : State}

/-- A change of anything but HBM, registers and ports. -/
theorem upd (h : PortDown p epoch s₀ s) {s' : State} (hhbm : s'.hbm = s.hbm) (hregs : s'.regs = s.regs) (hports : s'.ports = s.ports) :
    PortDown p epoch s₀ s' :=
  ⟨hhbm.trans h.hbm, (State.fld_congr hregs _).trans h.epoch, (congrArg (fun m => (Map.get ({} : Port) m p).inReset) hports).trans h.inReset⟩

theorem setColls (h : PortDown p epoch s₀ s) (a : Nat) (l : List Coll) : PortDown p epoch s₀ (s.setColls a l) := h.upd rfl rfl rfl
theorem addCause (h : PortDown p epoch s₀ s) (c : Cause) : PortDown p epoch s₀ (s.addCause c) := h.upd rfl rfl rfl
theorem loseChild (h : PortDown p epoch s₀ s) (q : Nat) : PortDown p epoch s₀ (s.loseChild q) := h.upd rfl rfl rfl

theorem setFld (h : PortDown p epoch s₀ s) {f : Fld} (v : Nat) (hf : (s.setFld f v).fld (BF.EPOCH p) = s.fld (BF.EPOCH p)) :
    PortDown p epoch s₀ (s.setFld f v) := by
  have hm := Marked.refl.setFld f v (s := s)
  exact ⟨hm.hbm.trans h.hbm, hf.trans h.epoch, (congrArg (fun m => (Map.get ({} : Port) m p).inReset) hm.ports).trans h.inReset⟩

theorem collStop (h : PortDown p epoch s₀ s) (a d : Nat) (c : BitVec 16) : PortDown p epoch s₀ (s.collStop a d c) := by
  have hdesc := (h.setColls a ((s.collsOf a).filter (fun x => decide (x.d ≠ d)))).setFld (f := CE.LAST_DESC a) d
    (State.fld_setFld_far _ _ (canonical_engine_apart a p))
  exact (hdesc.setFld (f := CE.LAST_STATUS a) c.toNat (State.fld_setFld_far _ _ (canonical_engine_apart a p))).addCause _

theorem failColls (h : PortDown p epoch s₀ s) (q : Nat) (c : BitVec 16) : PortDown p epoch s₀ (s.failColls q c) :=
  foldl_keeps h fun _ _ h' => h'.collStop ..

theorem logGlow (h : PortDown p epoch s₀ s) (kind : Nat) (c : BitVec 16) (unit detail : Nat) : PortDown p epoch s₀ (s.logGlow kind c unit detail) := by
  have hans : Answered s (s.logGlow kind c unit detail) := .logGlow .refl
  have hports : (s.logGlow kind c unit detail).ports = s.ports := by
    refine (Marked.refl.event ..).ports.trans ?_
    split <;> rfl
  exact ⟨hans.hbm.trans h.hbm, (hans.fld (canonical_port_ne p)).trans h.epoch,
    (congrArg (fun m => (Map.get ({} : Port) m p).inReset) hports).trans h.inReset⟩

end PortDown

def Port.held (q : Port) (now : BitVec 64) (full : Bool) : Port :=
  { q.silent with inReset := true, resetAt := now, fast := !full, credits := [], totals := [], owed := [], returned := [] }

/-- A port reset before its state and its collectives follow. -/
def State.holdPort (s : State) (p : Nat) (full : Bool) : State :=
  (s.setPort p ((s.port p).held s.count full)).setFld (BF.EPOCH p) (((s.setPort p ((s.port p).held s.count full)).fld (BF.EPOCH p) + 1) % 2 ^ 16)

theorem State.resetPort_eq (s : State) (p : Nat) (full : Bool) : s.resetPort p full =
    (fun z : State => ((if z.fld (BF.STATE p) = 0 ∨ z.fld (BF.STATE p) = 9 ∨ z.fld (BF.STATE p) = 11 then z
      else z.setFld (BF.STATE p) (if full then 1 else 3)).failColls p Status.DOMAIN_RESET).loseChild p)
    ((s.answerRecords p Status.DOMAIN_RESET).holdPort p full) := rfl

theorem State.holdPort_down (s : State) (p : Nat) (full : Bool) :
    PortDown p ((s.fld (BF.EPOCH p) + 1) % 2 ^ 16) s (s.holdPort p full) := by
  have hin : ((s.setPort p ((s.port p).held s.count full)).port p).inReset = true :=
    congrArg Port.inReset (Map.get_set_same ({} : Port) ((s.port p).held s.count full) s.ports p)
  have hfld : (s.setPort p ((s.port p).held s.count full)).fld (BF.EPOCH p) = s.fld (BF.EPOCH p) := State.fld_congr (by rfl) _
  have hhbm : (s.setPort p ((s.port p).held s.count full)).hbm = s.hbm := rfl
  unfold State.holdPort
  rw [hfld]
  generalize s.setPort p ((s.port p).held s.count full) = z at hin hhbm ⊢
  have hm := Marked.refl.setFld (BF.EPOCH p) ((s.fld (BF.EPOCH p) + 1) % 2 ^ 16) (s := z)
  exact ⟨hm.hbm.trans hhbm, z.fld_setFld_val (bfBase p) 16 16 (by decide) (Nat.mod_lt _ (by decide)),
    (congrArg (fun m => (Map.get ({} : Port) m p).inReset) hm.ports).trans hin⟩

theorem State.resetPort_down (s : State) (p : Nat) (full : Bool) : PortDown p ((s.fld (BF.EPOCH p) + 1) % 2 ^ 16) s (s.resetPort p full) := by
  obtain ⟨hhbm, hepoch⟩ := (PortKept.refl (p := p) (s := s)).answerRecords Status.DOMAIN_RESET
  rw [State.resetPort_eq, ← hepoch]
  generalize s.answerRecords p Status.DOMAIN_RESET = y at hhbm ⊢
  have hdown : PortDown p ((y.fld (BF.EPOCH p) + 1) % 2 ^ 16) s (y.holdPort p full) := by
    obtain ⟨h₁, h₂, h₃⟩ := y.holdPort_down p full
    exact ⟨h₁.trans hhbm, h₂, h₃⟩
  generalize y.holdPort p full = z at hdown ⊢
  exact ((ite_keeps hdown (hdown.setFld _ (z.fld_setFld_word (bfBase p) 0 4 16 16 _ (by decide) (by decide)))).failColls ..).loseChild p

/-- A port reset and recorded. -/
def State.resetPortLog (s : State) (p : Nat) : State :=
  let s := s.resetPort p false
  s.logGlow 0x0D 0 (portUnit p) (s.fld (BF.EPOCH p))

theorem State.losePll_port (s : State) (p : Nat) : s.losePll 4 p = (s.unlockPll 4 p).resetPortLog p := by
  unfold State.losePll
  extract_lets q y
  have hy : s.unlockPll 4 p = y := rfl
  rw [hy]
  clear_value y
  split
  · contradiction
  · contradiction
  · contradiction
  · contradiction
  · rfl

theorem pllLockLoss_port {p : Nat} (hp : s.pwr.state = .p0) (h8 : p < 8) : Gives (exec (.pllLockLoss 4 p) s) (fun z =>
    (z.port p).inReset = true ∧ z.fld (BF.EPOCH p) = (s.fld (BF.EPOCH p) + 1) % 2 ^ 16 ∧ z.hbm = s.hbm) := by
  have hfld : (s.unlockPll 4 p).fld (BF.EPOCH p) = s.fld (BF.EPOCH p) := s.fld_withPwr ..
  have hhbm : (s.unlockPll 4 p).hbm = s.hbm := s.withPwr_hbm _
  rw [pllLockLoss_eq hp (pll := 4) (unit := p) (decide_eq_true h8), State.losePll_port, ← hfld, ← hhbm]
  obtain ⟨h₁, h₂, h₃⟩ := ((s.unlockPll 4 p).resetPort_down p false).logGlow 0x0D 0 (portUnit p) (((s.unlockPll 4 p).resetPort p false).fld (BF.EPOCH p))
  exact ⟨_, rfl, h₃, h₂, h₁⟩

end Sys2Proof.Machine
end

section
/-! LEMMAS. A reset of Lighthouse leaves HBM (O57; R36, R425, R528). -/
namespace Sys2Proof.Machine
variable {s : State}

/-- HBM is as before. -/
def SameHbm (s₀ s : State) : Prop := s.hbm = s₀.hbm

namespace SameHbm
variable {s₀ s : State}

theorem refl : SameHbm s s := rfl
theorem setFld (h : SameHbm s₀ s) (f : Fld) (v : Nat) : SameHbm s₀ (s.setFld f v) := (s.setFld_hbm f v).trans h
theorem onTile (h : SameHbm s₀ s) (t : Nat) (f : Tile → Tile) : SameHbm s₀ (s.onTile t f) := h
theorem setTree (h : SameHbm s₀ s) (m : Nat) (r : Option TreeRun) : SameHbm s₀ (s.setTree m r) := h
theorem loseMember (h : SameHbm s₀ s) (m : Nat) : SameHbm s₀ (s.loseMember m) := h
theorem withLh (h : SameHbm s₀ s) (l : Lighthouse) : SameHbm s₀ { s with lh := l } := h
theorem updHif (h : SameHbm s₀ s) (x : HostIf) : SameHbm s₀ { s with hif := x } := h
theorem told (h : SameHbm s₀ s) {s' : State} (h' : Told s s') : SameHbm s₀ s' := h'.hbm.trans h
theorem marked (h : SameHbm s₀ s) {s' : State} (h' : Marked s s') : SameHbm s₀ s' := h'.hbm.trans h

theorem freeIt (h : SameHbm s₀ s) (n k : Nat) : SameHbm s₀ (s.freeIt n k) := h.setFld ..

theorem retireSlots (h : SameHbm s₀ s) : SameHbm s₀ s.retireSlots :=
  foldl_keeps h fun _ _ h => foldl_keeps h fun _ _ h => ite_keeps (h.freeIt ..) h

theorem unpin (h : SameHbm s₀ s) (pins : List (Nat × Nat)) : SameHbm s₀ (s.unpin pins) :=
  (foldl_keeps h fun _ _ h => h.setFld ..).retireSlots

theorem freeShadow (h : SameHbm s₀ s) (n : Nat) : SameHbm s₀ (match s.slotHolding n (s.fld HBM.SHADOW) with
    | some k => s.freeIt n k
    | none => s) := by
  split
  · exact h.freeIt ..
  · exact h

theorem dropShadow (h : SameHbm s₀ s) (pins : List (Nat × Nat)) : SameHbm s₀ (s.dropShadow pins) :=
  unpin (ite_keeps ((foldl_keeps h fun _ _ h => h.freeShadow _).setFld ..) h) pins

theorem clearBlockTag (h : SameHbm s₀ s) (j : Job) : SameHbm s₀ (s.clearBlockTag j) := foldl_keeps h fun _ _ h => h.onTile ..

theorem abandonStep (h : SameHbm s₀ s) : SameHbm s₀ s.abandonStep := by
  unfold State.abandonStep
  split
  · exact (ite_keeps (h.unpin _) (h.dropShadow _)).clearBlockTag _
  · exact h

theorem outOfStep (h : SameHbm s₀ s) : SameHbm s₀ s.outOfStep := ((h.abandonStep.marked (Marked.refl.event ..)).loseMember _).withLh _

theorem dropRelayed (h : SameHbm s₀ s) : SameHbm s₀ s.dropRelayed := foldl_keeps (h.updHif _) fun _ _ h => h.told (.refuseDesc .refl ..)

theorem clearTrees (h : SameHbm s₀ s) : SameHbm s₀ s.clearTrees := foldl_keeps h fun _ _ h => (h.setTree ..).setFld ..

end SameHbm

/-! ### The stages of a reset -/

/-- The pins of a checkpoint that is lost. -/
def State.dropCkpt (s : State) : State := match s.lh.ckpt with
  | some c => s.unpin c.pins
  | none => s

/-- The regions of a reshard that is lost. -/
def State.dropReshard (s : State) : State := match s.lh.reshard with
  | some r => r.regions.foldl (fun (s : State) n => s.setFld (HBM.SLOTS n) 0) s
  | none => s

theorem SameHbm.dropCkpt {s₀ s : State} (h : SameHbm s₀ s) : SameHbm s₀ s.dropCkpt := by
  unfold State.dropCkpt
  split
  · exact h.unpin _
  · exact h

theorem SameHbm.dropReshard {s₀ s : State} (h : SameHbm s₀ s) : SameHbm s₀ s.dropReshard := by
  unfold State.dropReshard
  split
  · exact foldl_keeps h fun _ _ h => h.setFld ..
  · exact h

/-- The second half: the epoch, and the records emptied. -/
def State.lighthouseClears (s : State) (keep : Option (Nat × BitVec 512)) : State :=
  let epoch := (s.fld HIF.LH_EPOCH + 1) % 2 ^ 16
  let s : State := { s.setFld HIF.LH_EPOCH epoch with
    causes := [], jobFault := none
    bcn := { s.bcn with schedule := [], pendingTick := none }
    rel := { s.rel with digests := [], ownDigest := false, verdict := none }
    nl := { s.nl with storesWait := [], images := s.nl.images.filter (fun i => decide (keep = some (i.ring, i.desc))) }
    pwr := { s.pwr with entering := none, wakeAsked := [] }
    lh := { s.lh.afterReset with resetAt := s.count } }
  s.logGlow 0x0D 0 moduleUnit epoch

theorem State.lighthouseClears_clears (s : State) (keep : Option (Nat × BitVec 512)) :
    (s.lighthouseClears keep).lh.inReset = true ∧ (s.lighthouseClears keep).hbm = s.hbm := by
  unfold State.lighthouseClears
  extract_lets epoch s₇ bcn lh rel nl pwr s₈
  have h₇ : SameHbm s s₇ := SameHbm.refl.setFld ..
  clear_value s₇
  have hreset : s₈.lh.inReset = true := rfl
  have h₈ : SameHbm s s₈ := h₇
  clear_value s₈
  have hans : Answered s₈ (s₈.logGlow 0x0D 0 moduleUnit epoch) := .logGlow .refl
  exact ⟨(congrArg Lighthouse.inReset (congrArg State.lh hans.rest :)).trans hreset, hans.hbm.trans h₈⟩
/-- What a reset of Lighthouse drops before it empties the records is no byte of HBM. -/
theorem State.lighthouseReset_clears (s : State) (keep : Option (Nat × BitVec 512)) :
    ∃ y, SameHbm s y ∧ s.lighthouseReset keep = y.lighthouseClears keep := by
  unfold State.lighthouseReset
  extract_lets s₁ s₂ s₃ s₄ lost s₅ s₆ epoch s₇ bcn lh rel nl pwr s₈
  have h₁ : SameHbm s s₁ := ite_keeps (P := SameHbm s) SameHbm.refl.outOfStep .refl
  clear_value s₁
  have h₂ : SameHbm s s₂ := h₁.dropCkpt
  clear_value s₂
  have h₃ : SameHbm s s₃ := h₂.unpin _
  clear_value s₃
  have h₄ : SameHbm s s₄ := h₃.dropReshard
  clear_value s₄
  have h₅ : SameHbm s s₅ := foldl_keeps (P := SameHbm s) h₄ fun _ _ h => h.told (.finish .refl ..)
  clear_value s₅
  have h₆ : SameHbm s s₆ := h₅.dropRelayed.clearTrees
  clear_value s₆
  exact ⟨s₆, h₆, rfl⟩

theorem State.lighthouseReset_resets (s : State) (keep : Option (Nat × BitVec 512)) :
    (s.lighthouseReset keep).lh.inReset = true ∧ (s.lighthouseReset keep).hbm = s.hbm := by
  obtain ⟨y, hy, heq⟩ := s.lighthouseReset_clears keep
  obtain ⟨hreset, hhbm⟩ := y.lighthouseClears_clears keep
  rw [heq]
  exact ⟨hreset, hhbm.trans hy⟩

/-- The fall of Lighthouse's PLL. -/
theorem State.losePll_lighthouse (s : State) {pll : Nat} (hpll : pll = 2) : s.losePll pll 0 = (s.unlockPll pll 0).lighthouseReset none := by
  unfold State.losePll
  extract_lets q y st p held port
  have hy : s.unlockPll pll 0 = y := rfl
  rw [hy]
  clear_value y
  generalize (if st = 1 ∨ st = 2 then _ else y) = b
  split <;> rename_i h₁
  · contradiction
  · contradiction
  · rfl
  · contradiction
  · contradiction

theorem pllLockLoss_lighthouse (hp : s.pwr.state = .p0) : Gives (exec (.pllLockLoss 2 0) s) (fun z => z.lh.inReset = true ∧ z.hbm = s.hbm) := by
  obtain ⟨hreset, hhbm⟩ := (s.unlockPll 2 0).lighthouseReset_resets none
  rw [pllLockLoss_eq hp (by decide), s.losePll_lighthouse rfl]
  exact ⟨_, rfl, hreset, hhbm.trans (s.withPwr_hbm _)⟩

end Sys2Proof.Machine
end

section
/-! LEMMAS. Entry into S3 (O57; R363, R497, R521). -/
namespace Sys2Proof.Machine
variable {s : State}

/-- The registers and the Beacon are as before. -/
structure SameRegs (s₀ s : State) : Prop where
  regs : s.regs = s₀.regs
  bcn : s.bcn = s₀.bcn

namespace SameRegs
variable {s₀ s : State}

theorem refl : SameRegs s s := ⟨rfl, rfl⟩
theorem setPort (h : SameRegs s₀ s) (p : Nat) (q : Port) : SameRegs s₀ (s.setPort p q) := ⟨h.regs, h.bcn⟩
theorem withLh (h : SameRegs s₀ s) (l : Lighthouse) : SameRegs s₀ { s with lh := l } := ⟨h.regs, h.bcn⟩
theorem control (h : SameRegs s₀ s) (p : Nat) (k : Control) (bs : List Byte) : SameRegs s₀ (s.control p k bs) := ite_keeps (h.setPort _ _) h

theorem controlTo (h : SameRegs s₀ s) (m : Nat) (k : Control) (bs : List Byte) : SameRegs s₀ (s.controlTo m k bs) := by
  obtain e | ⟨p, q, e⟩ := s.controlTo_cases m k bs
  · rw [e]; exact h
  · rw [e]; exact h.setPort p q

theorem tellAsleep (h : SameRegs s₀ s) : SameRegs s₀ s.tellAsleep := ite_keeps (h.withLh _) (h.controlTo ..)

theorem fld (h : SameRegs s₀ s) (f : Fld) : s.fld f = s₀.fld f := State.fld_congr h.regs f

theorem count (h : SameRegs s₀ s) : s.count = s₀.count := by rw [State.count, State.count, State.rd, State.rd, h.regs]

end SameRegs

/-- The fields of registers that are no ring's and not HIF_FAULT are as before. -/
def OffRings (s₀ s : State) : Prop := ∀ f : Fld, canonical f.off % 64 = 0 → s.fld f = s₀.fld f

namespace OffRings
variable {s₀ s s' : State}

theorem refl : OffRings s s := fun _ _ => rfl
theorem told (h : OffRings s₀ s) (h' : Told s s') : OffRings s₀ s' :=
  fun f hf => (h'.fld f fun e => by rw [e] at hf; exact absurd hf (by decide)).trans (h f hf)
theorem regs (h : OffRings s₀ s) (h' : s'.regs = s.regs) : OffRings s₀ s' := fun f hf => (State.fld_congr h' f).trans (h f hf)

theorem setRingFld (h : OffRings s₀ s) {g : Fld} {n : Nat} (hg : g.off = HIF.ring n + 0x18) (v : Nat) : OffRings s₀ (s.setFld g v) := fun f hf => by
  refine (State.fld_setFld_far _ _ fun e => ?_).trans (h f hf)
  have hm := canonical_mod g.off
  rw [hg, HIF.ring] at hm
  rw [hg, HIF.ring] at e
  omega

theorem writeEntry (h : OffRings s₀ s) (e : Entry) : OffRings s₀ (s.writeEntry e) := by
  unfold State.writeEntry
  extract_lets n tail s₁ next s₂ s₃
  have h₁ : OffRings s₀ s₁ := h.regs rfl
  clear_value s₁
  have h₂ : OffRings s₀ s₂ := h₁.setRingFld (n := n) rfl _
  clear_value s₂
  have h₃ : OffRings s₀ s₃ := ite_keeps (P := OffRings s₀) (h₂.setRingFld (n := n) rfl _) h₂
  clear_value s₃
  exact h₃.regs rfl

theorem drainEntries (h : OffRings s₀ s) (n : Nat) : OffRings s₀ (State.drainEntries n s) := by
  induction n generalizing s with
  | zero => exact h
  | succ n ih =>
    unfold State.drainEntries
    split
    next e rest _ =>
      have h' : OffRings s₀ { s with hif := { s.hif with backlog := rest } } := h.regs rfl
      exact ih (h'.writeEntry e)
    next => exact h

end OffRings

/-- The leave notices of an entry into S3. -/
def State.tellLeaving (s : State) : State := (List.range 8).foldl (fun (s : State) p => s.control p .leave []) s.tellAsleep

theorem State.tellLeaving_same (s : State) : SameRegs s s.tellLeaving := foldl_keeps SameRegs.refl.tellAsleep fun _ _ h => h.control ..

theorem State.enterS3_eq (s : State) :
    s.enterS3 = (State.drainEntries (s.tellLeaving.commitJournal true).entered.hif.backlog.length (s.tellLeaving.commitJournal true).entered).stopRails := by
  unfold State.enterS3
  extract_lets y w
  have hy : s.tellLeaving = y := rfl
  rw [hy]

theorem powerEntry_s3 (h : Enters s) (hn : s.fld PWR.NEXT = 3) (hj : ∀ j ∈ s.lh.jobs, s.self.toNat ∉ j.box) :
    Gives (exec .powerEntry s) (fun z => z.pwr.state = .s3 ∧ z.fld PWR.LOWPOWER = 1 ∧ z.hbm = [] ∧ z.tiles = [] ∧ z.fld NVM.CAL = s.fld NVM.CAL
      ∧ (s.bcn.holds = true → z.fld NVM.FLOOR = s.count.toNat)) := by
  have he := powerEntry_enters h (by omega) fun _ => hj
  rw [if_pos hn, State.enterS3_eq] at he
  have hsame := s.tellLeaving_same
  have hcal : (s.tellLeaving.commitJournal true).fld NVM.CAL = s.fld NVM.CAL := (State.fld_commitJournal _ _ (by decide)).trans (hsame.fld _)
  have hfloor : s.bcn.holds = true → (s.tellLeaving.commitJournal true).fld NVM.FLOOR = s.count.toNat := fun hb => by
    rw [State.commitJournal_floor _ (by rw [hsame.bcn, hb]), hsame.count]
  generalize s.tellLeaving.commitJournal true = y at he hcal hfloor
  have hoff : OffRings y y.entered := OffRings.told (OffRings.regs .refl (y.withPwr_regs _)) y.entered_told
  have hdrain := hoff.drainEntries y.entered.hif.backlog.length
  generalize State.drainEntries y.entered.hif.backlog.length y.entered = w at he hdrain
  have hrails := w.stopRails_rails
  refine ⟨_, he, hrails.state, hrails.lowPower, hrails.hbm, hrails.tiles, ?_, fun hb => ?_⟩
  · rw [hrails.cal, hdrain _ (by decide), hcal]
  · rw [State.fld_stopRails_island _ (by decide) (by decide), hdrain _ (by decide), hfloor hb]

end Sys2Proof.Machine
end

section
/-! LEMMAS. A wake from S2 (O57; R34, R448, R525, R526). -/
namespace Sys2Proof.Machine
variable {s : State}

/-- The tile of a context, the core with power where its unit is in service, the router ready. -/
def Tile.woken (x : Tile) (ctx : Option Context) (t state : Nat) : Tile :=
  let y := match ctx with
    | some c => x.swapIn (Map.get {} c.tiles t)
    | none => x
  let y := if state < 2 then (y.setFld TILE.CORE_PWR 1).setFld TILE.CORE_READY 1 else y
  { y with rtrReady := true }

/-- Its core has power and is ready, its router too. -/
def Tile.Up (x : Tile) : Prop := x.fld TILE.CORE_PWR = 1 ∧ x.fld TILE.CORE_READY = 1 ∧ x.rtrReady = true

theorem Tile.powered_fld (y : Tile) : ((y.setFld TILE.CORE_PWR 1).setFld TILE.CORE_READY 1).fld TILE.CORE_PWR = 1
    ∧ ((y.setFld TILE.CORE_PWR 1).setFld TILE.CORE_READY 1).fld TILE.CORE_READY = 1 := by
  refine ⟨?_, Tile.fld_setFld_same _ _ _ (by decide)⟩
  rw [Tile.fld_setFld_other _ _ (by decide) (.inr (by decide)), Tile.fld_setFld_same _ _ _ (by decide)]
  rfl

theorem Tile.woken_up (x : Tile) (ctx : Option Context) (t : Nat) {state : Nat} (h : state < 2) : (x.woken ctx t state).Up := by
  unfold Tile.woken
  extract_lets y y'
  have hy : y' = (y.setFld TILE.CORE_PWR 1).setFld TILE.CORE_READY 1 := if_pos h
  obtain ⟨hpwr, hready⟩ := y.powered_fld
  rw [← hy] at hpwr hready
  clear_value y'
  exact ⟨hpwr, hready, rfl⟩

theorem Tile.swapIn_saved (x z : Tile) : (x.swapIn z).spad = z.spad ∧ (x.swapIn z).pc = z.pc := by
  unfold Tile.swapIn
  exact ⟨rfl, rfl⟩

theorem Tile.woken_saved (x : Tile) (c : Context) (t state : Nat) :
    (x.woken (some c) t state).spad = (Map.get {} c.tiles t).spad ∧ (x.woken (some c) t state).pc = (Map.get {} c.tiles t).pc := by
  unfold Tile.woken
  extract_lets y y'
  have hy : y'.spad = y.spad ∧ y'.pc = y.pc := by
    refine ite_keeps (P := fun z : Tile => z.spad = y.spad ∧ z.pc = y.pc) ?_ ⟨rfl, rfl⟩
    exact ⟨by rw [Tile.setFld_spad, Tile.setFld_spad], by rw [Tile.setFld_pc, Tile.setFld_pc]⟩
  obtain ⟨hspad, hpc⟩ := hy
  clear_value y'
  obtain ⟨hspad', hpc'⟩ := x.swapIn_saved (Map.get {} c.tiles t)
  have hy : y = x.swapIn (Map.get {} c.tiles t) := rfl
  rw [hy] at hspad hpc
  rw [← hspad', ← hpc']
  exact ⟨hspad, hpc⟩

/-- One tile of a wake. -/
def State.wakeTile (ctx : Option Context) (s : State) (t : Nat) : State :=
  s.onTile t (fun x => x.woken ctx t (s.unit (coreUnit (s.physOf t))).state)

/-- From `s₀` to `s` only tiles have changed. -/
def OnlyTiles (s₀ s : State) : Prop := { s with tiles := s₀.tiles } = s₀

theorem OnlyTiles.wakeTile {s₀ s : State} (h : OnlyTiles s₀ s) (ctx : Option Context) (t : Nat) : OnlyTiles s₀ (s.wakeTile ctx t) := h

theorem OnlyTiles.unit_physOf {s₀ s : State} (h : OnlyTiles s₀ s) (t : Nat) : s.unit (coreUnit (s.physOf t)) = s₀.unit (coreUnit (s₀.physOf t)) :=
  (congrArg (fun z : State => z.unit (coreUnit (z.physOf t))) h :)

/-- The state once every tile is awake. -/
def State.wakeTiles (s : State) (ctx : Option Context) : State := s.tileList.foldl (State.wakeTile ctx) s

theorem State.wakeTiles_only (s : State) (ctx : Option Context) : OnlyTiles s (s.wakeTiles ctx) :=
  foldl_keeps (P := OnlyTiles s) rfl fun _ _ h => h.wakeTile ..

theorem State.tile_wakeTiles (s : State) (ctx : Option Context) {t : Nat} (ht : t < s.tileCount) :
    ((s.wakeTiles ctx).tile t) = (s.tile t).woken ctx t (s.unit (coreUnit (s.physOf t))).state := by
  refine (foldl_visits (ok := fun _ => True) (Before := fun t z => OnlyTiles s z ∧ z.tile t = s.tile t)
    (After := fun t z => z.tile t = (s.tile t).woken ctx t (s.unit (coreUnit (s.physOf t))).state)
    (fun z u _ hz => ?_) (fun z u v _ _ hv hz => ?_) (fun z u v _ _ hv hz => ?_) s.tileList (fun _ _ => trivial) List.nodup_range s
    (fun _ _ => ⟨rfl, rfl⟩) t (List.mem_range.2 ht))
  · obtain ⟨honly, htile⟩ := hz
    rw [State.wakeTile, State.tile_onTile_same, honly.unit_physOf, htile]
  · obtain ⟨honly, htile⟩ := hz
    exact ⟨honly.wakeTile ctx u, (State.tile_onTile_other _ _ hv).trans htile⟩
  · exact (State.tile_onTile_other _ _ hv).trans hz

/-- The routers of the spares are ready. -/
def State.wakeSpares (s : State) : State := s.spareUnits.foldl State.spareRouterReady s

theorem State.wakeSpares_told (s : State) : Told s s.wakeSpares :=
  foldl_keeps (P := Told s) .refl fun _ _ h => h.trans ⟨rfl, rfl, rfl, fun _ _ => State.fld_congr (by rfl) _⟩

def Power.woken (p : Power) : Power := { p with state := .p0, wake := false, wakeAsked := [] }

/-- The other modules and the host learn that the module is awake. -/
def State.tellAwake (s : State) (asked : List (Nat × BitVec 512)) : State :=
  let s := if s.authority then { s with lh := { s.lh with asleep := s.lh.asleep.erase s.self.toNat } }
    else s.controlTo (s.fld BCN.MASTER) .placement (bytesOf (6 + s.self.toNat * 2 ^ 8) 9)
  if asked.isEmpty then s.event 7 0 0 0 0 else asked.foldl (fun (s : State) a => s.fin a.1 a.2 0) s

theorem Told.setPort {s₀ s : State} (h : Told s₀ s) (p : Nat) (q : Port) : Told s₀ (s.setPort p q) :=
  h.trans ⟨rfl, rfl, rfl, fun _ _ => State.fld_congr (by rfl) _⟩

theorem Told.withLh {s₀ s : State} (h : Told s₀ s) (l : Lighthouse) : Told s₀ { s with lh := l } :=
  h.trans ⟨rfl, rfl, rfl, fun _ _ => State.fld_congr (by rfl) _⟩

theorem Told.controlTo {s₀ s : State} (h : Told s₀ s) (m : Nat) (k : Control) (bs : List Byte) : Told s₀ (s.controlTo m k bs) := by
  obtain e | ⟨p, q, e⟩ := s.controlTo_cases m k bs
  · rw [e]; exact h
  · rw [e]; exact h.setPort p q

theorem Told.event {s₀ s : State} (h : Told s₀ s) (kind code port : Nat) (c : BitVec 16) (detail : Nat) :
    Told s₀ (s.event kind code port c detail) :=
  have he : Marked s (s.event kind code port c detail) := Marked.refl.event ..
  h.trans ⟨he.tiles, he.hbm, he.pwr, fun _ hf => s.fld_event _ _ _ _ _ hf⟩

theorem State.tellAwake_told (s : State) (asked : List (Nat × BitVec 512)) : Told s (s.tellAwake asked) := by
  unfold State.tellAwake
  extract_lets l w
  have hw : Told s w := ite_keeps (P := Told s) (Told.refl.withLh _) (Told.refl.controlTo ..)
  clear_value w
  exact ite_keeps (hw.event ..) (foldl_keeps hw fun _ _ h => h.finish ..)

/-- The context that a job's wake brings back. -/
def State.wakeContext (s : State) : Option Context := s.job.bind (fun j => s.lh.contexts.find? (fun c => decide (c.job = j.id)))

theorem State.wakeContext_some {j : Job} {c : Context} (hj : s.job = some j) (hc : s.lh.contexts = [c]) (hid : c.job = j.id) :
    s.wakeContext = some c := by
  rw [State.wakeContext, hj, hc, Option.bind_some, List.find?_cons_of_pos (by simp [hid])]

theorem State.wakeS2_eq (s : State) : s.wakeS2 =
    (fun w : State => ((w.setFld PWR.NEXT 0).withPwr w.pwr.woken).tellAwake w.pwr.wakeAsked) (s.wakeTiles s.wakeContext).wakeSpares := by
  unfold State.wakeS2
  extract_lets ctx y w asked p z z'
  have hw : (s.wakeTiles s.wakeContext).wakeSpares = w := rfl
  rw [hw]
  clear_value w
  rfl

theorem wakeComplete_s2 (hwake : s.pwr.wake = true) (hs : s.pwr.state = .s2) :
    Gives (exec .wakeComplete s) (fun z => z.pwr.state = .p0 ∧ z.pwr.wake = false ∧ z.fld PWR.NEXT = 0 ∧ z.hbm = s.hbm
      ∧ (∀ t, t < s.tileCount → (s.unit (s.physOf t)).state < 2 → (z.tile t).Up)
      ∧ ∀ j c t, s.job = some j → s.lh.contexts = [c] → c.job = j.id → t < s.tileCount → (z.tile t).spad = (Map.get {} c.tiles t).spad
          ∧ (z.tile t).pc = (Map.get {} c.tiles t).pc) := by
  have he : exec .wakeComplete s = .next s.wakeS2 := by
    show execWakeComplete s = _
    unfold execWakeComplete
    rw [if_neg (by simp [hwake]), if_pos hs]
  rw [State.wakeS2_eq] at he
  have hspare := (s.wakeTiles s.wakeContext).wakeSpares_told
  have htile : ∀ t, t < s.tileCount → (s.wakeTiles s.wakeContext).wakeSpares.tile t
      = (s.tile t).woken s.wakeContext t (s.unit (coreUnit (s.physOf t))).state := fun t ht => by
    rw [State.tile, hspare.tiles]
    exact s.tile_wakeTiles _ ht
  have hhbm : (s.wakeTiles s.wakeContext).wakeSpares.hbm = s.hbm := hspare.hbm.trans (congrArg State.hbm (s.wakeTiles_only _) :)
  generalize (s.wakeTiles s.wakeContext).wakeSpares = w at he htile hhbm
  have htold := ((w.setFld PWR.NEXT 0).withPwr w.pwr.woken).tellAwake_told w.pwr.wakeAsked
  have htile' : ∀ t, t < s.tileCount → (((w.setFld PWR.NEXT 0).withPwr w.pwr.woken).tellAwake w.pwr.wakeAsked).tile t
      = (s.tile t).woken s.wakeContext t (s.unit (coreUnit (s.physOf t))).state := fun t ht => by
    rw [State.tile, htold.tiles, State.withPwr_tiles, State.setFld_tiles]
    exact htile t ht
  refine ⟨_, he, ?_, ?_, ?_, ?_, fun t ht hserved => ?_, fun j c t hj hc hid ht => ?_⟩
  · rw [htold.pwr, State.withPwr_pwr]; rfl
  · rw [htold.pwr, State.withPwr_pwr]; rfl
  · rw [htold.fld _ (by decide), State.fld_withPwr]
    exact w.fld_setFld_val _ 0 2 (by decide) (by decide)
  · rw [htold.hbm, State.withPwr_hbm, State.setFld_hbm, hhbm]
  · rw [htile' t ht]
    exact Tile.woken_up _ _ _ hserved
  · rw [htile' t ht, State.wakeContext_some hj hc hid]
    exact Tile.woken_saved ..

end Sys2Proof.Machine
end

section
/-! LEMMAS. The power commands (O57). -/
namespace Sys2Proof.Machine
variable {s : State}

theorem Rails.spelled {s₀ s : State} (h : Rails s₀ s) : s.pwr.state = .s3 ∧ s.fld PWR.LOWPOWER = 1 ∧ s.fld HIF.READY = 0 ∧ s.fld HIF.BOOT_WAIT = 0
    ∧ s.hbm = [] ∧ s.tiles = [] ∧ s.lh.cur = none ∧ s.lh.jobs = [] ∧ s.hif.mem = s₀.hif.mem ∧ s.fld NVM.CAL = s₀.fld NVM.CAL
    ∧ s.nl.sec = s₀.nl.sec :=
  ⟨h.state, h.lowPower, h.ready, h.bootWait, h.hbm, h.tiles, h.cur, h.jobs, h.mem, h.cal, h.sec⟩

theorem refClkStable_notes (s : State) : exec .refClkStable s = .next { s with pwr := { s.pwr with refStable := true } } := rfl

theorem wakeN_wakes (h : s.asleep) (he : (s.fld PWR.WAKE_EN).testBit 1 = true) :
    exec .wakeN s = .next { s with pwr := { s.pwr with wake := true } } := congrArg _ (State.wakeIf_enabled h he)

/-- Settles O57, a clause to each condition under which the power commands act, and to each under which they do nothing. -/
theorem powerCommands : Obligations.PowerCommands := by
  unfold Obligations.PowerCommands
  intro slot board vbatOk vin power mean mean100 tj stack pll unit ring d s p keeps nvm rails awake supplied noPower noneDue enters served up wakes asleep
  have henters : enters → Enters s := fun ⟨hdue, hstate, hlh, hcur, hbcn, hops⟩ => ⟨hdue, hstate, hlh, hcur, hbcn, hops⟩
  refine ⟨powerUp_wakes, powerUp_stays, ⟨_, refClkStable_notes s, rfl⟩, fun aw hlo hhi => vinSample_inRange aw hlo hhi, fun aw h => vinSample_out aw h,
    fun aw h hr => inputRangeFault_faults aw h hr, fun aw h => ?collapse, inputCollapse_inRange, brownout_resets, fun aw => capControl_steps aw, ?heat⟩
  case collapse =>
    obtain ⟨z, he, hz, h⟩ := inputCollapse_stops aw h
    exact ⟨z, he, hz.spelled, h⟩
  refine ⟨fun aw hlife => ?sample, fun h => ⟨_, tjSample_island h, rfl⟩,
    fun hk aw => ⟨fun h => hbmLevel3Timeout_hot hk aw h, fun h => hbmLevel3Timeout_cool hk h⟩, fun h hn => ?s2, fun h hn hj => powerEntry_s3 (henters h) hn hj,
    powerEntry_stays, fun h => ⟨fun he => ⟨_, wakeN_wakes h he, rfl⟩, wakeN_disabled, fun he hp hn hc => ⟨_, wakeAtCount_wakes h he hp hn hc, rfl⟩,
      fun he hz hu => ⟨_, wakeAtUtc_wakes h he hz hu, rfl⟩⟩, wakeAtUtc_other, ?awake⟩
  case sample =>
    refine ⟨fun h => ?_, tjSample_stops aw, tjSample_waits aw, tjSample_resumes aw, tjSample_throttles aw, tjSample_falls aw, tjSample_rises aw⟩
    obtain ⟨z, he, hz, h⟩ := tjSample_shuts aw hlife h
    exact ⟨z, he, hz.spelled, h⟩
  case s2 =>
    obtain ⟨z, he, hstate, hent, hhbm, hdown, hpost⟩ := powerEntry_s2 (henters h) hn
    exact ⟨z, he, hstate, hent, hhbm, hdown, hpost ring d⟩
  refine ⟨fun hw => ⟨fun hp _ => ?wake, wakeComplete_boots hw, wakeComplete_waits⟩, wakeComplete_asleep, fun hp => ⟨pllLockLoss_arithmetic hp,
    pllLockLoss_timing hp, pllLockLoss_lighthouse hp, pllLockLoss_stack hp, pllLockLoss_port hp⟩, fun aw hm => ?relock, ?pins⟩
  case wake =>
    obtain ⟨z, he, hstate, hwake, hnext, hhbm, hup, hsaved⟩ := wakeComplete_s2 hw hp
    exact ⟨z, he, hstate, hwake, hnext, hhbm, fun t ht => hup t ht.1 ht.2, hsaved⟩
  case relock =>
    refine ⟨fun st src h1 h0 hl hst hsrc hb => ?_, fun h0 h0' => ?_, fun h2 hpll => ⟨_, pllRelock_other aw hm h2 hpll, rfl⟩⟩
    · subst h1 h0
      exact pllRelock_timing aw hm hl hst hsrc hb
    · subst h0 h0'
      exact pllRelock_arithmetic aw hm
  refine ⟨fun aw => ?stops, fun h => ⟨_, pwrRstN_asleep h, rfl⟩, pwrRstRelease_wakes, pwrRstRelease_stays, inputRemoval_keeps, hifPerstNRelease_waits,
    fun h aw => ⟨_, hifPerstNRelease_asleep h aw, rfl⟩, hifPerstNRelease_stays⟩
  case stops =>
    obtain ⟨z, he, hz, h⟩ := pwrRstN_stops aw
    exact ⟨z, he, hz.spelled, h⟩

end Sys2Proof.Machine
end
